-- ==== Sys2Proof/Word.lean ====
section
/-! DEFINITION. The word types of the K4820: what the manual counts in bits. -/

namespace Sys2Proof

/-- One byte of a packet, a frame, a mailbox or a record. -/
abbrev Byte := BitVec 8

/-- A 16-bit field (pointers, masks, codes). -/
abbrev Half := BitVec 16

/-- A 32-bit field (sequence numbers, CRC-32). -/
abbrev Word := BitVec 32

/-- A 64-bit field (time values, totalizers, the serial). -/
abbrev DWord := BitVec 64

end Sys2Proof
end

