-- ==== Sys2Proof/Syntax.lean ====
section
/-! DEFINITION. The commands of the block: one constructor per row of spec/opcode_table.json, with what the step takes from
outside (an address, a value, a measured quantity, a line level at its instant of judgement). -/

namespace Sys2Proof

/-- The two host-bus addresses (R386): the operating host at A, the verifying host at V. -/
inductive Origin where
  | A
  | V
  deriving DecidableEq, Repr

/-- A filtered change of CALENn (R27, R457). The table has one row for the contact, SEAL_BREAK; the row carries the sample. -/
inductive CalenSample where
  /-- the filtered level falls -/
  | falls
  /-- the first filtered sample after a main-domain reset reads low -/
  | lowAtFirstSample
  /-- the filtered level rises -/
  | rises
  deriving DecidableEq, Repr

/-- Why the pack ceased to be usable on battery (R344); an open BTS is the row BTS_OPEN. -/
inductive PackLoss where
  | exhausted
  | disconnected
  | temperature
  deriving DecidableEq, Repr

/-- The side of a window that a comparator found breached (R182, R183). -/
inductive Side where
  | under
  | over
  deriving DecidableEq, Repr

/-- A comparator and the voltage at it in mV: a VP, VM or VH output, an EP port with VIN and whether the port regulates its
current (R55, R183), the VIB window with VIN (R62). -/
inductive WindowSource where
  | output (k : Fin 12) (mv : Nat)
  | port (p : Fin 6) (mv vin : Nat) (limiting : Bool)
  | vib (mv vin : Nat)
  deriving DecidableEq, Repr

/-- A monitor of R106 that takes a running phase out of service. -/
inductive PhaseMonitor where
  | imbalance
  | offset
  | gate
  deriving DecidableEq, Repr

/-- The outputs below 10 % of their target at a sequencer tick: as they stand, and those that have been so without a break for
T_STABLE of the step in progress (R192). -/
structure LowSample where
  below : BitVec 24
  stable : BitVec 24
  deriving DecidableEq, Repr

/-- What ends STANDBY (R516). -/
inductive WakeSource where
  | address
  | en
  | alarm
  | rstn
  deriving DecidableEq, Repr

/-- What a governor evaluation measures (R70, R71, R75): power averaged over the last 1 ms, in mW, and VIN in mV. -/
structure GovSample where
  pIn : Nat
  epPower : Nat
  vhPower : Nat
  /-- input power attributed to the output that this evaluation sheds, if it sheds one (R75) -/
  shedPower : Nat
  vin : Nat
  /-- the six port currents in mA (R74) -/
  portMa : List Nat
  deriving DecidableEq, Repr

/-- One converted channel of a scan (R165, R167): its raw code. -/
structure ChannelResult where
  chan : Fin 64
  code : BitVec 14
  deriving DecidableEq, Repr

/-- The levels of MDVn and MDIn in one MCLK period (R240): bit 0 MDV and bit 2 MDI at the rising edge, bit 1 MDV and bit 3 MDI
at the falling edge. -/
abbrev ModBits := BitVec 4

/-- What a retained SRAM word held (R472, DETAIL byte 25). -/
inductive SramWord where
  | other
  | totalizer (chan : Fin 8) (dir : Bool)
  | slot (n : Fin 128) (holdsMask : Bool)
  | gauge
  | capture
  | jobTable
  deriving DecidableEq, Repr

/-- An ECC finding of the scrub (R326, R469). -/
structure EccFinding where
  retained : Bool
  offset : Nat
  uncorrectable : Bool
  word : SramWord
  deriving DecidableEq, Repr

/-- Found at boot: the phases and slices that failed their test (R105, R163), the six sensors, in 0.01 °C (R490), and the SEQ of
parameter records whose marker unit shows a weak bit in the margin read (R308, R321). -/
structure BootSample where
  phaseFail : BitVec 8
  sliceFail : BitVec 3
  temps : List Int
  weak : List Nat
  /-- what the scrub of retained SRAM at a STANDBY exit finds (R516) -/
  scrub : List EccFinding := []
  deriving DecidableEq, Repr

/-- The rings of the record store that compaction works on (R323, R324). -/
inductive Ring where
  | config
  | half0
  | half1
  | faultLog
  | sessionLog
  deriving DecidableEq, Repr

/-- What a probe of the pack shows (R351), mV and 0.01 °C; `none` is an open BTS (R350). -/
structure ProbeSample where
  /-- VBAT with the charger and the test load off -/
  vbat : Nat
  /-- fall of VBAT under the 50 mA test load -/
  drop : Nat
  temp : Option Int
  deriving DecidableEq, Repr

/-- What the gauge job takes in (R354, R357): charge counted out of the pack in µAh, and a current step with the voltage
step it made, in mA and 0.1 mV, when one large enough came. -/
structure GaugeSample where
  dq : Int
  step : Option (Nat × Nat)
  deriving DecidableEq, Repr

/-- Where a descriptor of the bulk engine reads or writes (R498–R500): working SRAM, retained SRAM, the flash at an offset of a
region, the mailboxes of an address (a source is the command mailbox, a destination the reply mailbox), or another peripheral,
which as a source delivers the bytes given. -/
inductive BulkPlace where
  | sram (a : BitVec 19)
  | retained (a : BitVec 16)
  | flash (region : Byte) (a : BitVec 24)
  | mailbox (o : Origin) (a : Byte)
  | unit (bytes : List Byte)
  deriving DecidableEq, Repr

/-- A bulk-engine descriptor as its owner posts it (R499): channel, mode (0 COPY, 1 FILL, 2 COMPARE), source, the second source
or constant of a COMPARE, destination, length, fill value. -/
structure BulkPost where
  chan : Fin 16
  mode : Fin 3
  src : BulkPlace
  other : BulkPlace
  dst : BulkPlace
  len : Nat
  fill : Word
  deriving DecidableEq, Repr

/-- A converter (0–11 the regulated outputs, 12 the ratio stage, 13 the backup converter) and its load in mA, which R65 compares
with its thresholds. -/
structure ConverterLoad where
  conv : Fin 14
  load : Nat
  deriving DecidableEq, Repr

/-- A LEAD frame as a module hears it: its bytes, and the module's delay from the cycle boundary in µs (R229). -/
structure HeardFrame where
  bytes : List Byte
  delayUs : Nat
  deriving DecidableEq, Repr

/-- Currents in mA that R487 names and that no channel of R165 carries: that of VIB, and those of phases 1–8. -/
structure UnscannedAmps where
  vib : Int
  phases : List Int
  deriving DecidableEq, Repr

/-- The rows of spec/opcode_table.json: those with operands first, in the table's order, then those without (Lean's code
generator limits the numbers of constructors with operands). -/
inductive Instr where
  -- seating, insertion, removal and the input path
  | strapSample (addr : BitVec 2) (idx : BitVec 4) (lead : Bool)
  | bootComplete (b : BootSample)
  | vinUnusable (mv : Nat)
  | vhRestartTimeout (vh : Fin 2)
  | packUnusable (cause : PackLoss)
  -- protected ports
  | eppresFall (p : Fin 6)
  | epSeatingStable (p : Fin 6)
  | descReadComplete (p : Fin 6) (read : Option (List Byte))
  | descReadRetry (p : Fin 6)
  | descReadTimeout (p : Fin 6)
  | epPrechargeComplete (p : Fin 6)
  | prechargeTimeout (p : Fin 6)
  | epPrechargeIntervalEnd (p : Fin 6)
  | epStartupEnd (p : Fin 6)
  | startupFail (p : Fin 6)
  | ocSustained (p : Fin 6)
  | ocFast (p : Fin 6)
  | reverse (p : Fin 6)
  | eppresRise (p : Fin 6)
  | epHeldRestart (p : Fin 6)
  -- light load and the governor
  | pulseSkipEntry (x : ConverterLoad)
  | pulseSkipExit (x : ConverterLoad)
  | governorEvaluate (g : GovSample)
  | governorComparatorWake (g : GovSample)
  -- the phase pool
  | phaseAdd (claims : BitVec 4)
  | burstAdd (claims : BitVec 4)
  | phaseRespacingEnd (k : Fin 4)
  | phaseShed (k : Fin 4)
  | shedRampDownEnd (p : Fin 8)
  | quietEnd (p : Fin 8) (addHolds : BitVec 4)
  | shedCancel (p : Fin 8)
  | hintHoldEnd (k : Fin 4)
  | phaseOutOfService (p : Fin 8) (m : PhaseMonitor) (overAdd : Bool)
  | ocLatch (k : Fin 12) (mv : Nat)
  | imbalance (vh : Fin 2)
  -- the voltage command link and reference ramps
  | vclNop (op : BitVec 4) (rail : BitVec 2) (tog : Bool) (payload : Half) (crc : BitVec 4)
  | setv (rail : BitVec 2) (tog : Bool) (payload : Half) (crc : BitVec 4)
  | hint (rail : BitVec 2) (tog : Bool) (payload : Half) (crc : BitVec 4) (iOut : Int)
  | getv (rail : BitVec 2) (tog : Bool) (payload : Half) (crc : BitVec 4)
  | geti (rail : BitVec 2) (tog : Bool) (payload : Half) (crc : BitVec 4) (ma10 : Int)
  | getvm (rail : BitVec 2) (tog : Bool) (payload : Half) (crc : BitVec 4) (mv : Nat)
  | truncated (op : BitVec 4) (rail : BitVec 2)
  | slewStep (k : Fin 12) (paused : Bool)
  | settled (k : Fin 4)
  | vclSlewStall (k : Fin 4)
  | slewEpisodeEnd (k : Fin 12)
  | rampEnd (k : Fin 12)
  -- measurement
  | scanComplete (rs : List ChannelResult) (dtUs : Nat)
  | sliceCalibrationEnd (sl : Fin 3) (gainBad offsetBad : Bool)
  -- sequencing and supervision
  | seqStepComplete (low : LowSample)
  | seqTimeout (low : LowSample)
  | windowBreach (w : WindowSource)
  | goodSet (w : WindowSource)
  | clearFaultLineTest (lineHigh : Bool)
  | xevEdge (x : Fin 4) (level : Bool)
  -- the Promenade link
  | leadFrame (slot : Fin 16) (frame : HeardFrame)
  | statusFrame (slot : Fin 16) (frame : List Byte)
  | join (slot : Fin 16) (frame : List Byte)
  | leave (slot : Fin 16) (frame : List Byte)
  | listenComplete (heard : Option Byte)
  | followerSilent (idx : Fin 16)
  | cabClearTest (lineHigh : Bool)
  -- metrology
  | blockEnd (cs : List (List ModBits))
  | stuckBitstream (ch : Fin 8)
  | inputCauseClear (ch : Fin 8)
  -- records and the store
  | recordAppended (slot : Fin 128) (verifyOk : Bool)
  | flashEraseComplete (verifyOk : Bool)
  | flashProgramComplete (verifyOk : Bool)
  | idleCompaction (r : Ring)
  | checkpointBase (ch : Fin 8) (dir : Bool)
  | sramScrub (fs : List EccFinding)
  -- charger and gauge
  | chargerBandChange (temp : Int)
  | packProbe (sample : ProbeSample)
  | gaugeUpdate (g : GaugeSample)
  | restPoint (ocv : Nat)
  | packFoundOcv (ocv : Nat)
  -- the Lodge
  | alarmFire (a : Fin 2)
  -- the host bus and the accessory bus
  | hostBusWrite (adr : BitVec 7) (ptr : Half) (data : List Byte)
  | readSnapshot (adr : BitVec 7) (ptr : Option Half) (n : Nat)
  | repeatedStartInAck (o : Origin) (ptr : Half)
  | startInsideByte (o : Origin) (ptr : Half)
  | stopInsideByte (o : Origin) (ptr : Half)
  | onePointerByte (o : Origin)
  | stalledTransaction (o : Origin) (ptr : Half)
  | addressMatchWake (adr : BitVec 7)
  | wakeTimeout (o : Origin)
  -- mailboxes
  | cmdSubmit (o : Origin) (tag : Byte)
  | replyPlaced (o : Origin)
  | replyTaken (o : Origin)
  -- events and the watchdogs
  | evtPendWrite (adr : BitVec 7) (ptr : Half) (data : List Byte)
  | wdtEnable (ctrl : Byte)
  | wdtDisable (ctrl : Byte)
  | wdtService (value : Byte)
  -- faults, firmware, thermal, bulk engine, resets, life cycle
  | thermalModelUpdate (amps : UnscannedAmps)
  | bulkBurst (posts : List BulkPost) (requests : BitVec 16) (parityError : Bool)
  | standbyWake (w : WakeSource)
  | sealBreak (sample : CalenSample)
  -- commands from a mailbox: the origin address and the parameter bytes of "Command reference"
  | nop (o : Origin)
  | ident (o : Origin)
  | getStatus (o : Origin)
  | jobStatus (o : Origin) (job : Half)
  | coreReset (o : Origin) (key : Byte)
  | moduleRestart (o : Origin) (key : Byte)
  | configUnlock (o : Origin) (mode : Byte)
  | configUnlockResponse (o : Origin) (mac : List Byte)
  | servicePrepare (o : Origin)
  | enterStandby (o : Origin) (wake : Byte)
  | enterIcehouse (o : Origin) (arm : Byte)
  | powerUp (o : Origin)
  | powerDown (o : Origin)
  | railSet (o : Origin) (output : Byte) (code : Half)
  | railGet (o : Origin) (output : Byte)
  | railEnable (o : Origin) (output on : Byte)
  | supervisorSet (o : Origin) (output uv ov filt : Byte)
  | poolAssign (o : Origin) (phase owner : Byte)
  | poolStatus (o : Origin)
  | portSet (o : Origin) (port enable ilim : Byte)
  | portStatus (o : Origin) (port : Byte)
  | budgetSet (o : Origin) (vinW batW : Half) (tCap : Byte)
  | seqStatus (o : Origin)
  | clearFault (o : Origin)
  | telemRead (o : Origin) (block : Byte)
  | telemPeaks (o : Origin) (output : Byte)
  | adcScanSet (o : Origin) (mask : DWord) (interval refMode : Byte) (tAvg : Half)
  | adcRead (o : Origin) (first count : Byte)
  | energyRead (o : Origin)
  | metroStatus (o : Origin) (chan : Byte)
  | metroRead (o : Origin) (chan : Byte)
  | registerRead (o : Origin) (mask : Half)
  | openSession (o : Origin) (mask : Half) (sid : List Byte)
  | closeSession (o : Origin) (slot : Byte) (sid : List Byte)
  | sessionStatus (o : Origin) (slot : Byte)
  | recordRead (o : Origin) (seq : Word)
  | recordAck (o : Origin) (n : Word)
  | publicKeyRead (o : Origin) (gen : Word)
  | calWrite (o : Origin) (chan : Byte) (rsv : BitVec 24) (block : List Byte)
  | calRead (o : Origin) (chan : Byte)
  | seal (o : Origin)
  | chargerSet (o : Origin) (chgEn iChg cvReduce : Byte) (iTerm : Half) (tTop vRech : Byte)
  | chargerKeepalive (o : Origin)
  | chargerStatus (o : Origin)
  | gaugeRead (o : Origin)
  | gaugeResetLearn (o : Origin)
  | gaugeTableLoad (o : Origin) (points : List (Half × Half))
  | backupSet (o : Origin) (en : Byte) (vCut : Half) (tMin tMax lowSoc : Byte)
  | timeSet (o : Origin) (value : DWord) (flags : Byte)
  | timeGet (o : Origin)
  | trimSet (o : Origin) (trim : Half) (band : List Byte)
  | alarmSet (o : Origin) (alarm action flags rsv : Byte) (value : DWord)
  | alarmStatus (o : Origin)
  | eventCountersClear (o : Origin) (mask : DWord)
  | faultRead (o : Origin) (flags : Byte)
  | faultPolicySet (o : Origin) (cls reaction : Byte)
  | faultLogRead (o : Origin) (first : Word) (count : Byte)
  | bulkRead (o : Origin) (region : Byte) (rsv : BitVec 24) (offset : Word) (len : Byte)
  | storeRead (o : Origin) (key : Half)
  | storeWrite (o : Origin) (key : Half) (len rsv : Byte) (payload : List Byte)
  | configWrite (o : Origin) (offset : Word) (len : Byte) (rsv : BitVec 24) (data : List Byte)
  | configCommit (o : Origin) (len crc : Word)
  | storeStatus (o : Origin)
  | lifecycleGet (o : Origin)
  | lifecycleAdvance (o : Origin) (target : Byte)
  | fwStage (o : Origin) (offset : Word) (len : Byte) (rsv : BitVec 24) (data : List Byte)
  | fwVerify (o : Origin) (len : Word)
  | fwActivate (o : Origin) (flags : Byte)
  | identityCertRead (o : Origin) (offset : Half) (len : Byte)
  | retire (o : Origin) (flags : Byte)
  | promStatus (o : Origin)
  | promRoster (o : Origin) (first count : Byte)
  | promAdmitPolicy (o : Origin) (mask : Half) (policy : Byte)
  | follyInject (o : Origin) (checker count : Byte)
  | follyForce (o : Origin) (source action : Byte)
  | diagCompare (o : Origin) (mode region : Byte) (first : Word) (count : Half)
  | diagSelftest (o : Origin) (target : Byte)
  -- rows without operands, in the table's order
  | seatingConfirmed
  | inputPrechargeStart
  | inputSwitchClose
  | inputPrechargeTimeout
  | prechargeHoldoffEnd
  | storeReady
  | removalProcedure
  | removalProcedureComplete
  | handOver
  | inputSwitchOpenOnBattery
  | vinExcursion
  | returnCountComplete
  | ratioBalanceEnd
  | vinReturn
  | vhRestartStagger
  | lastWordCommitEnd
  | btsOpen
  | reserveLow
  | holdupLow
  | icehouseExit
  | idleEntry
  | idleWake
  | poolMoveWaitTimeout
  | scanStart
  | sliceRotation
  | averagingWindowEnd
  | refSettled
  | outputEnergyCheckpoint
  | enRise
  | enFall
  | offMinElapsed
  | fltnFall
  | retryDue
  | retryStart
  | retryCountReset
  | prmCycle
  | joinRetry
  | orphanHold
  | orphanTimeout
  | cabEntryComplete
  | cabEntryTimeout
  | prmTimeCompare
  | relayTimeout
  | comparison
  | deferredSigningEnd
  | appendAfterReclaim
  | gaugeStateCheckpoint
  | preconditionDone
  | cvReached
  | chargeTermination
  | topoffEnd
  | recharge
  | chargeTimerExpiry
  | preconditionTimeout
  | chargerRestartEval
  | keepaliveTimeout
  | noRest
  | gatehouseLockClose
  | lodgeSupplyReturn
  | gatehouseLockOpen
  | lodgeReset
  | trimWindow
  | calendarOverflow
  | holdover
  | timeSetApply
  | arbitrationLoss
  | arbLostCond
  | accTransactionRestart
  | accAddressNackRetry
  | sdaStuckLow
  | sclHeldLow
  | unlockTimeout
  | unlockLockoutEnd
  | wdtKeyArm
  | wdtExpiry
  | hrstnRelease
  | graceExpiry
  | coreWatchdogExpiry
  | coreResetExecute
  | faultLogWrite
  | fwActivateReset
  | trialConfirm
  | rstn
  | restartMainReset
  | servicePrepareComplete
  | fltnHigh
  | rstnRelease
  | lodgeSupplyMove
  deriving DecidableEq, Repr

end Sys2Proof
end

