-- ==== Sys2Proof/Decode.lean ====
section
/-! DEFINITION. Decoding: the manual gives the commands of this block no machine word, and its opcode table gives no row a
bit, so no word spells a command. -/

namespace Sys2Proof

/-- The command that a word spells by the table's bits: none, since no row has bits. -/
def decodeTableWord (_nbits _w : Nat) : Option Instr := none

end Sys2Proof
end

