-- ==== Sys2Proof/Machine/State.lean ====
section
/-! DEFINITION. The state of the K4820: every register, buffer, counter, mode and line the manual gives the module, as plain
data, the configuration image it has loaded, and the queue of waiting commands. -/

namespace Sys2Proof.Machine

/-- A sparse byte buffer in canonical form (addresses strictly rising, no entry equal to the unlisted value). -/
abbrev Cells := List Host.Cell

/-! ## Factory data (R1, R425, R426, R371, R417) -/

/-- The four variants of the manual's table in "Variants and the capability word". -/
inductive Variant where
  | MB
  | M
  | B
  | P
  deriving DecidableEq, Repr

/-- Constants of the metrology ROM that the manual does not print: the symmetric FIR compensators of R248 (the middle tap and
those after it, 2⁻³⁰), the poles of the high-pass of R249 and its gains (2⁻³²) on the primary and the check path. -/
structure MeterRom where
  tapsP : List Int
  tapsC : List Int
  poleP : Nat
  poleC : Nat
  gainP : Nat
  gainC : Nat
  deriving DecidableEq, Repr

/-- One node of the thermal model as calibrated at manufacture (R487): the coefficients of its losses, what a unit of loss over
1/16 ms adds to it, in 2⁻⁴⁸ of the unit of `Thermal.nodes`, and its conductances to the nodes 0–15. -/
structure ThermNode where
  conduction : Nat
  switching : Nat
  /-- for each unit of `Hw.activity` -/
  active : Nat
  fixed : Nat
  rise : Nat
  links : List Nat
  deriving DecidableEq, Repr

def ThermNode.none : ThermNode := { conduction := 0, switching := 0, active := 0, fixed := 0, rise := 0, links := [] }

structure Factory where
  variant : Variant
  hwRev : Nat
  serial : DWord
  bootRom : Word
  metroRom : Word
  /-- the 16-byte configuration secret of R417 -/
  secret : List Byte
  /-- the identity certificate in DER (R294) -/
  cert : List Byte
  crystalTrim : Int
  bandTable : List Int
  /-- the trimmed gain of each channel in 2⁻¹⁶ of its unit per code (R165), and the code that stands for 0 -/
  gains : List Nat
  zeroCodes : List Nat
  meter : MeterRom
  /-- X‖Y of the key that signs firmware, in the boot ROM (R529) -/
  fwKey : List Byte
  /-- nodes 0–15 of the thermal model -/
  thermal : List ThermNode
  deriving DecidableEq, Repr

/-! ## Configuration image -/

/-- Safe states of R153. -/
inductive Safe where
  | offDischarge
  | offFloat
  | hold
  deriving DecidableEq, Repr

/-- Descriptor modes of R49. -/
inductive DescMode where
  | off
  | preferred
  | required
  deriving DecidableEq, Repr

/-- Battery chemistries of R346. -/
inductive Chem where
  | liIon
  | lfp
  deriving DecidableEq, Repr

/-- What the image holds for one output of R180: supervision (R181), priority (R72), safe state (R153), light load (R66),
targets (R131, R146), pool (R85), link (R131), and port settings (R49, R74). A field that does not belong to the output's
kind is not used. -/
structure OutCfg where
  uv : Nat
  ov : Nat
  filt : Nat
  prio : Nat
  safe : Safe
  lightLoad : Bool
  /-- V_BOOT of a VP output, V_SET of a VM or VH output -/
  vSet : Nat
  vMin : Nat
  vMax : Nat
  /-- RAMP in 0.5 mV/µs -/
  ramp : Nat
  ripple : Nat
  hostSw : Bool
  minPh : Nat
  maxPh : Nat
  lend : Bool
  /-- I_ADD_PH and I_SHED_PH in mA, T_DWELL in µs -/
  iAdd : Nat
  iShed : Nat
  tDwell : Nat
  burst : Bool
  vclEn : Bool
  slewDef : Nat
  slewMax : Nat
  mode : DescMode
  descAddr : Nat
  ilim : Nat
  floorCode : Nat
  deriving DecidableEq, Repr

/-- A sequence step (R187). -/
structure Step where
  last : Bool
  hrstRelease : Bool
  xevSel : Nat
  xevLevel : Bool
  onMask : BitVec 24
  offMask : BitVec 24
  waitMask : BitVec 24
  token : Nat
  tStable : Nat
  delay : Nat
  timeout : Nat
  matchStep : Nat
  /-- a reserved field that is not 0 (rule 8 of R188) -/
  reserved : Bool
  deriving DecidableEq, Repr

/-- An entry of a cabinet list (R221). -/
structure CabEntry where
  index : Nat
  last : Bool
  localStep : Nat
  token : Nat
  timeout : Nat
  deriving DecidableEq, Repr

/-- Host-watchdog settings of the image (R458). -/
structure WdtCfg where
  enable : Bool
  lock : Bool
  window : Nat
  period : Nat
  graceS : Nat
  hrstWidth : Nat
  deriving DecidableEq, Repr

/-- Backup settings (R338), mV per cell and °C. -/
structure BackupCfg where
  en : Bool
  vCut : Nat
  tMin : Int
  tMax : Int
  lowSoc : Nat
  deriving DecidableEq, Repr

/-- Charger settings that CHARGER_SET overrides (R346), in mA, mV per cell and minutes. -/
structure ChargeCfg where
  en : Bool
  iChg : Nat
  cvReduce : Nat
  iTerm : Option Nat
  tTopoff : Nat
  vRech : Nat
  deriving DecidableEq, Repr

/-- Scan settings (R178). -/
structure ScanCfg where
  mask : BitVec 64
  interval : Nat
  refFull : Bool
  tAvg : Nat
  deriving DecidableEq, Repr

/-- Link settings of the image (R209, R221, R234, R235). -/
structure PrmCfg where
  cabinet : Bool
  upList : List CabEntry
  downList : List CabEntry
  admitMask : BitVec 16
  autoJoinRun : Bool
  orphanTimeout : Nat
  deriving DecidableEq, Repr

structure Image where
  outs : List OutCfg
  owners : List Nat
  pgoodSet : BitVec 24
  up : List Step
  down : List Step
  host : List Step
  retryMax : Nat
  tOffMin : Nat
  autostart : Bool
  vinW : Nat
  batW : Nat
  tCap : Nat
  wdt : WdtCfg
  /-- the filter counts N of R457: EN, RSTn, CALENn, XEV1–4, EPPRES1n–6n -/
  filters : List Nat
  xevEdge : List Nat
  policies : List Nat
  backup : BackupCfg
  chem : Chem
  cells : Nat
  designCap : Nat
  keepaliveMin : Nat
  charge : ChargeCfg
  scan : ScanCfg
  prm : PrmCfg
  ckptStep : Nat
  allowUnsync : Bool
  acc400 : Bool
  /-- CONFIG_ID: IMAGE_CRC of the image, 0 for the factory default image -/
  configId : Word
  deriving DecidableEq, Repr

/-! ## Insertion, straps, lines and resets -/

/-- The insertion states of R37. -/
inductive InsertState where
  | unseated
  | waitVin
  | inputPrecharge
  | storeCharge
  | ready
  | inputFault
  | removing
  | removed
  deriving DecidableEq, Repr

/-- Where the VBAT switch connects the pack (R31, R344, R362). -/
inductive VbatSwitch where
  | opened
  | lodgeOnly
  | closed
  deriving DecidableEq, Repr

structure Insertion where
  state : InsertState
  presA : Bool
  presB : Bool
  path33 : Bool
  inputSwitch : Bool
  vbatSwitch : VbatSwitch
  /-- the 1 s hold-off of R32 runs -/
  holdoff : Bool
  fails : Nat
  storeReady : Bool
  /-- the main domain is powered and out of reset -/
  mainOn : Bool
  /-- the boot is complete: commands are served (R34) -/
  booted : Bool
  /-- RESET_CAUSE that the next POR reports (R425) -/
  porCause : Nat
  /-- the straps have been sampled since the last release of POR or RSTn (R22) -/
  strapsDone : Bool
  /-- the boot is that of a STANDBY exit, at which all of retained SRAM is scrubbed (R516) -/
  scrubDue : Bool
  deriving DecidableEq, Repr

structure Straps where
  addr : BitVec 2
  idx : BitVec 4
  lead : Bool
  deriving DecidableEq, Repr

/-- Filtered levels of the control inputs (R26, R457) and of the shared FLTn line. -/
structure Lines where
  en : Bool
  rstLow : Bool
  calenLow : Bool
  fltLow : Bool
  xev : List Bool
  deriving DecidableEq, Repr

/-- A restart that waits for session closing and power-down (R511). -/
inductive RestartKind where
  | moduleRestart
  | rstn
  deriving DecidableEq, Repr

structure Resets where
  cause : Nat
  /-- the instants of the core resets that count towards LIMP (R481), in µs of the model clock -/
  history : List Nat
  /-- a core reset requested and deferred to the flash safe point (R464), with its RESET_CAUSE -/
  coreReq : Option Nat
  restart : Option RestartKind
  /-- RESET_NOW of FW_ACTIVATE waits (R446) -/
  fwReset : Bool
  /-- the program or erase that ran at the request has ended: the flash's safe point (R464) -/
  safe : Bool
  /-- the instant of the last main-domain boot end, from which MICROS counts (R471) -/
  bootAt : Nat
  deriving DecidableEq, Repr

/-! ## Power path, light load, governor -/

/-- The steps of the return to VIN (R341, R342). -/
inductive ReturnPhase where
  | idle
  | counting
  /-- the count is complete and the pre-charge waits for the hold-off of R32 -/
  | held
  | precharge
  | balance
  | ramp
  deriving DecidableEq, Repr

structure PowerPath where
  /-- the module has found VIN on its contacts, usable or not (R17) -/
  vinHere : Bool
  vinUsable : Bool
  onBattery : Bool
  handingOver : Bool
  /-- VIB in mV where the ramp of the backup converter started, and when (R62, R339, R342) -/
  vibFrom : Nat
  vibAt : Nat
  ret : ReturnPhase
  reserveLow : Bool
  /-- HOLDUP_LOW raised this outage for the pack cause, for the reserve cause (R345) -/
  lowPackRaised : Bool
  lowReserveRaised : Bool
  icehouseArmed : Bool
  icehouse : Bool
  battAbsent : Bool
  btsOpen : Bool
  /-- VBAT in mV and the pack temperature in 0.01 °C as last measured (R337) -/
  vbat : Nat
  packTemp : Int
  backup : BackupCfg
  /-- on battery: a condition of R344 has ended the pack, which is no longer usable (R337) -/
  packSpent : Bool
  /-- VH outputs that restart on the return and have not reached their window: when each started (R81) -/
  vhWait : List (Option Nat)
  /-- VH2 waits for its turn after VH1 (R81) -/
  vhNext : Bool
  /-- a last-word commit runs, with its trigger code of R291 -/
  commit : Option Nat
  /-- trigger 3 leaves the module in REMOVING, the others power the main domain off -/
  commitRemoval : Bool
  deriving DecidableEq, Repr

structure IdleSt where
  idle : Bool
  /-- pulse-skipping or burst mode: outputs 0–11, ratio stage 12, backup converter 13 (R65) -/
  skipping : List Bool
  pct : Nat
  acc : Nat
  deriving DecidableEq, Repr

/-- The stages of R73. -/
inductive GovStage where
  | normal
  | over
  | capped
  | derating
  | shedding
  | exhausted
  deriving DecidableEq, Repr

/-- An output that the governor shed: its recorded power in mW, and since when it would fit again, in µs of the model clock
(R75, R76). -/
structure Shed where
  out : Nat
  power : Nat
  since : Option Nat
  deriving DecidableEq, Repr

structure Gov where
  stage : GovStage
  batSource : Bool
  thermal : Bool
  ratio : Bool
  vinW : Nat
  batW : Nat
  tCap : Nat
  bEff : Nat
  lastEval : Nat
  dwellEnd : Nat
  nextShed : Nat
  /-- shed outputs, the last shed first -/
  shedList : List Shed
  /-- derated ports, the last derated first -/
  derated : List Nat
  /-- since when P_IN has stayed at or below 0.90 × B_EFF -/
  lowSince : Option Nat
  /-- when the next derated limit is raised, once P_IN lies low enough -/
  nextRaise : Option Nat
  deriving DecidableEq, Repr

/-! ## Outputs, pool, link -/

/-- The supervision conditions of R185. -/
inductive Sup where
  | unsupervised
  | enabling
  | armed
  deriving DecidableEq, Repr

/-- One output of R180. Codes are those of R130 (VP) and R146 (VM, VH); references stand in 0.5 mV. -/
structure Output where
  on : Bool
  /-- enabled by a sequence step, a host restart, RAIL_ENABLE or PORT_SET; kept while shed or held off on battery -/
  enabled : Bool
  ramping : Bool
  rampEnded : Bool
  stepDone : Bool
  sup : Sup
  good : Bool
  /-- when GOOD last became 1, in µs of the model clock (R190) -/
  goodAt : Nat
  /-- the comparator found the output outside its window, and it has not come back inside the hysteresis (R182) -/
  outside : Bool
  /-- the reference, in 0.5 mV: of a VP output as it stands, of a VM or VH output as it stood at `rampAt` -/
  ref : Nat
  /-- the code the reference moves to, or stands at -/
  tgt : Nat
  /-- start of the ramp or of its latest part, in µs of the model clock -/
  rampAt : Nat
  /-- a VM or VH reference does not advance: its phases end at the sink limit (R151) -/
  held : Bool
  /-- where the reference turned, stopped or stepped in the episode: instant in µs and reference in 0.5 mV, newest first
  (R140, R157) -/
  past : List (Nat × Nat)
  hostTarget : Option Nat
  hostState : Option Bool
  uv : Nat
  ov : Nat
  filt : Nat
  shed : Bool
  battOff : Bool
  faultOff : Bool
  halfFreq : Bool
  /-- a discharge sink is switched on (R153) -/
  discharging : Bool
  /-- a slew episode runs (R140, R157, R182) with the highest target code commanded in it -/
  episode : Bool
  epMax : Nat
  deriving DecidableEq, Repr

/-- What the pool and the link hold for one VP output (R113, R114, R128, R133, R140). -/
structure VpRail where
  slewing : Bool
  settled : Bool
  cls : Nat
  hintHold : Bool
  respacing : Bool
  degraded : Bool
  /-- instant at which the last slew ended (R98 item 3) -/
  slewEnd : Option Nat
  stallRaised : Bool
  add : Nat
  shed : Nat
  cancel : Nat
  denied : Nat
  deriving DecidableEq, Repr

/-- The conditions of R83. -/
inductive PhaseCond where
  | parked
  | standby
  | active
  | rampDown
  | quiet
  | oos
  deriving DecidableEq, Repr

structure Phase where
  /-- 0 none, 1–4 VP1–VP4 -/
  owner : Nat
  serving : Nat
  cond : PhaseCond
  oosReason : Nat
  /-- order of lending, 0 when not lent -/
  lentAt : Nat
  /-- outputs whose add claims wait for the end of the phase's quiet interval (R112), bit k for VP(k+1) -/
  claims : BitVec 4
  deriving DecidableEq, Repr

structure Move where
  phase : Nat
  newOwner : Nat
  job : Nat
  deriving DecidableEq, Repr

structure Pool where
  phases : List Phase
  rails : List VpRail
  lendCount : Nat
  move : Option Move
  deriving DecidableEq, Repr

/-- A response of the voltage command link (R120). -/
structure VclResponse where
  resp : BitVec 3
  flags : BitVec 4
  data : Half
  crc : BitVec 4
  deriving DecidableEq, Repr

/-- The kept copy of the last accepted state-changing request (R137) with the DATA of its ACK. -/
structure VclKept where
  op : Nat
  rail : Nat
  tog : Bool
  payload : Half
  data : Half
  deriving DecidableEq, Repr

structure Vcl where
  kept : Option VclKept
  ok : Nat
  bad : Nat
  resp : Option VclResponse
  deriving DecidableEq, Repr

/-! ## Protected ports and the accessory bus -/

/-- Port states of R57. -/
inductive PortState where
  | empty
  | seating
  | descCheck
  | precharge
  | startup
  | on
  | latched
  | refused
  | held
  deriving DecidableEq, Repr

structure Port where
  state : PortState
  reason : Nat
  enabled : Bool
  shed : Bool
  eppresLow : Bool
  /-- when the configured glitch filter reads a rise of EPPRESn, in µs of the model clock: until then EPSEAT stays 1 (R48) -/
  seatEnd : Nat
  /-- the descriptor was accepted since the board was seated -/
  accepted : Bool
  descValid : Bool
  iDecl : Nat
  cDecl : Nat
  boardId : List Byte
  /-- I_LIM in force and the active limit after derating, coded as ILIM_CODE -/
  ilim : Nat
  active : Nat
  /-- a pre-charge waits for the 2 s of R52 -/
  waiting : Bool
  /-- less than 2 s have passed since the port's previous pre-charge began -/
  spacing : Bool
  /-- a failed descriptor read waits for its restart (R50) -/
  reread : Bool
  deriving DecidableEq, Repr

structure AccBus where
  /-- port whose descriptor is being read -/
  port : Option Nat
  /-- its transaction has not begun, or was given up: it waits for the bus to be free -/
  waiting : Bool
  /-- the bus counts as free (R399) -/
  free : Bool
  /-- successive ARB_LOST_COND, and unacknowledged addresses, of the transaction -/
  condLosses : Nat
  nacks : Nat
  /-- SCL held low with the bus idle: the episode's event was raised -/
  sclStuck : Bool
  deriving DecidableEq, Repr

/-! ## Measurement -/

structure ChanResult where
  slice : Nat
  valid : Bool
  scan : Nat
  code : BitVec 14
  value : Int
  deriving DecidableEq, Repr

/-- Averages, peaks and energy of one output (R173–R175). -/
structure OutTelem where
  vAvg : Nat
  iAvg : Int
  pAvg : Int
  valid : Bool
  sat : Bool
  onAtEnd : Bool
  peakEmpty : Bool
  vMin : Nat
  iMax : Int
  pMax : Int
  /-- 1 mJ, and the residue in 1 µJ -/
  energy : Nat
  residue : Nat
  /-- the window in progress: sums over its scans -/
  n : Nat
  sumV : Int
  sumI : Int
  sumP : Int
  /-- TELEM_PEAKS read during a scan: the clear waits for the scan's end boundary -/
  clearDue : Bool
  /-- time since this output's previous scan, in µs; none before its first (R175) -/
  since : Option Nat
  deriving DecidableEq, Repr

/-- Reference buffer modes of R169 and the settling state of R176. -/
inductive RefState where
  | off
  | low
  | full
  | settling
  deriving DecidableEq, Repr

structure Adc where
  chans : List ChanResult
  outs : List OutTelem
  /-- block averages of the supply block's channels: 64 values, and P_IN -/
  supply : List Int
  supplySum : List Int
  supplyN : List Nat
  pIn : Int
  pInSum : Int
  scanCount : Nat
  windowCount : Nat
  scanning : Bool
  mask : BitVec 64
  set : ScanCfg
  /-- settings that take effect at the start of the next scan (R178) -/
  next : Option ScanCfg
  /-- a new T_AVG waits for the next scan boundary -/
  restartWindow : Bool
  ref : RefState
  fromOff : Bool
  /-- the first scan after leaving OFF is complete (R170) -/
  ready : Bool
  rotation : Nat
  rotationDue : Bool
  calibrating : Bool
  sliceOos : BitVec 3
  refBad : Nat
  refGood : Nat
  refFault : Bool
  /-- run-hour counters in µs: main domain, on battery (R327) -/
  runMain : Nat
  runBatt : Nat
  deriving DecidableEq, Repr

/-! ## Sequencer -/

/-- The system states of R207. -/
inductive SysState where
  | off
  | seqUp
  | run
  | seqDown
  | faultLatched
  | standby
  | limp
  deriving DecidableEq, Repr

/-- Which sequence runs: POWER_UP, POWER_DOWN or the host-restart sequence (R432). -/
inductive SeqDir where
  | up
  | down
  | host
  deriving DecidableEq, Repr

/-- How far SERVICE_PREPARE is (R43): item 1 and 2, items 3 to 5. -/
structure Service where
  job : Option Nat
  ready : Bool
  /-- every session is closed and the off request has been made -/
  downAsked : Bool
  lastWordDone : Bool
  deriving DecidableEq, Repr

structure Seq where
  state : SysState
  step : Nat
  /-- start of the step in progress, in µs of the model clock -/
  stepAt : Nat
  /-- at the start of the POWER_DOWN step in progress every output of its OFF_MASK was already off (R192) -/
  passing : Bool
  dir : SeqDir
  /-- a sequence is in progress (in RUN: the host-restart sequence; in LIMP: a table sequence) -/
  active : Bool
  pendOn : Bool
  offWait : Bool
  offStart : Nat
  retryWait : Bool
  /-- the retry fell due and waits for EN, FLTn and t_off_min -/
  retryReleased : Bool
  retries : Nat
  hrst : Bool
  pgood : Bool
  fltDrive : Bool
  cause : Nat
  job : Option Nat
  /-- job of the latched on request -/
  onJob : Option Nat
  /-- highest step completed in the sequence in progress or last run, and its direction (R215) -/
  doneStep : Option Nat
  doneDown : Bool
  toStep : Nat
  toDir : Option SeqDir
  toUnmet : BitVec 24
  toTime : DWord
  /-- CLEAR_FAULTs that wait for the line test of R204, oldest first: the address whose packet waits for the reply, if one does -/
  clearTest : List (Option Origin)
  /-- ENTER_STANDBY accepted: the WAKE byte; entry waits for a power-down or a reply -/
  standbyReq : Option Byte
  wake : Byte
  /-- host restart: HRST_WIDTH and the last step are awaited -/
  hostStepsDone : Bool
  /-- outputs the host-restart sequence has turned off (R462) -/
  hostOff : BitVec 24
  /-- in LIMP: the outputs stay off until EN has been low and then high (R484) -/
  limpFault : Bool
  /-- in LIMP: the rails are up, as in RUN -/
  limpRun : Bool
  limpEnLow : Bool
  /-- LIMP left by a valid image: the table's POWER_DOWN runs and OFF follows with the image (R485) -/
  limpExit : Bool
  /-- in LIMP: a host restart that began before goes on through the image's sequences (R465) -/
  limpKeep : Bool
  service : Service
  deriving DecidableEq, Repr

/-! ## Promenade -/

/-- A configuration unlock (R417, R418): of address A, and at a follower of packets relayed from address A. -/
structure Unlock where
  unlocked : Bool
  challenge : Option (List Byte)
  issuedAt : Nat
  /-- the last accepted CONFIGURE command, or the unlock -/
  lastAt : Nat
  wrong : Nat
  locked : Bool
  lockedAt : Nat
  deriving DecidableEq, Repr

/-- ROLE and LINK of R237. -/
inductive PrmRole where
  | standalone
  | lead
  | follower
  | silent
  deriving DecidableEq, Repr

inductive PrmLink where
  | listening
  | joining
  | active
  | orphan
  deriving DecidableEq, Repr

structure Peer where
  state : Nat
  done : Nat
  flags : Nat
  cause : Nat
  serial : DWord
  caps : Word
  frames : Nat
  pIn : Nat
  deriving DecidableEq, Repr

/-- A packet on its way over the link (R227): at the lead the packet and the reply as it arrives; at the follower the
request as it arrives, then the reply as it is sent. -/
structure Relay where
  origin : Origin
  index : Nat
  rtag : Nat
  out : List Byte
  outFrag : Nat
  inFrag : Nat
  inBytes : List Byte
  inDone : Bool
  deriving DecidableEq, Repr

structure Prm where
  role : PrmRole
  link : PrmLink
  conflict : Bool
  orphanExpired : Bool
  /-- the level that the lead has granted, at a follower the level received -/
  token : Nat
  /-- TOKEN_LEVEL as last sent or received (R237) -/
  tokenSent : Nat
  roster : BitVec 16
  /-- CAB_CMD as last sent or received -/
  cmd : Nat
  /-- CAB_CMD that the lead's own requests ask for: 0 HOLD, 1 UP, 2 DOWN (R218, R222) -/
  order : Nat
  /-- the CAB_CMD value last acted on (R225) -/
  acted : Nat
  dirDown : Bool
  step : Nat
  cabRunning : Bool
  cycle : Nat
  err : Nat
  admitMask : BitVec 16
  autoJoinRun : Bool
  peers : List Peer
  /-- indices whose JOIN waits for the next cycle boundary -/
  joins : List Nat
  /-- JOIN sent, the next LEAD frame decides -/
  joinSent : Bool
  joinWait : Bool
  /-- the lead may transmit; cycles transmitted since it started (HOLD in the first 10) -/
  leadOn : Bool
  /-- LEAVE due in the own slot, with its reason (R215) -/
  leaveDue : Option Nat
  /-- CAB_CMD = CLEAR cycles still to send, and the job of the CLEAR_FAULT, if one asked for them -/
  clearLeft : Nat
  clearJob : Option Nat
  clearRetry : Bool
  relay : Option Relay
  relayTag : Nat
  /-- CONFIGURE unlocked for packets relayed from address A (R226, R418) -/
  unlock : Unlock
  /-- TIME of the last valid LEAD frame, and the own count as it arrived (R230) -/
  leadTime : DWord
  ownTicks : Nat
  /-- CAB_STATE of the last valid LEAD frame -/
  leadState : Nat
  tx : List Byte
  orphanAt : Nat
  deriving DecidableEq, Repr

/-! ## Metrology -/

/-- One bitstream in one path (R248, R249): integrators and combs of the decimator, the samples in the compensator, newest first
(2⁻²³), the high-pass (input 2⁻³¹, output 2⁻⁴⁷), and the last samples that the phase delay interpolates between (2⁻³¹). -/
structure Signal where
  cic : List (BitVec 48)
  comb : List (BitVec 48)
  fir : List Int
  hpX : Int
  hpY : Int
  past : List Int
  deriving DecidableEq, Repr

/-- A calibrated sample of a path before its gains: its input-referred centre in units of 25 ns since the first MCLK edge
(R251), voltage and current in 2⁻³¹ of full scale, and whether one of them was in overrange (R242). -/
structure Sample where
  centre : Int
  v : Int
  i : Int
  clipped : Bool
  deriving DecidableEq, Repr

/-- One path of a channel: its two signals, as the bits up to the last block boundary leave them. -/
structure PathFront where
  v : Signal
  i : Signal
  deriving DecidableEq, Repr

/-- What a path measured over the last block (R256): mV, mA, mW, mHz. -/
structure PathVals where
  volt : Nat
  amp : Int
  power : Int
  freq : Nat
  deriving DecidableEq, Repr

/-- One metering channel (R244–R270). Energies in 2⁻³² mWh. -/
structure Chan where
  /-- working copies of the primary and the check path (R245) -/
  calP : List Byte
  calC : List Byte
  /-- result of the last R246 check, as CAL_READ reports it (R268) -/
  check : Nat
  imp : Nat
  exp : Nat
  cImp : Nat
  cExp : Nat
  diverge : Bool
  calHold : Bool
  inputHold : Bool
  disagree : Bool
  disagreeSeen : Bool
  creep : Bool
  overrange : Bool
  disRun : Nat
  compared : Nat
  disagreed : Nat
  /-- increments of the comparison interval in progress, before anti-creep (R259) -/
  dIP : Nat
  dEP : Nat
  dIC : Nat
  dEC : Nat
  /-- increments of the last complete interval, which COMPARISON compares -/
  lIP : Nat
  lEP : Nat
  lIC : Nat
  lEC : Nat
  /-- the interval in progress, the last complete interval is not compared (R261) -/
  skip : Bool
  lSkip : Bool
  /-- totalizers resume at the next block boundary (R265) -/
  resume : Bool
  /-- a calibration is loaded at the next block boundary (R266) -/
  load : Bool
  frontP : PathFront
  frontC : PathFront
  /-- bits after the last block boundary that its samples have already needed (R251) -/
  ahead : List ModBits
  valsP : PathVals
  valsC : PathVals
  deriving DecidableEq, Repr

/-- A CAL_WRITE in progress (R266). -/
structure CalJob where
  chan : Nat
  job : Nat
  written : Bool
  deriving DecidableEq, Repr

structure Metro where
  chans : List Chan
  /-- instant of the first MCLK edge, from which the blocks run (R252) -/
  start : Nat
  /-- the block in progress, numbered from 0 (R259) -/
  block : Nat
  blockStart : Nat
  blockTime : DWord
  /-- blocks of the comparison interval in progress -/
  ivBlocks : Nat
  /-- an interval is complete and waits for its comparison -/
  compareDue : Bool
  /-- input-referred end of that interval (R259) -/
  ivEnd : Nat
  frozen : Bool
  /-- blocks whose results wait in Belvedere's FIFO for channels 4 and 5 of the bulk engine, oldest first, up to 8 (R503) -/
  fifoP : List Nat
  fifoC : List Nat
  calJob : Option CalJob
  deriving DecidableEq, Repr

/-! ## Sessions and the session log -/

/-- Slot states of R274. -/
inductive SlotState where
  | free
  | opened
  | closed
  | closedPf
  deriving DecidableEq, Repr

structure Slot where
  st : SlotState
  startPending : Bool
  closePending : Bool
  /-- the stop capture is taken; the record waits for signing and append -/
  captured : Bool
  reason : Nat
  /-- flags of bytes 94–95 (R292) -/
  flags : BitVec 16
  mask : BitVec 8
  sid : List Byte
  tStart : DWord
  tStop : DWord
  impStart : Nat
  expStart : Nat
  impStop : Nat
  expStop : Nat
  metro : Word
  seq : Nat
  openJob : Option Nat
  closeJob : Option Nat
  deriving DecidableEq, Repr

/-- One entry of the session log (R310): its ring position and markers. -/
structure LogEntry where
  pos : Nat
  seq : Nat
  bytes : List Byte
  committed : Bool
  signed : Bool
  damaged : Bool
  deriving DecidableEq, Repr

/-- What a store write is for, decided when it ends. -/
inductive Purpose where
  | none
  | job (n : Nat)
  | cal (chan : Nat) (last : Bool)
  | timeSet (job : Nat)
  | calChange (job : Nat)
  /-- the table of GAUGE_TABLE_LOAD (R450) -/
  | table (job : Nat)
  /-- the final record of an image, which makes it current (R302) -/
  | image (job : Nat) (img : Image)
  /-- the SEAL_STATEMENT record, after which SEAL ends (R522) -/
  | sealing (job : Nat)
  /-- the SEAL_BREAK record, after which the key is wiped (R288) -/
  | breaking
  deriving DecidableEq, Repr

/-- A record in retained SRAM whose programming waits (R283, R300, R313): its bytes without number, and the number it keeps when its
programming had begun before (0: none). -/
structure WaitRec where
  draft : List Byte
  signed : Bool
  seq : Nat
  purpose : Purpose
  deriving DecidableEq, Repr

structure Log where
  /-- positions of the ring: 65 536 less those of sectors retired without a spare -/
  size : Nat
  /-- entries programmed, oldest first -/
  entries : List LogEntry
  wpos : Nat
  /-- erased positions ahead of the write position, E of R312 -/
  erased : Nat
  lastSeq : Nat
  /-- the highest sequence number taken, by a record appended or one whose programming has begun (R300, R313) -/
  nextSeq : Nat
  /-- first positions of the sectors that are retired without a spare once they are erased (R305) -/
  worn : List Nat
  /-- the erase of the oldest sector was cut: its header is unreadable (R325) -/
  torn : Bool
  /-- the highest GENERATION, and ERASE_COUNT of the ring sectors, by number, that have been erased (R303) -/
  gen : Nat
  counts : List (Nat × Nat)
  /-- records that wait for an erased entry, oldest first (R313) -/
  waiting : List WaitRec
  reclaiming : Bool
  signPending : Bool
  deriving DecidableEq, Repr

/-! ## The record store -/

/-- A record of R306 as the flash holds it. `unary` is the UNARY word of a cell record: cleared bits are 0. -/
structure Rec where
  key : Nat
  seq : Nat
  copy : Bool
  payload : List Byte
  committed : Bool
  unary : Word
  weak : Bool
  /-- the record's CRC fails, or an uncorrectable flash error lies in it (R308, R469) -/
  broken : Bool
  deriving DecidableEq, Repr

structure Sector where
  gen : Nat
  erases : Nat
  recs : List Rec
  /-- retired without a spare: it takes no more records, and is not used again after its erase (R305) -/
  worn : Bool
  deriving DecidableEq, Repr

/-- A ring of sectors: the opened ones, oldest first, and the erase counts of those that stand erased, next first. -/
structure RingSt where
  secs : List Sector
  blank : List Nat
  /-- sectors whose header is unreadable after an erase cut half-way (R304, R325) -/
  torn : Nat
  deriving DecidableEq, Repr

/-- A write in the store's queue: a parameter pair (R315), or a log record (R311), with the program operations still to do:
2 programs a copy, body and COMMIT. -/
structure StoreWrite where
  key : Nat
  payload : List Byte
  /-- for a log record: the record is signed -/
  isLog : Bool
  signed : Bool
  /-- program operations done: first body, first COMMIT, second body, second COMMIT; for a log record body, COMMIT, SIGNED -/
  phase : Nat
  /-- SEQ of the first copy, and the half that takes it -/
  seq : Nat
  half : Bool
  purpose : Purpose
  deriving DecidableEq, Repr

/-- A TIME_SET between acceptance and its Lodge write (R379). -/
structure TimeSetJob where
  value : Nat
  acceptedAt : Nat
  synced : Bool
  job : Nat
  /-- the record is committed; its sequence number -/
  committed : Bool
  seq : Nat
  deriving DecidableEq, Repr

/-- A step to the lead's time that waits for an erase (R313): the lead's value, how old it was, and since when the step waits. -/
structure LeadStep where
  value : DWord
  delay : Nat
  since : Nat
  deriving DecidableEq, Repr

/-- A program operation that a row made in one step, its verify still to come (R305): the record and where it lies. -/
structure Verify where
  ring : Ring
  /-- GENERATION of the sector -/
  gen : Nat
  key : Nat
  seq : Nat
  /-- payload bytes, which have come on channel 6 (R507) -/
  len : Nat
  /-- a UNARY word that was programmed again: what it read before (R319) -/
  old : Option Word
  /-- a copy of a compaction, which the old sector's erase waits for (R323) -/
  copy : Bool
  /-- the job that ends STORE_ERROR where the program fails (R450) -/
  job : Option Nat
  deriving DecidableEq, Repr

/-- A sector that a row erased in one step, its verify still to come (R305). -/
structure Erased where
  ring : Ring
  gen : Nat
  deriving DecidableEq, Repr

/-- An erase in progress (R330): the ring and the copies it follows, or the wipe of RETIRE. -/
structure EraseOp where
  ring : Ring
  retire : Bool
  deriving DecidableEq, Repr

structure Store where
  config : RingSt
  half0 : RingSt
  half1 : RingSt
  fault : RingSt
  pSeq : Nat
  cSeq : Nat
  fSeq : Nat
  /-- which half takes the first copy of the next write -/
  nextHalf : Bool
  queue : List StoreWrite
  erase : Option EraseOp
  conflicts : Nat
  restored : BitVec 16
  retiredSecs : Nat
  spare : Nat
  estimated : Nat
  /-- image in the store that the next boot loads, none for the factory default -/
  image : Option Image
  /-- the staging buffer of R445; unwritten bytes read 0xFF -/
  staging : Cells
  /-- checkpoint bookkeeping: value at the last base or cleared bit, per channel-direction, and when that was (R319, R333) -/
  ckptAt : List Nat
  ckptTime : List Nat
  /-- what rows have programmed in one step, oldest first, its verify still to come (R305) -/
  proving : List Verify
  /-- what rows have erased in one step, oldest first, likewise -/
  erased : List Erased
  deriving DecidableEq, Repr

/-! ## Jobs, mailboxes, host bus, unlock -/

/-- States of a job (R415). -/
inductive JobState where
  | running
  | done
  | abandoned
  deriving DecidableEq, Repr

structure Job where
  num : Nat
  op : Byte
  state : JobState
  status : Nat
  result : Nat
  progress : Nat
  data : List Byte
  /-- carried out by the housekeeping core: a core reset abandons it (R420) -/
  byCore : Bool
  deriving DecidableEq, Repr

/-- REPLY_STATE of R408. -/
inductive ReplyState where
  | idle
  | busy
  | ready
  | readyOlder
  deriving DecidableEq, Repr

structure Mailbox where
  cmd : Cells
  rep : Cells
  replyState : ReplyState
  replyTag : Byte
  lastTag : Byte
  overrun : Bool
  coreReset : Bool
  /-- the packet in process and the one queued behind it (R410), as bytes, with the order of their submission -/
  inProc : Option (Nat × List Byte)
  queued : Option (Nat × List Byte)
  /-- the checks of R407 on the packet in process have been made -/
  judged : Bool
  /-- reply to the packet in process, not yet placed: its bytes (R406), those of a follower as they came (R419) -/
  ready : Option (List Byte)
  /-- no reply in the reply mailbox waits to be taken -/
  taken : Bool
  /-- data bytes of the reply in the reply mailbox -/
  repLen : Nat
  ptr : Nat
  /-- a core reset set the pointer to return to 0x0000 at the next START (R403) -/
  ptrReset : Bool
  /-- bytes the last read transaction delivered -/
  readBytes : List Byte
  /-- the last transaction ended without a NACK of the module's -/
  acked : Bool
  /-- SCL is held low after an address match (R395) -/
  stretching : Bool
  deriving DecidableEq, Repr

structure Proto where
  a : Mailbox
  v : Mailbox
  submissions : Nat
  jobs : List Job
  lastJob : Nat
  unlock : Unlock
  deriving DecidableEq, Repr

/-! ## Events, watchdogs, faults -/

structure Evt where
  pend : BitVec 64
  core : BitVec 64
  mask : BitVec 64
  cnt : List Nat
  deriving DecidableEq, Repr

structure Wdt where
  enable : Bool
  lock : Bool
  window : Nat
  warn : Bool
  grace : Bool
  keyArmed : Bool
  restarting : Bool
  period : Nat
  warnCount : Nat
  restartCount : Nat
  earlyCount : Nat
  graceS : Nat
  hrstWidth : Nat
  /-- start of the present period on the model clock -/
  start : Nat
  deriving DecidableEq, Repr

/-- A captured error (R443, R471). -/
structure Capture where
  source : Nat
  addr : Nat
  master : Nat
  access : Nat
  time : DWord
  micros : Nat
  deriving DecidableEq, Repr

/-- A fault log entry, or an error that waits for its entry (R472). -/
structure FaultEntry where
  num : Nat
  err : Capture
  reaction : Nat
  coalesced : Nat
  detail : List Byte
  instant : Nat
  deriving DecidableEq, Repr

/-- An injection of FOLLY_INJECT whose reply has not been placed yet (R478), at an address or over the link. -/
structure Arming where
  relayed : Bool
  checker : Nat
  count : Nat
  hard : Bool
  deriving DecidableEq, Repr

structure Faults where
  cap : Option Capture
  later : Nat
  /-- errors whose log entry is not yet written, oldest first -/
  queue : List FaultEntry
  log : List FaultEntry
  lastEntry : Nat
  policies : List Nat
  /-- Folly: checks left per checker 0x01–0x0F, and the severity bit (R477) -/
  inject : List (Nat × Bool)
  arming : List Arming
  /-- Folly: detectors held at their fault level (R479) -/
  forces : List Nat
  /-- fault entries of the present second (R472: at most 64) -/
  second : Nat
  inSecond : Nat
  deriving DecidableEq, Repr

/-! ## Holdup: charger and gauge -/

/-- Charger states of R348. -/
inductive ChgState where
  | off
  | absent
  | precondition
  | cc
  | cv
  | topoff
  | done
  | tempPause
  | fault
  deriving DecidableEq, Repr

structure Charger where
  state : ChgState
  fault : Nat
  band : Nat
  set : ChargeCfg
  safeDefaults : Bool
  /-- the governor holds the charge current at 0 A, or halves it (R353) -/
  govHold : Bool
  govHalf : Bool
  /-- charge timer in µs up to `timerAt`, and whether it runs -/
  timer : Nat
  timerRun : Bool
  contactAt : Nat
  /-- the enabling conditions returned; the evaluation comes 1 s later -/
  restartDue : Bool
  deriving DecidableEq, Repr

structure Gauge where
  /-- SOC and U in 10⁻⁹ of full scale -/
  soc : Nat
  u : Nat
  fcc : Nat
  cycles : Nat
  res : List Nat
  custom : Option (List (Nat × Nat))
  /-- the custom table in force, none for the built-in one: a table loaded applies from the next rest point (R358) -/
  active : Option (List (Nat × Nat))
  noRest : Bool
  learning : Bool
  /-- charge counted since the last reference point and its SOC (R357), and whether counting had a gap -/
  dqRef : Int
  socRef : Option Nat
  discharge : Nat
  refAt : Nat
  /-- the last update, from which U grows by the day under NO_REST (R356) -/
  updatedAt : Nat
  /-- a write of the gauge state, of the learned values, waits for room in the store (R324) -/
  stateDue : Bool
  learnedDue : Bool
  /-- the job of GAUGE_TABLE_LOAD whose table is not yet stored (R358, R450) -/
  tableJob : Option Nat
  /-- a pack found again waits for its 60 s without load (R359) -/
  foundWait : Bool
  deriving DecidableEq, Repr

/-! ## Lodge -/

/-- STATUS of the time value (R376). -/
inductive TimeStatus where
  | invalid
  | setLocal
  | setSynced
  | holdover
  deriving DecidableEq, Repr

/-- SUPPLY of R380. -/
inductive LodgeSupply where
  | main
  | vbat
  | vkeep
  deriving DecidableEq, Repr

/-- Alarm states of R383. -/
inductive AlarmState where
  | disarmed
  | armed
  | fired
  deriving DecidableEq, Repr

structure Alarm where
  state : AlarmState
  /-- in 1/1024 s since the epoch -/
  time : Nat
  wake : Bool
  skipped : Bool
  /-- fired while only the Lodge lived: raised at the next boot -/
  toRaise : Bool
  deriving DecidableEq, Repr

structure Lodge where
  /-- 1/1024 s since 2000-01-01T00:00:00Z -/
  ticks : Nat
  /-- fraction of a tick, in 1/(10⁶ × 2097152) -/
  frac : Nat
  status : TimeStatus
  source : Nat
  lastSync : Nat
  /-- SOURCE of the last synchronised set, 0 while there was none -/
  lastSyncSource : Nat
  trim : Int
  band : List Int
  bandSel : Nat
  /-- N in force in the window in progress (R373) -/
  n : Int
  /-- when the window in progress began (R372) -/
  windowAt : Nat
  lock : Bool
  supply : LodgeSupply
  lodgeReset : Bool
  /-- the boot has read LODGE_RESET since the lock opened -/
  checked : Bool
  alarms : List Alarm
  timeSet : Option TimeSetJob
  leadStep : Option LeadStep
  deriving DecidableEq, Repr

/-! ## Thermal model, bulk engine, life cycle, firmware -/

structure Thermal where
  /-- nodes 0–14 and T_HS, in 0.01 °C × 2^16 -/
  nodes : List Int
  warn : Bool
  stage : Nat
  fast : Bool
  coolSince : Option Nat
  /-- successive scans with the sensor at or above 135 °C (R491) -/
  hits : List Nat
  /-- a thermal fault was detected since the last fault restart (R204, R494, R550) -/
  hold : Bool
  /-- the last update found a node at or above 135 °C -/
  hot : Bool
  /-- the comparator of R491 has tripped since the last update: the node captured, and the instant -/
  trip : Option (Nat × Nat)
  /-- DTB0–DTB3 of the flash (R330) and the band of the retained-SRAM scrub, 1 above 90 °C (R326, R496) -/
  flashBand : Nat
  scrubBand : Nat
  deriving DecidableEq, Repr

/-- A descriptor in its ring (R499): what its owner posted, the bytes read into the buffer and the bytes written or compared. -/
structure Desc where
  post : BulkPost
  got : Nat
  put : Nat
  /-- a parity error restarted it: the byte offset in the burst, and whether Folly made it (R472, R507) -/
  retried : Option (Nat × Bool)
  deriving DecidableEq, Repr

/-- A burst in the shared buffer (R498): its channel, its bytes, and those of the second source of a COMPARE. -/
structure Burst where
  chan : Nat
  bytes : List Byte
  other : List Byte
  deriving DecidableEq, Repr

/-- A DIAG_COMPARE in progress on channel 15 (R505): its job, the sector to check next and the sectors left of those asked for. -/
structure Diag where
  job : Nat
  copies : Bool
  region : Nat
  next : Nat
  left : Nat
  count : Nat
  deriving DecidableEq, Repr

structure Bulk where
  rings : List (List Desc)
  /-- descriptors whose ring is full: their requesters wait (R499) -/
  waiting : List BulkPost
  /-- last class 1 channel served by the write engine, and by the read engine (R501) -/
  last : Nat
  lastRead : Nat
  /-- bursts in the buffer, oldest first -/
  buffer : List Burst
  /-- working and retained SRAM as the engine moves bytes in them -/
  sram : Cells
  retained : Cells
  /-- the last burst that each channel put into its peripheral -/
  sent : List (List Byte)
  /-- offset of the first mismatch that each channel's last COMPARE reports, 0xFFFFFFFF with none (R505) -/
  found : List Nat
  diag : Option Diag
  /-- channels that a commit pauses and that had a burst in progress as it began: they finish that one (R502) -/
  finishing : List Nat
  deriving DecidableEq, Repr

/-- A seal break between its fuse and its last step (R523): the cause byte and the sessions it closes. -/
structure BreakSt where
  cause : Nat
  sessions : Nat
  /-- waits for deferred signing (R286) -/
  deferred : Bool
  /-- its SEAL_BREAK record is on its way to the log -/
  asked : Bool
  /-- found at a boot: until it is complete IDENT and GET_STATUS alone are served (R524) -/
  atBoot : Bool
  deriving DecidableEq, Repr

structure Life where
  prov : Bool
  calEntered : Bool
  retired : Bool
  seals : Nat
  breaks : Nat
  lastTransition : DWord
  /-- generation whose private key the key slot holds -/
  keySlot : Option Nat
  keyGen : Nat
  /-- public keys by generation, X‖Y (R294) -/
  pubKeys : List (Nat × List Byte)
  breaking : Option BreakSt
  /-- a seal break found before the boot is complete, or at the first sample before deferred signing has finished, waits
  (R286): its cause byte -/
  breakDue : Option Nat
  /-- sectors RETIRE has still to erase and its job -/
  retireLeft : Nat
  retireJob : Option Nat
  /-- a boot has found the erase of RETIRE unfinished: until its end IDENT and GET_STATUS alone are served (R526) -/
  retireBoot : Bool
  /-- the retirement record of R527 -/
  retirement : List Byte
  deriving DecidableEq, Repr

structure FwSlot where
  bytes : Cells
  staged : Nat
  length : Nat
  version : Word
  secVersion : Nat
  headerOk : Bool
  bodyOk : Bool
  activation : Word
  activationN : Word
  trial : Bool
  confirm : Bool
  deriving DecidableEq, Repr

structure Fw where
  slotA : FwSlot
  slotB : FwSlot
  /-- false: slot A runs; true: slot B -/
  runB : Bool
  stagedValid : Bool
  activatePending : Bool
  rollback : Nat
  trialRun : Bool
  /-- the chunk staged last: the bytes staged before it, and when its transfer began (R508) -/
  chunk : Option (Nat × Nat)
  /-- the staged slot's ACTIVATION is programmed and its ACTIVATION_N is not yet (R531) -/
  programming : Bool
  deriving DecidableEq, Repr

/-! ## The machine -/

/-- The hardware: all of the module's state but the queue of waiting commands. -/
structure Hw where
  /-- the model's clock in µs; it only orders instants and is no register -/
  clk : Nat
  /-- the model's counter of free values drawn; no part of the hardware -/
  free : Nat
  factory : Factory
  image : Image
  ins : Insertion
  straps : Straps
  lines : Lines
  rst : Resets
  pwr : PowerPath
  idle : IdleSt
  gov : Gov
  outs : List Output
  pool : Pool
  vcl : Vcl
  ports : List Port
  acc : AccBus
  adc : Adc
  seq : Seq
  prm : Prm
  metro : Metro
  slots : List Slot
  log : Log
  store : Store
  ackSeq : Nat
  recordsLost : Nat
  proto : Proto
  evt : Evt
  wdt : Wdt
  faults : Faults
  chg : Charger
  gauge : Gauge
  lodge : Lodge
  therm : Thermal
  bulk : Bulk
  life : Life
  fw : Fw
  deriving DecidableEq, Repr

structure State where
  hw : Hw
  /-- commands that wait, first in, first out -/
  pending : List Instr
  deriving DecidableEq, Repr

/-! ## The state right after reset -/

/-- Supervision and pool defaults common to every output (R181, R85, R131). -/
def OutCfg.base : OutCfg :=
  { uv := 6, ov := 6, filt := 5, prio := 0, safe := .offDischarge, lightLoad := true, vSet := 0, vMin := 0, vMax := 0,
    ramp := 0, ripple := 2, hostSw := false, minPh := 0, maxPh := 0, lend := false, iAdd := 5500, iShed := 4000,
    tDwell := 20, burst := true, vclEn := false, slewDef := 4, slewMax := 5, mode := .preferred, descAddr := 0,
    ilim := 10, floorCode := 0 }

/-- Factory default of a VP output (R85, R131): V_BOOT 160, V_MAX 400, unused but for VP1. -/
def OutCfg.vp (used : Bool) : OutCfg :=
  { OutCfg.base with vSet := 160, vMax := 400, minPh := if used then 2 else 0, maxPh := if used then 6 else 0,
                     lend := used, vclEn := used }

/-- Factory default of a VM output (R146): 3.30 V at 5.0 mV/µs. -/
def OutCfg.vm : OutCfg := { OutCfg.base with vSet := 250, vMax := 470, ramp := 10 }

/-- Factory default of a VH output (R146): 24.0 V at 24.0 mV/µs. -/
def OutCfg.vh : OutCfg := { OutCfg.base with vSet := 380, vMax := 460, ramp := 48 }

/-- Factory default of port EPn (R49, R72): PREFERRED, address 0x50 + n − 1, 3.00 A, class P3. -/
def OutCfg.ep (n : Nat) : OutCfg := { OutCfg.base with prio := 3, descAddr := 0x50 + n }

/-- A step with nothing in it. -/
def Step.blank : Step :=
  { last := false, hrstRelease := false, xevSel := 0, xevLevel := false, onMask := 0, offMask := 0, waitMask := 0,
    token := 0, tStable := 0, delay := 0, timeout := 20, matchStep := 0, reserved := false }

/-- POWER_UP of R483: VM1, then VP1 with HRST_RELEASE. -/
def Step.tableUp : List Step :=
  [{ Step.blank with onMask := 0x10, waitMask := 0x10, tStable := 10, timeout := 10 },
   { Step.blank with onMask := 0x01, waitMask := 0x01, tStable := 10, timeout := 10, hrstRelease := true, last := true }]

/-- POWER_DOWN of R483 over the outputs of `others`: the others, VP1, VM1. -/
def Step.tableDown (others : BitVec 24) : List Step :=
  [{ Step.blank with offMask := others, waitMask := others, tStable := 1 },
   { Step.blank with offMask := 0x01, waitMask := 0x01, tStable := 1 },
   { Step.blank with offMask := 0x10, waitMask := 0x10, tStable := 1, last := true }]

/-- The factory default image of R302, as far as the manual gives it; its sequences are those of R483 (DESIGN CHOICE, log 3). -/
def Image.default : Image :=
  { outs := [OutCfg.vp true, OutCfg.vp false, OutCfg.vp false, OutCfg.vp false, OutCfg.vm, OutCfg.vm, OutCfg.vm,
             OutCfg.vm, OutCfg.vm, OutCfg.vm, OutCfg.vh, OutCfg.vh, OutCfg.ep 0, OutCfg.ep 1, OutCfg.ep 2, OutCfg.ep 3,
             OutCfg.ep 4, OutCfg.ep 5]
    owners := [1, 1, 1, 1, 0, 0, 0, 0]
    pgoodSet := 0x11
    up := Step.tableUp
    down := Step.tableDown 0x03FFE0
    host := []
    retryMax := 0
    tOffMin := 100
    autostart := false
    vinW := 150
    batW := 40
    tCap := 10
    wdt := { enable := false, lock := false, window := 1, period := 1000, graceS := 60, hrstWidth := 10 }
    filters := [10, 10, 100, 10, 10, 10, 10, 10, 10, 10, 10, 10, 10]
    xevEdge := [1, 1, 1, 1]
    policies := [3, 1, 0, 0, 0, 1, 1, 1, 1, 1, 0, 1, 1]
    backup := { en := true, vCut := 3000, tMin := -20, tMax := 60, lowSoc := 10 }
    chem := .liIon
    cells := 3
    designCap := 4000
    keepaliveMin := 10
    charge := { en := true, iChg := 1000, cvReduce := 0, iTerm := none, tTopoff := 15, vRech := 100 }
    scan := { mask := 0, interval := 5, refFull := false, tAvg := 100 }
    prm := { cabinet := false, upList := [], downList := [], admitMask := 0xFFFE, autoJoinRun := true, orphanTimeout := 0 }
    ckptStep := 10
    allowUnsync := false
    acc400 := true
    configId := 0 }

def Output.off : Output :=
  { on := false, enabled := false, ramping := false, rampEnded := false, stepDone := false, sup := .unsupervised,
    good := false, goodAt := 0, outside := false, ref := 0, tgt := 0, rampAt := 0, held := false, past := [],
    hostTarget := none, hostState := none, uv := 6, ov := 6, filt := 5, shed := false, battOff := false, faultOff := false,
    halfFreq := false, discharging := false, episode := false, epMax := 0 }

/-- An output as a main-domain reset leaves it: off, its next target the configured one (R142, R146), supervised as
configured (R181). -/
def Output.loaded (c : OutCfg) : Output :=
  { Output.off with uv := c.uv, ov := c.ov, filt := c.filt, tgt := c.vSet }

def VpRail.idle : VpRail :=
  { slewing := false, settled := false, cls := 0, hintHold := false, respacing := false, degraded := false,
    slewEnd := none, stallRaised := false, add := 0, shed := 0, cancel := 0, denied := 0 }

def Phase.parked (owner : Nat) : Phase :=
  { owner := owner, serving := 0, cond := .parked, oosReason := 0, lentAt := 0, claims := 0 }

/-- A phase as its configured owner leaves it: parked without one, otherwise in STANDBY (R83). -/
def Phase.idle (owner : Nat) : Phase := { Phase.parked owner with cond := if owner = 0 then .parked else .standby }

def Port.empty : Port :=
  { state := .empty, reason := 0, enabled := false, shed := false, eppresLow := false, seatEnd := 0, accepted := false,
    descValid := false, iDecl := 0, cDecl := 0, boardId := [0, 0, 0, 0], ilim := 10, active := 10, waiting := false,
    spacing := false, reread := false }

def OutTelem.empty : OutTelem :=
  { vAvg := 0, iAvg := 0, pAvg := 0, valid := false, sat := false, onAtEnd := false, peakEmpty := true, vMin := 0xFFFF,
    iMax := -2147483648, pMax := -2147483648, energy := 0, residue := 0, n := 0, sumV := 0, sumI := 0, sumP := 0,
    clearDue := false, since := none }

def ChanResult.never : ChanResult := { slice := 3, valid := false, scan := 0, code := 0, value := 0 }

def Peer.none : Peer :=
  { state := 0, done := 0, flags := 0, cause := 0, serial := 0, caps := 0, frames := 0, pIn := 0 }

/-- A path at rest: a decimator of an order, empty delay lines (R248). -/
def Signal.rest (order : Nat) : Signal :=
  { cic := List.replicate order 0, comb := List.replicate order 0, fir := [], hpX := 0, hpY := 0, past := [] }

def PathFront.rest (order : Nat) : PathFront := { v := Signal.rest order, i := Signal.rest order }

def PathVals.zero : PathVals := { volt := 0, amp := 0, power := 0, freq := 0 }

/-- Compensators that keep the gain of R248 within ±0.0003 % from DC to 2.5 kHz, and high-pass poles of 0.50 Hz: the manual gives
these properties, not the constants; the high-pass gains keep the power at a line of 45–65 Hz within 0.0035 % on both paths (DESIGN
CHOICE, log 64). -/
def MeterRom.asDelivered : MeterRom :=
  { tapsP := [226460736, 374213027, 178201663, -28683986, -125067328, -49021176, 104798213, -30799869]
    tapsC := [1763455752, -412400616, 74902680, -7359028]
    poleP := 4294794589, poleC := 4294276508, gainP := 4295077004, gainC := 4294817951 }

def Chan.blank : Chan :=
  { calP := [], calC := [], check := 0, imp := 0, exp := 0, cImp := 0, cExp := 0, diverge := false, calHold := false,
    inputHold := false, disagree := false, disagreeSeen := false, creep := false, overrange := false, disRun := 0,
    compared := 0, disagreed := 0, dIP := 0, dEP := 0, dIC := 0, dEC := 0, lIP := 0, lEP := 0, lIC := 0, lEC := 0,
    skip := true, lSkip := true, resume := false, load := false, frontP := PathFront.rest 3, frontC := PathFront.rest 4, ahead := [],
    valsP := PathVals.zero, valsC := PathVals.zero }

def Slot.none : Slot :=
  { st := .free, startPending := false, closePending := false, captured := false, reason := 0, flags := 0, mask := 0,
    sid := [], tStart := 0, tStop := 0, impStart := 0, expStart := 0, impStop := 0, expStop := 0, metro := 0, seq := 0,
    openJob := Option.none, closeJob := Option.none }

def Mailbox.empty : Mailbox :=
  { cmd := [], rep := [], replyState := .idle, replyTag := 0, lastTag := 0, overrun := false, coreReset := false,
    inProc := none, queued := none, judged := false, ready := none, taken := true, repLen := 0, ptr := 0, ptrReset := false,
    readBytes := [], acked := false, stretching := false }

def Unlock.none : Unlock :=
  { unlocked := false, challenge := Option.none, issuedAt := 0, lastAt := 0, wrong := 0, locked := false, lockedAt := 0 }

def Alarm.disarmed : Alarm := { state := .disarmed, time := 0, wake := false, skipped := false, toRaise := false }

def FwSlot.erased : FwSlot :=
  { bytes := [], staged := 0, length := 0, version := 0, secVersion := 0, headerOk := false, bodyOk := false,
    activation := 0xFFFFFFFF, activationN := 0xFFFFFFFF, trial := false, confirm := false }

/-- The engine with nothing posted. -/
def Bulk.idle : Bulk :=
  { rings := List.replicate 16 [], waiting := [], last := 0, lastRead := 0, buffer := [], sram := [], retained := [], sent := List.replicate 16 []
    found := List.replicate 16 0xFFFFFFFF, diag := none, finishing := [] }

/-- The slot that the module is delivered running from (DESIGN CHOICE, log 4). -/
def FwSlot.delivered : FwSlot :=
  { FwSlot.erased with length := 128, headerOk := true, bodyOk := true, activation := 1, activationN := 0xFFFFFFFE,
                       trial := true, confirm := true }

/-- Gains of the 64 channels as delivered, in 2⁻¹⁶ of the unit of R165 per code: the manual names the trim, not its values
(DESIGN CHOICE, log 10). AIN1–AIN8 and the check channels stand at the converter input, 125 µV a code (R162). -/
def channelGains : List Nat :=
  List.replicate 4 8192 ++ List.replicate 6 24576 ++ List.replicate 2 131072 ++ List.replicate 7 262144 ++
    [65536, 131072, 16384, 262144, 16384] ++ List.replicate 4 524288 ++ List.replicate 8 65536 ++ List.replicate 6 131072 ++
    [65536, 262144] ++ List.replicate 6 262144 ++ [0] ++ List.replicate 10 8192 ++ List.replicate 3 0

/-- Codes that stand for 0, as delivered: mid-scale where a channel takes both signs (DESIGN CHOICE, log 10). -/
def channelZeros : List Nat :=
  List.replicate 24 0 ++ List.replicate 27 8192 ++ List.replicate 9 0 ++ [8192] ++ List.replicate 3 0

/-- The module as delivered and not yet seated: no main-domain reset has run. Reset values that the manual states stand
as stated; the others are named in the assumption log. -/
def Hw.reset : Hw :=
  { clk := 0
    free := 0
    factory := { variant := .MB, hwRev := 0, serial := 0, bootRom := 0, metroRom := 0, secret := List.replicate 16 0,
                 cert := [], crystalTrim := 0, bandTable := List.replicate 8 0, gains := channelGains, zeroCodes := channelZeros,
                 fwKey := List.replicate 64 0, thermal := [],
                 meter := MeterRom.asDelivered }
    image := Image.default
    ins := { state := .unseated, presA := false, presB := false, path33 := false, inputSwitch := false,
             vbatSwitch := .opened, holdoff := false, fails := 0, storeReady := false, mainOn := false, booted := false,
             porCause := 1, strapsDone := false, scrubDue := false }
    straps := { addr := 0, idx := 0, lead := true }
    lines := { en := false, rstLow := false, calenLow := false, fltLow := false, xev := [false, false, false, false] }
    rst := { cause := 1, history := [], coreReq := none, restart := none, fwReset := false, safe := false,
             bootAt := 0 }
    pwr := { vinHere := false, vinUsable := false, onBattery := false, handingOver := false, vibFrom := 12000, vibAt := 0, ret := .idle, reserveLow := false,
             lowPackRaised := false, lowReserveRaised := false, icehouseArmed := false, icehouse := false,
             battAbsent := true, btsOpen := false, vbat := 0, packTemp := 0,
             backup := Image.default.backup, packSpent := false, vhWait := [none, none], vhNext := false,
             commit := none, commitRemoval := false }
    idle := { idle := false, skipping := List.replicate 14 false, pct := 0, acc := 0 }
    gov := { stage := .normal, batSource := false, thermal := false, ratio := false, vinW := 150,
             batW := 40, tCap := 10, bEff := 0, lastEval := 0, dwellEnd := 0, nextShed := 0, shedList := [],
             derated := [], lowSince := none, nextRaise := none }
    outs := Image.default.outs.map Output.loaded
    pool := { phases := Image.default.owners.map Phase.idle
              rails := List.replicate 4 VpRail.idle, lendCount := 0, move := none }
    vcl := { kept := none, ok := 0, bad := 0, resp := none }
    ports := List.replicate 6 Port.empty
    acc := { port := none, waiting := false, free := true, condLosses := 0, nacks := 0, sclStuck := false }
    adc := { chans := List.replicate 64 ChanResult.never, outs := List.replicate 18 OutTelem.empty,
             supply := List.replicate 64 0, supplySum := List.replicate 64 0, supplyN := List.replicate 64 0, pIn := 0, pInSum := 0,
             scanCount := 0, windowCount := 0, scanning := false, mask := 0, set := Image.default.scan, next := none,
             restartWindow := false, ref := .off, fromOff := true, ready := false, rotation := 0, rotationDue := false,
             calibrating := false, sliceOos := 0, refBad := 0, refGood := 0, refFault := false, runMain := 0, runBatt := 0 }
    seq := { state := .off, step := 0, stepAt := 0, passing := false, dir := .up, active := false, pendOn := false, offWait := false, offStart := 0,
             retryWait := false, retryReleased := false, retries := 0, hrst := false, pgood := false, fltDrive := false,
             cause := 0, job := none, onJob := none, doneStep := none, doneDown := false, toStep := 0, toDir := none,
             toUnmet := 0, toTime := 0, clearTest := [], standbyReq := none, wake := 0, hostStepsDone := false,
             hostOff := 0, limpFault := false, limpRun := false, limpEnLow := false, limpExit := false, limpKeep := false,
             service := { job := none, ready := false, downAsked := false, lastWordDone := false } }
    prm := { role := .standalone, link := .listening, conflict := false, orphanExpired := false, token := 0, tokenSent := 0, roster := 0,
             cmd := 0, order := 0, acted := 0, dirDown := false, step := 0, cabRunning := false, cycle := 0, err := 0,
             admitMask := 0xFFFE, autoJoinRun := true, peers := List.replicate 16 Peer.none, joins := [],
             joinSent := false, joinWait := false, leadOn := false, leaveDue := none, clearLeft := 0, clearJob := none,
             clearRetry := false, relay := none, relayTag := 0, unlock := Unlock.none, leadTime := 0, ownTicks := 0,
             leadState := 0, tx := [], orphanAt := 0 }
    metro := { chans := List.replicate 8 Chan.blank, start := 0, block := 0, blockStart := 0, blockTime := 0, ivBlocks := 0,
               compareDue := false, ivEnd := 0, frozen := false, fifoP := [], fifoC := [], calJob := none }
    slots := List.replicate 128 Slot.none
    log := { size := 65536, entries := [], wpos := 0, erased := 65536, lastSeq := 0, nextSeq := 0, worn := [], torn := false,
             gen := 4095, counts := [], waiting := [],
             reclaiming := false, signPending := false }
    store := { config := ⟨[], List.replicate 256 0, 0⟩, half0 := ⟨[], List.replicate 128 0, 0⟩,
               half1 := ⟨[], List.replicate 128 0, 0⟩, fault := ⟨[], List.replicate 1024 0, 0⟩, pSeq := 0, cSeq := 0,
               fSeq := 0, nextHalf := false, queue := [], erase := none, conflicts := 0, restored := 0, retiredSecs := 0,
               spare := 1535, estimated := 0, image := none, staging := [], ckptAt := List.replicate 16 0,
               ckptTime := List.replicate 16 0, proving := [], erased := [] }
    ackSeq := 0
    recordsLost := 0
    proto := { a := Mailbox.empty, v := Mailbox.empty, submissions := 0, jobs := [], lastJob := 0,
               unlock := Unlock.none }
    evt := { pend := 0, core := 0, mask := 0, cnt := List.replicate 64 0 }
    wdt := { enable := false, lock := false, window := 1, warn := false, grace := false, keyArmed := false,
             restarting := false, period := 1000, warnCount := 0, restartCount := 0, earlyCount := 0, graceS := 60,
             hrstWidth := 10, start := 0 }
    faults := { cap := none, later := 0, queue := [], log := [], lastEntry := 0, policies := Image.default.policies,
                inject := List.replicate 15 (0, false), arming := [], forces := [], second := 0, inSecond := 0 }
    chg := { state := .off, fault := 0, band := 0, set := Image.default.charge, safeDefaults := false, govHold := false,
             govHalf := false, timer := 0, timerRun := false, contactAt := 0, restartDue := false }
    gauge := { soc := 0, u := 0, fcc := 4000, cycles := 0, res := [], custom := none, active := none, noRest := false,
               learning := true, dqRef := 0, socRef := none, discharge := 0, refAt := 0, updatedAt := 0, stateDue := false,
               learnedDue := false, tableJob := none, foundWait := false }
    lodge := { ticks := 0, frac := 0, status := .invalid, source := 0, lastSync := 0, lastSyncSource := 0, trim := 0, windowAt := 0,
               band := List.replicate 8 0, bandSel := 0, n := 0, lock := true, supply := .vkeep, lodgeReset := true,
               checked := false, alarms := [Alarm.disarmed, Alarm.disarmed], timeSet := none, leadStep := none }
    therm := { nodes := List.replicate 16 0, warn := false, stage := 0, fast := false, coolSince := none,
               hits := List.replicate 6 0, hold := false, hot := false, trip := none, flashBand := 0, scrubBand := 0 }
    bulk := Bulk.idle
    life := { prov := true, calEntered := false, retired := false, seals := 0, breaks := 0, lastTransition := 0,
              keySlot := none, keyGen := 0, pubKeys := [], breaking := none, breakDue := none, retireLeft := 0,
              retireJob := none, retireBoot := false,
              retirement := [] }
    fw := { slotA := FwSlot.delivered, slotB := FwSlot.erased, runB := false, stagedValid := false,
            activatePending := false, rollback := 0, trialRun := false, chunk := none,
            programming := false } }

/-- The machine right after reset: the hardware as above and no command waiting. -/
def State.reset : State := { hw := Hw.reset, pending := [] }

/-- Why a step stops with a fault. -/
inductive Fault where
  /-- Raised by VIN_UNUSABLE when VIN lies beyond the absolute maximum of 80 V (R536): no figure of the manual covers the
  module from then on. Safe: the model stops where the hardware has no stated behaviour. -/
  | beyondAbsoluteMaximum
  deriving DecidableEq, Repr

/-- Why a step is refused. -/
inductive Refusal where
  /-- Raised by an arm of exec that has no meaning yet. Safe: nothing is proved of the command. -/
  | notModelled (mnemonic : String)
  deriving DecidableEq, Repr

/-- What a meaning answers. -/
abbrev Out := Host.Outcome State Fault Refusal

end Sys2Proof.Machine
end

