-- ==== Sys2Proof/Config.lean ====
section
/-! DEFINITION. What the manual leaves open: constants without a body, so that no proof can see a value of them. A fresh
value is drawn by applying one to the counter `Hw.free`; a value that depends on named operands takes those operands. -/

namespace Sys2Proof

open Sys2Proof.Machine

/-- The configuration image that a run of image bytes means (R445): its layout is not given (DESIGN CHOICE, log 9). -/
opaque Config.imageOf : List Byte → Option Image

/-- Where an image holds the POWER_UP, POWER_DOWN and host-restart sequences and the cabinet up and down lists, in this order
(R187, R221, R462): the offsets are not given (DESIGN CHOICE, log 9). -/
opaque Config.listOffset : Fin 5 → Nat

/-- Offset of the first field of an image that breaks a rule of CONFIG_COMMIT (R445; DESIGN CHOICE, log 9). -/
opaque Config.badOffset : List Byte → Nat

/-- The private key of a key pair of R293 and R294: of the identity (0), or drawn for a generation (DESIGN CHOICE, log 11). -/
opaque Config.privateKey : Nat → Nat

/-- Bits of the modulators that no command carried, by draw, channel and MCLK period (R258; DESIGN CHOICE, log 27). -/
opaque Config.modBits : Nat → Nat → Nat → ModBits

/-- What METRO_READ's unsigned voltage reads for a negative DC mean (R256; DESIGN CHOICE, log 48). -/
opaque Config.negativeVolt : Int → Nat

/-- Byte of a random challenge (R417): the draw and the index (DESIGN CHOICE, log 11). -/
opaque Config.challengeByte : Nat → Nat → Byte

/-- A number that no rule states: a free value of each draw (DESIGN CHOICE, log 8). -/
opaque Config.freeNat : Nat → Nat

/-- A signed value that no rule states: a free value of each draw (DESIGN CHOICE, log 8). -/
opaque Config.freeInt : Nat → Int

/-- The thermistor table of channel 50 (R165): pack temperature in 0.01 °C for a code (DESIGN CHOICE, log 10). -/
opaque Config.thermistor : Nat → Int

/-- The built-in OCV table of a chemistry (R358): state of charge in 10⁻⁹ for a cell voltage in 0.1 mV (DESIGN CHOICE, log 32). -/
opaque Config.ocvSoc : Chem → Nat → Nat

/-- Slope of the built-in OCV table at a cell voltage (R355), in 0.1 mV per percent of charge (DESIGN CHOICE, log 32). -/
opaque Config.ocvSlope : Chem → Nat → Nat

/-- The default resistance of a band of a chemistry's table (R359), in 0.1 mΩ (DESIGN CHOICE, log 32). -/
opaque Config.defaultRes : Chem → Nat → Nat

end Sys2Proof
end

