-- ==== Sys2Proof/Machine/Ops.lean ====
section
/-! DEFINITION. The shared operations below every command: bytes and check sums, buffers, the clock, events, jobs, error
capture, outputs, the reactions of R200 and R475. -/

namespace Sys2Proof.Machine

/-! ## What a meaning answers -/

/-- The common form of a meaning: a next state whose hardware is a function of the hardware before; the queue stays. -/
def State.upd (s : State) (f : Hw → Hw) : Out := .next { s with hw := f s.hw }

/-! ## Bytes -/

/-- The n low bytes of a number, big-endian (R9). -/
def be : Nat → Nat → List Byte
  | 0, _ => []
  | n + 1, v => BitVec.ofNat 8 (v / 256 ^ n) :: be n v

/-- The number that bytes spell big-endian (R9). -/
def ube (bs : List Byte) : Nat := bs.foldl (fun a b => a * 256 + b.toNat) 0

/-- A signed number in n bytes, two's complement. -/
def beInt (n : Nat) (v : Int) : List Byte := be n (v % (256 ^ n : Nat)).toNat

def b2n (b : Bool) : Nat := if b then 1 else 0

/-- Bytes from an offset, as many as there are up to n. -/
def slice (bs : List Byte) (off n : Nat) : List Byte := (bs.drop off).take n

/-- A list cut or filled with a value to n places. -/
def fit (n : Nat) (d : Byte) (bs : List Byte) : List Byte := (bs.take n) ++ List.replicate (n - bs.length) d

def zeros (n : Nat) : List Byte := List.replicate n 0

/-- The bits of a byte, most significant first. -/
def byteBits (b : Byte) : List Bool :=
  [b.getLsbD 7, b.getLsbD 6, b.getLsbD 5, b.getLsbD 4, b.getLsbD 3, b.getLsbD 2, b.getLsbD 1, b.getLsbD 0]

/-- The n low bits of a number, most significant first. -/
def natBits : Nat → Nat → List Bool
  | 0, _ => []
  | n + 1, v => v.testBit n :: natBits n v

/-- One bit into a CRC register of width w, no reflection. -/
def crcBit (w : Nat) (poly : BitVec w) (crc : BitVec w) (b : Bool) : BitVec w :=
  if (crc.getLsbD (w - 1)) != b then (crc <<< 1) ^^^ poly else crc <<< 1

def crcBytes (w : Nat) (poly init : BitVec w) (bs : List Byte) : BitVec w :=
  bs.foldl (fun c b => (byteBits b).foldl (crcBit w poly) c) init

/-- CRC-16 of R405 and R50. -/
def crc16 (bs : List Byte) : Half := crcBytes 16 0x1021 0xFFFF bs

/-- CRC-32 of R306, R289, R213, R244. -/
def crc32 (bs : List Byte) : Word := crcBytes 32 0x04C11DB7 0xFFFFFFFF bs

/-- CRC-4 of R122 over bits in transmission order. -/
def crc4 (bits : List Bool) : BitVec 4 := bits.foldl (crcBit 4 0x3) 0xF

/-! ## Byte buffers -/

/-- Byte at an address; an address without an entry reads d. -/
def Cells.get (d : Byte) : Cells → Nat → Byte
  | [], _ => d
  | (k, v) :: r, a => if k = a then v else Cells.get d r a

/-- Write one byte, keeping the canonical form. -/
def Cells.put (d : Byte) : Cells → Nat → Byte → Cells
  | [], a, b => if b = d then [] else [(a, b)]
  | (k, v) :: r, a, b =>
    if k = a then (if b = d then r else (k, b) :: r)
    else if a < k then (if b = d then (k, v) :: r else (a, b) :: (k, v) :: r)
    else (k, v) :: Cells.put d r a b

/-- Write bytes at rising addresses. -/
def Cells.putAll (d : Byte) (m : Cells) (a : Nat) : List Byte → Cells
  | [] => m
  | b :: r => Cells.putAll d (Cells.put d m a b) (a + 1) r

/-- Read n bytes at rising addresses. -/
def Cells.read (d : Byte) (m : Cells) (a : Nat) : Nat → List Byte
  | 0 => []
  | n + 1 => Cells.get d m a :: Cells.read d m (a + 1) n

/-- Canonical form: addresses strictly rising, no entry equal to d. -/
def Cells.wf (d : Byte) : Cells → Bool
  | [] => true
  | (k, v) :: r => v != d && (match r with | [] => true | (k', _) :: _ => decide (k < k')) && Cells.wf d r

/-! ## Parts of the hardware -/

def Hw.out (h : Hw) (k : Nat) : Output := h.outs.getD k Output.off

def Hw.inLimp (h : Hw) : Bool := h.seq.state == .limp

/-- The factory hardware default table of R483 over the image's settings of output k: supervision, targets, pool and
priority; the voltage command link is disabled. -/
def OutCfg.limp (c : OutCfg) (k : Nat) : OutCfg :=
  let c := { c with uv := 6, ov := 6, filt := 5, prio := 0, vclEn := false }
  if k = 0 then { c with vSet := 160, minPh := 2, maxPh := 4, lend := false, slewDef := 4 }
  else if k = 4 then { c with vSet := 250, ramp := 10 } else c

/-- The settings in force for output k: the image's, in LIMP those of R483. -/
def Hw.cfg (h : Hw) (k : Nat) : OutCfg :=
  let c := h.image.outs.getD k OutCfg.base
  if h.inLimp then c.limp k else c
def Hw.port (h : Hw) (p : Nat) : Port := h.ports.getD p Port.empty
def Hw.chan (h : Hw) (c : Nat) : Chan := h.metro.chans.getD c Chan.blank
def Hw.slot (h : Hw) (n : Nat) : Slot := h.slots.getD n Slot.none
def Hw.rail (h : Hw) (k : Nat) : VpRail := h.pool.rails.getD k VpRail.idle
def Hw.phase (h : Hw) (p : Nat) : Phase := h.pool.phases.getD p (Phase.parked 0)
def Hw.result (h : Hw) (c : Nat) : ChanResult := h.adc.chans.getD c ChanResult.never

def Hw.modOut (h : Hw) (k : Nat) (f : Output → Output) : Hw := { h with outs := h.outs.modify k f }
def Hw.modPort (h : Hw) (p : Nat) (f : Port → Port) : Hw := { h with ports := h.ports.modify p f }
def Hw.modChan (h : Hw) (c : Nat) (f : Chan → Chan) : Hw :=
  { h with metro := { h.metro with chans := h.metro.chans.modify c f } }
def Hw.modSlot (h : Hw) (n : Nat) (f : Slot → Slot) : Hw := { h with slots := h.slots.modify n f }
def Hw.modRail (h : Hw) (k : Nat) (f : VpRail → VpRail) : Hw :=
  { h with pool := { h.pool with rails := h.pool.rails.modify k f } }
def Hw.modPhase (h : Hw) (p : Nat) (f : Phase → Phase) : Hw :=
  { h with pool := { h.pool with phases := h.pool.phases.modify p f } }

/-- The main domain is out of reset, its boot complete: contacts leave the column "In reset" of R17, which holds during boot. -/
def Hw.live (h : Hw) : Bool := h.ins.mainOn && h.ins.booted

/-- The main domain is powered, and RSTn does not hold it in reset (R512): its boot may run. -/
def Hw.unheld (h : Hw) : Bool := h.ins.mainOn && (h.ins.booted || !h.lines.rstLow)

/-- The image that the store holds, or the factory default image (R302). -/
def Hw.storedImage (h : Hw) : Image := h.store.image.getD Image.default

/-- CAPS.METRO (R1). -/
def Hw.metering (h : Hw) : Bool := h.factory.variant == .MB || h.factory.variant == .M
/-- CAPS.HOLDUP (R1). -/
def Hw.holdup (h : Hw) : Bool := h.factory.variant == .MB || h.factory.variant == .B

/-! ## Operands of an output: kinds and codes -/

def isVp (k : Nat) : Bool := k < 4
def isVm (k : Nat) : Bool := 4 ≤ k && k < 10
def isVh (k : Nat) : Bool := k == 10 || k == 11
def isEp (k : Nat) : Bool := 12 ≤ k && k < 18

/-- Target voltage in mV of a code (R130, R146). VP codes are 2.5 mV, so the odd half is dropped. -/
def codeMv (k code : Nat) : Nat :=
  if isVp k then 400 + code * 5 / 2 else if isVm k then 800 + code * 10 else 5000 + code * 50

/-- Bits of a 24-bit output mask (R180). -/
def maskHas (m : BitVec 24) (k : Nat) : Bool := m.getLsbD k

def maskOuts (m : BitVec 24) : List Nat := (List.range 18).filter (maskHas m)

def outsMask (p : Nat → Bool) : BitVec 24 := (List.range 18).foldl (fun m k => if p k then m ||| (1 <<< k) else m) 0

/-- A code as a reference in 0.5 mV (R130, R146). -/
def codeHalf (k code : Nat) : Nat :=
  if isVp k then 800 + 5 * code else if isVm k then 1600 + 20 * code else 10000 + 100 * code

/-- The code that a reference in 0.5 mV has reached; below code 0 it reads 0 (DESIGN CHOICE, log 15). -/
def halfCode (k r : Nat) : Nat :=
  if isVp k then (r - 800) / 5 else if isVm k then (r - 1600) / 20 else (r - 10000) / 100

/-- A value moves towards another by d at most. -/
def toward (a b d : Nat) : Nat := if a ≤ b then min b (a + d) else max b (a - d)

/-- The code at which output k is next enabled: the RAIL_SET target in force, otherwise V_BOOT or V_SET (R144, R156); in LIMP that
of the table (R483). -/
def Hw.nextTarget (h : Hw) (k : Nat) : Nat := if h.inLimp then (h.cfg k).vSet else (h.out k).hostTarget.getD (h.cfg k).vSet

/-- RAMP of a VM or VH output in 0.5 mV/µs; a VP reference moves by its own steps (R130, R146). -/
def Hw.rate (h : Hw) (k : Nat) : Nat := if isVp k then 0 else (h.cfg k).ramp

/-- The reference of output k as it stands, in 0.5 mV: a VM or VH reference moves at RAMP from where its ramp started, and
stands while the sink limit holds it (R150, R151, R156). -/
def Hw.refHalf (h : Hw) (k : Nat) : Nat :=
  let o := h.out k
  if o.ramping && !o.held then toward o.ref (codeHalf k o.tgt) ((h.clk - o.rampAt) * h.rate k) else o.ref

/-- The code of the reference as it stands; that of the next target while the output is off (R142, R429). -/
def Hw.refNow (h : Hw) (k : Nat) : Nat := if (h.out k).on then halfCode k (h.refHalf k) else h.nextTarget k

/-- The reference turns, stops or goes on from where it stands: what the window edges look back on (R140, R157). -/
def Hw.turnRef (h : Hw) (k : Nat) : Hw :=
  let r := h.refHalf k
  h.modOut k (fun o => { o with ref := r, rampAt := h.clk, past := (h.clk, r) :: o.past })

/-- A VP output with MAX_PH = 0 is unused (R85). -/
def Hw.used (h : Hw) (k : Nat) : Bool := !isVp k || 0 < (h.cfg k).maxPh

/-! ## Clock and time value -/

/-- Crystal pulses of a trim window (R372). -/
def trimWindow : Nat := 2097152

/-- One Lodge tick in the units of `Lodge.frac`. -/
def tickUnit : Nat := 1000000 * trimWindow

/-- The Lodge count after us microseconds with N pulses added a window (R372). -/
def Lodge.run (l : Lodge) (us : Nat) : Lodge :=
  let f := l.frac + us * (1024 * ((trimWindow : Int) + l.n).toNat)
  { l with ticks := l.ticks + f / tickUnit, frac := f % tickUnit }

def TimeStatus.code : TimeStatus → Nat
  | .invalid => 0 | .setLocal => 1 | .setSynced => 2 | .holdover => 3

/-- The time value of R376 for a count, a status and a source. -/
def timeValue (ticks : Nat) (st : TimeStatus) (source : Nat) : DWord :=
  BitVec.ofNat 64 (ticks / 1024 * 2 ^ 24 + ticks % 1024 * 2 ^ 14 + st.code * 2 ^ 10 + source * 2 ^ 8)

/-- The 1/1024 s count that a time value spells. -/
def ticksOf (v : Nat) : Nat := v / 2 ^ 24 * 1024 + v / 2 ^ 14 % 1024

def Lodge.now (l : Lodge) : DWord := timeValue l.ticks l.status l.source

def Hw.now (h : Hw) : DWord := h.lodge.now

/-- MICROS of R471. -/
def Hw.micros (h : Hw) : Nat := (h.clk - h.rst.bootAt) % 2 ^ 32

/-- IDLE time accounting across a span (R79): the share of the last full second spent in IDLE. -/
def IdleSt.run (i : IdleSt) (clk us : Nat) : IdleSt :=
  let s0 := clk / 1000000
  let s1 := (clk + us) / 1000000
  let w := fun n => if i.idle then n else 0
  if s0 = s1 then { i with acc := i.acc + w us }
  else if s1 = s0 + 1 then
    { i with pct := (i.acc + w (s1 * 1000000 - clk)) / 10000, acc := w (clk + us - s1 * 1000000) }
  else { i with pct := w 100, acc := w (clk + us - s1 * 1000000) }

/-- Time passes: the clock, the Lodge, the run-hour counters and the IDLE share move on. -/
def Hw.advance (h : Hw) (us : Nat) : Hw :=
  { h with
    clk := h.clk + us
    lodge := h.lodge.run us
    idle := h.idle.run h.clk us
    adc := { h.adc with runMain := h.adc.runMain + (if h.ins.mainOn then us else 0),
                        runBatt := h.adc.runBatt + (if h.ins.mainOn && h.pwr.onBattery then us else 0) }
    chg := { h.chg with timer := h.chg.timer + (if h.chg.timerRun && !h.chg.govHold then us else 0) } }

/-- Time passes until at least an instant. -/
def Hw.reach (h : Hw) (t : Nat) : Hw := h.advance (t - h.clk)

/-- One free value is drawn. -/
def Hw.draw (h : Hw) : Hw := { h with free := h.free + 1 }

/-! ## Events (R451–R454) -/

/-- A source that never becomes pending: reserved, or of an absent unit (R8, R451). -/
def Hw.mute (h : Hw) (s : Nat) : Bool :=
  s == 15 || s == 23 || s == 30 || s == 31 || (!h.metering && 24 ≤ s && s ≤ 27) || (!h.holdup && 32 ≤ s && s ≤ 39)

/-- Pending bit and counter in one step (R451), for the host and for the core (R452). -/
def Evt.fire (e : Evt) (s : Nat) : Evt :=
  { e with pend := e.pend ||| (1 <<< s), core := e.core ||| (1 <<< s), cnt := e.cnt.modify s (fun n => min 255 (n + 1)) }

/-- The fast clock runs again (R68); the reference buffer leaves LOW in REF_MODE AUTO (R169, R170). -/
def Hw.wake (h : Hw) : Hw :=
  if h.idle.idle then
    { h with idle := { h.idle with idle := false }
             adc := { h.adc with ref := if h.adc.ref == .low then .settling else h.adc.ref } }
  else h

/-- A source whose condition arises (R451); becoming pending wakes the fast clock (R68). -/
def Hw.raise (h : Hw) (s : Nat) : Hw :=
  if h.mute s then h
  else
    let h := h.wake
    { h with evt := h.evt.fire s }

def Hw.raiseIf (h : Hw) (c : Bool) (s : Nat) : Hw := if c then h.raise s else h

/-! ## Jobs (R414, R415) -/

/-- A new job for an opcode: the next number, the last 32 kept. -/
def Hw.newJob (h : Hw) (op : Byte) (byCore : Bool) : Hw :=
  let n := if h.proto.lastJob = 65535 then 1 else h.proto.lastJob + 1
  let j : Job := { num := n, op := op, state := .running, status := 0, result := 0, progress := 0, data := [],
                   byCore := byCore }
  let js := h.proto.jobs ++ [j]
  { h with proto := { h.proto with lastJob := n, jobs := js.drop (js.length - 32) } }

def Hw.modJob (h : Hw) (n : Nat) (f : Job → Job) : Hw :=
  { h with proto := { h.proto with jobs := h.proto.jobs.map (fun j => if j.num = n && j.state == .running then f j else j) } }

/-- A job ends with a status, a result code and result data. -/
def Hw.endJob (h : Hw) (n status result : Nat) (data : List Byte) : Hw :=
  h.modJob n (fun j => { j with state := .done, status := status, result := result, progress := 100, data := data })

def Hw.endJob? (h : Hw) (n : Option Nat) (status result : Nat) (data : List Byte) : Hw :=
  match n with
  | some n => h.endJob n status result data
  | none => h

def Hw.dropJob (h : Hw) (n : Nat) : Hw := h.modJob n (fun j => { j with state := .abandoned })

def Hw.dropJob? (h : Hw) (n : Option Nat) : Hw :=
  match n with
  | some n => h.dropJob n
  | none => h

/-- A job of an opcode still runs. -/
def Hw.jobRuns (h : Hw) (op : Byte) : Bool := h.proto.jobs.any (fun j => j.op == op && j.state == .running)

/-! ## Slots -/

def Slot.open? (s : Slot) : Bool := s.st == .opened

/-- N_RES: the OPEN slots, each with its reserved entry (R298). -/
def Hw.nRes (h : Hw) : Nat := h.slots.countP Slot.open?

/-- A close request for a slot (R281): the first fixes the reason. -/
def Slot.askClose (reason : Nat) (flags : BitVec 16) (s : Slot) : Slot :=
  if s.open? && !s.closePending then { s with closePending := true, reason := reason, flags := s.flags ||| flags } else s

def Hw.closeAll (h : Hw) (reason : Nat) (flags : BitVec 16) : Hw :=
  { h with slots := h.slots.map (Slot.askClose reason flags) }

/-! ## Turning outputs off (R153, R93, R57) -/

/-- Why an output is turned off (R153). -/
inductive OffCause where
  | command
  | safeState
  | fault
  | battery
  | removal
  deriving DecidableEq, Repr

/-- The phases of VP output k stop at once: owned ones become STANDBY, lent ones pass through QUIET (R93). A phase that
moves waits in QUIET for its owner to change (R102). -/
def Pool.stop (po : Pool) (k : Nat) : Pool :=
  let f := fun (i : Nat) (p : Phase) =>
    let p := { p with claims := p.claims &&& ~~~ ((1 : BitVec 4) <<< k) }
    if p.serving = k + 1 && (p.cond == .active || p.cond == .rampDown || p.cond == .quiet) then
      if p.owner = k + 1 && !(po.move.any (fun m => m.phase == i)) then { p with cond := .standby, serving := 0 }
      else { p with cond := .quiet }
    else p
  { po with
    phases := po.phases.mapIdx f
    rails := po.rails.modify k (fun r => { r with slewing := false, settled := false, hintHold := false,
                                                  respacing := false }) }

/-- HOLD keeps an output regulating under the SAFE_STATE reaction alone (R153). -/
def Hw.holds (h : Hw) (c : OffCause) (k : Nat) : Bool := c == .safeState && (h.cfg k).safe == .hold

/-- One output turns off: VP, VM and VH outputs. -/
def Output.turnOff (o : Output) (sink : Bool) (code : Nat) : Output :=
  { o with on := false, ramping := false, rampEnded := false, stepDone := false, sup := .unsupervised, good := false,
           outside := false, held := false, past := [], tgt := code, discharging := sink, episode := false, epMax := 0 }

/-- A port that is on or on its way goes to HELD (R57). -/
def Port.hold (p : Port) : Port :=
  match p.state with
  | .seating | .descCheck | .precharge | .startup | .on => { p with state := .held, waiting := false, reread := false }
  | _ => p

/-! ## The accessory bus: who reads (R50, R399, R402) -/

/-- The next port that waits for the accessory bus, the lowest first. -/
def Hw.nextRead (h : Hw) : Option Nat :=
  (List.range 6).find? (fun p => (h.port p).state == .descCheck && !(h.port p).reread && !(h.port p).waiting)

/-- The port whose descriptor is being read: a port that left DESC_CHECK gives the bus up. -/
def Hw.reading (h : Hw) : Option Nat := h.acc.port.filter (fun p => (h.port p).state == .descCheck && !(h.port p).reread)

/-- A descriptor transaction starts where the bus is free, and otherwise waits (R399, R402). The 50 µs after reset lie within the
50 ms of seating; another controller's transaction shows by the arbitration that it wins, and what it delays otherwise comes later
(DESIGN CHOICE, log 71). -/
def Hw.startRead (h : Hw) : Hw :=
  match h.reading, h.nextRead with
  | none, some p => { h with acc := { h.acc with port := some p, waiting := !h.acc.free, condLosses := 0, nacks := 0 } }
  | _, _ => h

/-- The transaction of a port ends and the bus goes to the next port. -/
def Hw.freeBus (h : Hw) (p : Nat) : Hw :=
  if h.acc.port == some p then
    ({ h with acc := { h.acc with port := none, waiting := false, condLosses := 0, nacks := 0 } }).startRead
  else h

/-- A converter no longer pulse-skips: it is off, or starts anew (R65). -/
def Hw.unskip (h : Hw) (c : Nat) : Hw := { h with idle := { h.idle with skipping := h.idle.skipping.set c false } }

/-- VH output i no longer waits for its window, nor for its turn after VH1 (R81): it is off, stands in its window, or starts
anew. -/
def Hw.endVhWait (h : Hw) (i : Nat) : Hw :=
  { h with pwr := { h.pwr with vhWait := h.pwr.vhWait.set i none, vhNext := h.pwr.vhNext && i != 1 } }

/-- Output k turns off for a cause. A VP rail loses the target of the link with it, and the kept request that names it (R137,
R144). -/
def Hw.turnOff (h : Hw) (c : OffCause) (k : Nat) : Hw :=
  if h.holds c k then h
  else if isEp k then
    let h := (h.modPort (k - 12) Port.hold).freeBus (k - 12)
    h.modOut k (fun o => o.turnOff (c == .removal || (h.cfg k).safe != .offFloat) 0)
  else
    let h := (h.unskip k).modOut k (fun o =>
      if o.on then o.turnOff (c == .removal || (h.cfg k).safe != .offFloat) (h.nextTarget k)
      else if c == .removal then { o with discharging := true } else o)
    if isVp k then
      { h with pool := h.pool.stop k
               vcl := { h.vcl with kept := h.vcl.kept.filter (fun r => r.rail != k) } }
    else if isVh k then h.endVhWait (k - 10)
    else h

def Hw.turnOffAll (h : Hw) (c : OffCause) : Hw := (List.range 18).foldl (fun h k => h.turnOff c k) h

/-- A move in progress ends with a result (R103). -/
def Hw.endMove (h : Hw) (result : Nat) : Hw :=
  match h.pool.move with
  | some m => { h.endJob m.job 0 result [] with pool := { h.pool with move := none } }
  | none => h

/-- The governor's actions end (R77): NORMAL, no output shed, no port derated. -/
def Hw.govEnd (h : Hw) : Hw :=
  { h with
    gov := { h.gov with stage := .normal, shedList := [], derated := [], lowSince := none, nextRaise := none }
    outs := h.outs.map (fun o => { o with shed := false })
    ports := h.ports.map (fun p => { p with shed := false, active := p.ilim })
    chg := { h.chg with govHold := false, govHalf := false } }

/-! ## HRSTn, PGOOD (R205, R206) -/

/-- PGOOD_SET in force: the image's, or that of R483 in LIMP; VH outputs are left out on battery (R206), from the detection
at which the hand-over turns them off (R339; DEDUCED, log 59). -/
def Hw.pgoodSet (h : Hw) : BitVec 24 :=
  let m := if h.inLimp then 0x11 else h.image.pgoodSet
  if h.pwr.onBattery || h.pwr.handingOver then m &&& ~~~ 0xC00 else m

/-- The level R206 gives PGOOD in the present state. -/
def Hw.pgoodLevel (h : Hw) : Bool :=
  let m := h.pgoodSet
  let all := (maskOuts m).all (fun k => (h.out k).sup == .armed && (h.out k).good)
  match h.seq.state with
  | .off | .standby | .seqDown => false
  | .faultLatched => h.seq.cause == 12 && m != 0 && all
  | .run => m == 0 || all
  | .seqUp => m != 0 && all
  | .limp => !h.seq.limpFault && !(h.seq.active && h.seq.dir == .down) && m != 0 && all

/-- PGOOD follows R206; a fall raises PGOOD_FALL. -/
def Hw.evalPgood (h : Hw) : Hw :=
  let lv := h.pgoodLevel
  let h := h.raiseIf (h.seq.pgood && !lv) 22
  { h with seq := { h.seq with pgood := lv } }

/-- PGOOD is driven low. -/
def Hw.pgoodLow (h : Hw) : Hw :=
  let h := h.raiseIf h.seq.pgood 22
  { h with seq := { h.seq with pgood := false } }

/-! ## Fault collection (R466–R476) -/

/-- Sources that R468 counts as corrected, and the exit from METRO_HOLD: reaction LOG whatever the policy. -/
def logOnly (src : Nat) : Bool := src == 0x10 || src == 0x12 || src == 0x14 || src == 0x20 || src == 0x93

/-- The reactions that a class accepts (R466): 0 LOG, 1 WARN, 2 SAFE_STATE, 3 RESET_CORE. -/
def reactionOk (cls r : Nat) : Bool :=
  match cls with
  | 3 | 4 | 5 | 11 | 13 => r ≤ 1
  | 9 | 12 => r ≤ 2
  | _ => r ≤ 3

/-- The default reactions of R466, classes 1 to 13. -/
def defaultPolicies : List Nat := [3, 1, 0, 0, 0, 1, 1, 1, 1, 1, 0, 1, 1]

/-- The reaction taken for a source: the class policy, but RESET_CORE is not taken in LIMP nor in a last-word commit. -/
def Hw.reaction (h : Hw) (src : Nat) : Nat :=
  if logOnly src then 0
  else
    let r := h.faults.policies.getD (src / 16 - 1) 0
    if r = 3 && (h.inLimp || h.pwr.commit.isSome) then 1 else r

/-- The error becomes a fault log entry in wait of its writing, or adds to the newest entry (R472). -/
def Faults.note (f : Faults) (c : Capture) (reaction : Nat) (detail : List Byte) (clk : Nat) : Faults :=
  let same := fun (e : FaultEntry) => e.err.source = c.source && e.err.addr = c.addr && clk - e.instant < 1000000
  let bump := fun (e : FaultEntry) => { e with coalesced := min 65535 (e.coalesced + 1) }
  let new : FaultEntry := { num := 0, err := c, reaction := reaction, coalesced := 0, detail := fit 8 0 detail,
                            instant := clk }
  let sec := clk / 1000000
  let cnt := if f.second = sec then f.inSecond else 0
  let add := if cnt < 64 then { f with queue := f.queue ++ [new], second := sec, inSecond := cnt + 1 } else f
  match f.queue.getLast? with
  | some e => if same e then { f with queue := f.queue.dropLast ++ [bump e] } else add
  | none =>
    match f.log.getLast? with
    | some e => if same e then { f with log := f.log.dropLast ++ [bump e] } else add
    | none => add

/-- Capture of R470: the first error since the capture was emptied, otherwise LATER counts. -/
def Hw.capture (h : Hw) (c : Capture) : Hw :=
  if c.source = 0x93 then h
  else
    match h.faults.cap with
    | none => ({ h with faults := { h.faults with cap := some c } }).raise 48
    | some _ => { h with faults := { h.faults with later := min 0xFFFFFFFF (h.faults.later + 1) } }

/-- The effect of WARN and of the reactions above it (R474): ECC_ERROR for classes 1 and 2, ACCESS_VIOLATION for class 3. R451 lists
both events without naming the reaction (DEDUCED, log 36). -/
def Hw.warn (h : Hw) (src r : Nat) : Hw :=
  if r = 0 then h
  else if src / 16 = 1 || src / 16 = 2 then h.raise 54
  else if src / 16 = 3 then h.raise 55
  else h

/-- Capture, fault log and event of an error; the reactions above WARN follow in `Hw.report`. -/
def Hw.collect (h : Hw) (src addr master access : Nat) (detail : List Byte) : Hw :=
  let c : Capture := { source := src, addr := addr, master := master, access := access, time := h.now, micros := h.micros }
  let r := h.reaction src
  let h := h.capture c
  let h := { h with faults := h.faults.note c r detail h.clk }
  h.warn src r

/-- A core reset is requested (R464); an earlier request keeps its cause. -/
def Hw.askCoreReset (h : Hw) (cause : Nat) : Hw :=
  match h.rst.coreReq with
  | none => { h with rst := { h.rst with coreReq := some cause, safe := false } }
  | some _ => h

/-- Budgets and charger settings of the image come back in force after LIMP (R485). -/
def Hw.imageSettings (h : Hw) : Hw :=
  let i := h.image
  { h with
    gov := { h.gov with vinW := i.vinW, batW := i.batW, tCap := i.tCap }
    chg := { h.chg with set := i.charge, safeDefaults := false, contactAt := h.clk } }

/-- What every entry to FAULT_LATCHED does (R194, R195, R202, R203): the requests are discarded, t_off_min starts, open
sessions close with reason FAULT, the jobs of the sequencer end. A fault in the power-down with which LIMP is left ends LIMP: the
valid image has booted (R485; DEDUCED, log 22). -/
def Hw.enterLatched (h : Hw) (cause : Nat) : Hw :=
  let h := h.closeAll 0x04 0
  let stays := h.inLimp && !h.seq.limpExit
  let h := if h.inLimp && h.seq.limpExit then h.imageSettings else h
  let h := h.endJob? h.seq.job 0 3 []
  let h := h.endJob? h.seq.onJob 0 3 []
  { h with
    seq := { h.seq with
      state := if stays then .limp else .faultLatched
      limpFault := stays
      limpEnLow := false
      cause := cause, active := false, pendOn := false, job := none, onJob := none, offWait := true,
      offStart := h.clk, standbyReq := none, hostStepsDone := false, limpExit := false,
      retryReleased := false, limpKeep := false }
    prm := { h.prm with cabRunning := false } }

/-- Retry bookkeeping at an entry to FAULT_LATCHED (R203, R232): in a cabinet the lead alone keeps it. -/
def Hw.planRetry (h : Hw) : Hw :=
  if h.inLimp || !(h.prm.role == .standalone || h.prm.role == .lead) || h.image.retryMax = 0 then { h with seq := { h.seq with retryWait := false } }
  else if h.seq.retries < h.image.retryMax then { h with seq := { h.seq with retryWait := true } }
  else ({ h with seq := { h.seq with retryWait := false } }).raise 20

/-- The module is being removed, or stands removed (R37). -/
def Hw.leaving (h : Hw) : Bool := h.ins.state == .removing || h.ins.state == .removed

/-- The module is being removed, or its main domain is off: nothing more is turned off. -/
def Hw.gone (h : Hw) : Bool := h.leaving || !h.ins.mainOn

/-- The outputs that HRSTn depends on (R72, R475): those that POWER_UP enables up to its HRST_RELEASE step, or all that it
enables when no step has it (DEDUCED, log 20). -/
def hrstOuts : List Step → BitVec 24
  | [] => 0
  | st :: r => if st.hrstRelease then st.onMask else st.onMask ||| hrstOuts r

/-- HRSTn falls when an output that it depends on is off (R475). -/
def Hw.hrstFalls (h : Hw) : Hw :=
  let m := hrstOuts (if h.inLimp then Step.tableUp else h.image.up)
  if (maskOuts m).all (fun k => (h.out k).on) then h else { h with seq := { h.seq with hrst := false } }

/-- The outputs that a fault or SAFE_STATE turns off read FAULT_OFF until they are next enabled (R429); a VH output that waits for
its restart with VIN usable is no longer held off for want of VIN (R161). -/
def Hw.markOff (h : Hw) (c : OffCause) : Hw :=
  let f := fun (k : Nat) (o : Output) =>
    let o := if h.pwr.vinUsable then { o with battOff := false } else o
    if o.on && !h.holds c k then { o with faultOff := true } else o
  { h with outs := h.outs.mapIdx f }

/-- SAFE_STATE (R475): outputs take their safe states; FAULT_LATCHED with cause POLICY, also from OFF. In LIMP the state
stays LIMP (R476). Where the outputs are already off by a latch, nothing is added (R474). A move of the pool ends
CANCELLED_FAULT, and SERVICE_READY does not keep the state in OFF (DESIGN CHOICE, log 55: R103 and R44 name no such case). -/
def Hw.safeState (h : Hw) : Hw :=
  if h.gone || h.seq.state == .faultLatched || h.seq.state == .standby then h
  else
    let h := (h.markOff .safeState).endMove 3
    let h := ((h.turnOffAll .safeState).govEnd).hrstFalls
    if h.inLimp then h.evalPgood
    else
      let h := h.enterLatched 12
      ({ h with seq := { h.seq with retryWait := false } }).evalPgood

/-- The reactions above WARN (R474): each includes the ones above it. -/
def Hw.react (h : Hw) (r : Nat) : Hw :=
  let h := if 2 ≤ r then h.safeState else h
  if 3 ≤ r then h.askCoreReset 0x04 else h

/-- An error is detected: capture, log, class reaction. -/
def Hw.report (h : Hw) (src addr master access : Nat) (detail : List Byte) : Hw :=
  (h.collect src addr master access detail).react (h.reaction src)

/-- DETAIL with bit 7 of its first byte for an error that Folly produced (R472). -/
def injected (b : Bool) : List Byte := [if b then 0x80 else 0]

/-- DETAIL of the converter sources 0x60–0x62: the voltage at detection. -/
def detailMv (mv : Nat) : List Byte := [0, 0] ++ be 2 (min mv 65535)

/-- Whether R200 acts: SEQ_UP, RUN, SEQ_DOWN, LIMP, or a regulating output under a POLICY latch (R550); a removal wins over
it, and FLTn stays released (R38, R208). -/
def Hw.faultActs (h : Hw) (held : Bool) : Bool :=
  !h.leaving && match h.seq.state with
  | .seqUp | .run | .seqDown => true
  | .limp => !h.seq.limpFault
  | .faultLatched => held && h.seq.cause == 12
  | _ => false

/-- RUNNING_RAIL_FAULT: points 2 to 5 of R200. -/
def Hw.railOff (h : Hw) (cause : Nat) : Hw :=
  let remote := cause == 10
  let h := { h with seq := { h.seq with fltDrive := !remote, hrst := false } }
  let h : Hw := if remote then h else { h with lines := { h.lines with fltLow := true } }
  let h := h.pgoodLow
  let h := (h.markOff .fault).endMove 3
  let h := (h.turnOffAll .fault).govEnd
  let h := (h.enterLatched cause).planRetry
  h.raise (if remote then 21 else 19)

/-- A running-rail fault (R199, R200, R550): captured and logged under its source, the hardware reaction where it acts, and
the class reaction on top. `held` says that the fault lies on an output kept regulating under a POLICY latch. -/
def Hw.railFault (h : Hw) (cause src addr : Nat) (detail : List Byte) (held : Bool) : Hw :=
  let r := h.reaction src
  let acts := h.faultActs held
  let h := h.collect src addr 0 0 detail
  let h := if acts then h.railOff cause else h
  h.react r

/-- One of several running-rail faults that are detected in the same instant: LATCH.CAUSE, source, ADDRESS, DETAIL, and whether it
lies on an output kept regulating. -/
structure RailErr where
  cause : Nat
  src : Nat
  addr : Nat
  detail : List Byte
  held : Bool
  deriving DecidableEq, Repr

/-- Running-rail faults of one instant, the lowest source first: the first is captured and the others are counted (R470); R200
acts once, with the cause of the first it acts on. -/
def Hw.railFaults (h : Hw) (fs : List RailErr) : Hw :=
  let r := fs.foldl (fun r f => max r (h.reaction f.src)) 0
  let first := fs.find? (fun f => h.faultActs f.held)
  let h := fs.foldl (fun h f => h.collect f.src f.addr 0 0 f.detail) h
  (match first with | some f => h.railOff f.cause | none => h).react r

/-- The charger turns off (R348). -/
def Hw.chgOff (h : Hw) : Hw := { h with chg := { h.chg with state := .off, timerRun := false, restartDue := false } }

end Sys2Proof.Machine
end

