-- ==== Sys2Proof/Machine/Folly.lean ====
section
/-! DEFINITION. What every reader and writer of flash and SRAM passes: the checkers that Folly inverts, the bulk engine's parity
checker, the ECC checks of flash (R468, R469, R477, R478, R500, R507). -/

namespace Sys2Proof.Machine

/-! ## Folly (R477, R478) -/

/-- A checker makes one check: whether Folly inverts it, and with which severity. -/
def Faults.take (f : Faults) (id : Nat) : Faults × Bool × Bool :=
  match f.inject.getD (id - 1) (0, false) with
  | (0, _) => (f, false, false)
  | (n + 1, sev) => ({ f with inject := f.inject.set (id - 1) (n, sev) }, true, sev)

def Hw.take (h : Hw) (id : Nat) : Hw := { h with faults := (h.faults.take id).1 }
def Hw.hit (h : Hw) (id : Nat) : Bool := (h.faults.take id).2.1
def Hw.hitHard (h : Hw) (id : Nat) : Bool := (h.faults.take id).2.1 && (h.faults.take id).2.2

/-! ## The bulk engine's buffer (R498, R500, R507, R508) -/

/-- Bytes per request (R500). -/
def burstOf (c : Nat) : Nat := [64, 64, 4, 4, 64, 64, 64, 64, 64, 64, 16, 16, 64, 4, 64, 64].getD c 64

/-- Channels that a last-word commit pauses (R500, R502). -/
def pausedInCommit (c : Nat) : Bool := [8, 9, 12, 13, 14, 15].contains c

/-- The bursts of paused channels that are in progress as a pause begins (R502). -/
def Bulk.pause (b : Bulk) : Bulk := { b with finishing := (b.buffer.map (·.chan)).filter pausedInCommit }

/-- A transfer of n bytes that a command makes on its channel, served to its end within the command (DESIGN CHOICE, log 68). Its
bursts pass the parity checker: an error that Folly makes costs one repeat, a second one the transfer, which answers false. Where
in its burst an error lies is a free value. -/
def Hw.transfer (h : Hw) (c n : Nat) : Hw × Bool :=
  if n = 0 || !h.hit 0x0F then (h, true)
  else
    let offset := fun (h : Hw) => c * 65536 + Config.freeNat h.free % min (burstOf c) n
    let place := offset h
    let h := (h.take 0x0F).draw
    if h.hit 0x0F then (((h.take 0x0F).draw).report 0x15 (offset h) 5 0 (injected true), false)
    else (h.report 0x14 place 5 0 (injected true), true)

/-! ## Reading flash (R308, R468, R469) -/

/-- DETAIL of sources 0x20 and 0x21 for an error that Folly produced. -/
def flashDetail (region key : Nat) : List Byte := [0x80] ++ be 1 region ++ be 2 key

/-- One ECC check of flash, and whether the true data came. Which unit an injected error meets is a free value. -/
def Hw.flashCheck (h : Hw) (id region key : Nat) : Hw × Bool :=
  if h.hit id then
    let hard := h.hitHard id
    let unit := Config.freeNat h.free % 0x200000
    (((h.take id).draw).report (if hard then 0x21 else 0x20) unit 0 0 (flashDetail region key), !hard)
  else (h, true)

/-- The checker that covers a record of a region (R477); the fault log has none. -/
def flashChecker (region key : Nat) : Option Nat :=
  match region with
  | 1 => some 4
  | 2 | 3 => some (if 0x100 ≤ key && key ≤ 0x120 then 6 else 5)
  | 4 => some 7
  | _ => none

/-- One ECC check of a record of a region, where a checker covers it. -/
def Hw.regionCheck (h : Hw) (region key : Nat) : Hw × Bool :=
  match flashChecker region key with
  | some id => h.flashCheck id region key
  | none => (h, true)

end Sys2Proof.Machine
end

