-- ==== Sys2Proof/Machine/Sha.lean ====
section
/-! DEFINITION. SHA-256 and HMAC-SHA-256, for the configuration unlock (R417), the body hash of a firmware image (R529) and
signing (R293). The constants are formed as FIPS 180-4 defines them: fractional parts of roots of the first primes. -/

namespace Sys2Proof.Machine

/-! ## Constants -/

/-- The largest number below 2ⁿ above `r` whose e-th power does not exceed v, bit by bit. -/
def rootBits (e v : Nat) : Nat → Nat → Nat
  | 0, r => r
  | n + 1, r => rootBits e v n (if (r + 2 ^ n) ^ e ≤ v then r + 2 ^ n else r)

/-- First 32 bits of the fractional part of the e-th root of p. -/
def rootWord (e p : Nat) : Word := BitVec.ofNat 32 (rootBits e (p * 2 ^ (32 * e)) 40 0)

def isPrime (n : Nat) : Bool := 2 ≤ n && (List.range n).all (fun d => d < 2 || n % d != 0)

/-- The first 64 primes: those below 312. -/
def primes64 : List Nat := (List.range 312).filter isPrime

def roundWords : List Word := primes64.map (rootWord 3)

/-! ## The digest -/

/-- The chaining value as two shift registers of four words, newest first. -/
structure Digest where
  hi : List Word
  lo : List Word
  deriving DecidableEq, Repr

def Digest.start : Digest :=
  let ws := (primes64.take 8).map (rootWord 2)
  { hi := ws.take 4, lo := ws.drop 4 }

/-- A word turned right by each of three amounts, and the sum of the turns in GF(2). -/
def turns (x : Word) (i j k : Nat) : Word := x.rotateRight i ^^^ x.rotateRight j ^^^ x.rotateRight k

/-- One round: its constant and schedule word added. -/
def Digest.round (s : Digest) (kw : Word) : Digest :=
  let u := fun i => s.hi.getD i 0
  let l := fun i => s.lo.getD i 0
  let choose := l 2 ^^^ (l 0 &&& (l 1 ^^^ l 2))
  let major := (u 0 &&& u 1) ||| (u 2 &&& (u 0 ||| u 1))
  let t := kw + l 3 + choose + turns (l 0) 6 11 25
  { hi := (turns (u 0) 2 13 22 + major + t) :: s.hi.take 3, lo := (u 3 + t) :: s.lo.take 3 }

/-- The message schedule as a window of sixteen words, oldest first, moved on by one. -/
def scheduleNext (w : List Word) : Word :=
  let near := w.getD 1 0
  let far := w.getD 14 0
  w.getD 0 0 + w.getD 9 0 + (near.rotateRight 7 ^^^ near.rotateRight 18 ^^^ near >>> 3) +
    (far.rotateRight 17 ^^^ far.rotateRight 19 ^^^ far >>> 10)

/-- Rounds over a schedule window. -/
def Digest.rounds : Digest → List Word → List Word → Digest
  | s, [], _ => s
  | s, k :: ks, w => (s.round (k + w.getD 0 0)).rounds ks (w.tail ++ [scheduleNext w])

/-- Bytes in words of 32 bits. -/
def wordsOf (bs : List Byte) (n : Nat) : List Word := (List.range n).map (fun i => BitVec.ofNat 32 (ube (slice bs (4 * i) 4)))

/-- One block of 64 bytes. -/
def Digest.absorb (s : Digest) (b : List Byte) : Digest :=
  let r := s.rounds roundWords (wordsOf b 16)
  { hi := List.zipWith (· + ·) s.hi r.hi, lo := List.zipWith (· + ·) s.lo r.lo }

def Digest.blocks : Nat → Digest → List Byte → Digest
  | 0, s, _ => s
  | n + 1, s, bs => Digest.blocks n (s.absorb (bs.take 64)) (bs.drop 64)

def sha256 (m : List Byte) : List Byte :=
  let padded := m ++ 0x80 :: zeros ((119 - m.length % 64) % 64) ++ be 8 (8 * m.length)
  let s := Digest.blocks (padded.length / 64) Digest.start padded
  (s.hi ++ s.lo).flatMap (fun x => be 4 x.toNat)

/-- HMAC-SHA-256 with a key of at most 64 bytes. -/
def hmac256 (key m : List Byte) : List Byte :=
  let masked := fun (c : Byte) => (fit 64 0 key).map (· ^^^ c)
  sha256 (masked 0x5C ++ sha256 (masked 0x36 ++ m))

end Sys2Proof.Machine
end

