-- ==== Sys2Proof/Machine/Ecdsa.lean ====
section
/-! DEFINITION. ECDSA over P-256 with SHA-256 and the nonce of RFC 6979 (R293). The private keys are not given (log 11). -/

namespace Sys2Proof.Machine

/-! ## The field and the curve of FIPS 186-4 -/

def p256 : Nat := 2 ^ 256 - 2 ^ 224 + 2 ^ 192 + 2 ^ 96 - 1

/-- Order of the base point. -/
def n256 : Nat := 0xFFFFFFFF00000000FFFFFFFFFFFFFFFFBCE6FAADA7179E84F3B9CAC2FC632551

/-- a − b in the field. -/
def fsub (a b : Nat) : Nat := (a + p256 - b % p256) % p256

/-- x to the power that bits spell, most significant first. -/
def powMod (m x : Nat) (bits : List Bool) : Nat :=
  bits.foldl (fun a b => if b then a * a % m * x % m else a * a % m) 1

/-- The inverse of x for a prime modulus, 0 for 0. -/
def invMod (m x : Nat) : Nat := powMod m (x % m) (natBits 256 (m - 2))

/-- A point in Jacobian coordinates; z = 0 is the point at infinity. -/
structure CurvePoint where
  x : Nat
  y : Nat
  z : Nat
  deriving DecidableEq, Repr

def CurvePoint.zero : CurvePoint := { x := 1, y := 1, z := 0 }

def CurvePoint.base : CurvePoint :=
  { x := 0x6B17D1F2E12C4247F8BCE6E563A440F277037D812DEB33A0F4A13945D898C296
    y := 0x4FE342E2FE1A7F9B8EE7EB4A7C0F9E162BCE33576B315ECECBB6406837BF51F5
    z := 1 }

def CurvePoint.double (q : CurvePoint) : CurvePoint :=
  let yy := q.y * q.y % p256
  let s := 4 * q.x * yy % p256
  let zz := q.z * q.z % p256
  let m := 3 * fsub q.x zz * (q.x + zz) % p256
  let x := fsub (m * m) (2 * s)
  { x := x, y := fsub (m * fsub s x) (8 * yy * yy), z := 2 * q.y * q.z % p256 }

def CurvePoint.add (q r : CurvePoint) : CurvePoint :=
  if q.z = 0 then r
  else if r.z = 0 then q
  else
    let qz := q.z * q.z % p256
    let rz := r.z * r.z % p256
    let u := q.x * rz % p256
    let v := q.y * rz * r.z % p256
    let du := fsub (r.x * qz) u
    let dv := fsub (r.y * qz * q.z) v
    if du = 0 then (if dv = 0 then q.double else CurvePoint.zero)
    else
      let d2 := du * du % p256
      let d3 := du * d2 % p256
      let t := u * d2 % p256
      let x := fsub (fsub (dv * dv) d3) (2 * t)
      { x := x, y := fsub (dv * fsub t x) (v * d3), z := du * q.z * r.z % p256 }

/-- k times a point. -/
def CurvePoint.times (q : CurvePoint) (k : Nat) : CurvePoint :=
  (natBits 256 k).foldl (fun a b => if b then a.double.add q else a.double) CurvePoint.zero

/-- k times the base point. -/
def timesBase (k : Nat) : CurvePoint := CurvePoint.base.times k

/-- Affine coordinates. -/
def CurvePoint.affine (q : CurvePoint) : Nat × Nat :=
  let i := invMod p256 q.z
  let ii := i * i % p256
  (q.x * ii % p256, q.y * ii * i % p256)

/-! ## Keys -/

/-- The private key of a generation: a number from 1 to n − 1. -/
def privateKey (gen : Nat) : Nat := 1 + Config.privateKey gen % (n256 - 1)

/-- X‖Y of a public key (R291, R294). -/
def publicKey (gen : Nat) : List Byte :=
  let q := (timesBase (privateKey gen)).affine
  be 32 q.1 ++ be 32 q.2

/-! ## Signing -/

/-- r and s for a private key, a message hash and a nonce. -/
def signWith (d e k : Nat) : Nat × Nat :=
  let r := (timesBase k).affine.1 % n256
  (r, invMod n256 k * (e + r * d) % n256)

/-- The nonces that RFC 6979 tries: K and V move on until one gives a signature. -/
def tryNonces (d e : Nat) : Nat → List Byte → List Byte → Nat × Nat
  | 0, _, _ => (0, 0)
  | n + 1, key, v =>
    let v := hmac256 key v
    let k := ube v
    let rs := signWith d e k
    if 0 < k && k < n256 && rs.1 != 0 && rs.2 != 0 then rs
    else
      let key := hmac256 key (v ++ [0])
      tryNonces d e n key (hmac256 key v)

/-- The 64 bytes r‖s of a private key over a message. -/
def signMessage (d : Nat) (msg : List Byte) : List Byte :=
  let e := ube (sha256 msg)
  let seed := be 32 d ++ be 32 (e % n256)
  let v := List.replicate 32 (1 : Byte)
  let key := hmac256 (zeros 32) (v ++ [0] ++ seed)
  let v := hmac256 key v
  let key := hmac256 key (v ++ [1] ++ seed)
  let v := hmac256 key v
  let rs := tryNonces d e 64 key v
  be 32 rs.1 ++ be 32 rs.2

/-! ## Checking a signature -/

/-- Whether r‖s is a signature over a message under the public key X‖Y. -/
def signedBy (key msg sig : List Byte) : Bool :=
  let r := ube (slice sig 0 32)
  let s := ube (slice sig 32 32)
  let w := invMod n256 s
  let q : CurvePoint := { x := ube (slice key 0 32), y := ube (slice key 32 32), z := 1 }
  let sum := (timesBase (ube (sha256 msg) * w % n256)).add (q.times (r * w % n256))
  0 < r && r < n256 && 0 < s && s < n256 && sum.z != 0 && sum.affine.1 % n256 == r

end Sys2Proof.Machine
end

