-- ==== Sys2Proof/Machine/Records.lean ====
section
/-! DEFINITION. Life-cycle state, keys, billing records and the session log (R289–R298, R310–R313, R520). -/

namespace Sys2Proof.Machine

/-! ## Life cycle (R520) -/

/-- LIFECYCLE: 0 BLANK, 1 PROVISIONED, 2 CALIBRATION, 3 SEALED, 4 RETIRED. -/
def Life.state (l : Life) : Nat :=
  if l.retired then 4 else if !l.prov then 0 else if l.breaks < l.seals then 3 else if l.calEntered then 2 else 1

def Hw.sealed (h : Hw) : Bool := h.life.state == 3

/-- The seal-break counter that records show: during a seal break it is the value before, until the SEAL_BREAK record
(R288, R523). -/
def Hw.recordBreaks (h : Hw) : Nat := if h.life.breaking.isSome then h.life.breaks - 1 else h.life.breaks

/-- Generation of the metering key in the key slot; 0 stands for the identity key (R293). -/
def Hw.meterKey (h : Hw) : Nat := h.life.keySlot.getD 0

/-- The key of TIME_SET and POWER_EVENT records: the metering key in SEALED, the identity key outside (R290). -/
def Hw.eventKey (h : Hw) : Nat := if h.sealed then h.meterKey else 0

def Hw.romVersion (h : Hw) : Nat := if h.metering then h.factory.metroRom.toNat else 0

/-! ## The record of R289 -/

/-- A record before its sequence number, CRC and signature: bytes 0–123 with SEQ 0. `mid` is bytes 12–99. -/
def Hw.draft (h : Hw) (ty slot mask : Nat) (mid : List Byte) (breaks key : Nat) : List Byte :=
  be 1 ty ++ [1] ++ be 2 0xC0 ++ be 4 0 ++ be 2 slot ++ be 2 mask ++ fit 88 0 mid ++ be 4 breaks ++ be 4 h.romVersion ++
    be 8 h.factory.serial.toNat ++ be 4 key ++ zeros 4

/-- The 64 bytes r‖s that the key of a generation, 0 for the identity, signs over a message (R293). -/
def sign (key : Nat) (msg : List Byte) : List Byte := signMessage (privateKey key) msg

/-- Bytes 0–127: the draft with its sequence number and CRC. -/
def sealDraft (draft : List Byte) (seq : Nat) : List Byte :=
  let b := draft.take 4 ++ be 4 seq ++ draft.drop 8
  b ++ be 4 (crc32 b).toNat

/-- The key that signs a record: identity for SEAL_STATEMENT, otherwise that of its KEY_GEN (R290, R293). -/
def recordKey (rec128 : List Byte) : Nat :=
  if slice rec128 0 1 = [2] then 0 else ube (slice rec128 116 4)

def blankSig : List Byte := List.replicate 64 0xFF

/-- Register sum over the channels of a mask, floors in 1 mWh (R279). -/
def Hw.regSum (h : Hw) (mask : BitVec 8) (f : Chan → Nat) : Nat :=
  (List.range 8).foldl (fun a c => if mask.getLsbD c then a + f (h.chan c) / 2 ^ 32 else a) 0

/-- The SESSION_CLOSE draft of a slot (R289, R292). -/
def Hw.sessionDraft (h : Hw) (n : Nat) (s : Slot) : List Byte :=
  h.draft 1 n s.mask.toNat
    (fit 16 0 s.sid ++ be 8 s.tStart.toNat ++ be 8 s.tStop.toNat ++ be 8 s.impStart ++ be 8 s.impStop ++ be 8 s.expStart ++
      be 8 s.expStop ++ be 8 (s.impStop - s.impStart) ++ be 8 (s.expStop - s.expStart) ++ be 1 s.reason ++ [0] ++
      be 2 s.flags.toNat ++ be 4 s.metro.toNat)
    h.recordBreaks h.meterKey

/-! ## The log ring (R310–R313) -/

def Log.used (l : Log) : Nat := l.size - l.erased

/-- Age of a position: 0 is the oldest position still programmed. -/
def Log.age (l : Log) (pos : Nat) : Nat := (pos + 2 * l.size - l.wpos - l.erased) % l.size

/-- Sectors that can be reclaimed in succession from the oldest: before the sector of the write position and before the
first committed entry above ACK_SEQ (R312). -/
def Log.reclaimable (l : Log) (ack : Nat) : Nat :=
  let lim := match l.entries.find? (fun e => e.committed && ack < e.seq) with
    | some e => l.age e.pos
    | none => l.used
  min lim l.used / 16

/-- F of R298: E and 16 for each sector that can be reclaimed. -/
def Log.free (l : Log) (ack : Nat) : Nat := l.erased + 16 * l.reclaimable ack

/-- F − N_RES of R298. -/
def Hw.logSpace (h : Hw) : Int := (h.log.free h.ackSeq : Int) - h.nRes

/-- E − N_RES of R313. -/
def Hw.logErased (h : Hw) : Int := (h.log.erased : Int) - h.nRes

/-- The reclaim erase of R313 starts when E is below 48 and the oldest sector can be reclaimed. -/
def Hw.reclaim (h : Hw) : Hw :=
  if h.log.erased < 48 && 0 < h.log.reclaimable h.ackSeq && !h.log.reclaiming then
    { h with log := { h.log with reclaiming := true } }
  else h

/-- LOG_LOW is raised when F − N_RES falls below 1024 (R298). -/
def Hw.lowSince (h : Hw) (before : Int) : Hw := h.raiseIf (1024 ≤ before && h.logSpace < 1024) 29

/-- Position of the oldest sector of the ring. -/
def Log.oldest (l : Log) : Nat := (l.wpos + l.erased) % l.size

/-- ERASE_COUNT of a ring sector by its number (R303). -/
def Log.count (l : Log) (q : Nat) : Nat := ((l.counts.find? (fun e => e.1 = q)).map (·.2)).getD 0

/-- A ring sector's count is set. -/
def Log.setCount (l : Log) (q n : Nat) : Log := { l with counts := (q, n) :: l.counts.filter (fun e => e.1 ≠ q) }

/-- ERASE_COUNT of every ring sector. -/
def Log.eraseCounts (l : Log) : List Nat := (List.range (l.size / 16)).map l.count

/-- GENERATION of the sector of a position: sectors in ring order carry successive ones (R303). -/
def Log.genAt (l : Log) (pos : Nat) : Nat := l.gen + 1 - l.size / 16 + l.age pos / 16

/-- The oldest sector is lost: retired with no spare (R305). Positions after it move down. -/
def Log.loseOldest (l : Log) : Log :=
  let start := l.oldest
  let q := start / 16
  let down := fun p => if start + 16 ≤ p then p - 16 else p
  { l with entries := (l.entries.filter (fun e => 16 ≤ l.age e.pos)).map (fun e => { e with pos := down e.pos })
           size := l.size - 16, wpos := down l.wpos % (l.size - 16), reclaiming := false, torn := false
           worn := (l.worn.filter (fun p => p != start)).map down
           counts := (l.counts.filter (fun e => e.1 ≠ q)).map (fun e => (if q < e.1 then e.1 - 1 else e.1, e.2)) }

/-- The oldest sector of the ring is erased: its 16 positions stand erased ahead of the write position. One retired without a spare
takes no more entries. -/
def Log.eraseOldest (l : Log) : Log :=
  if l.worn.contains l.oldest then l.loseOldest
  else
    let q := l.oldest / 16
    { l.setCount q (l.count q + 1) with
      entries := l.entries.filter (fun e => 16 ≤ l.age e.pos), erased := l.erased + 16, gen := l.gen + 1, reclaiming := false,
      torn := false }

/-- The oldest sector fails its verify and a spare sector, never erased, takes its place (R305). -/
def Log.replaceOldest (l : Log) : Log :=
  if l.worn.contains l.oldest then l.loseOldest else l.eraseOldest.setCount (l.oldest / 16) 0

/-- The erase of the oldest sector is cut half-way: its entries are gone and its header is unreadable (R325). -/
def Log.tearOldest (l : Log) : Log :=
  { l with entries := l.entries.filter (fun e => 16 ≤ l.age e.pos), reclaiming := false, torn := true }

/-- The sector that holds the position before the write position is retired without a spare: what is left of it is skipped (R305).
-/
def Log.wear (l : Log) : Log :=
  let left := (16 - l.wpos % 16) % 16
  { l with wpos := (l.wpos + left) % l.size, erased := l.erased - left, worn := l.worn ++ [(l.wpos + l.size - 1) % l.size / 16 * 16] }

/-- The sector of any position likewise. -/
def Log.wearAt (l : Log) (pos : Nat) : Log :=
  if pos / 16 = (l.wpos + l.size - 1) % l.size / 16 then l.wear else { l with worn := l.worn ++ [pos / 16 * 16] }

/-- One record is programmed at the write position under a number: its signature if it is to be signed, then COMMIT and SIGNED as
far as they come (R311). Without COMMIT the position is skipped (R312). -/
def Log.write (l : Log) (draft : List Byte) (seq : Nat) (sig committed signed : Bool) : Log :=
  let b := sealDraft draft seq
  let e : LogEntry := { pos := l.wpos, seq := seq, bytes := b ++ (if sig then sign (recordKey b) b else blankSig),
                        committed := committed, signed := signed, damaged := false }
  { l with entries := l.entries ++ [e], wpos := (l.wpos + 1) % l.size, erased := l.erased - 1
           lastSeq := if committed then max l.lastSeq seq else l.lastSeq, nextSeq := max l.nextSeq seq }

/-- The number of a record whose programming begins: the one it has already, otherwise the next (R295, R300, R313). -/
def Log.number (l : Log) (seq : Nat) : Nat := if seq = 0 then l.nextSeq + 1 else seq

/-- One record is programmed, committed, and signed if it is to be. -/
def Log.put (l : Log) (draft : List Byte) (signed : Bool) (seq : Nat) : Log :=
  l.write draft (l.number seq) signed true signed

/-- COMMIT, SIGNED of the entry that was programmed last under a number. -/
def Log.mark (l : Log) (seq : Nat) (signed : Bool) : Log :=
  match l.entries.reverse.find? (fun e => e.seq = seq) with
  | some x =>
    { l with entries := l.entries.map (fun e => if e.pos = x.pos then { e with committed := true, signed := e.signed || signed } else e)
             lastSeq := max l.lastSeq seq }
  | none => l

/-- Records of one block end that are not yet in the log: no record of another type comes between them (R283; DEDUCED, log 40). -/
def Hw.sessionsDue (h : Hw) : Bool := h.slots.any (fun s => s.open? && s.captured)

/-- A record waits for an erased entry (R313). -/
def Hw.wait (h : Hw) (draft : List Byte) (signed : Bool) (seq : Nat) (p : Purpose) : Hw :=
  { h with log := { h.log with waiting := h.log.waiting ++ [{ draft := draft, signed := signed, seq := seq, purpose := p }] } }

/-- A log record in the store's queue, with the number it has already (R311). -/
def logWrite (draft : List Byte) (signed : Bool) (seq : Nat) (p : Purpose) : StoreWrite :=
  { key := 0xE001, payload := draft, isLog := true, signed := signed, phase := 0, seq := seq, half := false, purpose := p }

/-- A signed log record joins the store's queue (R311). -/
def Hw.enqueueLog (h : Hw) (draft : List Byte) (p : Purpose) : Hw :=
  { h with store := { h.store with queue := h.store.queue ++ [logWrite draft true 0 p] } }

/-- A parameter pair joins the store's queue (R315): its numbers and halves are taken now. -/
def Hw.enqueue (h : Hw) (key : Nat) (payload : List Byte) (p : Purpose) : Hw :=
  let w : StoreWrite := { key := key, payload := payload, isLog := false, signed := false, phase := 0, seq := h.store.pSeq + 1,
                          half := h.store.nextHalf, purpose := p }
  { h with store := { h.store with queue := h.store.queue ++ [w], pSeq := h.store.pSeq + 2, nextHalf := !h.store.nextHalf } }

/-- The entry of a sequence number. -/
def Log.find (l : Log) (seq : Nat) : Option LogEntry := l.entries.find? (fun e => e.committed && e.seq = seq)

/-- Deferred signing of one entry (R285): a wrong CRC marks it DAMAGED. -/
def LogEntry.sign (e : LogEntry) : LogEntry :=
  if e.signed || e.damaged || !e.committed then e
  else if slice e.bytes 124 4 = be 4 (crc32 (e.bytes.take 124)).toNat then
    let b := e.bytes.take 128
    { e with bytes := b ++ Machine.sign (recordKey b) b, signed := true }
  else { e with damaged := true }

/-- The slot that an entry names, if it is a SESSION_CLOSE record. -/
def LogEntry.slot? (e : LogEntry) : Option Nat :=
  if slice e.bytes 0 1 = [1] then some (ube (slice e.bytes 8 2)) else none

/-- A record not written for lack of space counts in RECORDS_LOST (R298). -/
def Hw.loseRecord (h : Hw) : Hw := { h with recordsLost := h.recordsLost + 1 }

/-! ## Records of events -/

/-- POWER_EVENT (R291): trigger, sessions closed as CLOSED_PF, RECORDS_LOST. -/
def Hw.powerEvent (h : Hw) (trigger closed : Nat) : List Byte :=
  h.draft 6 0xFFFF 0 (be 8 h.now.toNat ++ be 1 trigger ++ be 1 closed ++ zeros 2 ++ be 4 h.recordsLost) h.recordBreaks
    h.eventKey

/-- TIME_SET (R291): the value before and the value after. -/
def Hw.timeRecord (h : Hw) (before after : DWord) : List Byte :=
  h.draft 4 0xFFFF 0 (be 8 before.toNat ++ be 8 after.toNat) h.recordBreaks h.eventKey

/-- CAL_CHANGE (R291): channel bit, new and previous CAL_ID and block CRC. -/
def Hw.calRecord (h : Hw) (c : Nat) (new old : List Byte) : List Byte :=
  h.draft 5 0xFFFF (2 ^ c)
    (be 8 h.now.toNat ++ slice new 36 4 ++ slice new 44 4 ++ fit 4 0 (slice old 36 4) ++ fit 4 0 (slice old 44 4))
    h.recordBreaks 0

/-- SEAL_BREAK (R291, R523 step 4): the time of the break, which was the last transition; the counter after the increment,
signed with the outgoing key. -/
def Hw.breakRecord (h : Hw) (cause sessions : Nat) : List Byte :=
  h.draft 3 0xFFFF 0 (be 8 h.life.lastTransition.toNat ++ be 1 cause ++ be 1 sessions) h.life.breaks h.meterKey

/-- SEAL_STATEMENT (R291, R293): the new public key; KEY_GEN is the generation it introduces. -/
def Hw.sealRecord (h : Hw) (gen : Nat) (pub : List Byte) : List Byte :=
  h.draft 2 0xFFFF 0 (be 8 h.now.toNat ++ fit 64 0 pub) h.recordBreaks gen

end Sys2Proof.Machine
end

