-- ==== Sys2Proof/Machine/Storage.lean ====
section
/-! DEFINITION. The record store: records, sectors, parameter pairs, cells, retired sectors, images (R301–R325). -/

namespace Sys2Proof.Machine

/-! ## Rings of sectors -/

/-- Bytes that a record of a payload length occupies (R306). -/
def recSize (len : Nat) : Nat := 32 + 16 * ((len + 4 + 15) / 16)

/-- Bytes of a sector that records fill, after the header of R303. -/
def sectorRoom : Nat := 4096 - 16

def Sector.used (s : Sector) : Nat := s.recs.foldl (fun a r => a + recSize r.payload.length) 0

/-- Highest generation of a ring; sectors stand opened in rising order. -/
def RingSt.topGen (r : RingSt) : Nat := r.secs.foldl (fun a s => max a s.gen) 0

/-- Free space of a ring in bytes: erased sectors and the rest of the newest one. -/
def RingSt.free (r : RingSt) : Nat :=
  r.blank.length * sectorRoom + (match r.secs.getLast? with | some s => if s.worn then 0 else sectorRoom - s.used | none => 0)

/-- The newest sector takes a record of a payload length. -/
def Sector.takes (s : Sector) (len : Nat) : Bool := !s.worn && s.used + recSize len ≤ sectorRoom

/-- A record goes to the newest sector, or opens the next erased one; with neither it is not written. -/
def RingSt.add (r : RingSt) (x : Rec) : RingSt :=
  let fresh := match r.blank with
    | e :: bs => { r with secs := r.secs ++ [{ gen := r.topGen + 1, erases := e, recs := [x], worn := false }], blank := bs }
    | [] => r
  match r.secs.getLast? with
  | some s =>
    if s.takes x.payload.length then { r with secs := r.secs.dropLast ++ [{ s with recs := s.recs ++ [x] }] } else fresh
  | none => fresh

/-- Whether a record of a payload length finds room. -/
def RingSt.fits (r : RingSt) (len : Nat) : Bool :=
  !r.blank.isEmpty || (match r.secs.getLast? with | some s => s.takes len | none => false)

/-- The newest sector is retired without a spare: what it holds stays readable until its erase (R305). -/
def RingSt.wear (r : RingSt) : RingSt :=
  match r.secs.getLast? with
  | some s => { r with secs := r.secs.dropLast ++ [{ s with worn := true }] }
  | none => r

def RingSt.recs (r : RingSt) : List Rec := r.secs.flatMap (·.recs)

/-- A record that exists (R308): COMMIT and a correct CRC. -/
def Rec.exists? (r : Rec) : Bool := r.committed && !r.broken

/-- Every record of a ring changed by a function. -/
def RingSt.mapRecs (r : RingSt) (f : Rec → Rec) : RingSt :=
  { r with secs := r.secs.map (fun s => { s with recs := s.recs.map f }) }

/-- A spare, never erased before, stands in the place of the sector of a generation, with what that holds (R303, R305). -/
def RingSt.renew (r : RingSt) (gen : Nat) : RingSt :=
  { r with secs := r.secs.map (fun s => if s.gen = gen then { s with erases := 0 } else s) }

/-- The sector of a generation is retired without a spare. -/
def RingSt.wearGen (r : RingSt) (gen : Nat) : RingSt :=
  { r with secs := r.secs.map (fun s => if s.gen = gen then { s with worn := true } else s) }

/-- The oldest sector after its erase: header programmed, one more erase (R303, R304); one retired without a spare is gone. -/
def RingSt.eraseOldest (r : RingSt) : RingSt :=
  match r.secs with
  | s :: ss => { r with secs := ss, blank := if s.worn then r.blank else r.blank ++ [s.erases + 1] }
  | [] => r

/-- The erase of the oldest sector is cut half-way: its records are gone and its header is unreadable (R325). -/
def RingSt.tearOldest (r : RingSt) : RingSt :=
  match r.secs with
  | s :: ss => { r with secs := ss, torn := if s.worn then r.torn else r.torn + 1 }
  | [] => r

/-- Sectors with an unreadable header are erased again at boot, with a count of erases (R304). -/
def RingSt.mend (r : RingSt) (count : Nat) : RingSt := { r with blank := r.blank ++ List.replicate r.torn count, torn := 0 }

def RingSt.eraseCounts (r : RingSt) : List Nat := r.secs.map (·.erases) ++ r.blank

/-- The oldest sector is retired; a spare sector takes its place if there is one (R305). -/
def RingSt.replaceOldest (r : RingSt) (spare : Bool) : RingSt :=
  match r.secs with
  | _ :: ss => { r with secs := ss, blank := if spare then r.blank ++ [0] else r.blank }
  | [] => r

/-! ## Parameters (R315–R317) -/

def Store.params (s : Store) : List Rec := s.half0.recs ++ s.half1.recs

/-- What reading a key gives (R316). -/
inductive Found where
  | absent
  | conflict
  | value (r : Rec)
  deriving DecidableEq, Repr

def newest : List Rec → Option Rec
  | [] => none
  | r :: rs =>
    match newest rs with
    | some m => if m.seq < r.seq then some r else some m
    | none => some r

def Store.existing (s : Store) (key : Nat) : List Rec := s.params.filter (fun r => r.exists? && r.key = key)

/-- What records of one key give (R316): the one with the highest SEQ; two of that SEQ with different payloads are a conflict,
which a rewrite ends. -/
def foundIn (rs : List Rec) : Found :=
  match newest rs with
  | some r => if rs.any (fun x => x.seq = r.seq && x.payload != r.payload) then .conflict else .value r
  | none => .absent

def Store.look (s : Store) (key : Nat) : Found := foundIn (s.existing key)

/-- The existing records of a key under its highest SEQ: one value, or those in conflict (R316). -/
def Store.tops (s : Store) (key : Nat) : List Rec :=
  let es := s.existing key
  match newest es with
  | some r => es.filter (fun x => x.seq = r.seq)
  | none => []

/-- A MONOTONIC key: its value, the higher one of a conflict, 0 when no record exists (R316). -/
def Store.mono (s : Store) (key : Nat) : Nat := (s.tops key).foldl (fun a r => max a (ube r.payload)) 0

/-- The newest copy of a key is a first copy: the write of its pair was cut before the second had committed (R267, R315). -/
def Store.cutShort (s : Store) (key : Nat) : Bool :=
  match newest (s.params.filter (fun r => r.committed && r.key = key)) with
  | some r => !r.copy
  | none => false

/-- One copy of a parameter. -/
def mkRec (key seq : Nat) (copy : Bool) (payload : List Byte) : Rec :=
  { key := key, seq := seq, copy := copy, payload := payload, committed := true, unary := 0xFFFFFFFF, weak := false,
    broken := false }

/-- The pair number of a copy (R315). -/
def Rec.pairNo (r : Rec) : Nat := r.seq - b2n r.copy

/-- The records of a parameters half that are live: the newest of their key in that half, or cells of a live base. -/
def liveIn (all : List Rec) (r : Rec) : Bool :=
  r.exists? &&
    (if 0x320 ≤ r.key && r.key < 0x330 then
      match newest (all.filter (fun b => b.exists? && b.key = r.key - 0x10)) with
      | some b => b.pairNo = ube (slice r.payload 0 4)
      | none => false
    else (newest (all.filter (fun x => x.exists? && x.key = r.key))) == some r)

/-- One record into a half: half 1 for `true`. -/
def Store.addTo (s : Store) (half : Bool) (r : Rec) : Store :=
  if half then { s with half1 := s.half1.add r } else { s with half0 := s.half0.add r }

/-- A pair that a last-word commit writes: it uses what is kept for it (R324). -/
def Store.lastPair (s : Store) (key : Nat) (payload : List Byte) : Store :=
  let s1 := s.addTo s.nextHalf (mkRec key (s.pSeq + 1) false payload)
  let s2 := s1.addTo (!s.nextHalf) (mkRec key (s.pSeq + 2) true payload)
  { s2 with pSeq := s.pSeq + 2, nextHalf := !s.nextHalf }

def Hw.lastPair (h : Hw) (key : Nat) (payload : List Byte) : Hw := { h with store := h.store.lastPair key payload }

/-! ## Totalizer bases and cells (R318–R322) -/

def baseKey (cd : Nat) : Nat := 0x310 + cd
def cellKey (cd : Nat) : Nat := 0x320 + cd

/-- Base payload (R318): channel, direction, value, residue, STEP. -/
def basePayload (cd total step : Nat) : List Byte :=
  be 1 (cd / 2 + 1) ++ be 1 (cd % 2) ++ zeros 2 ++ be 8 (total / 2 ^ 32) ++ be 4 (total % 2 ^ 32) ++ be 2 step ++ zeros 2

def baseTotal (p : List Byte) : Nat := ube (slice p 4 8) * 2 ^ 32 + ube (slice p 12 4)
def baseStep (p : List Byte) : Nat := ube (slice p 16 2)

/-- Cell payload (R318): TAG, channel and direction. -/
def cellPayload (cd tag : Nat) : List Byte := be 4 tag ++ be 1 (cd / 2 + 1) ++ be 1 (cd % 2) ++ zeros 2

/-- Highest cleared bit of a UNARY word, plus one (R321). -/
def unaryCount (w : Word) : Nat := (List.range 32).foldl (fun a i => if w.getLsbD i then a else i + 1) 0

/-- A UNARY word with the k lowest bits cleared. -/
def unaryOf (k : Nat) : Word := (0xFFFFFFFF : Word) <<< k

/-- The count of a cell copy: a weak bit counts as cleared (R321). -/
def Rec.steps (r : Rec) : Nat := min 32 (unaryCount r.unary + b2n r.weak)

def Store.cells (s : Store) (cd tag : Nat) : List Rec :=
  s.params.filter (fun r => r.exists? && r.key = cellKey cd && ube (slice r.payload 0 4) = tag)

/-- The count of a base's cells: the higher of the copies' counts (R322). -/
def Store.cellCount (s : Store) (cd tag : Nat) : Nat :=
  (s.cells cd tag).foldl (fun a r => max a r.steps) 0

/-- The bookkeeping of a base or of a cleared bit at an instant. -/
def Store.stamp (s : Store) (cd total clk : Nat) : Store :=
  { s with ckptAt := s.ckptAt.set cd total, ckptTime := s.ckptTime.set cd clk }

/-! ## Images and the configuration region (R302) -/

/-- The pieces in which an image is recorded: at most 1024 payload bytes a record. -/
def chunks : Nat → List Byte → List (List Byte)
  | 0, _ => []
  | f + 1, bs => if bs.isEmpty then [] else bs.take 1024 :: chunks f (bs.drop 1024)

/-- Records of the current image and of one being written: those after the final record before the newest one (R302). -/
def liveImage (rs : List Rec) (r : Rec) : Bool :=
  let finals := rs.filter (fun x => x.key = 2 && x.exists?)
  match newest finals with
  | some f =>
    let before := match newest (finals.filter (fun x => x.seq < f.seq)) with | some p => p.seq | none => 0
    r.exists? && before < r.seq
  | none => r.exists?

/-! ## Retired sectors (R305) -/

/-- The entries of 5 bytes of a list of retired sectors. -/
def fives : Nat → List Byte → List (List Byte)
  | 0, _ => []
  | n + 1, bs => if bs.isEmpty then [] else bs.take 5 :: fives n (bs.drop 5)

/-- The list of retired sectors, key 0x0204: of a conflict the union (R316). -/
def Store.retiredList (s : Store) : List (List Byte) :=
  (s.tops 0x204).foldl (fun a r => a ++ (fives 204 r.payload).filter (fun e => !a.contains e)) []

/-! ## Rings by name (R301, R323–R325) -/

def Store.ring (s : Store) : Ring → RingSt
  | .config => s.config
  | .half0 => s.half0
  | .half1 => s.half1
  | .faultLog => s.fault
  | .sessionLog => ⟨[], [], 0⟩

def Store.setRing (s : Store) (r : Ring) (x : RingSt) : Store :=
  match r with
  | .config => { s with config := x }
  | .half0 => { s with half0 := x }
  | .half1 => { s with half1 := x }
  | .faultLog => { s with fault := x }
  | .sessionLog => s

/-- Region code of a ring (R301). -/
def Ring.code : Ring → Nat
  | .config => 1
  | .half0 => 2
  | .half1 => 3
  | .sessionLog => 4
  | .faultLog => 5

/-- Free space below which a ring is compacted or erased without waiting for idle, in bytes (R324). -/
def Ring.urgent : Ring → Nat
  | .config => 32768
  | .half0 => 8192
  | .half1 => 8192
  | .faultLog => 6144
  | .sessionLog => 0

/-- Share of the oldest sector's bytes that live records fill, as live and total (R324). -/
def RingSt.liveShare (r : RingSt) (live : Rec → Bool) : Nat :=
  match r.secs with
  | s :: _ => (s.recs.filter live).foldl (fun a x => a + recSize x.payload.length) 0
  | [] => 0

/-- The live records of a ring (R323). -/
def Store.live (s : Store) (r : Ring) : Rec → Bool :=
  match r with
  | .config => liveImage s.config.recs
  | .half0 => liveIn s.half0.recs
  | .half1 => liveIn s.half1.recs
  | .faultLog | .sessionLog => fun _ => false

/-- The oldest sector of a ring. -/
def RingSt.oldestGen (r : RingSt) : Nat := match r.secs with | s :: _ => s.gen | [] => 0

/-! ## Programs and erases that a row makes in one step, and their verify (R305, R323, R330) -/

/-- The half of the parameters region that a copy goes to. -/
def halfRing (half : Bool) : Ring := if half then .half1 else .half0

/-- A record that has just been programmed at the head of a ring waits for its verify. -/
def Hw.prove (h : Hw) (r : Ring) (x : Rec) (copy : Bool) (job : Option Nat) : Hw :=
  let v : Verify := { ring := r, gen := (h.store.ring r).topGen, key := x.key, seq := x.seq, len := x.payload.length, old := none, copy := copy,
                      job := job }
  { h with store := { h.store with proving := h.store.proving ++ [v] } }

/-- A record at the head of a ring. -/
def Hw.place (h : Hw) (r : Ring) (x : Rec) : Hw := { h with store := h.store.setRing r ((h.store.ring r).add x) }

/-- The records that a compaction copies are read through their checks (R468, R478): those that pass. One that fails counts as
failing its CRC and is not copied. -/
def Hw.copyChecks (h : Hw) (r : Ring) : Hw × List Rec :=
  match (h.store.ring r).secs with
  | s :: _ => (s.recs.filter (h.store.live r)).foldl (fun (a : Hw × List Rec) x =>
      let c := a.1.regionCheck (Ring.code r) x.key
      (c.1, if c.2 then a.2 ++ [x] else a.2)) (h, [])
  | [] => (h, [])

/-- Compaction copies the live records of the oldest sector to the head of the ring (R323). -/
def Hw.copyOldest (h : Hw) (r : Ring) : Hw :=
  let a := h.copyChecks r
  a.2.foldl (fun h x => (h.place r x).prove r x true none) a.1

/-- The number of log entries a fault-log sector has room for. -/
def faultRecs (s : Sector) : Nat := s.recs.countP (fun r => r.key = 5)

/-- Fault log entries go with the oldest sector of their ring. -/
def Hw.forgetFaults (h : Hw) (r : Ring) : Hw :=
  match r, h.store.fault.secs with
  | .faultLog, s :: _ => { h with faults := { h.faults with log := h.faults.log.drop (faultRecs s) } }
  | _, _ => h

/-- The oldest sector of a ring is erased in one step, its verify still to come. An erase of that sector in progress ends with it. -/
def Hw.eraseNow (h : Hw) (r : Ring) : Hw :=
  let h := h.forgetFaults r
  let ring := h.store.ring r
  let s := h.store.setRing r ring.eraseOldest
  { h with store := { s with erase := s.erase.filter (fun e => e.ring != r), erased := s.erased ++ [{ ring := r, gen := ring.oldestGen }] } }

/-- The oldest sector of a ring is compacted in one step; where its erase is already in progress its records have been copied. -/
def Hw.compactNow (h : Hw) (r : Ring) : Hw :=
  if h.store.erase.any (fun e => e.ring == r) then h.eraseNow r else (h.copyOldest r).eraseNow r

/-- A write of an ordinary parameter leaves 1 KiB of each half to the last-word commit (R324): the oldest sectors are compacted
first where it would not (DESIGN CHOICE, log 67). -/
def Hw.makeRoom : Nat → Nat → Ring → Hw → Hw
  | 0, _, _, h => h
  | n + 1, size, r, h =>
    if (h.store.ring r).free < 1024 + size && 2 ≤ (h.store.ring r).secs.length then makeRoom n size r (h.compactNow r) else h

/-- A record of an ordinary parameter into a half. -/
def Hw.keep (h : Hw) (half : Bool) (x : Rec) : Hw :=
  (Hw.makeRoom 128 (recSize x.payload.length) (halfRing half) h).place (halfRing half) x

/-- A parameter write: two copies, S and S + 1, in the two halves in alternation (R315), for a job or none. -/
def Hw.pairWith (h : Hw) (key : Nat) (payload : List Byte) (unary : Word) (job : Option Nat) : Hw :=
  let half := h.store.nextHalf
  let a := { mkRec key (h.store.pSeq + 1) false payload with unary := unary }
  let b := { mkRec key (h.store.pSeq + 2) true payload with unary := unary }
  let h : Hw := { h with store := { h.store with pSeq := h.store.pSeq + 2, nextHalf := !half } }
  let h := (h.keep half a).prove (halfRing half) a false job
  (h.keep (!half) b).prove (halfRing (!half)) b false job

def Hw.pairFor (h : Hw) (key : Nat) (payload : List Byte) (job : Option Nat) : Hw := h.pairWith key payload 0xFFFFFFFF job

def Hw.pair (h : Hw) (key : Nat) (payload : List Byte) : Hw := h.pairFor key payload none

/-- A sector is retired: the spare pool gives a replacement and SECTOR_RETIRED is raised, or it is empty and STORE_WORN is.
The list of retired sectors is key 0x0204. -/
def Hw.retireSector (h : Hw) (region gen : Nat) : Hw :=
  let new := h.store.retiredList ++ [be 1 region ++ be 4 gen]
  let had := 0 < h.store.spare
  let h := { h with store := { h.store with retiredSecs := h.store.retiredSecs + 1, spare := h.store.spare - 1 } }
  let h := h.pair 0x204 (new.drop (new.length - 204)).flatten
  h.raise (if had then 51 else 52)

/-! ## Checkpoints of the totalizers (R319, R320) -/

/-- A new base pair with the exact value (R320); its cell starts unwritten. -/
def Hw.newBase (h : Hw) (cd total : Nat) : Hw :=
  let h := h.pair (baseKey cd) (basePayload cd total h.image.ckptStep)
  { h with store := h.store.stamp cd total h.clk }

/-- The cells of a base in one half, as programs of their marker units. -/
def RingSt.cellsOf (r : RingSt) (ring : Ring) (cd tag : Nat) : List Verify :=
  r.secs.flatMap (fun s => (s.recs.filter (fun x => x.exists? && x.key = cellKey cd && ube (slice x.payload 0 4) = tag)).map (fun x =>
    { ring := ring, gen := s.gen, key := x.key, seq := x.seq, len := 16, old := some x.unary, copy := false, job := none }))

/-- Bits of the cells of a base are cleared, in the first copy and then in the second (R319), a weak one with them (R321). -/
def Hw.clearBits (h : Hw) (cd tag k : Nat) : Hw :=
  let f := fun (r : Rec) =>
    if r.exists? && r.key = cellKey cd && ube (slice r.payload 0 4) = tag then { r with unary := unaryOf k, weak := false } else r
  let vs := h.store.half0.cellsOf .half0 cd tag ++ h.store.half1.cellsOf .half1 cd tag
  let first := fun (v : Verify) => vs.all (fun x => v.seq ≤ x.seq)
  { h with store := { h.store with half0 := h.store.half0.mapRecs f, half1 := h.store.half1.mapRecs f
                                   proving := h.store.proving ++ vs.filter first ++ vs.filter (fun v => !first v) } }

/-- The cell of a base counts k steps: a first step writes the cell pair, later ones clear bits in both copies (R319). -/
def Hw.clearTo (h : Hw) (cd tag k total : Nat) : Hw :=
  let h := if (h.store.cells cd tag).isEmpty then h.pairWith (cellKey cd) (cellPayload cd tag) (unaryOf k) none else h.clearBits cd tag k
  { h with store := h.store.stamp cd total h.clk }

/-- CHECKPOINT_STEP (R319, R320): at a totalizer of `total` (2⁻³² mWh) bits are cleared for every step reached; once bit 31 counts
as cleared a new base with the exact value follows at once; a channel-direction without a base gets one. A bit that falls due
when the base of 15 min is due gives way to the base (R333). -/
def Hw.checkpoint (h : Hw) (cd total : Nat) : Hw :=
  let s := h.store
  match newest (s.existing (baseKey cd)) with
  | none => h.newBase cd total
  | some b =>
    let tag := b.pairNo
    let unit := baseStep b.payload * 1000
    let reached := if unit = 0 then 0 else min 32 ((total / 2 ^ 32 - ube (slice b.payload 4 8)) / unit)
    if 32 ≤ s.cellCount cd tag then h.newBase cd total
    else if s.cellCount cd tag < reached then
      if s.ckptTime.getD cd 0 + 900000000 ≤ h.clk then h.newBase cd total
      else
        let h := h.clearTo cd tag reached total
        if reached = 32 then h.newBase cd total else h
    else h

/-! ## Images in the configuration region (R302) -/

/-- One record into the configuration region; below 32 KiB of free space the oldest sector is compacted without waiting (R324). -/
def Hw.addConfig (h : Hw) (x : Rec) : Hw :=
  let h := if h.store.config.free < 32768 && 2 ≤ h.store.config.secs.length then h.compactNow .config else h
  let h := h.place .config { x with seq := h.store.cSeq + 1 }
  { h with store := { h.store with cSeq := h.store.cSeq + 1 } }

/-- An image's bytes are written to the configuration region, under key 1. -/
def Hw.recordImage (h : Hw) (bytes : List Byte) : Hw := (chunks 32 bytes).foldl (fun h p => h.addConfig (mkRec 1 0 false p)) h

/-- The final record follows, under key 2: with its COMMIT the image becomes current; without, the previous image stays in place
(R302, R308). -/
def Hw.putImage (h : Hw) (bytes : List Byte) (img : Image) (done : Bool) : Hw :=
  let h := (h.recordImage bytes).addConfig { mkRec 2 0 false (be 4 bytes.length) with committed := done }
  if done then { h with store := { h.store with image := some img } } else h

/-! ## The fault log region -/

/-- A fault log entry of R443, 32 bytes. -/
def FaultEntry.bytes (e : FaultEntry) : List Byte :=
  be 4 e.num ++ be 1 e.err.source ++ be 3 e.err.addr ++ be 1 (e.err.access * 16 + e.err.master) ++ be 1 e.reaction ++
    be 2 e.coalesced ++ be 8 e.err.time.toNat ++ be 4 e.err.micros ++ fit 8 0 e.detail

/-- Below 6 KiB of free space the oldest fault-log sector is erased, without copying (R323, R324). -/
def Hw.roomForFaults (h : Hw) : Hw :=
  match h.store.fault.secs with
  | _ :: _ :: _ =>
    if h.store.fault.free < 6144 then h.eraseNow .faultLog else h
  | _ => h

/-- The oldest entry in wait is written (R472). -/
def Hw.writeFault (h : Hw) : Hw :=
  match h.faults.queue with
  | [] => h
  | e :: es =>
    let h := h.roomForFaults
    let e := { e with num := h.faults.lastEntry + 1 }
    let r := mkRec 5 (h.store.fSeq + 1) false e.bytes
    let h : Hw := { h with
      faults := { h.faults with queue := es, log := h.faults.log ++ [e], lastEntry := e.num }
      store := { h.store with fSeq := h.store.fSeq + 1 } }
    (h.place .faultLog r).prove .faultLog r false none

/-- Every entry in wait is written. -/
def Hw.writeFaults (h : Hw) : Hw := h.faults.queue.foldl (fun h _ => h.writeFault) h

/-- The payload of a commit's fault log record: the capture and the count of errors not yet logged (R329). -/
def Faults.tail (f : Faults) : List Byte :=
  let cap := match f.cap with
    | some c => [1] ++ be 1 c.source ++ be 3 c.addr ++ be 1 (c.access * 16 + c.master) ++ be 8 c.time.toNat ++ be 4 c.micros
    | none => zeros 18
  cap ++ be 4 f.later ++ be 2 f.queue.length

/-- The one fault log record of a commit (R328 step 4, R329, R43 item 3), into what the region keeps for it (R324). -/
def Hw.commitFaults (h : Hw) : Hw :=
  { h with store := { h.store with fault := h.store.fault.add (mkRec 6 (h.store.fSeq + 1) false h.faults.tail)
                                   fSeq := h.store.fSeq + 1 } }

/-- The fault log record of a write outside the last-word commit, its verify still to come (R43, R519). -/
def Hw.faultRecord (h : Hw) (job : Option Nat) : Hw :=
  h.commitFaults.prove .faultLog (mkRec 6 (h.store.fSeq + 1) false h.faults.tail) false job

/-- Errors that come while the commit runs belong to its fault log record (R486). -/
def Hw.amendFaults (h : Hw) : Hw :=
  let f := fun (r : Rec) => if r.key = 6 && r.seq = h.store.fSeq then { r with payload := h.faults.tail } else r
  { h with store := { h.store with fault := h.store.fault.mapRecs f } }

/-! ## The erase of RETIRE (R301, R526) -/

/-- Sectors that step 4 erases: all but sector 0 of the spare pool. -/
def retireSectors : Nat := 8191

/-- The first sector of a region in the flash (R301, in the table's order). -/
def regionBase (region : Nat) : Nat :=
  match region with
  | 1 => 1024
  | 2 => 1280
  | 3 => 1408
  | 4 => 1536
  | 5 => 5632
  | _ => 6656

/-- Sectors of the flash that RETIRE has erased so far, in the order of R301 (DESIGN CHOICE, log 31). -/
def Hw.retireGone (h : Hw) : Nat := if h.life.retireLeft = 0 then 0 else retireSectors - h.life.retireLeft

end Sys2Proof.Machine
end

