-- ==== Sys2Proof/Machine/Paths.lean ====
section
/-! DEFINITION. The two paths of Belvedere from the modulator bits to the integrals of a block: decimators, compensators,
high-pass, phase delay, input-referred boundaries (R240, R242, R248–R251). Roundings inside the chain, which the manual bounds
by R272 alone, are towards minus infinity (DESIGN CHOICE, log 64). -/

namespace Sys2Proof.Machine

/-! ## Calibration blocks (R244–R247) -/

def calField (b : List Byte) (off n : Nat) : Nat := ube (slice b off n)

/-- A 32-bit field read as signed. -/
def sint (bits v : Nat) : Int := if 2 ^ (bits - 1) ≤ v then (v : Int) - 2 ^ bits else v

def calSigned (b : List Byte) (off : Nat) : Int := sint 32 (calField b off 4)
def calPhase (b : List Byte) : Int := sint 16 (calField b 28 2)

def calFlags (b : List Byte) : Nat := calField b 1 1
def calEnable (b : List Byte) : Bool := (calFlags b).testBit 0
def calDc (b : List Byte) : Bool := (calFlags b).testBit 1
def calFalling (b : List Byte) : Bool := (calFlags b).testBit 2

/-! ## What tells the paths apart (R248, R250, R251) -/

/-- One path: order and ratio of its decimator, bits that its 24-bit samples drop, latency in 25 ns, compensator, pole and gain of
the high-pass. -/
structure PathSpec where
  order : Nat
  ratio : Nat
  drop : Nat
  latency : Nat
  taps : List Int
  pole : Nat
  gain : Nat
  deriving DecidableEq, Repr

/-- The primary path: sinc³ by 256, 108.725 µs. -/
def MeterRom.primary (m : MeterRom) : PathSpec :=
  { order := 3, ratio := 256, drop := 1, latency := 4349, taps := m.tapsP, pole := m.poleP, gain := m.gainP }

/-- The check path: sinc⁴ by 1024, 255.9 µs. -/
def MeterRom.check (m : MeterRom) : PathSpec :=
  { order := 4, ratio := 1024, drop := 17, latency := 10236, taps := m.tapsC, pole := m.poleC, gain := m.gainC }

/-- Half a sample period in 25 ns. -/
def PathSpec.half (p : PathSpec) : Nat := p.ratio

/-- A sample period in ns. -/
def PathSpec.periodNs (p : PathSpec) : Nat := 50 * p.ratio

/-! ## One signal (R242, R248, R249) -/

/-- Integrators: each adds what the one before it holds now. -/
def integrate : BitVec 48 → List (BitVec 48) → List (BitVec 48)
  | _, [] => []
  | x, a :: r => (a + x) :: integrate (a + x) r

/-- Combs: each passes on the difference from its last input. -/
def differ : BitVec 48 → List (BitVec 48) → List (BitVec 48) × BitVec 48
  | x, [] => ([], x)
  | x, d :: r => let a := differ (x - d) r; (x :: a.1, a.2)

/-- s = 2b − 1 (R242). -/
def Signal.bit (s : Signal) (b : Bool) : Signal := { s with cic := integrate (if b then 1 else -1) s.cic }

/-- A number in 24 bits. -/
def word24 (x : Int) : Int := max (-8388608) (min 8388607 x)

/-- A symmetric filter over samples, newest first: `taps` are the middle tap and those after it. -/
def symmetric (taps xs : List Int) : Int :=
  let m := taps.length - 1
  (List.range (2 * m + 1)).foldl (fun a i => a + taps.getD (max i m - min i m) 0 * xs.getD i 0) 0

/-- The decimator's output joins the compensator; x is its output in 2⁻³¹, and the high-pass follows it. -/
def Signal.output (s : Signal) (p : PathSpec) : Signal × Int :=
  let c := differ (s.cic.getLastD 0) s.comb
  let fir := (word24 (c.2.toInt / 2 ^ p.drop) :: s.fir).take (2 * p.taps.length - 1)
  let x := symmetric p.taps fir / 2 ^ 22
  let y := (x - s.hpX) * p.gain / 2 ^ 16 + s.hpY * p.pole / 2 ^ 32
  ({ s with comb := c.1, fir := fir, hpX := x, hpY := y, past := (y / 2 ^ 16 :: s.past).take 3 }, x)

/-- A sample delayed by ns, interpolated between adjacent samples of the path (R249). -/
def Signal.delayed (s : Signal) (p : PathSpec) (ns : Nat) : Int :=
  let k := ns / p.periodNs
  let r := ns % p.periodNs
  (s.past.getD k 0 * ((p.periodNs - r : Nat) : Int) + s.past.getD (k + 1) 0 * r) / p.periodNs

/-! ## One path (R249, R251) -/

/-- |x| above 0.85 (R242), x in 2⁻³¹. -/
def overrange (x : Int) : Bool := 17 * 2 ^ 31 < 20 * x.natAbs

/-- The sample that a path forms after `n` MCLK periods. -/
def PathFront.sample (f : PathFront) (p : PathSpec) (cal : List Byte) (n : Nat) : PathFront × Sample :=
  let v := f.v.output p
  let i := f.i.output p
  let ph := calPhase cal
  let s : Sample :=
    { centre := (2 * n : Nat) - (p.latency : Int)
      v := if calDc cal then v.2 - calSigned cal 20 else v.1.delayed p ph.toNat
      i := if calDc cal then i.2 - calSigned cal 24 else i.1.delayed p (-ph).toNat
      clipped := overrange v.2 || overrange i.2 }
  ({ v := v.1, i := i.1 }, s)

/-- One MCLK period, the n-th: the edge that MCLK_EDGE selects (R240). -/
def PathFront.bits (f : PathFront) (cal : List Byte) (b : ModBits) : PathFront :=
  let e := if calFalling cal then 1 else 0
  { v := f.v.bit (b.getLsbD e), i := f.i.bit (b.getLsbD (2 + e)) }

/-- What a path has formed so far of a run of bits. -/
structure PathRun where
  front : PathFront
  n : Nat
  samples : List Sample
  deriving DecidableEq, Repr

def PathRun.step (p : PathSpec) (cal : List Byte) (r : PathRun) (b : ModBits) : PathRun :=
  let f := r.front.bits cal b
  let n := r.n + 1
  if n % p.ratio = 0 then
    let a := f.sample p cal n
    { front := a.1, n := n, samples := a.2 :: r.samples }
  else { r with front := f, n := n }

/-- A path takes bits, the first of them in MCLK period n + 1; its samples, in order. -/
def PathFront.run (f : PathFront) (p : PathSpec) (cal : List Byte) (n : Nat) (bs : List ModBits) : PathRun :=
  let r := bs.foldl (PathRun.step p cal) { front := f, n := n, samples := [] }
  { r with samples := r.samples.reverse }

/-! ## Integrals between two boundaries (R250, R251, R252, R256) -/

/-- Time that a sample of half width w lies between two boundaries, in 25 ns: a straddling sample is split. -/
def Sample.share (s : Sample) (w t0 t1 : Int) : Nat := (min (s.centre + w) t1 - max (s.centre - w) t0).toNat

/-- What a path has integrated over a block: v·i, v², i² in 2⁻⁶² and v, i in 2⁻³¹, each times 25 ns; the block's length; the
instants of the voltage zero crossings. -/
structure BlockSum where
  p : Int
  vv : Int
  ii : Int
  v : Int
  i : Int
  time : Nat
  crossings : List Int
  deriving DecidableEq, Repr

def BlockSum.zero (time : Nat) : BlockSum := { p := 0, vv := 0, ii := 0, v := 0, i := 0, time := time, crossings := [] }

def BlockSum.add (w t0 t1 : Int) (a : BlockSum) (s : Sample) : BlockSum :=
  let d : Int := s.share w t0 t1
  { a with p := a.p + s.v * s.i * d, vv := a.vv + s.v * s.v * d, ii := a.ii + s.i * s.i * d, v := a.v + s.v * d, i := a.i + s.i * d }

/-- Zero crossings between successive samples, each placed by interpolation (DESIGN CHOICE, log 65). -/
def crossings : List Sample → List Int
  | a :: b :: r =>
    let rest := crossings (b :: r)
    if (a.v < 0) != (b.v < 0) then (a.centre + (b.centre - a.centre) * a.v.natAbs / (a.v.natAbs + b.v.natAbs)) :: rest else rest
  | _ => []

/-- The integral of samples from boundary t0 to t1. -/
def blockSum (p : PathSpec) (t0 t1 : Nat) (ss : List Sample) : BlockSum :=
  let a := ss.foldl (BlockSum.add p.half t0 t1) (BlockSum.zero (t1 - t0))
  { a with crossings := (crossings ss).filter (fun c => (t0 : Int) ≤ c && c < t1) }

/-- MCLK periods whose bits both paths need for a boundary: up to it and through the longer latency. -/
def bitsTo (t : Nat) : Nat := t / 2 + 6656

/-- The bits that a block takes: those given, and free ones in place of those that no command carried. -/
def blockBits (given : List ModBits) (draw c n : Nat) : List ModBits :=
  given.take n ++ (List.range (n - given.length)).map (fun k => Config.modBits draw c (given.length + k))

/-- A path over one block: its state at the boundary t1, its integral from t0, and whether a sample of the block was in overrange.
The bits beyond the boundary form the last samples of this block; the next block takes them again with its own constants, so
that a new calibration applies from the boundary (R266). -/
def PathFront.block (f : PathFront) (p : PathSpec) (cal : List Byte) (t0 t1 : Nat) (bs : List ModBits) :
    PathFront × BlockSum × Bool :=
  let k := t1 / 2 - t0 / 2
  let a := f.run p cal (t0 / 2) (bs.take k)
  let b := a.front.run p cal (t1 / 2) (bs.drop k)
  let ss := a.samples ++ b.samples
  (a.front, blockSum p t0 t1 ss, ss.any (fun s => s.clipped && t0 ≤ s.centre && s.centre < t1))

/-! ## Energy, power and measured values (R249, R250, R252, R253, R256) -/

/-- Integer square root by n bisection steps. -/
def isqrtAux (v : Nat) : Nat → Nat → Nat
  | 0, r => r
  | n + 1, r => let t := r + 2 ^ n; isqrtAux v n (if t * t ≤ v then t else r)

def isqrt (v : Nat) : Nat := isqrtAux v 40 0

/-- Σ p·T of a path with its gains, in 2⁻¹²² µW × 25 ns. -/
def pathWork (cal : List Byte) (b : BlockSum) : Int :=
  (calField cal 12 4 : Int) * calField cal 4 4 * calField cal 16 4 * calField cal 8 4 * b.p

/-- E_b in 2⁻³² mWh, towards zero: 1 mWh is 1.44 × 10¹⁴ µW × 25 ns. -/
def pathEnergy (cal : List Byte) (b : BlockSum) : Int := (pathWork cal b * 2 ^ 32).tdiv (2 ^ 122 * 144000000000000)

/-- P_b in mW, towards zero. -/
def pathMw (cal : List Byte) (b : BlockSum) : Int := (pathWork cal b).tdiv (2 ^ 122 * 1000 * b.time)

/-- |P_b| below CREEP (R253), P_b taken over the length of the block (R258). -/
def belowCreep (cal : List Byte) (b : BlockSum) : Bool := (pathWork cal b).natAbs < calField cal 32 4 * 1000 * 2 ^ 122 * b.time

/-- RMS, or in DC mode the mean, of a signal: gain × scale in 2⁻⁶¹. -/
def pathLevel (dc : Bool) (gain scale : Nat) (square sum : Int) (time : Nat) : Int :=
  if dc then ((gain : Int) * scale * sum).tdiv (2 ^ 61 * time)
  else ((gain * scale * isqrt (square.toNat / time)) / 2 ^ 61 : Nat)

/-- Frequency in mHz from the zero crossings, half a cycle apart: 0 in DC mode, below 5 % of KV, with fewer than two of them, or
outside 45–65 Hz (R256). -/
def pathFreq (cal : List Byte) (volt : Nat) (cs : List Int) : Nat :=
  match cs, cs.getLast? with
  | a :: _ :: _, some b =>
    let f := ((cs.length - 1) * 20000000000) / (b - a).toNat
    if calDc cal || volt * 20 < calField cal 4 4 || f < 45000 || 65000 < f then 0 else f
  | _, _ => 0

/-- What a path measured over a block (R256). -/
def pathVals (cal : List Byte) (b : BlockSum) : PathVals :=
  let v := pathLevel (calDc cal) (calField cal 12 4) (calField cal 4 4) b.vv b.v b.time
  { volt := if v < 0 then Config.negativeVolt v else v.toNat
    amp := pathLevel (calDc cal) (calField cal 16 4) (calField cal 8 4) b.ii b.i b.time
    power := pathMw cal b
    freq := pathFreq cal v.toNat b.crossings }

end Sys2Proof.Machine
end

