-- ==== Sys2Proof/Machine/Meter.lean ====
section
/-! DEFINITION. The meter's shared operations: limits of a calibration block, a channel over a block, METRO_HOLD, captures
(R244–R270, R279). -/

namespace Sys2Proof.Machine

/-! ## Calibration blocks (R244–R247) -/

def calCrcOk (b : List Byte) : Bool := b.length = 48 && slice b 44 4 = be 4 (crc32 (b.take 44)).toNat

/-- The limits of R244. -/
def calInRange (b : List Byte) : Bool :=
  let gain := fun (g : Nat) => 0x39999999 ≤ g && g ≤ 0x46666666
  let offs := fun (o : Int) => -42949673 ≤ o && o ≤ 42949673
  calField b 0 1 = 1 && calFlags b < 8 && calField b 2 2 = 0 && 1000 ≤ calField b 4 4 && calField b 4 4 ≤ 2000000 &&
    100 ≤ calField b 8 4 && calField b 8 4 ≤ 2000000 && gain (calField b 12 4) && gain (calField b 16 4) &&
    offs (calSigned b 20) && offs (calSigned b 24) && -20000 ≤ calPhase b && calPhase b ≤ 20000 && calField b 30 2 = 0 &&
    calField b 32 4 ≤ 100000 && calField b 40 4 = 0

def Chan.enabled (c : Chan) : Bool := calEnable c.calP
def Chan.dc (c : Chan) : Bool := calDc c.calP
def Chan.held (c : Chan) : Bool := c.diverge || c.calHold || c.inputHold

/-! ## Channels over a block (R247, R251–R254) -/

/-- A path's totals add what is positive to IMPORT and what is negative to EXPORT (R253). -/
def pos (e : Int) : Nat := e.toNat
def neg (e : Int) : Nat := (-e).toNat

/-- Both paths of a channel run on to boundary t1: the channel, and the integrals of the primary and of the check path from t0. -/
def Chan.run (x : Chan) (rom : MeterRom) (t0 t1 : Nat) (bs : List ModBits) : Chan × BlockSum × BlockSum :=
  let bs := x.ahead ++ bs
  let p := x.frontP.block rom.primary x.calP t0 t1 bs
  let c := x.frontC.block rom.check x.calC t0 t1 bs
  ({ x with frontP := p.1, frontC := c.1, ahead := bs.drop (t1 / 2 - t0 / 2), overrange := x.overrange || p.2.2 }, p.2.1, c.2.1)

/-- The check path adds its block (R253); its own suppression sets the channel's CREEP flag too. -/
def Chan.addCheck (x : Chan) (b : BlockSum) : Chan :=
  let e := pathEnergy x.calC b
  let x := { x with dIC := x.dIC + pos e, dEC := x.dEC + neg e }
  if belowCreep x.calC b then { x with creep := true } else { x with cImp := x.cImp + pos e, cExp := x.cExp + neg e }

/-- The primary path adds its block: not while held, and not the block in which a hold ends (R253, R263, R265). -/
def Chan.addPrimary (x : Chan) (b : BlockSum) : Chan :=
  let e := pathEnergy x.calP b
  let x := { x with dIP := x.dIP + pos e, dEP := x.dEP + neg e }
  if x.held then x
  else if x.resume then { x with resume := false }
  else if belowCreep x.calP b then { x with creep := true }
  else { x with imp := x.imp + pos e, exp := x.exp + neg e }

/-- A channel at the end of a block (R252, R256, R258). One with ENABLE = 0 is not measured, and its paths stand at rest (R247;
DEDUCED, log 64). -/
def Chan.block (x : Chan) (rom : MeterRom) (t0 t1 : Nat) (bs : List ModBits) : Chan :=
  if x.enabled then
    let r := x.run rom t0 t1 bs
    let y := (r.1.addCheck r.2.2).addPrimary r.2.1
    { y with valsP := pathVals x.calP r.2.1, valsC := pathVals x.calC r.2.2 }
  else { x with frontP := PathFront.rest 3, frontC := PathFront.rest 4, ahead := [] }

/-- Bits that a channel still needs for a block: up to its end and through the longer latency, less those it took ahead. -/
def Chan.needs (x : Chan) (t0 t1 : Nat) : Nat := bitsTo t1 - t0 / 2 - x.ahead.length

/-- Every channel's block in progress ends at an instant in µs of the model clock: the bits are those given, and free ones where
a command carried none (R251, R258; DESIGN CHOICE, log 27). -/
def Hw.endBlock (h : Hw) (cs : List (List ModBits)) (at_ : Nat) : Hw :=
  let t0 := 40 * (h.metro.blockStart - h.metro.start)
  let t1 := 40 * (at_ - h.metro.start)
  let f := fun (c : Nat) (x : Chan) =>
    x.block h.factory.meter t0 t1 (blockBits (cs.getD c []) h.free c (x.needs t0 t1))
  { h.draw with metro := { h.metro with chans := h.metro.chans.mapIdx f } }

/-! ## The status word of R270 -/

/-- The live word of channel c (numbered from 0), without FROZEN. -/
def Chan.word (x : Chan) (c : Nat) : Word :=
  BitVec.ofNat 32 (b2n x.held + 2 * b2n x.diverge + 4 * b2n x.calHold + 8 * b2n x.inputHold + 16 * b2n x.disagreeSeen +
    32 * b2n x.creep + 64 * b2n x.overrange + 128 * b2n x.dc + 2 ^ 16 * (2 ^ c * b2n x.held))

def maskChans (m : BitVec 8) : List Nat := (List.range 8).filter (fun c => m.getLsbD c)

/-- OR of the words of a slot's channels. -/
def Hw.maskWord (h : Hw) (m : BitVec 8) : Word := (maskChans m).foldl (fun w c => w ||| (h.chan c).word c) 0

/-- The words of a session are accumulated from its start capture to its stop capture (R270). -/
def Hw.gather (h : Hw) : Hw :=
  { h with slots := h.slots.map (fun s =>
      if s.open? && !s.startPending && !s.captured then { s with metro := s.metro ||| h.maskWord s.mask } else s) }

/-! ## METRO_HOLD (R262, R263, R265) -/

/-- Persisted hold causes, key 0x0110: the DIVERGE mask, then the CAL mask. -/
def Hw.holdPayload (h : Hw) : List Byte :=
  let m := fun (f : Chan → Bool) => (List.range 8).foldl (fun a c => a + 2 ^ c * b2n (f (h.chan c))) 0
  be 1 (m (·.diverge)) ++ be 1 (m (·.calHold))

def Chan.addCause (x : Chan) (cause : Nat) : Chan :=
  if cause = 1 then { x with diverge := true } else if cause = 2 then { x with calHold := true }
  else { x with inputHold := true }

def Chan.hasCause (x : Chan) (cause : Nat) : Bool :=
  if cause = 1 then x.diverge else if cause = 2 then x.calHold else x.inputHold

/-- METRO_HOLD_ENTER: channel c takes a cause (1 DIVERGE, 2 CAL, 3 INPUT). A further cause on a held channel is recorded and
logged only. -/
def Hw.enterHold (h : Hw) (c cause : Nat) (inj : Bool) : Hw :=
  if (h.chan c).hasCause cause then h
  else
    let was := (h.chan c).held
    let h := h.modChan c (fun x => { x.addCause cause with skip := true, resume := false })
    let h := if cause = 3 then h else h.pair 0x110 h.holdPayload
    let h := h.gather
    let h := if was then h else h.raise 25
    let h : Hw := if was then h else
      { h with slots := h.slots.map (fun s => if s.mask.getLsbD c then s.askClose 0x05 0 else s) }
    h.report (0x8F + cause) ((c + 1) * 256 + cause) 6 0 (injected inj)

/-- METRO_HOLD_EXIT: a cause clears; with the last one the channel leaves the hold and resumes at the next block. -/
def Hw.clearCause (h : Hw) (c cause : Nat) : Hw :=
  if (h.chan c).hasCause cause then
    let h := h.modChan c (fun x =>
      if cause = 1 then { x with diverge := false } else if cause = 2 then { x with calHold := false }
      else { x with inputHold := false })
    let h := if cause = 3 then h else h.pair 0x110 h.holdPayload
    if (h.chan c).held then h
    else
      let h := h.modChan c (fun x => { x with resume := true, skip := true })
      let h := h.raise 26
      h.report 0x93 ((c + 1) * 256 + cause) 6 0 []
  else h

/-! ## Loading calibration (R246, R268) -/

/-- The result of a load: 0 consistent, 1 CRC, 2 differ, 3 conflict, 4 absent, in the order 4, 3, 1, 2. -/
def loadCheck (p c : Found) : Nat :=
  match p, c with
  | .absent, _ | _, .absent => 4
  | .conflict, _ | _, .conflict => 3
  | .value a, .value b =>
    if !calCrcOk a.payload || !calCrcOk b.payload then 1 else if a.payload != b.payload then 2 else 0

def Found.bytes : Found → List Byte
  | .value r => r.payload
  | _ => []

/-- Both paths load and check the blocks that their keys gave; anything but a consistent pair holds the channel with cause
CAL. A write that was cut before its four copies had committed reads as blocks that differ (R267; DEDUCED, log 40). -/
def Hw.loadBlocks (h : Hw) (c : Nat) (p q : Found) (bad : Bool) : Hw :=
  let cut := h.store.cutShort (0x100 + c) || h.store.cutShort (0x108 + c)
  let r := loadCheck p q
  let r := if r = 0 && cut then 2 else r
  let r := if bad && (r = 0 || r = 2) then 1 else r
  let h := h.modChan c (fun x => { x with calP := fit 48 0 p.bytes, calC := fit 48 0 q.bytes, check := r, load := false,
                                          skip := true })
  if r = 0 then h else h.enterHold c 2 bad

def Hw.loadCal (h : Hw) (c : Nat) (bad : Bool) : Hw := h.loadBlocks c (h.store.look (0x100 + c)) (h.store.look (0x108 + c)) bad

/-! ## Reading parameters (R308, R316, R468, R469) -/

/-- A record is read: its ECC check, then its CRC check; one that fails either counts as failing its CRC. -/
def Hw.readRecord (h : Hw) (ecc crc region key : Nat) : Hw × Bool :=
  let a := h.flashCheck ecc region key
  if a.2 then (a.1.take crc, !a.1.hit crc) else a

/-- The existing records of a key in one half that pass their checks. -/
def Hw.passRecs (h : Hw) (ecc region key : Nat) (rs : List Rec) : Hw × List Rec :=
  rs.foldl (fun (a : Hw × List Rec) r =>
    if r.exists? && r.key = key then
      let c := a.1.readRecord ecc 8 region key
      (c.1, if c.2 then a.2 ++ [r] else a.2)
    else a) (h, [])

/-- A parameter key is read from flash (R316). -/
def Hw.readKey (h : Hw) (ecc key : Nat) : Hw × Found :=
  let a := h.passRecs ecc 2 key h.store.half0.recs
  let b := a.1.passRecs ecc 3 key h.store.half1.recs
  (b.1, foundIn (a.2 ++ b.2))

/-! ## Captures (R276, R279) -/

/-- The start capture of a slot at a time value. -/
def Hw.startSlot (h : Hw) (t : DWord) (s : Slot) : Slot :=
  { s with startPending := false, tStart := t, impStart := h.regSum s.mask (·.imp), expStart := h.regSum s.mask (·.exp),
           metro := h.maskWord s.mask,
           flags := s.flags ||| (if h.pwr.onBattery then 8 else 0) }

/-- The stop capture of a slot at a time value; with START_PENDING set it is the start capture too (R276, R292). -/
def Hw.stopSlot (h : Hw) (t : DWord) (s : Slot) : Slot :=
  let both := s.startPending
  let s := if both then h.startSlot t s else s
  { s with captured := true, tStop := t, impStop := h.regSum s.mask (·.imp), expStop := h.regSum s.mask (·.exp),
           metro := s.metro ||| h.maskWord s.mask, flags := s.flags ||| (if both then 16 else 0) }

end Sys2Proof.Machine
end

