-- ==== Sys2Proof/Machine/LastWord.lean ====
section
/-! DEFINITION. The last-word commit, and what a main-domain power-on reset restores from the store (R258, R275, R284,
R322, R326–R329, R513). -/

namespace Sys2Proof.Machine

/-! ## Payloads of LAST_WORD and of key 0x0410 (R327) -/

def Hw.totals (h : Hw) : List Byte :=
  (List.range 8).flatMap (fun c =>
    be 8 ((h.chan c).imp / 2 ^ 32) ++ be 4 ((h.chan c).imp % 2 ^ 32) ++ be 8 ((h.chan c).exp / 2 ^ 32) ++
      be 4 ((h.chan c).exp % 2 ^ 32))

/-- Output energy counters and run-hour counters: 18 and 2 values of 8 bytes. -/
def Hw.counters (h : Hw) : List Byte :=
  (List.range 18).flatMap (fun k => be 8 (h.adc.outs.getD k OutTelem.empty).energy) ++ be 8 (h.adc.runMain / 1000000) ++
    be 8 (h.adc.runBatt / 1000000)

/-- An hour in µs. -/
def hourUs : Nat := 3600000000

/-- The 32 bytes of a gauge state: SOC, U, cumulative discharge, flags, age of the last reference point in 1 h (DESIGN CHOICE, log
12: the manual gives the length only). -/
def Gauge.bytes (g : Gauge) (clk : Nat) : List Byte :=
  be 4 g.soc ++ be 4 g.u ++ be 8 g.discharge ++ be 1 (b2n g.noRest) ++ be 1 (b2n (g.active.isSome && g.active == g.custom)) ++
    be 4 ((clk - g.refAt) / hourUs) ++ zeros 10

/-- A gauge state that comes back from the store at an instant: counting had a gap, so the last reference point no longer serves
R357; its age, and the growth of U under NO_REST, go on from there, the time without power left out (R356, R360; DESIGN CHOICE,
log 12). -/
def Gauge.load (g : Gauge) (bs : List Byte) (clk : Nat) : Gauge :=
  { g with soc := ube (slice bs 0 4), u := ube (slice bs 4 4), discharge := ube (slice bs 8 8), dqRef := 0, socRef := none,
           noRest := ube (slice bs 16 1) = 1, active := if ube (slice bs 17 1) = 1 then g.custom else none,
           refAt := clk - ube (slice bs 18 4) * hourUs, updatedAt := clk }

/-- The learned values of key 0x0400 (R357, R358). -/
def Gauge.learnedBytes (g : Gauge) : List Byte :=
  be 4 g.fcc ++ be 4 g.cycles ++ be 1 (b2n g.learning) ++ be 1 g.res.length ++ g.res.flatMap (be 2) ++
    (match g.custom with | some t => t.flatMap (fun p => be 2 p.1 ++ be 2 p.2) | none => [])

def pairsOf : Nat → List Byte → List (Nat × Nat)
  | 0, _ => []
  | n + 1, bs => (ube (bs.take 2), ube (slice bs 2 2)) :: pairsOf n (bs.drop 4)

def Gauge.loadLearned (g : Gauge) (bs : List Byte) : Gauge :=
  let n := ube (slice bs 9 1)
  let rest := bs.drop (10 + 2 * n)
  { g with fcc := ube (slice bs 0 4), cycles := ube (slice bs 4 4), learning := ube (slice bs 8 1) = 1,
           res := (List.range n).map (fun i => ube (slice bs (10 + 2 * i) 2)),
           custom := if rest.isEmpty then none else some (pairsOf 32 rest) }

/-- A parameters half has less than 4 KiB free: gauge writes wait (R324). -/
def Hw.halfShort (h : Hw) : Bool := h.store.half0.free < 4096 || h.store.half1.free < 4096

/-- Gauge writes that are due go to the store as soon as there is room (R324, R326); in LIMP the store takes none (R482). -/
def Hw.gaugeWrites (h : Hw) : Hw :=
  if h.inLimp || h.halfShort || h.pwr.commit.isSome || !h.ins.booted then h
  else
    let h := match h.gauge.learnedDue, h.gauge.tableJob with
      | true, some n => h.enqueue 0x400 h.gauge.learnedBytes (.table n)
      | true, none => h.pair 0x400 h.gauge.learnedBytes
      | false, _ => h
    let h := if h.gauge.stateDue then h.pair 0x401 (h.gauge.bytes h.clk) else h
    { h with gauge := { h.gauge with learnedDue := false, tableJob := if h.gauge.learnedDue then none else h.gauge.tableJob, stateDue := false } }

def Hw.lastWordPayload (h : Hw) : List Byte := h.totals ++ h.counters ++ h.gauge.bytes h.clk

/-! ## The freeze (R258) -/

/-- Belvedere freezes: the block in progress ends at the freeze instant, its energy is added, the totalizers stop, and the
interval in progress is not compared (R258, R261). -/
def Hw.freeze (h : Hw) : Hw :=
  if h.metering && !h.metro.frozen then
    let h := h.endBlock [] (min h.clk (h.metro.blockStart + 100000))
    let chans := h.metro.chans.map (fun x => { x with skip := true })
    ({ h with metro := { h.metro with frozen := true, chans := chans } }).gather
  else h

/-! ## Steps 3 to 5 of the commit (R328, R329) -/

/-- Slots in ascending order (R284). -/
def slotNumbers : List Nat := List.range 128

/-- A record that waits is that of slot n. -/
def waitsFor (n : Nat) (w : WaitRec) : Bool := slice w.draft 0 1 == [1] && slice w.draft 8 2 == be 2 n

/-- The record of slot n is programmed, under the number it keeps if its programming had begun before; the slot takes the number and
a state, and a slot that holds its reserved entry no longer counts in N_RES when LOG_LOW is judged (R276, R298). -/
def Hw.putSlot (h : Hw) (n : Nat) (signed : Bool) (st : SlotState) : Hw :=
  let before := h.logSpace
  let s := h.slot n
  let seq := h.log.number s.seq
  let h : Hw := { h with log := h.log.put (h.sessionDraft n s) signed seq }
  let h := h.modSlot n (fun s => { s with st := st, closePending := false, captured := false, seq := seq })
  (h.reclaim).lowSince before

/-- A signed append in progress is always finished within the commit (R300, R329), and its slot is CLOSED (R276). Whether the record
of the lowest captured slot is already being appended at the trigger is a free value (DESIGN CHOICE, log 40). -/
def Hw.finishAppend (h : Hw) : Hw :=
  match slotNumbers.find? (fun n => (h.slot n).open? && (h.slot n).captured && !(h.log.waiting.any (waitsFor n))) with
  | some n =>
    let h := h.draw
    if Config.freeNat (h.free - 1) % 2 = 1 && 0 < h.log.erased then
      let j := (h.slot n).closeJob
      let h := h.putSlot n true .closed
      (h.endJob? j 0 0 (be 4 (h.slot n).seq)).raise 27
    else h
  | none => h

/-- One OPEN slot becomes CLOSED_PF with the freeze capture; its entry is appended unsigned (R284). A slot whose own stop
capture is taken keeps it and its reason. A record that waits, or finds no erased entry, is lost (R313). -/
def Hw.closePf (h : Hw) (reason : Nat) (n : Nat) : Hw :=
  let s := h.slot n
  if s.open? then
    let f : Slot :=
      if s.captured then { s with flags := s.flags ||| 1 }
      else
        let s := h.stopSlot h.now s
        { s with reason := reason, flags := s.flags ||| 1, metro := s.metro ||| 0x100 }
    let h := (h.endJob? s.openJob 0 1 []).endJob? s.closeJob 0 1 []
    let h := h.modSlot n (fun _ => { f with openJob := none, closeJob := none })
    if h.log.erased = 0 || h.log.waiting.any (waitsFor n) then
      { (h.loseRecord).modSlot n (fun s => { s with st := .closedPf, closePending := false, captured := false }) with
        log := { h.log with waiting := h.log.waiting.filter (fun w => !waitsFor n w) } }
    else h.putSlot n false .closedPf
  else h

/-- A parameter copy under way is finished when its remaining programming takes at most 1.0 ms: 14 units and COMMIT
(R329). -/
def copyShort (len : Nat) : Bool := 1 + (len + 4 + 15) / 16 ≤ 14

/-- The time the record of a TIME_SET takes and writes into the Lodge: V + d (R379). -/
def Hw.timeTarget (h : Hw) (t : TimeSetJob) : Nat := t.value + (h.clk - t.acceptedAt) * 1024 / 1000000

def syncStatus (synced : Bool) : TimeStatus := if synced then .setSynced else .setLocal

/-- The content of a log record is formed when its programming first begins: a TIME_SET record carries the Lodge's value and V + d
(R379). -/
def Hw.formRecord (h : Hw) (w : StoreWrite) : StoreWrite :=
  match w.purpose, h.lodge.timeSet with
  | .timeSet _, some t =>
    if w.seq = 0 then { w with payload := h.timeRecord h.now (timeValue (h.timeTarget t) (syncStatus t.synced) 1) } else w
  | _, _ => w

/-- The record of a TIME_SET is committed under a number: the Lodge may be written (R379). -/
def Hw.timeCommitted (h : Hw) (p : Purpose) (seq : Nat) : Hw :=
  match p with
  | .timeSet _ => { h with lodge := { h.lodge with timeSet := h.lodge.timeSet.map (fun t => { t with committed := true, seq := seq }) } }
  | _ => h

/-- A log record's body is programmed, and its signature (R311): it takes its number, and COMMIT follows. -/
def Hw.beginLog (h : Hw) (w : StoreWrite) : Hw × StoreWrite :=
  let before := h.logSpace
  let w := h.formRecord w
  let seq := h.log.number w.seq
  let h : Hw := { h with log := h.log.write w.payload seq w.signed false false }
  ((h.reclaim).lowSince before, { w with seq := seq, phase := 1 })

/-- The log record at the head of the queue at a cut (R329): its body alone stays without COMMIT; from COMMIT on it is finished. One
that has not begun is not written; one that found E = 0 counts as lost (R313). -/
def Hw.cutLog (h : Hw) (w : StoreWrite) : Hw :=
  if w.phase = 0 then
    if h.log.erased = 0 then h.loseRecord else if h.sessionsDue then h else (h.beginLog w).1
  else ({ h with log := h.log.mark w.seq w.signed }).timeCommitted w.purpose w.seq

/-- The parameter copy, or the final record of an image, at the head of the queue at a cut: with its COMMIT, or without. -/
def Hw.cutCopy (h : Hw) (w : StoreWrite) (done : Bool) : Hw :=
  match w.purpose with
  | .image _ img => h.putImage w.payload img done
  | _ =>
  let half := if w.phase < 2 then w.half else !w.half
  let r := if w.phase < 2 then mkRec w.key w.seq false w.payload else mkRec w.key (w.seq + 1) true w.payload
  h.place (halfRing half) { r with committed := done }

/-- The jobs of writes that are not carried out. -/
def Hw.dropWrites (h : Hw) (ws : List StoreWrite) : Hw :=
  ws.foldl (fun h w => match w.purpose with
    | .job n | .timeSet n | .calChange n | .table n | .image n _ | .sealing n => h.dropJob n
    | .cal _ _ | .breaking | .none => h) h

/-- The store's write in progress is finished or left without COMMIT (R329); the rest of the queue is not started. -/
def Hw.cutWrites (h : Hw) : Hw :=
  match h.store.queue with
  | [] => h
  | w :: ws =>
    let h := h.dropWrites (w :: ws)
    let h := if w.isLog then h.cutLog w else h.cutCopy w (w.phase % 2 = 1 || copyShort w.payload.length)
    { h with store := { h.store with queue := [] }
             lodge := { h.lodge with timeSet := h.lodge.timeSet.filter (·.committed) } }

/-- Power fails in the write in progress with no commit to finish it (R308, R325): a body stays without COMMIT; whether a COMMIT
under way had taken is a free value. -/
def Hw.hardCut (h : Hw) : Hw :=
  match h.store.queue with
  | [] => h
  | w :: ws =>
    let took := Config.freeNat h.free % 2 = 1
    let h := h.draw.dropWrites (w :: ws)
    let h :=
      if w.isLog then (if w.phase = 0 || took then h.cutLog { w with signed := false } else h)
      else h.cutCopy w (w.phase % 2 = 1 && took)
    { h with store := { h.store with queue := [] } }

/-- Erases in progress are cut half-way: their sectors, and what stood in them, are left with an unreadable header (R325, R329). -/
def Hw.cutErase (h : Hw) : Hw :=
  let h := match h.store.erase with | some e => h.forgetFaults e.ring | none => h
  let s := h.store
  let s : Store := match s.erase with | some e => s.setRing e.ring (s.ring e.ring).tearOldest | none => s
  { h with store := { s with erase := none }, log := if h.log.reclaiming then h.log.tearOldest else h.log }

/-- Records that wait are lost with the power (R313). -/
def Hw.dropWaiting (h : Hw) : Hw :=
  { h with log := { h.log with waiting := [] }, recordsLost := h.recordsLost + h.log.waiting.length }

/-- POWER_EVENT, or RECORDS_LOST when F − N_RES is below 2 (R298). -/
def Hw.putPowerEvent (h : Hw) (trigger closed : Nat) : Hw :=
  if 2 ≤ h.logSpace && 0 < h.log.erased then
    let before := h.logSpace
    ({ h with log := h.log.put (h.powerEvent trigger closed) false 0 }).lowSince before
  else h.loseRecord

/-- No commit runs before STORE_READY has first become 1, in the insertion state STORE_CHARGE, in STANDBY, nor while one runs
(R549, R328). -/
def Hw.commits (h : Hw) : Bool :=
  h.ins.storeReady && h.ins.state != .storeCharge && h.seq.state != .standby && h.pwr.commit.isNone && h.ins.mainOn

/-- Close reason of the commit's trigger (R281). -/
def pfReason (trigger : Nat) : Nat := if trigger = 3 then 3 else 2

/-- LAST_WORD_COMMIT: the five steps of R328 at the trigger. Commands are answered BUSY from here on. At a removal in
SERVICE_READY the POWER_EVENT record alone is written (R45). -/
def Hw.lastWord (h : Hw) (trigger : Nat) : Hw :=
  if h.commits then
    let h : Hw := { h with pwr := { h.pwr with commit := some trigger, commitRemoval := trigger == 3 }
                           rst := { h.rst with coreReq := none }, bulk := h.bulk.pause }
    let lost := h.recordsLost
    let h := (h.cutErase).cutWrites
    let h := h.freeze
    let h := h.finishAppend
    let closed := h.nRes
    let h := slotNumbers.foldl (fun h n => h.closePf (pfReason trigger) n) h
    let h := h.dropWaiting
    let h := if trigger = 3 && h.seq.service.ready then h else (h.lastPair 0x300 h.lastWordPayload).commitFaults
    let h := h.putPowerEvent trigger closed
    if lost = h.recordsLost then h else h.lastPair 0x201 (be 4 h.recordsLost)
  else h

/-! ## Power-off of the main domain -/

/-- SCL is held for no address any more (R395, R403). -/
def Proto.released (p : Proto) : Proto := { p with a := { p.a with stretching := false }, v := { p.v with stretching := false } }

/-- The main domain powers off: nothing is on, nothing is served. What a commit has not finished is cut. -/
def Hw.mainOff (h : Hw) : Hw :=
  let h := ((h.hardCut).cutErase).turnOffAll .removal
  let h := h.govEnd
  { h with
    ins := { h.ins with mainOn := false, booted := false, storeReady := false, path33 := false, inputSwitch := false }
    pwr := { h.pwr with commit := none, commitRemoval := false, onBattery := false, handingOver := false, ret := .idle,
                        packSpent := false, vhWait := [none, none], vhNext := false }
    seq := { h.seq with state := .off, active := false, hrst := false, pgood := false, fltDrive := false, pendOn := false,
                        offWait := false, retryWait := false, retryReleased := false, clearTest := [],
                        standbyReq := none, hostStepsDone := false, limpFault := false, limpExit := false, limpKeep := false }
    idle := { h.idle with idle := false }
    adc := { h.adc with ref := .off, fromOff := true, ready := false, scanning := false, calibrating := false }
    outs := h.outs.map (fun o => { o with discharging := false })
    proto := h.proto.released
    acc := Hw.reset.acc
    chg := { h.chg with state := .off, timerRun := false, restartDue := false }
    gauge := { h.gauge with socRef := none }
    lodge := { h.lodge with timeSet := none, leadStep := none }
    rst := { h.rst with coreReq := none, restart := none, fwReset := false }
    fw := { h.fw with programming := false } }

/-! ## Power-on reset: clearing (R513, R517 column POR) -/

def highestSeq (rs : List Rec) : Nat := rs.foldl (fun a r => max a r.seq) 0

/-- The SEQ counters resume above the highest SEQ found in each region, committed or not (R309). -/
def Store.resume (s : Store) : Store :=
  { s with pSeq := highestSeq s.params, cSeq := highestSeq s.config.recs, fSeq := highestSeq s.fault.recs }


/-- A port after a restart: off and EMPTY, the level of its EPPRESn and the 2 s of R52 go on. -/
def Port.restarted (p : Port) : Port :=
  { Port.empty with eppresLow := p.eppresLow, seatEnd := p.seatEnd, spacing := p.spacing }

/-- Every item that R517 marks C or X for POR takes its reset value; the capture has been written to the log. -/
def Hw.porClear (h : Hw) : Hw :=
  { Hw.reset with
    clk := h.clk, free := h.free, factory := h.factory, image := h.storedImage, straps := h.straps
    outs := h.storedImage.outs.map Output.loaded
    pool := { Hw.reset.pool with phases := (List.range 8).map (fun i => Phase.idle (h.storedImage.owners.getD i 0)) }
    ins := { h.ins with mainOn := h.ins.mainOn, booted := false, scrubDue := false }
    lines := h.lines
    rst := { Hw.reset.rst with cause := h.rst.cause, bootAt := h.rst.bootAt }
    pwr := { Hw.reset.pwr with vinHere := h.pwr.vinHere, vinUsable := h.pwr.vinUsable, vbat := h.pwr.vbat, packTemp := h.pwr.packTemp,
                               battAbsent := h.pwr.battAbsent, btsOpen := h.pwr.btsOpen, icehouse := h.pwr.icehouse,
                               backup := h.storedImage.backup }
    ports := h.ports.map Port.restarted
    log := { h.log with waiting := [], reclaiming := false }
    store := { h.store with queue := [], erase := none, proving := [], erased := [], conflicts := 0, restored := 0, staging := [] }.resume
    faults := { h.faults with cap := none, later := 0, queue := [], inject := List.replicate 15 (0, false), arming := [], forces := [] }
    lodge := { h.lodge with checked := false, timeSet := none, leadStep := none }
    ackSeq := h.ackSeq, recordsLost := h.recordsLost
    life := { h.life with breakDue := none }, fw := { h.fw with stagedValid := false, activatePending := false, programming := false } }

/-! ## Power-on reset: restoring (R275, R322, R326) -/

/-- A key in conflict: event, fault log entry, count (R316). -/
def Hw.conflict (h : Hw) (key : Nat) : Hw :=
  let h := { h with store := { h.store with conflicts := h.store.conflicts + 1 } }
  (h.raise 49).report 0xA0 key 0 0 []

/-- A key is read at a start of the main domain: a conflict is raised (R316). -/
def Hw.checkKey (h : Hw) (key : Nat) : Hw := if h.store.look key = .conflict then h.conflict key else h

/-- Sectors whose header is unreadable are erased again before use; their ERASE_COUNT is then the highest found, and it counts as
estimated (R304, R325). -/
def Hw.mendSectors (h : Hw) : Hw :=
  let s := h.store
  let top := (s.config.eraseCounts ++ s.half0.eraseCounts ++ s.half1.eraseCounts ++ s.fault.eraseCounts ++
    h.log.counts.map (·.2)).foldl max 0
  { h with
    store := { s with config := s.config.mend top, half0 := s.half0.mend top, half1 := s.half1.mend top, fault := s.fault.mend top
                      estimated := s.estimated + s.config.torn + s.half0.torn + s.half1.torn + s.fault.torn + b2n h.log.torn }
    log := if h.log.torn then h.log.eraseOldest.setCount (h.log.oldest / 16) top else h.log }

/-- Marker units with a weak bit, by SEQ (R308, R321): a COMMIT counts as committed and is programmed again; a weak bit of a UNARY
word counts as cleared until the next increment. -/
def Hw.marginRead (h : Hw) (weak : List Nat) : Hw :=
  let f := fun (r : Rec) =>
    if !weak.contains r.seq then r
    else if r.committed && 0x320 ≤ r.key && r.key < 0x330 then { r with weak := true }
    else { r with committed := true }
  { h with store := { h.store with half0 := h.store.half0.mapRecs f, half1 := h.store.half1.mapRecs f } }

/-- The value of totalizer cd: the source with the highest SEQ among its bases and LAST_WORD (R322). -/
inductive Restored where
  | never
  | conflict (key : Nat)
  | exact (total : Nat)
  | counted (total : Nat) (flag : Bool)
  deriving DecidableEq, Repr

def Store.restoreTotal (s : Store) (cd : Nat) : Restored :=
  let word := fun (r : Rec) => ube (slice r.payload (12 * cd) 8) * 2 ^ 32 + ube (slice r.payload (12 * cd + 8) 4)
  let fromBase := fun (b : Rec) =>
    let n := s.cellCount cd b.pairNo
    let weak := (s.cells cd b.pairNo).any (·.weak)
    let t := baseTotal b.payload
    Restored.counted (if n = 0 then t else (t / 2 ^ 32 + n * baseStep b.payload * 1000) * 2 ^ 32) (0 < n || weak)
  match s.look (baseKey cd), s.look 0x300 with
  | .conflict, _ => .conflict (baseKey cd)
  | _, .conflict => .conflict 0x300
  | .absent, .absent => .never
  | .absent, .value w => .exact (word w)
  | .value b, .absent => fromBase b
  | .value b, .value w => if b.seq < w.seq then .exact (word w) else fromBase b

def Hw.setTotal (h : Hw) (cd total : Nat) : Hw :=
  let h := h.modChan (cd / 2) (fun x =>
    if cd % 2 = 0 then { x with imp := total, cImp := total } else { x with exp := total, cExp := total })
  { h with store := h.store.stamp cd total h.clk }

def Hw.restoreCd (h : Hw) (cd : Nat) : Hw :=
  match h.store.restoreTotal cd with
  | .never => h.setTotal cd 0
  | .conflict _ => (h.setTotal cd 0).enterHold (cd / 2) 2 false
  | .exact t => h.setTotal cd t
  | .counted t flag =>
    let h := h.setTotal cd t
    let h : Hw := if flag then { h with store := { h.store with restored := h.store.restored ||| (1 <<< cd) } } else h
    (h.raise 50).report 0xA1 (baseKey cd) 0 0 []

/-- Counters of key 0x0410 and LAST_WORD: MONOTONIC, each the higher of its sources (R316, R326). -/
def Hw.restoreCounters (h : Hw) : Hw :=
  let srcs := (h.store.tops 0x410).map (·.payload) ++ (h.store.tops 0x300).map (fun r => slice r.payload 192 160)
  let v := fun i => srcs.foldl (fun a p => max a (ube (slice p (8 * i) 8))) 0
  { h with adc := { h.adc with
      outs := h.adc.outs.mapIdx (fun k o => { o with energy := v k })
      runMain := v 18 * 1000000
      runBatt := v 19 * 1000000 } }

/-- Gauge state: the newest of key 0x0401 and LAST_WORD; learned values of key 0x0400 (R326, R316: ORDINARY). -/
def Hw.restoreGauge (h : Hw) : Hw :=
  let a := h.store.look 0x401
  let w := h.store.look 0x300
  let fromWord := fun (r : Rec) => slice r.payload 352 32
  let base := { Hw.reset.gauge with fcc := h.image.designCap, refAt := h.clk, updatedAt := h.clk }
  let base := match h.store.look 0x400 with
    | .value r => base.loadLearned r.payload
    | _ => base
  let g := match a, w with
    | .value x, .value y => base.load (if x.seq < y.seq then fromWord y else x.payload) h.clk
    | .value x, _ => base.load x.payload h.clk
    | .absent, .value y => base.load (fromWord y) h.clk
    | _, _ => base
  { h with gauge := g }

/-- Hold causes DIVERGE and CAL of key 0x0110 join those that retained SRAM still holds (R262); a conflict there, or on the public
keys, holds every channel (R316). -/
def Hw.restoreHolds (h : Hw) : Hw :=
  let h := (h.checkKey 0x110).checkKey 0x120
  let bad := h.store.look 0x110 = .conflict || h.store.look 0x120 = .conflict
  let stored := match h.store.look 0x110 with | .value r => r.payload | _ => [0, 0]
  let d := ube (slice stored 0 1)
  let c := ube (slice stored 1 1)
  let f := fun (i : Nat) (x : Chan) => { x with diverge := x.diverge || d.testBit i, calHold := x.calHold || c.testBit i }
  let h : Hw := { h with metro := { h.metro with chans := h.metro.chans.mapIdx f } }
  if bad then (List.range 8).foldl (fun h c => h.enterHold c 2 false) h else h

/-- The calibration keys of both paths are loaded; a conflict is raised for its key (R246, R316). -/
def Hw.loadAllCal (h : Hw) : Hw :=
  (List.range 8).foldl (fun h c =>
    ((h.checkKey (0x100 + c)).checkKey (0x108 + c)).loadCal c false) h

/-- A slot as a SESSION_CLOSE record above ACK_SEQ leaves it (R275). -/
def slotOf (e : LogEntry) : Slot :=
  let b := e.bytes
  { Slot.none with
    st := if e.signed || e.damaged then .closed else .closedPf
    reason := ube (slice b 92 1), flags := BitVec.ofNat 16 (ube (slice b 94 2)), mask := BitVec.ofNat 8 (ube (slice b 10 2))
    sid := slice b 12 16, tStart := BitVec.ofNat 64 (ube (slice b 28 8)), tStop := BitVec.ofNat 64 (ube (slice b 36 8))
    impStart := ube (slice b 44 8), impStop := ube (slice b 52 8), expStart := ube (slice b 60 8)
    expStop := ube (slice b 68 8), metro := BitVec.ofNat 32 (ube (slice b 96 4)), seq := e.seq }

/-- Slots are rebuilt from the log: CLOSED or CLOSED_PF for each record above ACK_SEQ, FREE otherwise (R275). -/
def Hw.rebuildSlots (h : Hw) : Hw :=
  let es := h.log.entries.filter (fun e => e.committed && h.ackSeq < e.seq)
  let put := fun (ss : List Slot) (e : LogEntry) => match e.slot? with | some n => ss.set n (slotOf e) | none => ss
  { h with slots := es.foldl put (List.replicate 128 Slot.none) }

/-- Deferred signing is due when the log holds an unsigned record (R285). -/
def Hw.signDue (h : Hw) : Bool := h.log.entries.any (fun e => e.committed && !e.signed && !e.damaged)

/-- The session log at POR (R314): LAST_SEQ is the highest committed SEQ, or ACK_SEQ where its entry has been reclaimed, and numbers
go on from it (R295). -/
def Log.found (l : Log) (ack : Nat) : Log :=
  let top := l.entries.foldl (fun a e => if e.committed then max a e.seq else a) ack
  { l with lastSeq := top, nextSeq := top }

/-- Keys of the classes ORDINARY and MONOTONIC, and LAST_WORD, that POR reads. -/
def porKeys : List Nat := [0x200, 0x201, 0x202, 0x203, 0x204, 0x300, 0x400, 0x401, 0x410]

/-- What POR restores: counters, gauge, ACK_SEQ, RECORDS_LOST, the key generation, totalizers, holds, slots. -/
def Hw.restore (h : Hw) : Hw :=
  let h := porKeys.foldl Hw.checkKey h
  let ack := h.store.mono 0x200
  let h : Hw := { h with
    ackSeq := ack
    recordsLost := h.store.mono 0x201
    log := h.log.found ack
    life := { h.life with keyGen := h.store.mono 0x203 } }
  let h := (h.restoreCounters).restoreGauge
  let h := if h.metering then (List.range 16).foldl Hw.restoreCd ((List.range 16).foldl (fun h cd => h.checkKey (baseKey cd)) h.restoreHolds) else h
  let h := h.rebuildSlots
  { h with log := { h.log with signPending := h.signDue } }

end Sys2Proof.Machine
end

