-- ==== Sys2Proof/Machine/Window.lean ====
section
/-! DEFINITION. The window comparators: percentages and filter times of the supervision codes (R181), the reference as it stood
within the last filter time, the moving edges of an episode (R140, R157, R182), the windows of ports and of VIB (R62, R183). -/

namespace Sys2Proof.Machine

/-- UV or OV in tenths of a percent for its code (R181). -/
def windowTenths (code : Nat) : Nat := 20 + 5 * code

/-- t_F in 0.5 µs for FILT_CODE (R181). -/
def filterHalf (code : Nat) : Nat := 2 ^ code

/-- A reference that started at a knot `(t, r)` and moved towards `r'` at a rate, at an instant in 0.5 µs; references in
0.25 mV, the rate in 0.5 mV/µs. -/
def knotAt (rate t r r' at2 : Nat) : Nat := toward (2 * r) (2 * r') ((at2 - 2 * t) * rate)

/-- What the reference has been since an instant in 0.5 µs, in 0.25 mV: the knots after it and the value at it. `next` is the
reference at the end of the newest part; before the first knot the reference stood at that knot (R140). -/
def refSince (rate from2 : Nat) : Nat → List (Nat × Nat) → List Nat
  | _, [] => []
  | next, (t, r) :: older =>
    if 2 * t ≤ from2 then [knotAt rate t r next from2] else (2 * r) :: refSince rate from2 r older

/-- The values of the reference of output k over the last t_F, in 0.25 mV. A monotone part has its extremes at its ends. -/
def Hw.refBack (h : Hw) (k : Nat) : List Nat :=
  let o := h.out k
  let r := h.refHalf k
  (2 * r) :: refSince (h.rate k) (2 * h.clk - filterHalf o.filt) r o.past

/-- V_T of output k in 0.25 mV. -/
def Hw.restRef (h : Hw) (k : Nat) : Nat := 2 * codeHalf k (h.out k).tgt

/-- A of R140 and R157, 1 % of the highest target commanded within the episode, in 0.25 µV. -/
def Hw.episodeMargin (h : Hw) (k : Nat) : Nat := 20 * codeHalf k (h.out k).epMax

/-- The lower edge of a VP, VM or VH output as it stands, in 0.25 µV (R140, R157, R182). -/
def Hw.lowerEdge (h : Hw) (k : Nat) : Nat :=
  let o := h.out k
  let f := 1000 - windowTenths o.uv
  if o.episode then f * (h.refBack k).foldl min (2 * h.refHalf k) - h.episodeMargin k else f * h.restRef k

/-- The upper edge of a VP, VM or VH output as it stands, in 0.25 µV. -/
def Hw.upperEdge (h : Hw) (k : Nat) : Nat :=
  let o := h.out k
  let f := 1000 + windowTenths o.ov
  if o.episode then f * (h.refBack k).foldl max 0 + h.episodeMargin k else f * h.restRef k

/-- The hysteresis of a comparator that has found its output outside: 0.25 % of V_T towards the inside (R182). -/
def Hw.hysteresis (h : Hw) (k : Nat) : Nat := if (h.out k).outside then 5 * h.restRef k / 2 else 0

/-- Output k lies below its lower edge as that edge stands (R111, R152). -/
def Hw.belowWindow (h : Hw) (k mv : Nat) : Bool := 4000 * mv < h.lowerEdge k

/-- The side on which a voltage lies outside the window of a VP, VM or VH output. -/
def Hw.sideOf (h : Hw) (k mv : Nat) : Option Side :=
  if h.belowWindow k mv then some .under else if h.upperEdge k < 4000 * mv then some .over else none

/-- A voltage of a VP, VM or VH output lies inside its window; an output found outside comes back by the hysteresis. -/
def Hw.insideWindow (h : Hw) (k mv : Nat) : Bool :=
  decide (h.lowerEdge k + h.hysteresis k ≤ 4000 * mv) && decide (4000 * mv + h.hysteresis k ≤ h.upperEdge k)

/-- A port lies below (1 − UV) × VIN (R183). -/
def Hw.portLow (h : Hw) (k mv vin : Nat) : Bool := 1000 * mv < (1000 - windowTenths (h.out k).uv) * vin

/-- A port lies above its edge; after a breach by 0.25 % of VIN, which stands for V_T (DESIGN CHOICE, log 59). -/
def Hw.portInside (h : Hw) (k mv vin : Nat) : Bool :=
  (1000 - windowTenths (h.out k).uv) * vin + (if (h.out k).outside then 5 * vin / 2 else 0) ≤ 1000 * mv

/-- VIB lies inside the window of the ratio stage, 85–110 % of VIN/4. -/
def vibRatio (mv vin : Nat) : Bool := decide (85 * vin ≤ 400 * mv) && decide (400 * mv ≤ 110 * vin)

/-- VIB lies within 10 % of a reference: 10.8–13.2 V where the backup converter holds 12.0 V. -/
def vibNear (ref mv : Nat) : Bool := decide (90 * ref ≤ 100 * mv) && decide (100 * mv ≤ 110 * ref)

/-- Where the backup converter's ramp of 2 V/ms stands: towards 12.0 V, in step 3 of the return towards VIN/4 (R339, R342). -/
def Hw.vibRef (h : Hw) (vin : Nat) : Nat :=
  toward h.pwr.vibFrom (if h.pwr.ret == .ramp then vin / 4 else 12000) (2 * (h.clk - h.pwr.vibAt))

/-- The VIB window of R62: it tracks VIN and the ramps of the backup converter; while the hand-over runs, VIB may lie inside
the window of the ratio stage or near its value at detection (DESIGN CHOICE, log 59). -/
def Hw.vibInside (h : Hw) (mv vin : Nat) : Bool :=
  if h.pwr.handingOver then vibRatio mv vin || vibNear h.pwr.vibFrom mv
  else if h.pwr.onBattery then vibNear (h.vibRef vin) mv
  else vibRatio mv vin

end Sys2Proof.Machine
end

