-- ==== Sys2Proof/Machine/Pool.lean ====
section
/-! DEFINITION. The phase pool: choosing, adding, shedding and moving phases (R82–R112), and the commands of that family. -/

namespace Sys2Proof.Machine

/-- The other phase of a pair (R82). -/
def partner (p : Nat) : Nat := if p % 2 = 0 then p + 1 else p - 1

def Pool.ph (po : Pool) (p : Nat) : Phase := po.phases.getD p (Phase.parked 0)

def Phase.activeOn (p : Phase) (k : Nat) : Bool := p.cond == .active && p.serving = k + 1

/-- n of R87: the ACTIVE phases of VP output k. -/
def Pool.active (po : Pool) (k : Nat) : Nat := po.phases.countP (fun p => p.activeOn k)

/-- Phases lent to output k, ACTIVE or in RAMP_DOWN: OWNER 0 and SERVING not 0 (R113, R114). -/
def Pool.lent (po : Pool) (k : Nat) : Nat :=
  po.phases.countP (fun p => (p.cond == .active || p.cond == .rampDown) && p.serving = k + 1 && p.owner = 0)

/-- In-service phases that output k owns (R108). -/
def Pool.owned (po : Pool) (k : Nat) : Nat := po.phases.countP (fun p => p.owner = k + 1 && p.cond != .oos)

def Pool.find (po : Pool) (f : Nat → Phase → Bool) : Option Nat := (List.range 8).find? (fun i => f i (po.ph i))

def Pool.mod (po : Pool) (p : Nat) (f : Phase → Phase) : Pool := { po with phases := po.phases.modify p f }

/-- A phase in QUIET that has just left output k: an add claim of k takes it back first (R112). -/
def Pool.quietOf (po : Pool) (k : Nat) : Option Nat := po.find (fun _ p => p.cond == .quiet && p.serving = k + 1)

/-- Owned STANDBY phases: one whose pair partner is ACTIVE on k, otherwise the lowest (R90 items 1 and 2); of several with such a
partner the lowest-numbered (DESIGN CHOICE, log 56). -/
def Pool.pickOwned (po : Pool) (k : Nat) : Option Nat :=
  let f := fun (p : Phase) => p.cond == .standby && p.owner = k + 1
  (po.find (fun i p => f p && (po.ph (partner i)).activeOn k)).or (po.find (fun _ p => f p))

/-- PARKED phases, in the same order (R90 items 3 and 4; DESIGN CHOICE, log 56). -/
def Pool.pickParked (po : Pool) (k : Nat) : Option Nat :=
  (po.find (fun i p => p.cond == .parked && (po.ph (partner i)).activeOn k)).or (po.find (fun _ p => p.cond == .parked))

/-- The phase that an add of output k takes. -/
def Hw.pick (h : Hw) (k : Nat) : Option Nat :=
  ((h.pool.quietOf k).or (h.pool.pickOwned k)).or (if (h.cfg k).lend then h.pool.pickParked k else none)

def sat16 (n : Nat) : Nat := min 65535 (n + 1)

/-- A move of phase p, if it is the one in progress, ends with a result (R103). -/
def Hw.endMoveOf (h : Hw) (p result : Nat) : Hw := if h.pool.move.any (fun m => m.phase == p) then h.endMove result else h

/-- Phase p becomes ACTIVE on output k; the others move to the new spacing (R92). A phase that is not the output's own is lent
anew, also one that its output takes back out of QUIET (R95; DESIGN CHOICE, log 74). -/
def Hw.activate (h : Hw) (k p : Nat) : Hw :=
  let lent := (h.phase p).owner ≠ k + 1
  let h := h.endMoveOf p 1
  let po := h.pool
  let po := po.mod p (fun x => { x with cond := .active, serving := k + 1, claims := 0,
                                        lentAt := if lent then po.lendCount + 1 else 0 })
  { h with pool := { po with lendCount := if lent then po.lendCount + 1 else po.lendCount
                             rails := po.rails.modify k (fun r => { r with respacing := true }) } }

/-- A phase that is free for any output once its quiet interval ends. -/
def Pool.quietFree (po : Pool) : Option Nat := po.find (fun _ p => p.cond == .quiet && p.owner = 0)

/-- With LEND set and no phase to be had, the claim of output k waits for the end of a quiet interval (R112). -/
def Hw.awaitQuiet (h : Hw) (k : Nat) : Hw :=
  match h.pool.quietFree with
  | some p => if (h.cfg k).lend then h.modPhase p (fun x => { x with claims := x.claims ||| (1 : BitVec 4) <<< k }) else h
  | none => h

/-- Output k may take one more phase. -/
def Hw.mayAdd (h : Hw) (k : Nat) : Bool := (h.out k).on && h.pool.active k < (h.cfg k).maxPh

/-- One add for output k (R87, R88, R90): ADD counts it. -/
def Hw.addPhase (h : Hw) (k : Nat) : Hw :=
  if h.mayAdd k then
    match h.pick k with
    | some p => (h.activate k p).modRail k (fun r => { r with add := sat16 r.add })
    | none => h.awaitQuiet k
  else h

/-- Adds until n phases are ACTIVE or none is left. -/
def Hw.addUpTo (h : Hw) (k n : Nat) : Hw :=
  (List.range 6).foldl (fun h _ => if h.pool.active k < n then h.addPhase k else h) h

/-- Outputs in the order in which claims of one switching cycle are served: priority class, then number (R91). -/
def Hw.claimOrder (h : Hw) (claims : BitVec 4) : List Nat :=
  (List.range 4).flatMap (fun prio => (List.range 4).filter (fun k => claims.getLsbD k && (h.cfg k).prio = prio))

/-- A PARKED phase of `h0` has gone to an output other than k. -/
def Hw.tookParked (h h0 : Hw) (k : Nat) : Bool :=
  (List.range 8).any (fun p => (h0.phase p).cond == .parked && (h.phase p).cond == .active && (h.phase p).serving != k + 1)

/-- Claims of one switching cycle, each served by `add`: for one phase, or with `all` for every phase up to MAX_PH where the output
adds in bursts (R88). A loser of R91 that is left with a claim and finds no other phase counts one LEND_DENIED, and no other add
does (DESIGN CHOICE, log 21). -/
def Hw.serveClaims (h0 : Hw) (claims : BitVec 4) (all : Bool) (add : Hw → Nat → Hw) : Hw :=
  (h0.claimOrder claims).foldl (fun h k =>
    let n := h.pool.active k
    let h := add h k
    if (h0.cfg k).lend && (if all then (h0.cfg k).burst else h.pool.active k = n) && h.mayAdd k && (h.pick k).isNone && h.tookParked h0 k then
      h.modRail k (fun r => { r with denied := sat16 r.denied })
    else h) h0

/-- R108: while output k holds fewer in-service owned phases than MIN_PH, the lowest PARKED phase becomes owned; with none
left the output is degraded. -/
def Hw.substitute (h : Hw) (k : Nat) : Hw :=
  let one := fun (h : Hw) =>
    if h.pool.owned k < (h.cfg k).minPh then
      match h.pool.find (fun _ p => p.cond == .parked) with
      | some p => h.modPhase p (fun x => { x with owner := k + 1, cond := .standby })
      | none => h
    else h
  let h := (List.range 6).foldl (fun h _ => one h) h
  if h.pool.owned k < (h.cfg k).minPh then (h.modRail k (fun r => { r with degraded := true })).raise 6
  else h.modRail k (fun r => { r with degraded := false })

/-- R108 for every output that is on, when a phase has been PARKED or has changed its owner: the lower output number takes a
PARKED phase first (DESIGN CHOICE, log 56). An output that has come to hold MIN_PH is no longer degraded. -/
def Hw.fillShort (h : Hw) : Hw :=
  (List.range 4).foldl (fun h k =>
    if (h.cfg k).minPh ≤ h.pool.owned k then h.modRail k (fun r => { r with degraded := false })
    else if (h.out k).on && h.pool.owned k < (h.cfg k).minPh &&
       (!(h.rail k).degraded || (h.pool.find (fun _ p => p.cond == .parked)).isSome) then h.substitute k else h) h

/-- Output k starts on MIN_PH phases, chosen from those it owns (R93); they do not count in ADD (DESIGN CHOICE, log 56). -/
def Hw.startPhases (h : Hw) (k : Nat) : Hw :=
  let one := fun (h : Hw) =>
    if h.pool.active k < (h.cfg k).minPh then
      match h.pool.pickOwned k with
      | some p => h.activate k p
      | none => h
    else h
  (List.range 6).foldl (fun h _ => one h) (h.substitute k)

/-- R98 items 1 to 3 and 5: no shed starts on output k. -/
def Hw.shedBlocked (h : Hw) (k : Nat) : Bool :=
  let r := h.rail k
  r.hintHold || r.slewing || (r.slewEnd.any (fun t => h.clk < t + 10)) || ((h.out k).on && !(h.out k).rampEnded)

/-- Phase p starts its ramp-down; SHED counts it then, so that a shed that is cancelled counts in SHED and CANCEL (R94–R96, R114;
DESIGN CHOICE, log 56). -/
def Hw.rampDown (h : Hw) (k p : Nat) : Hw :=
  (h.modPhase p (fun x => { x with cond := .rampDown })).modRail k (fun r => { r with shed := sat16 r.shed })

/-- A move that waits for the end of the suppression of R98 starts its shed (R102 step 1). -/
def Hw.tryMove (h : Hw) : Hw :=
  match h.pool.move with
  | some m =>
    let p := h.phase m.phase
    if p.cond == .active && !h.shedBlocked (p.serving - 1) then h.rampDown (p.serving - 1) m.phase else h
  | none => h

/-- A shed in RAMP_DOWN is cancelled: full share again, CANCEL counts, a move of the phase ends (R97). -/
def Hw.cancelShed (h : Hw) (p : Nat) : Hw :=
  let x := h.phase p
  if x.cond == .rampDown then
    let h := (h.modPhase p (fun x => { x with cond := .active })).endMoveOf p 1
    h.modRail (x.serving - 1) (fun r => { r with cancel := sat16 r.cancel })
  else h

/-- The sheds in RAMP_DOWN on output k are cancelled (R97, R98, R112). -/
def Hw.cancelSheds (h : Hw) (k : Nat) : Hw :=
  (List.range 8).foldl (fun h p => if (h.phase p).serving = k + 1 then h.cancelShed p else h) h

/-- The phase to shed (R95): the most recently lent, then owned ones, highest number first. -/
def Pool.pickShed (po : Pool) (k : Nat) : Option Nat :=
  let act := (List.range 8).filter (fun i => (po.ph i).activeOn k)
  let best := act.foldl (fun (b : Option Nat) i => match b with
    | none => some i
    | some j => if (po.ph j).lentAt ≤ (po.ph i).lentAt then some i else some j) none
  best

/-! ## The commands of the family -/

/-- PHASE_ADD (R87, R89–R92): one phase for each output that claims one in the same switching cycle. -/
def execPhaseAdd (claims : BitVec 4) (s : State) : Out := s.upd fun h => h.serveClaims claims false Hw.addPhase

/-- A burst add of one output (R88): with BURST_ADD set, every phase the output can get; the fall in voltage also cancels
sheds (R97). -/
def Hw.burst (h : Hw) (k : Nat) : Hw :=
  if (h.out k).on then
    let h := h.cancelSheds k
    if (h.cfg k).burst then h.addUpTo k (h.cfg k).maxPh else h
  else h

/-- BURST_ADD (R88, R91): the outputs whose voltage falls below the 1.5 % comparator in the same switching cycle. -/
def execBurstAdd (claims : BitVec 4) (s : State) : Out := s.upd fun h => h.serveClaims claims true Hw.burst

/-- PHASE_RESPACING_END (R92). -/
def execPhaseRespacingEnd (k : Fin 4) (s : State) : Out :=
  s.upd fun h => h.modRail k (fun r => { r with respacing := false })

/-- PHASE_SHED (R94, R95, R98): one phase starts its ramp-down, unless R98 suppresses it or one ramps down already. A move
that waits for the suppression to end starts first (R102): where that end is the 10 µs after a slew or the end of a ramp, no row of
its own brings it (DESIGN CHOICE, log 74). -/
def execPhaseShed (k : Fin 4) (s : State) : Out := s.upd fun h =>
  let busy := h.pool.phases.any (fun p => p.cond == .rampDown && p.serving = k.val + 1)
  if !(h.out k).on || h.shedBlocked k || busy then h
  else
    let h1 := h.tryMove
    if h1.pool.phases.any (fun p => p.cond == .rampDown && p.serving = k.val + 1) then h1
    else if h.pool.active k ≤ (h.cfg k).minPh then h
    else match h.pool.pickShed k with
      | some p => h.rampDown k p
      | none => h

/-- SHED_RAMP_DOWN_END (R96): the phase becomes QUIET, the others move to the new spacing (R92). -/
def execShedRampDownEnd (p : Fin 8) (s : State) : Out := s.upd fun h =>
  let x := h.phase p
  if x.cond == .rampDown then
    (h.modPhase p (fun x => { x with cond := .quiet })).modRail (x.serving - 1) (fun r => { r with respacing := true })
  else h

/-- The quiet interval of phase p is over: STANDBY where an output owns it, otherwise PARKED (R96). -/
def Hw.quietOver (h : Hw) (p owner : Nat) : Hw :=
  h.modPhase p (fun x => { x with owner := owner, serving := 0, lentAt := 0, claims := 0,
                                  cond := if owner = 0 then .parked else .standby })

/-- QUIET_END (R96, R102 step 3, R112): the phase becomes STANDBY or PARKED, with the new owner where it was moved; outputs on
that lack owned phases take it (R108); the new owner and the claims that waited are served where their add conditions still
hold. -/
def execQuietEnd (p : Fin 8) (addHolds : BitVec 4) (s : State) : Out := s.upd fun h =>
  let x := h.phase p
  if x.cond == .quiet then
    let move := h.pool.move.filter (fun m => m.phase = p.val)
    match move with
    | some m =>
      let h := ((h.quietOver p m.newOwner).endMove 0).fillShort
      let n := m.newOwner - 1
      let h := if m.newOwner ≠ 0 && addHolds.getLsbD n && h.mayAdd n && (h.phase p).cond == .standby then
          (h.activate n p).modRail n (fun r => { r with add := sat16 r.add })
        else h
      h.serveClaims (x.claims &&& addHolds) false Hw.addPhase
    | none => ((h.quietOver p x.owner).fillShort).serveClaims (x.claims &&& addHolds) false Hw.addPhase
  else h

/-- SHED_CANCEL (R97). -/
def execShedCancel (p : Fin 8) (s : State) : Out := s.upd fun h => h.cancelShed p

/-- HINT_HOLD_END (R100): sheds are free again, and a move that waited may start. -/
def execHintHoldEnd (k : Fin 4) (s : State) : Out :=
  s.upd fun h => (h.modRail k (fun r => { r with hintHold := false })).tryMove

/-- POOL_MOVE_WAIT_TIMEOUT (R103): a move still blocked by R98 ends CANCELLED_WAIT. -/
def execPoolMoveWaitTimeout (s : State) : Out := s.upd fun h =>
  match h.pool.move with
  | some m => if (h.phase m.phase).cond == .active then h.endMove 2 else h
  | none => h

/-- Whether a monitor of R106 watches a phase in its condition. -/
def monitors (m : PhaseMonitor) (c : PhaseCond) : Bool :=
  match m, c with
  | .imbalance, .active => true
  | .offset, .quiet | .offset, .standby | .offset, .parked => true
  | .gate, .active | .gate, .rampDown => true
  | _, _ => false

def monitorCode : PhaseMonitor → Nat
  | .imbalance => 2
  | .offset => 3
  | .gate => 4

/-- The monitors watch while the module runs; IMBALANCE compares a phase with others: its output has two ACTIVE phases or more
(R106). -/
def Hw.monitored (h : Hw) (p : Nat) (m : PhaseMonitor) : Bool :=
  h.live && monitors m (h.phase p).cond && (m != .imbalance || 2 ≤ h.pool.active ((h.phase p).serving - 1))

/-- The errors of a phase that leaves service, in the order of their sources: NO_PHASE of an output left with none, then the phase
itself (R107, R108, R470). -/
def Hw.lostPhase (h : Hw) (noPhase : List RailErr) (phase : Nat) : Hw :=
  let r := h.reaction 0x68
  let first := noPhase.find? (fun f => h.faultActs f.held)
  let h := noPhase.foldl (fun h f => h.collect f.src f.addr 0 0 f.detail) h
  let h := h.collect 0x68 phase 0 0 []
  (match first with | some f => h.railOff f.cause | none => h).react r

/-- PHASE_OUT_OF_SERVICE (R106–R108): the phase leaves service, a move of it ends CANCELLED_FAULT, the outputs that lack
phases take a substitute, and an armed output left with none trips as a running-rail fault NO_PHASE; in its enabling step it
times out. An output that is on takes phases up to MIN_PH at once, and ADD counts them (DESIGN CHOICE, log 56). -/
def execPhaseOutOfService (p : Fin 8) (m : PhaseMonitor) (overAdd : Bool) (s : State) : Out := s.upd fun h =>
  let x := h.phase p
  if h.monitored p m then
    let h := h.endMoveOf p 3
    let h := h.modPhase p (fun x => { x with cond := .oos, oosReason := monitorCode m, serving := 0, lentAt := 0, claims := 0 })
    let h := if x.cond == .active || x.cond == .rampDown then h.modRail (x.serving - 1) (fun r => { r with respacing := true })
      else h
    let h := h.raise 5
    let refill := fun (h : Hw) (k : Nat) =>
      if (h.out k).on then (h.substitute k).addUpTo k (h.cfg k).minPh else h
    let h := if 0 < x.owner then refill h (x.owner - 1) else h
    let k := x.serving - 1
    let h := if 0 < x.serving then refill h k else h
    let h := if 0 < x.serving && overAdd then h.addPhase k else h
    let none? := 0 < x.serving && (h.out k).sup == .armed && h.pool.active k = 0
    let noPhase := if none? then [{ cause := 11, src := 0x66, addr := k, detail := [], held := false : RailErr }] else []
    h.lostPhase noPhase (p + 1)
  else h

/-- OC_LATCH (R111, R152): an output that is on and lies below the lower edge of its window as that edge stands latches off,
in every state in which it is on. -/
def execOcLatch (k : Fin 12) (mv : Nat) (s : State) : Out := s.upd fun h =>
  if (h.out k).on && h.belowWindow k mv && (!isVp k || 0 < h.pool.active k) then h.railFault 3 0x62 k (detailMv mv) true else h

/-- IMBALANCE (R152) of a VH output. The exception of R550 names a breach and an over-current latch: one kept regulating under a
POLICY latch stays on (DESIGN CHOICE, log 74). -/
def execImbalance (vh : Fin 2) (s : State) : Out := s.upd fun h =>
  if (h.out (10 + vh)).on then h.railFault 4 0x63 (10 + vh) [] false else h

end Sys2Proof.Machine
end

