-- ==== Sys2Proof/Machine/Seq.lean ====
section
/-! DEFINITION. The sequencer's shared operations: enabling outputs, steps, on and off requests, fault restart, host restart,
STANDBY entry (R185–R206, R462, R514). -/

namespace Sys2Proof.Machine

/-! ## State and sequences in force -/

/-- The state that the rules of the sequencer see: the system state, and in LIMP the one that the table's sequences would
have (R194, R484). -/
def Seq.eff (q : Seq) : SysState :=
  if q.state == .limp then
    if q.limpFault then .faultLatched
    else if q.active then (match q.dir with | .up => .seqUp | .down => .seqDown | .host => .run)
    else if q.limpRun then .run else .off
  else q.state

def Hw.eff (h : Hw) : SysState := h.seq.eff

/-- A new state in terms of the rules: in LIMP the state stays LIMP. -/
def Seq.enter (q : Seq) (st : SysState) : Seq :=
  if q.state == .limp then { q with limpRun := st == .run } else { q with state := st }

/-- Every output but VP1 and VM1. -/
def tableOthers : BitVec 24 := 0x03FFEE

/-- A sequence ends at its first step with LAST (R187). -/
def upToLast : List Step → List Step
  | [] => []
  | s :: r => if s.last then [s] else s :: upToLast r

/-- The steps in force: in LIMP those of R483, but a host restart that began before goes on with its own (R465). -/
def Hw.seqSteps (h : Hw) (d : SeqDir) : List Step :=
  let table := h.inLimp && !h.seq.limpKeep
  upToLast (match d with
    | .up => if table then Step.tableUp else h.image.up
    | .down => if table then Step.tableDown tableOthers else h.image.down
    | .host => if table then [] else h.image.host)

def Hw.stepNow (h : Hw) : Step := (h.seqSteps h.seq.dir).getD h.seq.step Step.blank

/-- The step in progress is the final one. -/
def Hw.atLast (h : Hw) : Bool := h.stepNow.last || (h.seqSteps h.seq.dir).length ≤ h.seq.step + 1

/-! ## Enabling an output (R93, R150, R185, R189, R193) -/

/-- VIN carries nothing: VH outputs and EP ports are held off (R80, R159, R193). -/
def Hw.noVin (h : Hw) : Bool := h.pwr.onBattery || !h.pwr.vinUsable

/-- Largest code of an output (R130, R146). -/
def topCode (k : Nat) : Nat := if isVp k then 560 else if isVm k then 470 else 460

/-- An enabled output starts its reference at the voltage that stands on it (R150, R182); that voltage is not the model's to
know: a free value from 0 V to the top of the output's range, in 0.5 mV. Its converter does not pulse-skip yet (R65). -/
def Hw.startRamp (h : Hw) (k : Nat) (inStep : Bool) : Hw :=
  let t := h.nextTarget k
  let r := Config.freeNat h.free % (codeHalf k (topCode k) + 1)
  let h := (h.draw.unskip k).modOut k (fun o =>
    { o with on := true, enabled := true, ramping := true, rampEnded := false, stepDone := !inStep, sup := .enabling,
             good := false, outside := false, ref := r, tgt := t, rampAt := h.clk, held := false, past := [(h.clk, r)],
             shed := false, battOff := false, faultOff := false, discharging := false, episode := true, epMax := t })
  if isVp k then
    (h.modRail k (fun x => { x with slewing := true, settled := false, stallRaised := false,
                                    cls := (h.cfg k).slewDef })).startPhases k
  else if isVh k then h.endVhWait (k - 10)
  else h

/-- Output k is enabled. An EP port starts under R57 by its own steps; a VH output without VIN waits for it. An off state that
RAIL_ENABLE set does not keep a step from enabling the output again (DESIGN CHOICE, log 57). -/
def Hw.turnOn (h : Hw) (k : Nat) (inStep : Bool) : Hw :=
  if isEp k then
    (h.modPort (k - 12) (fun p => { p with enabled := true })).modOut k (fun o =>
      { o with enabled := true, stepDone := !inStep, faultOff := false })
  else if !h.used k then h
  else if (h.out k).on then h.modOut k (fun o => { o with enabled := true })
  else if isVh k && h.noVin then
    h.modOut k (fun o => { o with enabled := true, battOff := true, shed := false, faultOff := false })
  else h.startRamp k inStep

/-- An output is disabled: off, and no longer enabled, shed or held for VIN. -/
def Hw.disable (h : Hw) (k : Nat) : Hw :=
  let h := h.turnOff .command k
  let h := h.modOut k (fun o => { o with enabled := false, shed := false, battOff := false })
  if isEp k then h.modPort (k - 12) (fun p => { p with enabled := false, shed := false }) else h

/-- A port is off unless it is in pre-charge, start-up or on. -/
def Port.isOff (p : Port) : Bool :=
  match p.state with
  | .precharge | .startup | .on => false
  | _ => true

def Hw.isOff (h : Hw) (k : Nat) : Bool := if isEp k then (h.port (k - 12)).isOff else !(h.out k).on

/-- ARMED from the later of the end of the ramp and the completion of the enabling step (R185). -/
def Output.arm (o : Output) : Output := if o.on && o.rampEnded && o.stepDone then { o with sup := .armed } else o

/-! ## Cabinet lists (R222, R223) -/

def Hw.cabList (h : Hw) : List CabEntry := if h.prm.dirDown then h.image.prm.downList else h.image.prm.upList

def Hw.cabEntry (h : Hw) : Option CabEntry := h.cabList[h.prm.step]?

/-- Entries start in order until one names a module of the roster; the others complete at once with CAB_STEP_SKIPPED. After
the last entry the token level is 255. -/
def Hw.cabStart : Nat → Hw → Hw
  | 0, h => h
  | n + 1, h =>
    if !h.prm.cabRunning then h
    else match h.cabEntry with
    | none => { h with prm := { h.prm with cabRunning := false, token := 255 } }
    | some e =>
      let h : Hw := { h with prm := { h.prm with token := max h.prm.token e.token } }
      if e.index = 0 || h.prm.roster.getLsbD e.index then h
      else
        let h := h.raise 63
        if e.last then { h with prm := { h.prm with cabRunning := false, token := 255 } }
        else Hw.cabStart n { h with prm := { h.prm with step := h.prm.step + 1 } }

/-- The entry in progress completes; the next starts. -/
def Hw.cabNext (h : Hw) : Hw :=
  match h.cabEntry with
  | some e =>
    if e.last then { h with prm := { h.prm with cabRunning := false, token := 255 } }
    else Hw.cabStart 32 { h with prm := { h.prm with step := h.prm.step + 1 } }
  | none => { h with prm := { h.prm with cabRunning := false, token := 255 } }

/-- A lead that enters SEQ_UP or SEQ_DOWN runs its cabinet list. -/
def Hw.cabBegin (h : Hw) (down : Bool) : Hw :=
  if h.prm.role == .lead then
    Hw.cabStart 32 { h with prm := { h.prm with order := if down then 2 else 1, dirDown := down, token := 0, step := 0,
                                                cabRunning := true } }
  else h

/-! ## Steps (R189–R193, R462) -/

/-- A step starts: OFF_MASK, then ON_MASK. -/
def Hw.beginStep (h : Hw) : Hw :=
  let h := h.wake
  let st := h.stepNow
  let offs := maskOuts st.offMask
  let pass := h.seq.dir == .down && (st.offMask != 0 || st.waitMask != 0) && offs.all h.isOff
  let h : Hw := { h with seq := { h.seq with stepAt := h.clk, passing := pass } }
  let h := offs.foldl Hw.disable h
  let h : Hw := if h.seq.dir == .host then { h with seq := { h.seq with hostOff := (h.seq.hostOff ||| st.offMask) &&& ~~~st.onMask } } else h
  ((maskOuts st.onMask).foldl (fun h k => h.turnOn k true) h).evalPgood

/-- What WAIT_MASK asks of one output (R190, R192, R193, R462). -/
def Hw.waitMet (h : Hw) (low : LowSample) (k : Nat) : Bool :=
  match h.seq.dir with
  | .up => (h.out k).good || (h.pwr.onBattery && (isVh k || isEp k))
  | .down => maskHas low.stable k
  | .host => if maskHas h.seq.hostOff k then maskHas low.stable k else (h.out k).good

/-- A token condition: granted to a standalone module, otherwise by R224. -/
def Hw.tokenMet (h : Hw) (token : Nat) : Bool :=
  token = 0 || h.prm.role == .standalone ||
    (h.prm.dirDown == (h.seq.dir == .down) && token ≤ h.prm.token)

def Hw.xevMet (h : Hw) (st : Step) : Bool := st.xevSel = 0 || h.lines.xev.getD (st.xevSel - 1) false == st.xevLevel

/-- A POWER_DOWN step that passes at once, at the tick of its start: its outputs are off already, and those it waits on below 10 %
already, for however short a time (R192). -/
def Hw.passes (h : Hw) (low : LowSample) : Bool :=
  h.seq.passing && h.clk = h.seq.stepAt && (maskOuts h.stepNow.waitMask).all (maskHas low.below)

/-- The instant from which the GOOD condition of one output of WAIT_MASK has held for T_STABLE (R190); the sample `low`
speaks of outputs that have been below 10 % for T_STABLE already. -/
def Hw.waitDue (h : Hw) (k : Nat) : Nat :=
  let good := h.seq.dir == .up || (h.seq.dir == .host && !maskHas h.seq.hostOff k)
  if good && (h.out k).good then (h.out k).goodAt + 100 * h.stepNow.tStable else 0

/-- Every condition of the step in progress but DELAY and T_STABLE holds. -/
def Hw.stepMet (h : Hw) (low : LowSample) : Bool :=
  let st := h.stepNow
  h.passes low || ((maskOuts st.waitMask).all (h.waitMet low) && h.xevMet st && h.tokenMet st.token)

/-- The instant at which DELAY has elapsed and every T_STABLE is complete; a step that passes does not wait. -/
def Hw.stepDue (h : Hw) (low : LowSample) : Nat :=
  if h.passes low then h.seq.stepAt
  else (maskOuts h.stepNow.waitMask).foldl (fun t k => max t (h.waitDue k)) (h.seq.stepAt + 10 * h.stepNow.delay)

/-- The instant at which the step in progress times out (R191). -/
def Hw.stepLimit (h : Hw) : Nat := h.seq.stepAt + 1000 * h.stepNow.timeout

/-- HRSTn is released (R205, R463): the grace period starts, WARN and KEY_ARMED clear. -/
def Hw.releaseHrst (h : Hw) : Hw :=
  if h.seq.hrst then h
  else { h with
    seq := { h.seq with hrst := true, hostStepsDone := false }
    wdt := { h.wdt with warn := false, grace := h.wdt.enable, keyArmed := false, restarting := false, start := h.clk } }

/-- The release falls due in POWER_UP: after a host restart that began in SEQ_UP it waits until HRST_WIDTH has elapsed (R462). -/
def Hw.dueHrst (h : Hw) : Hw :=
  if !h.seq.hrst && h.wdt.restarting && h.clk < h.wdt.start + 1000 * h.wdt.hrstWidth then
    { h with seq := { h.seq with hostStepsDone := true } }
  else h.releaseHrst

/-! ## Requests (R194–R197) -/

/-- STATUS.SERVICE_READY (R44). -/
def Hw.serviceReady (h : Hw) : Bool := h.seq.service.ready

/-- A latched on request is discarded with a job result (R195, R198). -/
def Hw.dropPend (h : Hw) (result : Nat) : Hw :=
  { h.endJob? h.seq.onJob 0 result [] with seq := { h.seq with pendOn := false, onJob := none } }

/-- A follower that is not admitted does not start (R220); orphan hold keeps an admission, as the roster that it heard last shows.
-/
def Hw.admitted (h : Hw) : Bool :=
  match h.prm.role with
  | .standalone | .lead => true
  | .follower => h.prm.link == .active || (h.prm.link == .orphan && h.prm.roster.getLsbD h.straps.idx.toNat)
  | .silent => false

/-- Phases as R483 gives them to VP1: PH1–PH4 are its own, and it owns no other. -/
def Phase.limp (i : Nat) (p : Phase) : Phase :=
  let give := fun (w : Nat) (c : PhaseCond) =>
    { p with owner := w, cond := if p.cond == .standby || p.cond == .parked then c else p.cond }
  if i < 4 then give 1 .standby else if p.owner = 1 then give 0 .parked else p

/-- POWER_UP runs from step 0; in LIMP on the phases of R483. -/
def Hw.startUp (h : Hw) (job : Option Nat) : Hw :=
  let h : Hw := if h.inLimp then { h with pool := { h.pool with phases := h.pool.phases.mapIdx Phase.limp } } else h
  let h : Hw := { h with
    seq := { h.seq.enter .seqUp with active := true, dir := .up, step := 0, pendOn := false, onJob := none, job := job,
                                     doneStep := none, doneDown := false, hostOff := 0, limpEnLow := false } }
  (h.cabBegin false).beginStep

/-- A latched on request acts in OFF once t_off_min has elapsed with FLTn and EN high and the reserve store ready (R194, R196,
R35). -/
def Hw.tryPend (h : Hw) : Hw :=
  if h.seq.pendOn && h.eff == .off && !h.gone && !h.seq.offWait && !h.lines.fltLow && h.lines.en && h.ins.booted && h.ins.storeReady &&
     !h.serviceReady && h.pwr.commit.isNone && h.rst.restart.isNone then h.startUp h.seq.onJob
  else h

/-- An on request: acts in OFF, is latched in OFF and SEQ_DOWN, replaces an earlier latched one (R194, R195). -/
def Hw.onRequest (h : Hw) (job : Option Nat) : Hw :=
  if h.serviceReady || !h.lines.en then h
  else match h.eff with
  | .off | .seqDown =>
    let h := h.dropPend 1
    { h with seq := { h.seq with pendOn := true, onJob := job } }.tryPend
  | _ => h

/-- R197: outputs in their enabling ramp hold their reference, ports short of ON go to HELD. -/
def Hw.holdRamps (h : Hw) : Hw :=
  let h := (List.range 6).foldl (fun h p => if (h.port p).state == .on then h else h.turnOff .command (12 + p)) h
  let stop := fun (h : Hw) (k : Nat) =>
    if (h.out k).on && !(h.out k).rampEnded then (h.turnRef k).modOut k (fun o => { o with ramping := false, held := false })
    else h
  let h := (List.range 12).foldl stop h
  { h with
    pool := { h.pool with rails := h.pool.rails.mapIdx (fun k r => if (h.out k).rampEnded then r else { r with slewing := false }) } }

/-- POWER_DOWN runs from a step (R194, R197, R205, R206, R77). -/
def Hw.startDown (h : Hw) (from' : Nat) (job : Option Nat) : Hw :=
  let h := h.endJob? h.seq.job 0 1 []
  let h : Hw := { h with
    seq := { h.seq.enter .seqDown with active := true, dir := .down, step := from', job := job, doneStep := none,
                                       doneDown := true, hrst := false, hostStepsDone := false } }
  ((h.pgoodLow.govEnd).cabBegin true).beginStep

/-- What a host restart left of the image's sequences ends with the next POWER_DOWN, which is the table's (R484). -/
def Hw.endKeep (h : Hw) : Hw := { h with seq := { h.seq with limpKeep := false } }

/-- An off request (R194, R195, R197): a latched on request is cancelled. -/
def Hw.offRequest (h : Hw) (job : Option Nat) : Hw :=
  let h := h.dropPend 1
  match h.eff with
  | .seqUp => (h.holdRamps).endKeep.startDown (if h.seq.limpKeep then 0 else h.stepNow.matchStep) job
  | .run => h.endKeep.startDown 0 job
  | _ => h

/-- Autostart (R36): with boot complete, STORE_READY, autostart set (R483: always in LIMP) and EN high. -/
def Hw.autostart (h : Hw) : Hw :=
  if h.ins.booted && h.ins.storeReady && (h.image.autostart || h.inLimp) && h.lines.en && h.admitted && h.eff == .off then
    h.onRequest none
  else h

/-! ## Leaving FAULT_LATCHED, reversion of overrides (R104, R144, R158, R186, R203, R433) -/

/-- The runtime overrides of the rails, the pool and the ports revert to the configuration image. An output that HOLD keeps on at
the entry to LIMP goes on at its target, enabled and on the phases that serve it (DEDUCED, log 22). -/
def Hw.dropOverrides (h : Hw) : Hw :=
  let f := fun (k : Nat) (o : Output) =>
    let c := h.cfg k
    let o := { o with hostTarget := none, hostState := none, uv := c.uv, ov := c.ov, filt := c.filt }
    if o.on then o else { o with enabled := false, shed := false, battOff := false, tgt := c.vSet }
  let g := fun (p : Nat) (x : Port) =>
    { x with enabled := (h.out (12 + p)).on, shed := false, ilim := (h.cfg (12 + p)).ilim, active := (h.cfg (12 + p)).ilim }
  let q := fun (i : Nat) (p : Phase) =>
    let w := h.image.owners.getD i 0
    if (p.cond == .active || p.cond == .rampDown) && (h.out (p.serving - 1)).on then p
    else { p with owner := w, lentAt := 0, claims := 0,
                  cond := if p.cond == .oos || p.cond == .quiet then p.cond else if w = 0 then .parked else .standby }
  { h with
    outs := h.outs.mapIdx f
    ports := h.ports.mapIdx g
    pool := { h.pool with phases := h.pool.phases.mapIdx q, move := none
                          rails := h.pool.rails.map (fun r => { r with degraded := false }) }
    vcl := { h.vcl with kept := none } }

/-- Every output is off, and the overrides revert. -/
def Hw.revert (h : Hw) : Hw := (h.turnOffAll .command).dropOverrides

/-- A fault restart (R203): the overrides revert, the drive of FLTn is released, LATCH.CAUSE is kept. -/
def Hw.faultRestart (h : Hw) : Hw :=
  let h := h.revert
  let h : Hw := { h with
    seq := { h.seq.enter .off with fltDrive := false, hrst := false, retryWait := false, retryReleased := false,
                                   limpFault := false, active := false }
    therm := { h.therm with hold := false, hits := List.replicate 6 0 } }
  h.evalPgood

/-! ## STANDBY entry and SERVICE_PREPARE at the end of a power-down -/

/-- The configuration unlock ends (R418). -/
def Hw.lockConfig (h : Hw) : Hw :=
  { h with proto := { h.proto with unlock := { h.proto.unlock with unlocked := false, challenge := none } }
           prm := { h.prm with unlock := { h.prm.unlock with unlocked := false, challenge := none } } }

/-- A relay in progress at the core is lost with it: its reply is not placed (R236, R420). -/
def Hw.wipeRelay (h : Hw) : Hw := { h with prm := { h.prm with relay := none } }

/-- The main domain powers off into STANDBY: the input path stays as it is (R514, R515), and t_off_min runs on (R194). -/
def Hw.standbyOff (h : Hw) : Hw :=
  let k := h
  let h := h.mainOff
  { h with
    ins := { h.ins with inputSwitch := k.ins.inputSwitch, path33 := k.ins.path33 }
    pwr := { h.pwr with onBattery := k.pwr.onBattery, handingOver := k.pwr.handingOver, ret := k.pwr.ret }
    seq := { h.seq with state := .standby, offWait := k.seq.offWait, offStart := k.seq.offStart } }

/-- STANDBY_ENTRY (R514): the charger turns off (R348); the last-word commit with trigger OTHER_POWER_OFF; the main domain powers off when it ends, at once
where no commit runs (R549). -/
def Hw.standbyEntry (h : Hw) (wake : Byte) : Hw :=
  let h := (h.chgOff.lastWord 4).lockConfig
  let h := (h.endJob? h.seq.onJob 0 1 [])
  let h : Hw := { h with seq := { h.seq with state := .standby, wake := wake, standbyReq := none, pendOn := false, onJob := none } }
  if h.pwr.commit.isSome then h else h.standbyOff

/-- Entry from OFF starts when the reply to ENTER_STANDBY has been placed. -/
def Hw.tryStandby (h : Hw) : Hw :=
  match h.seq.standbyReq with
  | some w => if h.seq.state == .off && !h.seq.active && h.pwr.commit.isNone then h.standbyEntry w else h
  | none => h

/-- Steps 3 and 4 of R43, once the power-down has ended. -/
def Hw.serviceWrite (h : Hw) : Hw :=
  let q := h.seq.service
  let down := h.eff == .off || h.eff == .faultLatched
  if q.job.isSome && q.downAsked && !q.lastWordDone && down then
    let h := (h.pairFor 0x300 h.lastWordPayload q.job).faultRecord q.job
    { h with seq := { h.seq with service := { q with lastWordDone := true } }
             prm := { h.prm with leaveDue := if h.prm.role == .follower || h.prm.role == .lead then some 2 else none } }
  else h

/-- Step 2 of R43 once every session of step 1 is closed, then steps 3 and 4. -/
def Hw.serviceStep (h : Hw) : Hw :=
  let q := h.seq.service
  let closing := h.slots.any (fun s => s.open? && s.closePending)
  if q.job.isSome && !q.downAsked && !closing then
    (({ h with seq := { h.seq with service := { q with downAsked := true } } }).offRequest none).serviceWrite
  else h.serviceWrite

/-! ## Completion of a step -/

/-- The outputs that the completed step enabled may be armed (R185). -/
def Hw.armStep (h : Hw) : Hw :=
  (maskOuts h.stepNow.onMask).foldl (fun h k => h.modOut k (fun o => ({ o with stepDone := true }).arm)) h

/-- POWER_UP has ended: RUN. -/
def Hw.upDone (h : Hw) : Hw :=
  let h := h.dueHrst
  let h := h.endJob? h.seq.job 0 0 []
  let h : Hw := { h with seq := { h.seq.enter .run with active := false, job := none, limpKeep := false } }
  (h.raise 16).evalPgood

/-- LIMP is left in OFF with the configuration image (R485): overrides, budgets and charger settings are the image's. -/
def Hw.limpLeft (h : Hw) : Hw :=
  let h : Hw := { h.imageSettings with
    seq := { h.seq with state := .off, limpFault := false, limpRun := false, limpExit := false, limpKeep := false, active := false, fltDrive := false } }
  h.revert.autostart

/-- LIMP is left by a valid image (R485): the table's POWER_DOWN runs first where outputs are on. -/
def Hw.leaveLimp (h : Hw) : Hw :=
  match h.eff with
  | .run | .seqUp => ({ h with seq := { h.seq with limpExit := true } }).offRequest none
  | .seqDown => { h with seq := { h.seq with limpExit := true } }
  | _ => h.limpLeft

/-- POWER_DOWN has ended: OFF, with what waited for it. A port that no step named goes to HELD with the state (R56, R57). -/
def Hw.downDone (h : Hw) : Hw :=
  let h := (List.range 6).foldl (fun h p => h.turnOff .command (12 + p)) h.govEnd
  let h := h.endJob? h.seq.job 0 0 []
  let exit := h.seq.limpExit
  let h : Hw := { h with seq := { h.seq.enter .off with active := false, job := none, offWait := true, offStart := h.clk,
                                                         limpExit := false, limpKeep := h.seq.limpKeep && h.seq.pendOn } }
  let h := (h.raise 17).evalPgood
  if exit then h.limpLeft
  else match h.seq.standbyReq with
  | some w => if h.nRes = 0 then h.standbyEntry w else { h with seq := { h.seq with standbyReq := none } }
  | none =>
    let h := h.serviceStep
    if h.inLimp then h.autostart else h.tryPend

/-- The step in progress completes (R189). -/
def Hw.finishStep (h : Hw) : Hw :=
  let st := h.stepNow
  let d := h.seq.dir
  let last := h.atLast
  let h := h.armStep
  let h : Hw := if d == .host then h else { h with seq := { h.seq with doneStep := some h.seq.step, doneDown := d == .down } }
  let h := if d == .up && st.hrstRelease then h.dueHrst else h
  let h := h.evalPgood
  if last then
    match d with
    | .up => h.upDone
    | .down => h.downDone
    | .host => { h with seq := { h.seq with active := false, hostStepsDone := true, limpKeep := false } }
  else ({ h with seq := { h.seq with step := h.seq.step + 1 } }).beginStep

/-! ## Host restart (R462) -/

/-- The second expiry: HRSTn low and the host-restart sequence in RUN, an off and then an on request in SEQ_UP. -/
def Hw.hostRestart (h : Hw) : Hw :=
  let h := h.raise 45
  let h : Hw := { h with wdt := { h.wdt with restartCount := min 255 (h.wdt.restartCount + 1), restarting := true,
                                             start := h.clk } }
  match h.eff with
  | .run =>
    let none? := (h.seqSteps .host).isEmpty
    let h : Hw := { h with seq := { h.seq with hrst := false, active := !none?, hostOff := 0, hostStepsDone := none? } }
    if none? then h else ({ h with seq := { h.seq with dir := .host, step := 0 } }).beginStep
  | .seqUp => (h.offRequest none).onRequest none
  | _ => h

end Sys2Proof.Machine
end

