-- ==== Sys2Proof/Machine/Start.lean ====
section
/-! DEFINITION. What every start of the main domain does, and the exit from STANDBY (R170, R252, R261, R516, R517). -/

namespace Sys2Proof.Machine

/-- Belvedere restarts: the decimators start from rest, the first interval is skipped (R261), and the working copies of the
calibration are not kept (R246). -/
def Chan.restart (x : Chan) (status : Bool) : Chan :=
  let x := if status then { x with disagree := false, disagreeSeen := false, creep := false, overrange := false } else x
  { x with inputHold := false, skip := true, lSkip := true, resume := false, load := false, dIP := 0, dEP := 0, dIC := 0,
           dEC := 0, lIP := 0, lEP := 0, lIC := 0, lEC := 0, calP := [], calC := [], check := 0,
           frontP := PathFront.rest 3, frontC := PathFront.rest 4, ahead := [], valsP := PathVals.zero, valsC := PathVals.zero }

/-- Belvedere at the release of the main-domain reset. -/
def Hw.startMetro (h : Hw) (status : Bool) : Hw :=
  { h with metro := { chans := h.metro.chans.map (fun x => x.restart status), start := h.clk, block := 0,
                      blockStart := h.clk, blockTime := 0, ivBlocks := 0, compareDue := false, ivEnd := h.clk, frozen := false,
                      fifoP := [], fifoC := [], calJob := none } }

/-- The main domain is powered and leaves reset: the measurement reference settles from OFF; while RSTn holds the reset it is
OFF (R169, R170). The sums of an averaging window in progress are kept over a STANDBY and the window goes on (DESIGN CHOICE, log
75). -/
def Hw.startAdc (h : Hw) : Hw :=
  let outs := h.adc.outs.map (fun (t : OutTelem) => { t with since := none })
  { h with adc := { h.adc with ref := if h.lines.rstLow then .off else .settling, fromOff := true, ready := false,
                               scanning := false, rotationDue := false, calibrating := false, outs := outs } }

/-- The module stands in STANDBY, its entry complete and its seating kept, and can be woken (R516). -/
def Hw.wakes (h : Hw) : Bool := h.seq.state == .standby && h.pwr.commit.isNone && !h.ins.mainOn && !h.leaving

/-- STANDBY exit (R516, R517): the main domain is powered, what the exit reverts is reverted, the boot starts in OFF. The
store is judged ready again by its own event. -/
def Hw.exitStandby (h : Hw) : Hw :=
  let h : Hw := { h with
    ins := { h.ins with mainOn := true, booted := false, storeReady := false, scrubDue := true }
    rst := { h.rst with cause := 9 }
    seq := { h.seq with state := .off, retries := 0 }
    faults := { h.faults with inject := List.replicate 15 (0, false), arming := [] }
    store := { h.store with staging := [], proving := [], erased := [] }.resume
    life := { h.life with breakDue := none }
    fw := { h.fw with activatePending := false }
    bulk := { Bulk.idle with retained := h.bulk.retained }
    lodge := { h.lodge with checked := false } }
  ((h.revert).startMetro false).startAdc

end Sys2Proof.Machine
end

