-- ==== Sys2Proof/Machine/Reply.lean ====
section
/-! DEFINITION. Status codes, the command table, the checks before a command's own (R4, R407, R413, R416, R424) and its
reply (R406). -/

namespace Sys2Proof.Machine

/-! ## Status codes (R424) -/

def stOk : Nat := 0x00
def stPending : Nat := 0x01
def stBadCrc : Nat := 0x10
def stBadLength : Nat := 0x11
def stBadOpcode : Nat := 0x12
def stBadParam : Nat := 0x13
def stBadModule : Nat := 0x14
def stDenied : Nat := 0x20
def stWrongLife : Nat := 0x21
def stLocked : Nat := 0x22
def stAbsent : Nat := 0x30
def stBusy : Nat := 0x31
def stNotReady : Nat := 0x32
def stWrongState : Nat := 0x33
def stNoSlot : Nat := 0x40
def stLogFull : Nat := 0x41
def stMetroHold : Nat := 0x42
def stTimeInvalid : Nat := 0x43
def stFaultLatched : Nat := 0x50
def stRelayTimeout : Nat := 0x60
def stStoreError : Nat := 0x70
def stInternal : Nat := 0xFF

/-! ## The command table (R427, R428, R434, R435, R439, R441, R442, R444, R446, R448, R449) -/

/-- Privilege classes (R416). -/
inductive CmdClass where
  | opened
  | operate
  | configure
  | metrology
  deriving DecidableEq, Repr

/-- The unit that a command belongs to (R3). -/
inductive CmdUnit where
  | core
  | metro
  | holdup
  deriving DecidableEq, Repr

structure CmdInfo where
  op : Nat
  cls : CmdClass
  unit : CmdUnit
  /-- the parameter length, and the packet byte whose value adds to it -/
  len : Nat
  extra : Option Nat
  deriving DecidableEq, Repr

def cmd (op : Nat) (cls : CmdClass) (len : Nat) : CmdInfo := { op := op, cls := cls, unit := .core, len := len, extra := none }
def cmdM (op : Nat) (cls : CmdClass) (len : Nat) : CmdInfo := { cmd op cls len with unit := .metro }
def cmdH (op : Nat) (cls : CmdClass) (len : Nat) : CmdInfo := { cmd op cls len with unit := .holdup }

def cmdsSystem : List CmdInfo :=
  [cmd 0x00 .opened 0, cmd 0x01 .opened 0, cmd 0x02 .opened 0, cmd 0x03 .opened 2, cmd 0x04 .operate 1, cmd 0x05 .operate 1,
   cmd 0x06 .operate 1, cmd 0x07 .operate 32, cmd 0x08 .operate 0, cmd 0x09 .operate 1, cmdH 0x0A .operate 1]

def cmdsPower : List CmdInfo :=
  [cmd 0x10 .operate 0, cmd 0x11 .operate 0, cmd 0x12 .operate 3, cmd 0x13 .opened 1, cmd 0x14 .operate 2,
   cmd 0x15 .configure 4, cmd 0x16 .operate 2, cmd 0x17 .opened 0, cmd 0x18 .operate 3, cmd 0x19 .opened 1,
   cmd 0x1A .operate 5, cmd 0x1B .opened 0, cmd 0x1C .operate 0]

def cmdsTelemetry : List CmdInfo :=
  [cmd 0x30 .opened 1, cmd 0x31 .operate 1, cmd 0x32 .operate 12, cmd 0x33 .opened 2, cmd 0x34 .opened 0]

def cmdsMetro : List CmdInfo :=
  [cmdM 0x40 .opened 1, cmdM 0x41 .opened 1, cmdM 0x42 .opened 2, cmdM 0x43 .operate 18, cmdM 0x44 .operate 17,
   cmdM 0x45 .opened 1, cmd 0x46 .opened 4, cmd 0x47 .operate 4, cmdM 0x48 .opened 4, cmdM 0x49 .metrology 52,
   cmdM 0x4A .opened 1, cmdM 0x4B .configure 0]

def cmdsBatteryTime : List CmdInfo :=
  [cmdH 0x60 .operate 7, cmdH 0x61 .operate 0, cmdH 0x62 .opened 0, cmdH 0x63 .opened 0, cmdH 0x64 .operate 0,
   cmdH 0x65 .configure 128, cmdH 0x66 .configure 6,
   cmd 0x70 .operate 9, cmd 0x71 .opened 0, cmd 0x72 .configure 10, cmd 0x73 .operate 12, cmd 0x74 .opened 0]

def cmdsEventStore : List CmdInfo :=
  [cmd 0x80 .operate 8, cmd 0x81 .opened 1, cmd 0x82 .configure 2, cmd 0x83 .opened 5,
   cmd 0x90 .opened 9, cmd 0x91 .operate 2, { cmd 0x92 .operate 4 with extra := some 6 },
   { cmd 0x93 .configure 8 with extra := some 8 }, cmd 0x94 .configure 8, cmd 0x95 .opened 0]

def cmdsLife : List CmdInfo :=
  [cmd 0xA0 .opened 0, cmd 0xA1 .configure 1, { cmd 0xA2 .operate 8 with extra := some 8 }, cmd 0xA3 .operate 4,
   cmd 0xA4 .operate 1, cmd 0xA5 .opened 3, cmd 0xA6 .configure 1,
   cmd 0xB0 .opened 0, cmd 0xB1 .opened 2, cmd 0xB2 .operate 3,
   cmd 0xF0 .configure 2, cmd 0xF1 .configure 2, cmd 0xF2 .operate 8, cmd 0xF3 .operate 1]

def cmdTable : List CmdInfo :=
  cmdsSystem ++ cmdsPower ++ cmdsTelemetry ++ cmdsMetro ++ cmdsBatteryTime ++ cmdsEventStore ++ cmdsLife

def cmdInfo (op : Nat) : Option CmdInfo := cmdTable.find? (fun c => c.op = op)

/-- The parameter length of a command in a packet (R422). -/
def CmdInfo.lenIn (c : CmdInfo) (pkt : List Byte) : Nat :=
  c.len + (match c.extra with | some i => (pkt.getD i 0).toNat | none => 0)

/-- The packet that a command's row spells: its address, its opcode and its parameter bytes, by the tables of R427, R428, R434,
R435, R439, R441, R442, R444, R446, R448 and R449. The other rows spell none. -/
def packetOf : Instr → Option (Origin × Nat × List Byte)
  | .nop o => some (o, 0x00, [])
  | .ident o => some (o, 0x01, [])
  | .getStatus o => some (o, 0x02, [])
  | .jobStatus o job => some (o, 0x03, be 2 job.toNat)
  | .coreReset o key => some (o, 0x04, [key])
  | .moduleRestart o key => some (o, 0x05, [key])
  | .configUnlock o mode => some (o, 0x06, [mode])
  | .configUnlockResponse o mac => some (o, 0x07, mac)
  | .servicePrepare o => some (o, 0x08, [])
  | .enterStandby o wake => some (o, 0x09, [wake])
  | .enterIcehouse o arm => some (o, 0x0A, [arm])
  | .powerUp o => some (o, 0x10, [])
  | .powerDown o => some (o, 0x11, [])
  | .railSet o output code => some (o, 0x12, [output] ++ be 2 code.toNat)
  | .railGet o output => some (o, 0x13, [output])
  | .railEnable o output on => some (o, 0x14, [output, on])
  | .supervisorSet o output uv ov filt => some (o, 0x15, [output, uv, ov, filt])
  | .poolAssign o phase owner => some (o, 0x16, [phase, owner])
  | .poolStatus o => some (o, 0x17, [])
  | .portSet o port enable ilim => some (o, 0x18, [port, enable, ilim])
  | .portStatus o port => some (o, 0x19, [port])
  | .budgetSet o vinW batW tCap => some (o, 0x1A, be 2 vinW.toNat ++ be 2 batW.toNat ++ [tCap])
  | .seqStatus o => some (o, 0x1B, [])
  | .clearFault o => some (o, 0x1C, [])
  | .telemRead o block => some (o, 0x30, [block])
  | .telemPeaks o output => some (o, 0x31, [output])
  | .adcScanSet o mask interval refMode tAvg => some (o, 0x32, be 8 mask.toNat ++ [interval, refMode] ++ be 2 tAvg.toNat)
  | .adcRead o first count => some (o, 0x33, [first, count])
  | .energyRead o => some (o, 0x34, [])
  | .metroStatus o chan => some (o, 0x40, [chan])
  | .metroRead o chan => some (o, 0x41, [chan])
  | .registerRead o mask => some (o, 0x42, be 2 mask.toNat)
  | .openSession o mask sid => some (o, 0x43, be 2 mask.toNat ++ sid)
  | .closeSession o slot sid => some (o, 0x44, [slot] ++ sid)
  | .sessionStatus o slot => some (o, 0x45, [slot])
  | .recordRead o seq => some (o, 0x46, be 4 seq.toNat)
  | .recordAck o n => some (o, 0x47, be 4 n.toNat)
  | .publicKeyRead o gen => some (o, 0x48, be 4 gen.toNat)
  | .calWrite o chan rsv block => some (o, 0x49, [chan] ++ be 3 rsv.toNat ++ block)
  | .calRead o chan => some (o, 0x4A, [chan])
  | .seal o => some (o, 0x4B, [])
  | .chargerSet o chgEn iChg cvReduce iTerm tTop vRech => some (o, 0x60, [chgEn, iChg, cvReduce] ++ be 2 iTerm.toNat ++ [tTop, vRech])
  | .chargerKeepalive o => some (o, 0x61, [])
  | .chargerStatus o => some (o, 0x62, [])
  | .gaugeRead o => some (o, 0x63, [])
  | .gaugeResetLearn o => some (o, 0x64, [])
  | .gaugeTableLoad o points => some (o, 0x65, points.flatMap (fun p => be 2 p.1.toNat ++ be 2 p.2.toNat))
  | .backupSet o en vCut tMin tMax lowSoc => some (o, 0x66, [en] ++ be 2 vCut.toNat ++ [tMin, tMax, lowSoc])
  | .timeSet o value flags => some (o, 0x70, be 8 value.toNat ++ [flags])
  | .timeGet o => some (o, 0x71, [])
  | .trimSet o trim band => some (o, 0x72, be 2 trim.toNat ++ band)
  | .alarmSet o alarm action flags rsv value => some (o, 0x73, [alarm, action, flags, rsv] ++ be 8 value.toNat)
  | .alarmStatus o => some (o, 0x74, [])
  | .eventCountersClear o mask => some (o, 0x80, be 8 mask.toNat)
  | .faultRead o flags => some (o, 0x81, [flags])
  | .faultPolicySet o cls reaction => some (o, 0x82, [cls, reaction])
  | .faultLogRead o first count => some (o, 0x83, be 4 first.toNat ++ [count])
  | .bulkRead o region rsv offset len => some (o, 0x90, [region] ++ be 3 rsv.toNat ++ be 4 offset.toNat ++ [len])
  | .storeRead o key => some (o, 0x91, be 2 key.toNat)
  | .storeWrite o key len rsv payload => some (o, 0x92, be 2 key.toNat ++ [len, rsv] ++ payload)
  | .configWrite o offset len rsv data => some (o, 0x93, be 4 offset.toNat ++ [len] ++ be 3 rsv.toNat ++ data)
  | .configCommit o len crc => some (o, 0x94, be 4 len.toNat ++ be 4 crc.toNat)
  | .storeStatus o => some (o, 0x95, [])
  | .lifecycleGet o => some (o, 0xA0, [])
  | .lifecycleAdvance o target => some (o, 0xA1, [target])
  | .fwStage o offset len rsv data => some (o, 0xA2, be 4 offset.toNat ++ [len] ++ be 3 rsv.toNat ++ data)
  | .fwVerify o len => some (o, 0xA3, be 4 len.toNat)
  | .fwActivate o flags => some (o, 0xA4, [flags])
  | .identityCertRead o offset len => some (o, 0xA5, be 2 offset.toNat ++ [len])
  | .retire o flags => some (o, 0xA6, [flags])
  | .promStatus o => some (o, 0xB0, [])
  | .promRoster o first count => some (o, 0xB1, [first, count])
  | .promAdmitPolicy o mask policy => some (o, 0xB2, be 2 mask.toNat ++ [policy])
  | .follyInject o checker count => some (o, 0xF0, [checker, count])
  | .follyForce o source action => some (o, 0xF1, [source, action])
  | .diagCompare o mode region first count => some (o, 0xF2, [mode, region] ++ be 4 first.toNat ++ be 2 count.toNat)
  | .diagSelftest o target => some (o, 0xF3, [target])
  | _ => none

/-- Served in LIMP by the ROM monitor (R413). -/
def servedInLimp (op : Nat) : Bool :=
  [0x01, 0x02, 0x03, 0xA2, 0xA3, 0xA4, 0x71, 0xA0, 0xA5, 0x48, 0x46, 0x83].contains op

/-! ## Replies -/

def Hw.mbx (h : Hw) (o : Origin) : Mailbox :=
  match o with
  | .A => h.proto.a
  | .V => h.proto.v

def Hw.modMbx (h : Hw) (o : Origin) (f : Mailbox → Mailbox) : Hw :=
  match o with
  | .A => { h with proto := { h.proto with a := f h.proto.a } }
  | .V => { h with proto := { h.proto with v := f h.proto.v } }

/-- A complete request relayed from an address of the lead waits for this follower's reply (R226), when the address itself
has no packet in process. -/
def Hw.relayed (h : Hw) (o : Origin) : Bool :=
  (h.mbx o).inProc.isNone && h.prm.role == .follower &&
    (match h.prm.relay with | some r => r.origin == o && r.inDone && r.out.isEmpty | none => false)

/-- The packet whose reply is being made. -/
def Hw.packet (h : Hw) (o : Origin) : List Byte :=
  match (h.mbx o).inProc with
  | some p => p.2
  | none => if h.relayed o then (match h.prm.relay with | some r => r.inBytes | none => []) else []

/-- The bytes of a reply (R406): status, TAG and MODULE as received, LEN, data, CRC-16. -/
def replyBytes (st : Nat) (tag md : Byte) (data : List Byte) : List Byte :=
  let b := be 1 st ++ [tag, md] ++ be 1 data.length ++ data
  b ++ be 2 (crc16 b).toNat

/-- The reply of the packet in process at an address is ready; it is placed by REPLY_PLACED. -/
def Hw.respond (h : Hw) (o : Origin) (st : Nat) (data : List Byte) : Hw :=
  let p := h.packet o
  let tag := p.getD 1 0
  let md := p.getD 2 0
  if h.relayed o then
    { h with prm := { h.prm with relay := h.prm.relay.map (fun r => { r with out := replyBytes st tag md data, outFrag := 0 }) } }
  else h.modMbx o (fun m => { m with ready := some (replyBytes st tag md data) })

def Hw.ok (h : Hw) (o : Origin) (data : List Byte) : Hw := h.respond o stOk data

/-- PENDING with the newest job's number in bytes 4–5 (R414). -/
def Hw.pending (h : Hw) (o : Origin) (more : List Byte) : Hw := h.respond o stPending (be 2 h.proto.lastJob ++ more)

/-- Master ID of an address (R471). -/
def masterOf : Origin → Nat
  | .A => 1
  | .V => 2

/-- A privilege failure: captured with the opcode and the offset of the offending field (R416). -/
def Hw.deny (h : Hw) (o : Origin) (op off st : Nat) : Hw :=
  (h.report 0x31 (op * 65536 + off) (masterOf o) 3 []).respond o st []

/-- INTERNAL_ERROR (R424): an inconsistency inside the module, captured with the opcode. -/
def Hw.internalError (h : Hw) (o : Origin) (op : Nat) : Hw :=
  (h.report 0x33 (op * 65536) (masterOf o) 3 []).respond o stInternal []

/-- Every set of like units is held in its number: outputs (R180), ports, phases and their VP outputs, metering channels, session
slots, event counters (R451). -/
def Hw.shaped (h : Hw) : Bool :=
  h.outs.length = 18 && h.ports.length = 6 && h.pool.phases.length = 8 && h.pool.rails.length = 4 &&
    h.metro.chans.length = 8 && h.slots.length = 128 && h.evt.cnt.length = 64

/-- An injection takes effect once its reply has been placed (R478): it replaces what is left of an earlier one. -/
def Hw.arm (h : Hw) (relayed : Bool) : Hw :=
  let due := h.faults.arming.filter (fun a => a.relayed == relayed)
  { h with faults := { h.faults with inject := due.foldl (fun l a => l.set (a.checker - 1) (a.count, a.hard)) h.faults.inject
                                     arming := h.faults.arming.filter (fun a => a.relayed != relayed) } }

/-- The configuration unlock that holds for a packet (R418). -/
def Hw.unlockOf (h : Hw) (o : Origin) : Unlock := if h.relayed o then h.prm.unlock else h.proto.unlock

def Hw.setUnlock (h : Hw) (relay : Bool) (u : Unlock) : Hw :=
  if relay then { h with prm := { h.prm with unlock := u } } else { h with proto := { h.proto with unlock := u } }

/-- The status that the privilege class refuses with (R416). -/
def Hw.classRefuses (h : Hw) (c : CmdClass) (o : Origin) : Option Nat :=
  match c with
  | .opened => none
  | .operate => if o == .A then none else some stDenied
  | .configure => if o == .A && (h.unlockOf o).unlocked then none else some stDenied
  | .metrology =>
    if h.life.state ≠ 2 then some stWrongLife else if o == .A && h.lines.calenLow then none else some stDenied

/-- The unit of a command is absent (R3). -/
def Hw.unitAbsent (h : Hw) (u : CmdUnit) : Bool :=
  match u with
  | .core => false
  | .metro => !h.metering
  | .holdup => !h.holdup

/-- Commands are served: boot complete, no core reset pending (R464), not being removed (R421). -/
def Hw.serves (h : Hw) : Bool :=
  h.ins.booted && h.rst.coreReq.isNone && h.ins.state != .removing && h.ins.state != .removed

/-- Deferred signing, the completion of a seal break and the erase of RETIRE answer all but IDENT and GET_STATUS with BUSY
(R413, R524, R526). -/
def Hw.bootWork (h : Hw) : Bool :=
  h.log.signPending || h.life.breaking.any (fun b => b.deferred || b.atBoot) || (0 < h.life.retireLeft && h.life.retireBoot)

/-- MODULE of the packet in process at an address names another module (R404, R407). -/
def Hw.foreign (h : Hw) (o : Origin) : Bool := match (h.mbx o).inProc with | some p => p.2.getD 2 0 != 0 | none => false

def Origin.other : Origin → Origin
  | .A => .V
  | .V => .A

/-- Packets of the two addresses are processed in the order in which their submissions committed (R410): the packet in process comes
after one of the other address that was submitted before it, in process or queued there. A relay holds up none (R419). -/
def Hw.turn (h : Hw) (o : Origin) : Bool :=
  let p := h.mbx (Origin.other o)
  match (h.mbx o).inProc, p.inProc with
  | some a, some b =>
    (p.judged && p.ready.isNone && h.foreign (Origin.other o)) ||
      ((p.ready.isSome || a.1 ≤ b.1) && (match p.queued with | some q => a.1 ≤ q.1 | none => true))
  | _, _ => true

/-- The packet in process spells a command: its opcode and its parameter bytes (R404). With no packet in process the row stands for
one of its own (DESIGN CHOICE, log 2). -/
def Hw.spelled (h : Hw) (o : Origin) (op : Nat) (ps : List Byte) : Bool :=
  let p := h.packet o
  p.isEmpty || ((p.getD 0 0).toNat = op && slice p 4 (p.getD 3 0).toNat = ps)

/-- A packet is refused before its command is known: a reply without data (R407). -/
def Hw.badPacket (h : Hw) (o : Origin) (pkt : List Byte) : Hw :=
  let op := (pkt.getD 0 0).toNat
  let len := (pkt.getD 3 0).toNat
  let addr := fun (off : Nat) => op * 65536 + off
  if pkt.length < 4 then (h.report 0x41 (addr 1) (masterOf o) 3 []).respond o stBadCrc []
  else if 250 < len then h.respond o stBadLength []
  else
    let inj := h.hit 0x0A
    let h := h.take 0x0A
    if inj || slice pkt (4 + len) 2 != be 2 (crc16 (pkt.take (4 + len))).toNat then
      (h.report 0x41 (addr (4 + len)) (masterOf o) 3 (if inj then injected true else [])).respond o stBadCrc []
    else match cmdInfo op with
    | none => h.respond o stBadOpcode []
    | some c =>
      let md := (pkt.getD 2 0).toNat
      if len ≠ c.lenIn pkt then h.respond o stBadLength []
      else if md = 0 then h
      else if h.prm.role != .lead || 16 ≤ md || !h.prm.roster.getLsbD md then h.respond o stBadModule []
      else if h.inLimp then h.respond o stWrongState []
      else h

/-- Processing of the packet in process starts, once, when its turn has come (R407, R410, R412): a tag that did not match yields
BAD_CRC, whatever else holds (R409); then what overrides the checks of a packet (R413), then the checks up to MODULE. A packet that passes is answered by its command's own row, or relayed. -/
def Hw.judge (h : Hw) (o : Origin) : Hw :=
  let m := h.mbx o
  match m.inProc with
  | some p =>
    let op := (p.2.getD 0 0).toNat
    if m.judged || !h.serves || !h.turn o then h
    else
      let h := h.modMbx o (fun m => { m with judged := true })
      if p.2.length < 4 then h.badPacket o p.2
      else if h.pwr.commit.isSome then h.respond o stBusy []
      else if h.bootWork && op ≠ 1 && op ≠ 2 then h.respond o stBusy []
      else h.badPacket o p.2
  | none => h

/-- Every packet whose turn has come is judged, the one submitted first before the other. -/
def Hw.judgeDue (h : Hw) : Hw := ((h.judge .A).judge .V).judge .A

/-- The core abandons the job in hand (R469). -/
def Hw.abandonCore (h : Hw) : Hw :=
  { h with proto := { h.proto with jobs := h.proto.jobs.map (fun j =>
      if j.byCore && j.state == .running then { j with state := .abandoned } else j) } }

/-- The jobs of some opcodes end ABANDONED. -/
def Hw.abandonJobs (h : Hw) (ops : List Byte) : Hw :=
  { h with proto := { h.proto with jobs := h.proto.jobs.map (fun j =>
      if ops.contains j.op && j.state == .running then { j with state := .abandoned } else j) } }

/-- Working SRAM is checked on every read; the model counts one check of checker 0x01 a command (DESIGN CHOICE, log 30). -/
def Hw.sramCheck (h : Hw) : Hw :=
  if h.hit 1 then
    let hard := h.hitHard 1
    let h := h.take 1
    let addr := Config.freeNat h.free % 0x80000
    let h := h.draw
    let h : Hw := if hard then h.abandonCore else h
    h.report (if hard then 0x11 else 0x10) addr 0 0 (injected true)
  else h

/-- A reply with OK or PENDING restarts the 15 min of the unlock for a CONFIGURE command (R418). -/
def Hw.contact (h : Hw) (o : Origin) (rel : Bool) (c : CmdClass) : Hw :=
  let okSt := match (h.mbx o).ready with | some r => (r.getD 0 0xFF).toNat ≤ 1 | none => false
  let relSt := match h.prm.relay with | some r => (r.out.getD 0 0xFF).toNat ≤ 1 | none => false
  if c == .configure && (if rel then relSt else okSt) then
    if rel then { h with prm := { h.prm with unlock := { h.prm.unlock with lastAt := h.clk } } }
    else { h with proto := { h.proto with unlock := { h.proto.unlock with lastAt := h.clk } } }
  else h

/-- The processing of a packet whose CRC, length and opcode are right: R413, unit presence (R3), privilege (R416), LIMP (R413),
then the command's own checks and effect. A packet already answered is not processed again, nor one that spells another command
(R404). A set of units that is not held in its number is the inconsistency that INTERNAL_ERROR answers (R424; the manual names
none: DESIGN CHOICE, log 44). -/
def Hw.serve (h : Hw) (i : Instr) (body : Hw → Hw) : Hw :=
  match packetOf i with
  | none => h
  | some (o, op, ps) =>
  let h := h.judge o
  match cmdInfo op with
  | none => h
  | some c =>
    if !h.serves || ((h.mbx o).inProc.isSome && (h.mbx o).ready.isSome) || h.foreign o || !h.turn o || !h.spelled o op ps then h
    else if h.pwr.commit.isSome then h.respond o stBusy []
    else if h.bootWork && op ≠ 1 && op ≠ 2 then h.respond o stBusy []
    else if h.unitAbsent c.unit then h.respond o stAbsent []
    else match h.classRefuses c.cls o with
    | some st => h.deny o op 0 st
    | none =>
      if h.inLimp && !servedInLimp op then h.respond o stWrongState []
      else
        let rel := h.relayed o
        if !h.shaped then h.internalError o op else
        let h := h.sramCheck
        if h.rst.coreReq.isSome then h else (body h).contact o rel c.cls

end Sys2Proof.Machine
end

