-- ==== Sys2Proof/Machine/Flags.lean ====
section
/-! DEFINITION. The registers of the pointer space as the module encodes them: identification and status (R1, R25, R26,
R425), the status registers of the chapters, events, host watchdog, mailbox control, telemetry mirror (R176, R387). -/

namespace Sys2Proof.Machine

/-! ## Codes -/

def SysState.code : SysState → Nat
  | .off => 0 | .seqUp => 1 | .run => 2 | .seqDown => 3 | .faultLatched => 4 | .standby => 5 | .limp => 6

/-- INSERT_STATE (R425). UNSEATED has no code: nothing is powered to read it. -/
def InsertState.code : InsertState → Nat
  | .unseated => 0 | .waitVin => 1 | .inputPrecharge => 2 | .storeCharge => 3 | .ready => 4 | .inputFault => 5
  | .removing => 6 | .removed => 7

def Variant.code : Variant → Nat
  | .MB => 0 | .M => 1 | .B => 2 | .P => 3

def GovStage.code : GovStage → Nat
  | .normal => 0 | .over => 1 | .capped => 2 | .derating => 3 | .shedding => 4 | .exhausted => 5

def PrmRole.code : PrmRole → Nat
  | .standalone => 0 | .lead => 1 | .follower => 2 | .silent => 3

def PrmLink.code : PrmLink → Nat
  | .listening => 0 | .joining => 1 | .active => 2 | .orphan => 3

def RefState.code : RefState → Nat
  | .off => 0 | .low => 1 | .full => 2 | .settling => 3

def ReplyState.code : ReplyState → Nat
  | .idle => 0 | .busy => 1 | .ready => 2 | .readyOlder => 3

def Sup.code : Sup → Nat
  | .unsupervised => 0 | .enabling => 1 | .armed => 2

def Safe.code : Safe → Nat
  | .offDischarge => 0 | .offFloat => 1 | .hold => 2

def PortState.code : PortState → Nat
  | .empty => 0 | .seating => 1 | .descCheck => 2 | .precharge => 3 | .startup => 4 | .on => 5 | .latched => 6
  | .refused => 7 | .held => 8

def DescMode.code : DescMode → Nat
  | .off => 0 | .preferred => 1 | .required => 2

def ChgState.code : ChgState → Nat
  | .off => 0 | .absent => 1 | .precondition => 2 | .cc => 3 | .cv => 4 | .topoff => 5 | .done => 6 | .tempPause => 7
  | .fault => 8

/-- A number whose bits are given, the first the least significant. -/
def bits : List Bool → Nat
  | [] => 0
  | b :: bs => b2n b + 2 * bits bs

/-! ## Conditions that registers show -/

/-- Throttling is active (R492). -/
def Hw.throttled (h : Hw) : Bool := h.therm.stage != 0

/-- CAPPED on the voltage command link (R78). -/
def Hw.capped (h : Hw) : Bool := 2 ≤ h.gov.stage.code || h.throttled

/-- The pack is usable: conditions 1 to 5 of R337; on battery, until one of R344 has ended it. -/
def Hw.packUsable (h : Hw) : Bool :=
  let b := h.pwr.backup
  h.holdup &&
    (if h.pwr.onBattery then !h.pwr.packSpent
     else b.en && !h.pwr.battAbsent && h.image.cells * (b.vCut + 100) < h.pwr.vbat &&
       b.tMin * 100 ≤ h.pwr.packTemp && h.pwr.packTemp ≤ b.tMax * 100 && !h.pwr.icehouseArmed)

/-- Events pending and not masked (R425). -/
def Evt.summary (e : Evt) : Bool := (e.pend &&& ~~~ e.mask) != 0

/-- The outputs that POWER_UP enables. -/
def stepsOn (ss : List Step) : BitVec 24 := ss.foldl (fun m s => m ||| s.onMask) 0

/-- The code in force, including overrides (R429). -/
def Hw.target (h : Hw) (k : Nat) : Nat := if (h.out k).on then (h.out k).tgt else h.nextTarget k

/-- OVERRIDE (R161): the target that RAIL_SET set, or the state that RAIL_ENABLE set, differs from the configuration. An off
state that a step has ended since counts no more (DESIGN CHOICE, log 57). -/
def Hw.override (h : Hw) (k : Nat) : Bool :=
  (h.out k).hostTarget.any (fun t => t != (h.cfg k).vSet) ||
    (match (h.out k).hostState with
     | some v => v == (h.out k).enabled && v != maskHas (stepsOn (h.seqSteps .up)) k
     | none => false)

/-! ## Host watchdog (R458, R460, R463) -/

/-- The count at which the open window starts, with PERIOD in ms and WINDOW in quarters. -/
def Wdt.openAt (w : Wdt) : Nat := w.period * 250 * (4 - w.window)

def Hw.wdtCounts (h : Hw) : Bool := h.wdt.enable && h.seq.hrst

def Hw.wdtCount (h : Hw) : Nat := if h.wdtCounts then h.clk - h.wdt.start else 0

/-- WDT OPEN; during the grace period any service is valid (R463). -/
def Hw.wdtOpen (h : Hw) : Bool := h.wdtCounts && (h.wdt.grace || h.wdt.openAt ≤ h.wdtCount)

/-! ## Sessions -/

/-- LOG_FULL of R299. -/
def Hw.logFull (h : Hw) : Bool := h.logSpace < 34

/-! ## 0x0000–0x003F -/

/-- CAPS (R1). -/
def Hw.caps (h : Hw) : Nat :=
  b2n h.metering + 2 * b2n h.holdup + 0x1C + (if h.metering then 0x800 else 0)

/-- STRAPS (R25). -/
def Straps.code (s : Straps) : Nat :=
  s.addr.toNat + 4 * s.idx.toNat + 64 * b2n s.lead + 128 * b2n (!s.lead && s.idx == 0)

/-- STATUS (R425). -/
def Hw.status (h : Hw) : Nat :=
  h.seq.state.code + 8 * b2n h.pwr.onBattery + 16 * b2n h.ins.storeReady + 32 * b2n h.serviceReady +
    64 * h.ins.state.code + 0x200 * b2n h.evt.summary + 0x400 * b2n h.faults.cap.isSome + 0x800 * b2n h.throttled +
    0x1000 * b2n (h.metro.chans.any (·.held))

/-- Pointers 0x0000–0x0007 (R425). -/
def Hw.idRegs (h : Hw) : List Byte :=
  be 2 0x4820 ++ be 1 (h.factory.variant.code + 4 * h.factory.hwRev) ++ be 1 h.life.state ++ be 2 h.status ++
    be 1 h.rst.cause ++ be 1 (b2n h.fw.runB + 2 * b2n h.fw.stagedValid + 4 * b2n h.fw.activatePending)

/-- SEATING and EPSEAT (R26). -/
def Hw.seating (h : Hw) : Nat :=
  bits [h.ins.presA, h.ins.presB, h.lines.en, h.lines.calenLow, h.lines.fltLow]

/-- EPSEAT follows the configured glitch filters: a rise that only the 10 µs filter of R48 has seen still reads 1. -/
def Hw.epseat (h : Hw) : Nat := bits (h.ports.map (fun p => p.eppresLow || decide (h.clk < p.seatEnd)))

/-- HOLDUP (R364). -/
def Hw.holdupReg (h : Hw) : Nat :=
  if !h.holdup then 0
  else
    let c := h.chg.state
    bits [h.pwr.onBattery, h.packUsable, h.pwr.battAbsent, c == .precondition || c == .cc || c == .cv || c == .topoff,
          h.chg.safeDefaults, h.gauge.noRest, h.pwr.icehouseArmed, h.pwr.reserveLow]

/-- GOVERNOR (R79). -/
def Hw.governorReg (h : Hw) : Nat :=
  h.gov.stage.code + 8 * bits [h.gov.batSource, h.gov.thermal, h.gov.ratio, h.capped] + 256 * h.idle.pct

/-- POOL_PHn (R113). -/
def Phase.code (p : Phase) : Nat :=
  let serv := match p.cond with | .active | .rampDown => p.serving | _ => 0
  p.owner + 8 * serv + 64 * b2n (p.cond == .rampDown || p.cond == .quiet) + 128 * b2n (p.cond == .oos)

/-- VCL_Vn (R142). -/
def Hw.vclReg (h : Hw) (k : Nat) : Nat :=
  h.refNow k + 0x2000 * bits [(h.rail k).slewing, (h.rail k).settled, (h.cfg k).vclEn]

/-- RAILSTAT (R161) of output k, 4–11. RAMPING stays 1 while the pause of R151 holds the reference (DESIGN CHOICE, log 74). -/
def Hw.railstat (h : Hw) (k : Nat) : Nat :=
  let o := h.out k
  bits [o.on, o.ramping, o.on && h.idle.skipping.getD k false, o.on && o.halfFreq, o.shed, o.battOff && isVh k, h.override k]

/-- SEQ (R207). -/
def Hw.seqReg (h : Hw) : Nat :=
  let q := h.seq
  q.state.code + 8 * q.step + 0x100 * bits [q.pendOn, q.offWait, q.retryWait] + 0x800 * q.retries +
    0x4000 * bits [q.hrst, q.fltDrive]

def Hw.railgood (h : Hw) : BitVec 24 := outsMask (fun k => (h.out k).good)

/-- PROM, ROSTER, CAB (R237). -/
def Hw.promReg (h : Hw) : Nat :=
  h.prm.role.code + 4 * h.prm.link.code + 16 * bits [h.prm.conflict, h.prm.orphanExpired] + 256 * h.prm.tokenSent

def Hw.cabReg (h : Hw) : Nat := h.prm.cmd + 4 * b2n h.prm.dirDown + 8 * h.prm.step

/-- METROSTAT (R269). -/
def Hw.metrostat (h : Hw) : Nat :=
  if h.metering then bits (h.metro.chans.map (·.held)) + 256 * bits (h.metro.chans.map (·.disagree)) else 0

/-- SESS (R299). -/
def Hw.sessReg (h : Hw) : Nat :=
  if h.metering then
    min h.nRes 8 + 16 * bits [h.log.signPending, h.logFull, !h.slots.any (fun s => s.st == .free)]
  else 0

/-- Pointers 0x0000–0x003F, all at one instant (R427). -/
def Hw.lowRegs (h : Hw) : List Byte :=
  h.idRegs ++ be 4 h.caps ++ be 1 h.straps.code ++ be 1 h.seating ++ be 1 h.epseat ++ be 1 h.holdupReg ++
    be 2 h.governorReg ++ (List.range 8).flatMap (fun p => be 1 (h.phase p).code) ++
    (List.range 4).flatMap (fun k => be 2 (h.vclReg k)) ++ (List.range 8).flatMap (fun k => be 1 (h.railstat (4 + k))) ++
    be 2 h.seqReg ++ be 3 h.railgood.toNat ++ be 1 h.seq.cause ++ be 2 h.promReg ++ be 2 h.prm.roster.toNat ++
    be 1 h.cabReg ++ be 2 h.metrostat ++ be 1 h.sessReg ++ be 4 h.log.lastSeq ++ be 4 h.ackSeq

/-! ## 0x0040–0x010F -/

/-- Mailbox control (R408), 0x0040–0x004F, own copy per address. -/
def Hw.mbxRegs (h : Hw) (o : Origin) : List Byte :=
  let m := h.mbx o
  [0] ++ be 1 m.replyState.code ++ [m.replyTag, m.lastTag] ++
    be 1 (bits [m.queued.isSome, m.overrun, m.coreReset, o == .A && h.proto.unlock.unlocked]) ++ zeros 11

/-- Reserved sources of R451. -/
def reservedEvents : BitVec 64 := (1 <<< 15) ||| (1 <<< 23) ||| (1 <<< 30) ||| (1 <<< 31)

/-- EVT_PEND and EVT_MASK (R453). -/
def Hw.evtRegs (h : Hw) : List Byte := be 8 h.evt.pend.toNat ++ be 8 h.evt.mask.toNat

def Hw.cntRegs (h : Hw) : List Byte := h.evt.cnt.map (BitVec.ofNat 8)

/-- The host-watchdog registers (R458). -/
def Hw.wdtRegs (h : Hw) : List Byte :=
  let w := h.wdt
  be 1 (b2n w.enable + 2 * b2n w.lock + 4 * w.window) ++
    be 1 (bits [w.warn, h.wdtOpen, w.grace && h.wdtCounts, w.keyArmed, !h.seq.hrst, w.restarting]) ++ be 2 w.period ++ [0] ++
    be 1 w.warnCount ++ be 1 w.restartCount ++ be 1 w.earlyCount ++ be 2 w.graceS ++ be 2 w.hrstWidth ++ be 4 h.wdtCount

/-! ## Telemetry mirror (R176) -/

/-- Channels that read 0 without the holdup unit (R8). -/
def Hw.blindChan (h : Hw) (c : Nat) : Bool := !h.holdup && (c == 20 || c == 42 || c == 50)

/-- Raw result word of channel c. -/
def Hw.rawWord (h : Hw) (c : Nat) : List Byte :=
  if h.blindChan c then zeros 4
  else
    let r := h.result c
    be 4 (r.slice * 2 ^ 30 + b2n r.valid * 2 ^ 29 + r.scan % 256 * 2 ^ 16 + r.code.toNat)

/-- Output block of output k, 32 bytes. -/
def Hw.outBlock (h : Hw) (k : Nat) : List Byte :=
  let t := h.adc.outs.getD k OutTelem.empty
  be 2 t.vAvg ++ be 2 (bits [t.valid, t.sat, t.onAtEnd, t.peakEmpty]) ++ beInt 4 t.iAvg ++ beInt 4 t.pAvg ++ be 2 t.vMin ++
    zeros 2 ++ beInt 4 t.iMax ++ beInt 4 t.pMax ++ be 8 t.energy

/-- Channels that measure a voltage (R165). -/
def voltChan (c : Nat) : Bool := c < 24 || (51 ≤ c && c ≤ 60)

/-- A value as it is reported: a voltage is unsigned 16-bit, an open BTS reads 0x8000 (R172). -/
def Hw.reported (h : Hw) (c : Nat) (v : Int) : Int :=
  if h.blindChan c then 0
  else if voltChan c then max 0 (min 65535 v)
  else if c = 50 && h.pwr.btsOpen then -32768
  else v

def Hw.supplyOf (h : Hw) (c : Nat) : Int := h.reported c (h.adc.supply.getD c 0)

/-- Supply block, 64 bytes. -/
def Hw.supplyBlock (h : Hw) : List Byte :=
  let two := fun (c : Nat) => beInt 2 (h.supplyOf c)
  (List.range 6).flatMap (fun i => two (18 + i)) ++ zeros 4 ++ beInt 4 (h.supplyOf 43) ++ beInt 4 (h.supplyOf 42) ++
    beInt 4 h.adc.pIn ++ zeros 4 ++ (List.range 7).flatMap (fun i => two (44 + i)) ++ zeros 2 ++
    (List.range 8).flatMap (fun i => two (51 + i))

/-- ADC_STATE: the slice that calibrates is the one the rotation leaves out (R163). -/
def Hw.adcState (h : Hw) : Nat :=
  (if h.adc.calibrating then (h.adc.rotation + 2) % 3 else 3) + 4 * h.adc.ref.code + 16 * h.adc.sliceOos.toNat +
    128 * b2n h.adc.refFault

/-- ADC status block, 16 bytes. -/
def Hw.adcBlock (h : Hw) : List Byte :=
  be 4 h.adc.scanCount ++ be 1 h.adcState ++ [0] ++ be 2 h.adc.set.tAvg ++ be 4 h.adc.windowCount ++ zeros 4

/-- One byte of the mirror at an offset from 0x2000. -/
def Hw.mirrorByte (h : Hw) (a : Nat) : Byte :=
  if a < 0x100 then (h.rawWord (a / 4)).getD (a % 4) 0
  else if a < 0x340 then (h.outBlock ((a - 0x100) / 32)).getD ((a - 0x100) % 32) 0
  else if a < 0x380 then h.supplyBlock.getD (a - 0x340) 0
  else if a < 0x390 then h.adcBlock.getD (a - 0x380) 0
  else 0

/-- The byte at a pointer as a read at address o delivers it (R387). -/
def Hw.readByte (h : Hw) (o : Origin) (p : Nat) : Byte :=
  if p < 0x40 then h.lowRegs.getD p 0
  else if p < 0x50 then (h.mbxRegs o).getD (p - 0x40) 0
  else if p < 0x80 then 0
  else if p < 0x90 then h.evtRegs.getD (p - 0x80) 0
  else if p < 0xC0 then 0
  else if p < 0x100 then h.cntRegs.getD (p - 0xC0) 0
  else if p < 0x110 then (if o == .A then h.wdtRegs.getD (p - 0x100) 0 else 0)
  else if p < 0x1000 then 0
  else if p < 0x1100 then Cells.get 0 (h.mbx o).cmd (p - 0x1000)
  else if p < 0x1200 then Cells.get 0 (h.mbx o).rep (p - 0x1100)
  else if p < 0x2000 then 0
  else if p < 0x2800 then h.mirrorByte (p - 0x2000)
  else 0

end Sys2Proof.Machine
end

