-- ==== Sys2Proof/Machine/Sequencer.lean ====
section
/-! DEFINITION. The commands of sequencing and supervision (R180–R208): steps and timeouts, window breaches, EN, FLTn, retries,
the CLEAR_FAULT line test, XEV edges. -/

namespace Sys2Proof.Machine

/-! ## Supervision -/

/-- A breach at output k (R184, R185): GOOD falls, and on an armed output it is a running-rail fault. -/
def Hw.breach (h : Hw) (k : Nat) (sd : Side) (detail : List Byte) : Hw :=
  if !(h.out k).on then h
  else
    let armed := (h.out k).sup == .armed
    let h := (h.modOut k (fun o => { o with good := false, outside := true })).evalPgood
    if armed then
      match sd with
      | .under => h.railFault 1 0x60 k detail true
      | .over => h.railFault 2 0x61 k detail true
    else h

/-- The VIB window (R62, R199). -/
def Hw.vibFault (h : Hw) (detail : List Byte) : Hw := h.railFault 6 0x64 0xFF detail false

/-- The running-rail faults that detectors held by FOLLY_FORCE find where they are evaluated (R479), the lowest source first:
under-voltage and over-voltage of an armed output, over-current of one that is on, the VIB window. -/
def Hw.forcedErrs (h : Hw) : List RailErr :=
  let held := fun (src : Nat) => h.faults.forces.contains src
  let err := fun (cause src k : Nat) => { cause := cause, src := src, addr := k, detail := [], held := true : RailErr }
  let armed := fun (k : Nat) => (h.out k).on && (h.out k).sup == .armed
  ((List.range 18).filter (fun k => held k && armed k)).map (err 1 0x60) ++
    ((List.range 12).filter (fun k => held (0x20 + k) && armed k)).map (err 2 0x61) ++
    ((List.range 12).filter (fun k => held (0x30 + k) && (h.out k).on)).map (err 3 0x62) ++
    (if held 0x40 && h.faultActs false then [{ cause := 6, src := 0x64, addr := 0xFF, detail := [], held := false }] else [])

/-- GOOD of output k falls (R184). -/
def Hw.notGood (h : Hw) (k : Nat) : Hw := (h.modOut k (fun o => { o with good := false, outside := true })).evalPgood

/-- What FOLLY_FORCE holds at its fault level acts as a real detection does (R479); the voltage at it, which the entry of a
converter source names (R472), is a free value. -/
def Hw.forced (h : Hw) : Hw :=
  let held := fun (src : Nat) => h.faults.forces.contains src
  let errs := h.forcedErrs
  let full := errs.mapIdx (fun i e =>
    { e with detail := if e.src = 0x64 then injected true else [0x80, 0] ++ be 2 (Config.freeNat (h.free + i) % 65536) })
  let low := (List.range 18).filter (fun k => (h.out k).on && (held k || (k < 12 && held (0x20 + k))))
  let h := low.foldl Hw.notGood h
  ({ h with free := h.free + errs.length }).railFaults full

/-! ## Steps -/

/-- SEQ_STEP_COMPLETE (R189, R190, R192): the step in progress completes at the first tick at which its conditions hold
together, if that tick does not come after the TIMEOUT. -/
def execSeqStepComplete (low : LowSample) (s : State) : Out := s.upd fun h =>
  if h.seq.active && h.stepMet low && h.stepDue low ≤ h.stepLimit then (h.reach (h.stepDue low)).finishStep.forced else h

/-- The outputs of WAIT_MASK whose condition is unmet at a timeout (R191, R432). -/
def Hw.unmet (h : Hw) (low : LowSample) : BitVec 24 :=
  outsMask (fun k => maskHas h.stepNow.waitMask k && !(h.waitMet low k && h.waitDue k ≤ h.clk))

def dirCode : SeqDir → Nat
  | .up => 0
  | .down => 1
  | .host => 2

/-- The SEQ_TIMEOUT fault (R191, R199, R471). -/
def Hw.seqTimeout (h : Hw) (low : LowSample) : Hw :=
  let dir := h.seq.dir
  let step := h.seq.step
  let h : Hw := { h with seq := { h.seq with toStep := step, toDir := some dir, toUnmet := h.unmet low, toTime := h.now } }
  let h := h.endJob? h.seq.job 0 2 []
  let h : Hw := { h with seq := { h.seq with job := none } }
  (h.raise 18).railFault 5 0x70 (dirCode dir * 65536 + step * 256) [] false

/-- SEQ_TIMEOUT (R191): at the TIMEOUT tick the conditions are tested first. -/
def execSeqTimeout (low : LowSample) (s : State) : Out := s.upd fun h =>
  if h.seq.active then
    let h := h.reach h.stepLimit
    if h.stepMet low && h.stepDue low ≤ h.clk then h.finishStep.forced else h.seqTimeout low
  else h

/-! ## Window breaches -/

/-- A port under window supervision: ON, and not in current regulation (R55, R57, R183). -/
def Hw.portWatched (h : Hw) (p : Nat) (limiting : Bool) : Bool := (h.port p).state == .on && !limiting

/-- WINDOW_BREACH (R62, R68, R184): the voltage has lain outside the window for t_F; a voltage inside it is no breach. -/
def execWindowBreach (w : WindowSource) (s : State) : Out := s.upd fun h =>
  match w with
  | .output k mv =>
    match h.sideOf k mv with
    | some sd => h.wake.breach k sd (detailMv mv)
    | none => h
  | .port p mv vin limiting =>
    if h.portWatched p limiting && h.portLow (12 + p) mv vin then h.wake.breach (12 + p) .under (detailMv mv) else h
  | .vib mv vin => if h.ins.mainOn && !h.vibInside mv vin then h.wake.vibFault [] else h

/-- GOOD becomes 1 for an output that is on and whose enabling ramp has ended (R184). A forced comparator of the output keeps
it at 0 (R479). A VH output that restarts has reached its window (R81). -/
def Hw.setGood (h : Hw) (k : Nat) : Hw :=
  let forced := h.faults.forces.contains k || (k < 12 && h.faults.forces.contains (0x20 + k))
  if (h.out k).on && (h.out k).rampEnded && !(h.out k).good && !forced then
    let h := h.modOut k (fun o => { o with good := true, goodAt := h.clk, outside := false })
    (if isVh k then h.endVhWait (k - 10) else h).evalPgood
  else h

/-- GOOD_SET (R184): the voltage has lain inside the edges, as they stand, for t_F. -/
def execGoodSet (w : WindowSource) (s : State) : Out := s.upd fun h =>
  match w with
  | .output k mv => if h.insideWindow k mv then h.setGood k else h
  | .port p mv vin _ => if (h.port p).state == .on && h.portInside (12 + p) mv vin then h.setGood (12 + p) else h
  | .vib _ _ => h

/-! ## EN, t_off_min, FLTn (R194–R201) -/

/-- EN_RISE (R196): an on request if autostart is set; it wakes the module from STANDBY where WAKE bit 0 is set (R516). In LIMP it
ends the wait of R484 after a fault. -/
def execEnRise (s : State) : Out := s.upd fun h =>
  if h.lines.en then h
  else
    let h : Hw := { h with lines := { h.lines with en := true } }
    let h := if h.wakes && h.seq.wake.getLsbD 0 then h.exitStandby else h
    let h := if h.seq.limpFault && h.seq.limpEnLow && !h.gone then h.faultRestart else h
    if (h.image.autostart || h.inLimp) && h.ins.booted && h.ins.storeReady && h.admitted then (h.onRequest none).forced else h

/-- EN_FALL (R196): an off request in every state. -/
def execEnFall (s : State) : Out := s.upd fun h =>
  if h.lines.en then
    let h : Hw := { h with lines := { h.lines with en := false } }
    let h := h.offRequest none
    if h.seq.limpFault then { h with seq := { h.seq with limpEnLow := true } } else h
  else h

/-- OFF_MIN_ELAPSED (R194). -/
def execOffMinElapsed (s : State) : Out := s.upd fun h =>
  if h.seq.offWait then
    let h := h.reach (h.seq.offStart + 1000 * h.image.tOffMin)
    ({ h with seq := { h.seq with offWait := false } }).tryPend.forced
  else h

/-- FLTN_FALL (R199, R201): in SEQ_UP, RUN and SEQ_DOWN the reaction of R200 with cause REMOTE. -/
def execFltnFall (s : State) : Out := s.upd fun h =>
  if h.lines.fltLow then h
  else
    let h : Hw := { h with lines := { h.lines with fltLow := true } }
    match h.eff with
    | .seqUp | .run | .seqDown => if h.gone then h else h.railFault 10 0x67 0xFF [] false
    | _ => h

/-- FLTN_HIGH (R194): the line reads high where this module does not drive it; a latched on request may act. -/
def execFltnHigh (s : State) : Out := s.upd fun h =>
  if h.seq.fltDrive then h else ({ h with lines := { h.lines with fltLow := false } }).tryPend.forced

/-! ## Retries and CLEAR_FAULT (R203, R204, R232, R494) -/

/-- A node temperature of n °C in the unit of `Thermal.nodes`. -/
def degrees (n : Nat) : Int := 100 * n * 65536

/-- After a thermal fault a node still stands at or above the warning threshold (R204, R494). -/
def Hw.thermHolds (h : Hw) : Bool := h.therm.hold && (h.therm.nodes.take 15).any (fun t => degrees 110 ≤ t)

/-- RETRY_DUE (R203, R232): the retry releases the drive of FLTn; a lead sends CAB_CMD = CLEAR in three cycles. -/
def execRetryDue (s : State) : Out := s.upd fun h =>
  if h.seq.state == .faultLatched && h.seq.retryWait && !h.seq.retryReleased then
    let h := h.reach (h.seq.offStart + 100000 * 2 ^ h.seq.retries)
    let h : Hw := { h with seq := { h.seq with fltDrive := false, retryReleased := true } }
    if h.prm.role == .lead then { h with prm := { h.prm with clearLeft := 3, clearRetry := true, order := 0 } } else h
  else h

/-- RETRY_START (R203): EN high, FLTn high, t_off_min elapsed, no thermal hold, the CLEAR cycles sent: a fault restart, then
POWER_UP. -/
def execRetryStart (s : State) : Out := s.upd fun h =>
  if h.seq.state == .faultLatched && h.seq.retryReleased && h.lines.en && !h.lines.fltLow && !h.seq.offWait &&
     !h.thermHolds && h.prm.clearLeft = 0 && !h.gone && h.pwr.commit.isNone && h.seq.service.job.isNone && !h.serviceReady &&
     h.seq.clearTest.isEmpty && h.prm.clearJob.isNone then
    let h : Hw := { h with seq := { h.seq with retries := h.seq.retries + 1 }, prm := { h.prm with clearRetry := false } }
    (h.faultRestart.startUp none).forced
  else h

/-- RETRY_COUNT_RESET (R203): 60 s in RUN without a fault. -/
def execRetryCountReset (s : State) : Out := s.upd fun h =>
  if h.eff == .run then { h with seq := { h.seq with retries := 0 } } else h

/-- CLEAR_FAULT (R204), from an address or by CAB_CMD: outside FAULT_LATCHED nothing, after a thermal fault refused, otherwise
the drive of FLTn is released and the line is judged 10 µs later, for each request on its own. -/
def Hw.clearFault (h : Hw) (o : Option Origin) : Hw :=
  let answer := fun (h : Hw) (st : Nat) => match o with
    | some o => h.respond o st []
    | none => h
  if h.seq.state != .faultLatched then answer h stOk
  else if h.thermHolds then answer h stWrongState
  else { h with seq := { h.seq with fltDrive := false, clearTest := h.seq.clearTest ++ [o] } }

/-- CLEAR_FAULT_LINE_TEST (R204): the line is judged 10 µs after the release, for the request that came first. FAULT_LATCHED that
has been left meanwhile needs nothing more; a line that the module drives again, after another fault, names no other module. -/
def execClearFaultLineTest (lineHigh : Bool) (s : State) : Out := s.upd fun h =>
  match h.seq.clearTest with
  | o :: later =>
    let h : Hw := { h with seq := { h.seq with clearTest := later } }
    let answer := fun (h : Hw) (st : Nat) => match o with
      | some o => h.respond o st []
      | none => h
    if h.seq.state != .faultLatched then answer h stOk
    else if lineHigh && !h.seq.fltDrive then
      let h : Hw := { h with seq := { h.seq with retries := 0 }, lines := { h.lines with fltLow := false } }
      answer h.faultRestart stOk
    else
      let h : Hw := { h with seq := { h.seq with cause := if h.seq.fltDrive then h.seq.cause else 10 }
                             lines := { h.lines with fltLow := true } }
      answer h.evalPgood stWrongState
  | [] => h

/-- XEV_EDGE (R457): the filtered level of an XEV input changes; XEV_EDGE selects the edges that raise events 56–59. The filters
run while the main domain is out of reset. -/
def execXevEdge (x : Fin 4) (level : Bool) (s : State) : Out := s.upd fun h =>
  if h.lines.xev.getD x false == level || !h.live then h
  else
    let e := h.image.xevEdge.getD x 0
    let h : Hw := { h with lines := { h.lines with xev := h.lines.xev.set x level } }
    h.raiseIf (if level then e = 1 || e = 3 else e = 2 || e = 3) (56 + x)

end Sys2Proof.Machine
end

