-- ==== Sys2Proof/Machine/Boot.lean ====
section
/-! DEFINITION. What a start of the main domain or of the housekeeping core does: the firmware slot (R531), the image in force
(R302, R445, R517), the link (R209, R216), calibration (R246), LODGE_RESET (R371), LIMP (R481–R485). -/

namespace Sys2Proof.Machine

/-! ## Firmware slots (R529–R532) -/

/-- A candidate of R531 item 1. -/
def FwSlot.candidate (s : FwSlot) (rollback : Nat) : Bool :=
  s.headerOk && s.activationN == ~~~s.activation && rollback ≤ s.secVersion

def Fw.slot (f : Fw) (b : Bool) : FwSlot := if b then f.slotB else f.slotA

def Fw.setSlot (f : Fw) (b : Bool) (s : FwSlot) : Fw := if b then { f with slotB := s } else { f with slotA := s }

/-- What the boot ROM finds for one slot: it boots, as a trial or not, or it is passed over. -/
inductive BootTry where
  | boots
  | trial
  | passed
  deriving DecidableEq, Repr

def Fw.trySlot (f : Fw) (b : Bool) : BootTry :=
  let s := f.slot b
  if !s.candidate f.rollback then .passed
  else if s.confirm then .boots
  else if s.trial || !s.bodyOk then .passed
  else .trial

/-- The slot with the higher ACTIVATION comes first. -/
def Fw.first (f : Fw) : Bool :=
  if !f.slotA.candidate f.rollback then true
  else if !f.slotB.candidate f.rollback then false
  else f.slotA.activation.toNat < f.slotB.activation.toNat

/-- The other candidate (R531 item 4): it boots although its own trial has been and is not confirmed. -/
def Fw.tryOther (f : Fw) (b : Bool) : BootTry :=
  let s := f.slot b
  if s.candidate f.rollback && s.trial then .boots else f.trySlot b

/-- TRIAL is programmed in a slot whose trial boot starts (R531 item 3). -/
def Fw.begin (f : Fw) (b : Bool) : Fw :=
  let s := f.slot b
  if s.candidate f.rollback && !s.confirm && !s.trial then f.setSlot b { s with trial := true } else f

/-- The choice of the boot ROM (R531): the running slot, or none. -/
def Fw.start (f : Fw) : Option Fw :=
  let b := f.first
  let run := fun (g : Fw) (c : Bool) (t : Bool) => some { g.begin c with runB := c, trialRun := t, activatePending := false }
  match f.trySlot b with
  | .boots => run f b false
  | .trial => run f b true
  | .passed =>
    let f := f.begin b
    match f.tryOther (!b) with
    | .boots => run f (!b) false
    | .trial => run f (!b) true
    | .passed => none

/-- ACTIVATION_N follows ACTIVATION, with which the switch is pending (R531); where its verify fails the two disagree. -/
def Hw.activated (h : Hw) (ok : Bool) : Hw :=
  let b := !h.fw.runB
  let x := h.fw.slot b
  let x := if ok then { x with activationN := ~~~x.activation } else x
  { h with fw := { h.fw.setSlot b x with programming := false, activatePending := ok } }

/-! ## LIMP (R481–R485) -/

/-- The settings of R483 in force from the entry to LIMP: supervision of every output, budgets, no retry; the charger runs
under the safe defaults over the image, off where its CHG_EN is 0 (R348, R352). The gauge does not count there (R482): no FCC is
learned across the gap (R357). -/
def Hw.limpSettings (h : Hw) : Hw :=
  let c := h.image.charge
  { h with
    outs := h.outs.map (fun o => { o with uv := 6, ov := 6, filt := 5 })
    gauge := { h.gauge with socRef := none }
    gov := { h.gov with vinW := 150, batW := 40, tCap := 10 }
    chg := { h.chg with set := { c with iChg := min c.iChg 500, cvReduce := max c.cvReduce 50 }, safeDefaults := h.holdup
                        state := if c.en then h.chg.state else .off, timerRun := c.en && h.chg.timerRun
                        restartDue := c.en && (h.chg.restartDue || !h.chg.set.en && h.holdup) } }

/-- What of a host restart still runs, which no core reset touches (R465): its sequence in RUN, or the power-down, the on request
and the power-up of its form in SEQ_UP (R462). -/
def Hw.hostRestarts (h : Hw) : Bool :=
  match h.seq.state with
  | .run => h.seq.active
  | .seqUp | .seqDown => h.wdt.restarting
  | .off => h.wdt.restarting && h.seq.pendOn
  | _ => false

/-- LIMP_ENTRY (R481, R484): sessions close, outputs that are on, in HOLD too, stay on under the table's supervision; a power-up
in progress stands where it is, a power-down goes on with the table's sequence (DEDUCED, log 22). A host restart is unaffected
(R465). FAULT_LATCHED is left, so the overrides revert and FLTn is released (R203). -/
def Hw.limpEntry (h : Hw) : Hw :=
  if h.inLimp then h
  else
    let h := h.closeAll 0x04 0x40
    let was := h.seq.state
    let keep := h.hostRestarts
    let held := was == .faultLatched && h.outs.any (·.on)
    let h := if keep then h else h.dropPend 1
    let h : Hw := if was == .seqUp && !keep then h.endJob? h.seq.job 0 1 [] else h
    let q := h.seq
    let h : Hw := { h with
      rst := { h.rst with cause := 0x0A }
      seq := { q with state := .limp, limpRun := was == .run || was == .seqUp && !keep || held, active := keep && q.active,
                      limpKeep := keep, job := if was == .seqUp && !keep then none else q.job,
                      limpFault := was == .faultLatched && !held, limpEnLow := false, limpExit := false, retryWait := false,
                      retryReleased := false, standbyReq := none, hostStepsDone := (was == .run || keep) && q.hostStepsDone
                      fltDrive := q.fltDrive && was != .faultLatched } }
    let h := h.limpSettings
    if keep then h.evalPgood
    else if was == .seqDown then h.startDown 0 h.seq.job
    else if was == .faultLatched then h.dropOverrides.evalPgood
    else h.evalPgood.autostart

/-- The choice of the boot ROM; a RETIRED module has no image, whatever is not yet erased (R526, R528). -/
def Hw.bootFw (h : Hw) : Option Fw := if h.life.retired then none else h.fw.start

/-- The core starts (R531): the chosen slot runs, a trial start reads RESET_CAUSE 0x0B; with no candidate LIMP is entered. -/
def Hw.startCore (h : Hw) : Hw :=
  match h.bootFw with
  | some f => { h with fw := f, rst := { h.rst with cause := if f.trialRun then 0x0B else h.rst.cause } }
  | none => { h with fw := { h.fw with activatePending := false, trialRun := false } }.limpEntry

/-! ## Settings of the image (R302, R433, R458, R467) -/

/-- A class entry that breaks R466 takes its default (R467). -/
def policiesOf (img : Image) : List Nat :=
  (List.range 13).map (fun i =>
    let r := img.policies.getD i 0
    if reactionOk (i + 1) r then r else defaultPolicies.getD i 0)

/-- I_TERM in force when the image states none (R346). -/
def defaultTerm (cap iChg : Nat) : Nat := min (cap / 20) (iChg / 2) / 10 * 10

/-- The host watchdog from the image; `keepLock` keeps LOCK and RESTART_COUNT (R458). -/
def Hw.loadWdt (h : Hw) (keepLock : Bool) : Hw :=
  let c := h.image.wdt
  if keepLock && h.wdt.lock then h
  else { h with wdt :=
    { enable := c.enable, lock := if keepLock then h.wdt.lock else c.lock, window := c.window, warn := false, grace := false,
      keyArmed := false, restarting := false, period := c.period, warnCount := 0,
      restartCount := if keepLock then h.wdt.restartCount else 0, earlyCount := 0, graceS := c.graceS,
      hrstWidth := c.hrstWidth, start := h.clk } }

/-- The image that the store holds, or the factory default image (R302), becomes the image in force, and the runtime overrides
outside the output cells revert to it (R517). -/
def Hw.applyImage (h : Hw) : Hw :=
  let img := h.storedImage
  { h with
    image := img
    gov := { h.gov with vinW := img.vinW, batW := img.batW, tCap := img.tCap }
    faults := { h.faults with policies := policiesOf img }
    adc := { h.adc with set := img.scan, mask := img.scan.mask, next := none, restartWindow := true }
    pwr := { h.pwr with backup := img.backup, icehouseArmed := false }
    chg := { h.chg with set := img.charge, safeDefaults := false, contactAt := h.clk }
    prm := { h.prm with admitMask := img.prm.admitMask, autoJoinRun := img.prm.autoJoinRun }
    store := { h.store with staging := [] } }

/-- The image is loaded at the boot: CONFIG_DEFAULT says that none is stored (R302), and every output reverts to it (R517). -/
def Hw.loadImage (h : Hw) : Hw := ((h.raiseIf h.store.image.isNone 53).applyImage).revert

/-! ## The link (R24, R209, R216, R236) -/

def Hw.role (h : Hw) : PrmRole :=
  if !h.image.prm.cabinet then .standalone
  else if h.straps.lead then .lead
  else if h.straps.idx == 0 then .silent
  else .follower

/-- The link restarts from listening, at POR and RSTn only. -/
def Hw.startLink (h : Hw) : Hw :=
  { h with prm := { Hw.reset.prm with role := h.role, admitMask := h.image.prm.admitMask,
                                      autoJoinRun := h.image.prm.autoJoinRun } }

/-! ## Parts of a main-domain start -/

/-- The sensor that anchors a node (R487). -/
def anchorOf (node : Nat) : Nat := [0, 1, 1, 2, 2, 2, 2, 2, 3, 3, 4, 4, 4, 1, 5].getD node 0

/-- The band of a temperature in 0.01 °C among bands that meet at given edges (R496). -/
def bandAmong (edges : List Int) (t : Int) : Nat := edges.countP (fun e => e ≤ t)

def flashEdges : List Int := [0, 4500, 9000]

def scrubEdges : List Int := [9000]

/-- The thermal model starts with every node at its anchor sensor's reading and T_HS at the lowest (R487, R490). -/
def Hw.startThermal (h : Hw) (temps : List Int) : Hw :=
  let t := fun (i : Nat) => temps.getD i 0 * 65536
  let low := (List.range 6).foldl (fun a i => min a (t i)) (t 0)
  { h with therm := { nodes := (List.range 15).map (fun n => t (anchorOf n)) ++ [low], warn := false, stage := 0,
                      fast := false, coolSince := none, hits := List.replicate 6 0, hold := false, hot := false, trip := none,
                      flashBand := bandAmong flashEdges (temps.getD 5 0), scrubBand := bandAmong scrubEdges (temps.getD 0 0) } }

/-- The boot test of the phases (R105). -/
def Hw.retest (h : Hw) (b : BootSample) : Hw :=
  let f := fun (i : Nat) (_ : Phase) =>
    let w := h.image.owners.getD i 0
    if b.phaseFail.getLsbD i then { Phase.idle w with cond := .oos, oosReason := 1 } else Phase.idle w
  let h : Hw := { h with pool := { h.pool with phases := h.pool.phases.mapIdx f } }
  (List.range 8).foldl (fun h i => if b.phaseFail.getLsbD i then (h.raise 5).report 0x68 (i + 1) 0 0 [] else h) h

/-- The calibration of the slices before the first scan (R163, R164): at POR and RSTn the marks start anew, at another boot a
mark stands. The rotation starts in period 0 after every boot (DESIGN CHOICE, log 70). Where no slice is left the results kept over
a STANDBY stay VALID until the next SCAN_COMPLETE (DESIGN CHOICE, log 75). -/
def Hw.calibrate (h : Hw) (b : BootSample) (anew : Bool) : Hw :=
  let old := if anew then 0 else h.adc.sliceOos
  let oos := old ||| b.sliceFail
  let h : Hw := { h with adc := { h.adc with sliceOos := oos, rotation := 0, calibrating := oos == 0 } }
  let h := (List.range 3).foldl (fun h i =>
    if b.sliceFail.getLsbD i && !old.getLsbD i then (h.raise 10).report 0x69 i 0 0 [] else h) h
  if oos == 7 && old != 7 then h.railFault 9 0x6A 3 [] false else h

/-- VM and VH outputs of class RC1 or RC2 run at half frequency while throttling is active (R149, R493). -/
def Hw.halve (h : Hw) : Hw :=
  let f := fun (k : Nat) (o : Output) =>
    { o with halfFreq := h.therm.stage != 0 && (isVm k || isVh k) && (h.cfg k).ripple != 0 }
  { h with outs := h.outs.mapIdx f }

/-- LODGE_RESET is read once the gatehouse lock is open (R371); alarms that fired meanwhile are raised (R382). -/
def Hw.lodgeCheck (h : Hw) : Hw :=
  if h.lodge.checked || h.lodge.lock then h
  else
    let h : Hw := { h with lodge := { h.lodge with checked := true } }
    let h : Hw :=
      if h.lodge.lodgeReset then
        let h := (h.raise 42).report 0xD0 0 0 0 []
        { h with lodge := { h.lodge with trim := h.factory.crystalTrim, band := h.factory.bandTable } }
      else h
    let h := (List.range 2).foldl (fun h i => h.raiseIf ((h.lodge.alarms.getD i Alarm.disarmed).toRaise) (40 + i)) h
    { h with lodge := { h.lodge with alarms := h.lodge.alarms.map (fun a => { a with toRaise := false }) } }

/-- Key 0x0202 follows the fuses (R520). -/
def Hw.syncBreaks (h : Hw) : Hw :=
  if h.store.mono 0x202 = h.life.breaks then h else h.pair 0x202 (be 4 h.life.breaks)

/-- The log holds a SEAL_BREAK record after the last SEAL_STATEMENT. -/
def brokenAfter : List LogEntry → Bool → Bool
  | [], b => b
  | e :: es, b =>
    let t := slice e.bytes 0 1
    brokenAfter es (if !e.committed then b else if t = [2] then false else if t = [3] then true else b)

/-- SESSION_CLOSE records with reason SEAL_BREAK after the last SEAL_STATEMENT. -/
def closedByBreak : List LogEntry → Nat → Nat
  | [], n => n
  | e :: es, n =>
    let t := slice e.bytes 0 1
    closedByBreak es (if !e.committed then n else if t = [2] then 0 else if t = [1] && slice e.bytes 92 1 = [6] then n + 1 else n)

/-- A seal break cut off by power loss is completed after deferred signing (R524): 0xFF marks that its record is in the log
already. Which of the two causes began it is no longer known. -/
def Hw.resumeBreak (h : Hw) : Hw :=
  if h.metering && (h.life.state == 1 || h.life.state == 2) && h.life.keySlot.isSome then
    let cause := if brokenAfter h.log.entries false then 0xFF else Config.freeNat h.free % 2 + 1
    let b : BreakSt :=
      { cause := cause, sessions := closedByBreak h.log.entries 0, deferred := true, asked := false, atBoot := true }
    { h.draw with life := { h.life with breaking := some b }
                  log := { h.log with signPending := true } }
  else { h with life := { h.life with breaking := none } }

/-- Deferred signing is due at a boot that finds an unsigned record (R285). -/
def Hw.signAtBoot (h : Hw) : Hw := { h with log := { h.log with signPending := h.log.signPending || h.signDue } }

/-- A port as the inputs EPPRESn count again at the end of a boot (R17, R57). -/
def Port.seat (p : Port) : Port :=
  if !p.eppresLow then { p with state := .empty, reason := 0 }
  else if p.state == .empty then { p with state := .seating }
  else p

/-- The first MCLK edge: the blocks run from it (R252). The clocks run from the end of the boot, when the paths have loaded
their blocks, and the boundaries run on though no channel is enabled (R17, R241; DESIGN CHOICE, log 64). -/
def Hw.startBlocks (h : Hw) : Hw :=
  { h with metro := { h.metro with start := h.clk, blockStart := h.clk, ivEnd := h.clk } }

/-- The end of a boot: the main domain is out of reset, commands are served, MICROS starts (R17, R34, R471). -/
def Hw.served (h : Hw) : Hw :=
  let h : Hw := { h.startBlocks with
    ports := h.ports.map Port.seat
    ins := { h.ins with booted := true, state := if h.ins.state == .storeCharge && h.ins.storeReady then .ready else h.ins.state }
    rst := { h.rst with bootAt := h.clk }
    life := { h.life with retireBoot := 0 < h.life.retireLeft }
    chg := { h.chg with restartDue := h.holdup } }
  h.autostart.judgeDue

end Sys2Proof.Machine
end

