-- ==== Sys2Proof/Machine/Restarts.lean ====
section
/-! DEFINITION. Resets: RSTn, MODULE_RESTART, core reset, STANDBY exit, trial confirmation (R420, R464, R473, R481, R485,
R510–R518, R531, R532). -/

namespace Sys2Proof.Machine

/-! ## MODULE_RESTART and RSTn (R511, R512) -/

/-- Steps 1 and 2 of R511: open sessions close with reason FAULT and the flag RESTART, and an off request runs. -/
def Hw.askRestart (h : Hw) (k : RestartKind) : Hw :=
  if h.pwr.commit.isSome || h.gone || h.rst.restart == some .rstn then h
  else
    let h := (h.closeAll 0x04 0x20).wake
    ({ h with rst := { h.rst with restart := some k } }).offRequest none

/-- Telemetry of one output after a restart: the energy counter goes on (R517). -/
def OutTelem.restarted (t : OutTelem) : OutTelem := { OutTelem.empty with energy := t.energy, residue := t.residue }

/-- The errors in wait are written to the fault log and the capture is emptied (R473). After LIMP, whose monitor writes none
(R482), they are written with the start that leaves it (DEDUCED, log 36). -/
def Hw.emptyCapture (h : Hw) : Hw :=
  let h := h.writeFaults
  { h with faults := { h.faults with cap := none, later := 0, queue := [] } }

/-- Phases after a restart: idle with their configured owner, marks of OUT_OF_SERVICE kept (R104, R109). -/
def Phase.restarted (p : Phase) (owner : Nat) : Phase :=
  if p.cond == .oos then { Phase.idle owner with cond := .oos, oosReason := p.oosReason } else Phase.idle owner

/-- A log record that found E = 0 waits on over the reset (R313); its job does not outlive it. -/
def Hw.setAside (h : Hw) : Hw :=
  match h.store.queue with
  | w :: ws =>
    if w.isLog && w.phase = 0 && h.log.erased = 0 then
      let h := (h.dropWrites [w]).wait (h.formRecord w).payload w.signed w.seq (if w.purpose == .breaking then .breaking else .none)
      { h with store := { h.store with queue := ws } }
    else h
  | [] => h

/-- Step 3 of R511: the main domain is reset and the boot starts. RSTn also restarts the link (R512). -/
def Hw.mainReset (h : Hw) (rstn : Bool) : Hw :=
  let h := (((((h.turnOffAll .removal).govEnd).cutErase).setAside).cutWrites).emptyCapture
  let h := if h.fw.programming then h.activated true else h
  let h : Hw := { h with
    ins := { h.ins with mainOn := true, booted := false, strapsDone := h.ins.strapsDone && !rstn, scrubDue := h.ins.scrubDue || h.wakes }
    rst := { h.rst with cause := if rstn then 2 else 3, restart := none, coreReq := none, fwReset := false }
    seq := { Hw.reset.seq with toStep := h.seq.toStep, toDir := h.seq.toDir, toUnmet := h.seq.toUnmet, toTime := h.seq.toTime }
    prm := { h.prm with clearLeft := 0, clearJob := none, clearRetry := false }
    idle := Hw.reset.idle
    gov := Hw.reset.gov
    image := h.storedImage
    outs := h.storedImage.outs.map Output.loaded
    pool := { phases := h.pool.phases.mapIdx (fun i p => p.restarted (h.storedImage.owners.getD i 0))
              rails := List.replicate 4 VpRail.idle, lendCount := 0, move := none }
    vcl := Hw.reset.vcl
    ports := h.ports.map Port.restarted
    acc := Hw.reset.acc
    adc := { Hw.reset.adc with outs := h.adc.outs.map OutTelem.restarted, sliceOos := h.adc.sliceOos,
                               runMain := h.adc.runMain, runBatt := h.adc.runBatt }
    proto := { Hw.reset.proto with submissions := h.proto.submissions }
    evt := Hw.reset.evt
    faults := { h.faults with inject := List.replicate 15 (0, false), arming := [], forces := [] }
    chg := { h.chg with state := .off, timerRun := false, restartDue := false, safeDefaults := false, govHold := false,
                        govHalf := false }
    lodge := { h.lodge with checked := false, timeSet := none, leadStep := none }
    gauge := { h.gauge with tableJob := none }
    bulk := { Bulk.idle with retained := h.bulk.retained }
    store := { h.store with staging := [], proving := [], erased := [] }.resume
    life := { h.life with breakDue := none }
    fw := { h.fw with stagedValid := false, activatePending := false } }
  let h := (((((h.applyImage).lockConfig).wipeRelay).startMetro true).halve).startAdc
  if rstn then h.startLink else h

/-- RESTART_MAIN_RESET (R511, R534): sessions closed, the power-down ended, a seal break in progress completed. -/
def execRestartMainReset (s : State) : Out := s.upd fun h =>
  match h.rst.restart with
  | some k =>
    let down := h.eff == .off || h.eff == .faultLatched
    if h.nRes = 0 && down && h.life.breaking.isNone && h.pwr.commit.isNone && !h.gone then h.mainReset (k == .rstn) else h
  | none => h

/-- RSTN (R512): from STANDBY the module wakes and is reset; during a boot after MODULE_RESTART or a STANDBY exit the boot
starts again as that of RSTn; the boot after a POR stays one, its reference is OFF while RSTn is low (R169) and the straps are
sampled again at the release (R22). -/
def execRstn (s : State) : Out := s.upd fun h =>
  if h.lines.rstLow then h
  else
    let h : Hw := { h with lines := { h.lines with rstLow := true } }
    if h.wakes then h.mainReset true
    else if !h.ins.mainOn then h
    else if !h.ins.booted then
      (if h.gone || h.pwr.commit.isSome then h
       else if h.ins.porCause = 0 then h.mainReset true
       else ({ h with ins := { h.ins with strapsDone := false } }).startAdc)
    else h.askRestart .rstn

/-- RSTN_RELEASE (R512): the main domain leaves reset; the boot and the strap sample follow. -/
def execRstnRelease (s : State) : Out := s.upd fun h =>
  let h : Hw := { h with lines := { h.lines with rstLow := false } }
  if h.ins.mainOn && h.adc.ref == .off then (h.startMetro false).startAdc else h

/-- STANDBY_WAKE (R516). RSTn acts as RSTn (R512). -/
def execStandbyWake (w : WakeSource) (s : State) : Out := s.upd fun h =>
  if h.wakes then
    match w with
    | .address => h.exitStandby
    | .en => if h.seq.wake.getLsbD 0 then ({ h with lines := { h.lines with en := true } }).exitStandby else h
    | .alarm => if h.seq.wake.getLsbD 1 then h.exitStandby else h
    | .rstn => ({ h with lines := { h.lines with rstLow := true } }).mainReset true
  else h

/-! ## Core reset (R420, R464, R481) -/

/-- A mailbox after a core reset; its pointer returns to 0x0000 at the next START (R403). -/
def Mailbox.coreCleared (m : Mailbox) : Mailbox := { Mailbox.empty with coreReset := true, ptr := m.ptr, ptrReset := true }

/-- Channels whose descriptors the core owns (R500). -/
def coreOwns (c : Nat) : Bool := [0, 1, 9, 14, 15].contains c

/-- Descriptors of the core are abandoned and their rings emptied (R508); working SRAM is wiped (R518). -/
def Bulk.dropCore (b : Bulk) : Bulk :=
  { b with rings := b.rings.mapIdx (fun c r => if coreOwns c then [] else r), waiting := b.waiting.filter (fun p => !coreOwns p.chan)
           buffer := b.buffer.filter (fun x => !coreOwns x.chan), diag := none, sram := [] }

/-- A channel has a descriptor in its ring or in wait. -/
def Bulk.holds (b : Bulk) (c : Nat) : Bool := !(b.rings.getD c []).isEmpty || b.waiting.any (fun p => p.chan = c)

/-- The chunk staged last does not count (R508). -/
def Fw.unstage (f : Fw) : Fw :=
  match f.chunk with
  | some c => { f.setSlot (!f.runB) { f.slot (!f.runB) with staged := c.1 } with chunk := none }
  | none => f

/-- What every core reset clears. Hardware goes on, store writes among it; jobs of the core end ABANDONED. -/
def Hw.coreClear (h : Hw) : Hw :=
  let h := h.lockConfig.wipeRelay
  let hasJob := fun (n : Option Nat) => n.any (fun n => h.proto.jobs.any (fun j => j.num = n && j.byCore))
  { h with
    proto := { h.proto with
      a := h.proto.a.coreCleared
      v := h.proto.v.coreCleared
      jobs := h.proto.jobs.map (fun j => if j.byCore && j.state == .running then { j with state := .abandoned } else j) }
    seq := { h.seq with
      clearTest := h.seq.clearTest.map (fun _ => none)
      service := if hasJob h.seq.service.job then { h.seq.service with job := none } else h.seq.service }
    faults := { h.faults with inject := List.replicate 15 (0, false), arming := [] }
    store := { h.store with staging := [] }
    bulk := h.bulk.dropCore
    fw := if h.bulk.holds 14 then h.fw.unstage else h.fw
    lodge := { h.lodge with checked := false }
    life := { h.life with retireBoot := 0 < h.life.retireLeft }
    rst := { h.rst with coreReq := none, fwReset := false } }

/-- Three core resets within 60 s (R481). -/
def Hw.countReset (h : Hw) : Hw :=
  let recent := h.rst.history.filter (fun t => h.clk ≤ t + 60000000)
  { h with rst := { h.rst with history := recent ++ [h.clk] } }

/-- The core starts after a core reset. In LIMP it leaves the ROM monitor by the reset that follows FW_ACTIVATE alone (R485). -/
def Hw.coreBoot (h : Hw) (activation : Bool) : Hw :=
  if h.inLimp then
    let h := h.lodgeCheck
    match if activation then h.bootFw else none with
    | some f =>
      let h : Hw := { h with fw := f, rst := { h.rst with cause := if f.trialRun then 0x0B else h.rst.cause } }
      h.leaveLimp
    | none => { h with fw := { h.fw with activatePending := false, trialRun := false } }
  else
    let h := (if activation then h else h.countReset).lodgeCheck
    if 3 ≤ h.rst.history.length && !activation then
      ({ h with fw := { h.fw with activatePending := false, trialRun := false } }).limpEntry
    else h.startCore

/-- A program or an erase is in progress (R464): a log record that waits for those before it, or for an erased entry, has not
begun. -/
def Hw.flashBusy (h : Hw) : Bool :=
  h.store.erase.isSome || h.log.reclaiming || !h.store.proving.isEmpty || !h.store.erased.isEmpty || h.fw.programming ||
    0 < h.life.retireLeft ||
    (match h.store.queue with
     | w :: _ => !(w.isLog && w.phase = 0 && (h.log.erased = 0 || h.sessionsDue))
     | [] => false)

/-- CORE_RESET_EXECUTE (R464, R486): at the flash safe point, the end of the program or erase in progress. -/
def execCoreResetExecute (s : State) : Out := s.upd fun h =>
  match h.rst.coreReq with
  | some cause =>
    if h.ins.mainOn && h.ins.booted && h.pwr.commit.isNone && (!h.flashBusy || h.rst.safe) && !h.fw.programming then
      let activation := h.fw.activatePending
      let h := h.coreClear
      let h : Hw := { h with rst := { h.rst with cause := cause } }
      (h.coreBoot activation).raiseIf (cause = 5) 47
    else h
  | none => h

/-- CORE_WATCHDOG_EXPIRY (R464). -/
def execCoreWatchdogExpiry (s : State) : Out := s.upd fun h =>
  if h.ins.mainOn && h.ins.booted && h.pwr.commit.isNone then h.askCoreReset 0x05 else h

/-- FW_ACTIVATE_RESET (R446). -/
def execFwActivateReset (s : State) : Out := s.upd fun h =>
  if h.rst.fwReset && h.pwr.commit.isNone then
    ({ h with rst := { h.rst with fwReset := false } }).askCoreReset 0x0B
  else h

/-- TRIAL_CONFIRM (R532): CONFIRM is programmed and the anti-rollback count raised to the image's security version. -/
def execTrialConfirm (s : State) : Out := s.upd fun h =>
  if h.fw.trialRun && h.ins.booted && !h.inLimp && h.rst.coreReq.isNone then
    let f := h.fw
    let x := f.slot f.runB
    { h with fw := { f.setSlot f.runB { x with confirm := true } with rollback := max f.rollback x.secVersion, trialRun := false } }
  else h

end Sys2Proof.Machine
end

