-- ==== Sys2Proof/Machine/Lodge.lean ====
section
/-! DEFINITION. The Lodge: supply and gatehouse lock, trim windows, alarms, calendar, time steps (R229, R230, R367–R384). -/

namespace Sys2Proof.Machine

/-! ## Supply and lock (R367–R370) -/

/-- The next source while the main-derived supply is away (R367). -/
def Hw.spareSupply (h : Hw) : LodgeSupply :=
  if h.holdup && h.ins.vbatSwitch != .opened && 5000 < h.pwr.vbat then .vbat else .vkeep

/-- GATEHOUSE_LOCK_CLOSE (R368). -/
def execGatehouseLockClose (s : State) : Out := s.upd fun h =>
  { h with lodge := { h.lodge with lock := true, supply := h.spareSupply } }

/-- LODGE_SUPPLY_RETURN (R369). -/
def execLodgeSupplyReturn (s : State) : Out := s.upd fun h => { h with lodge := { h.lodge with supply := .main } }

/-- GATEHOUSE_LOCK_OPEN (R369, R371): the Lodge is on MAIN and the main domain has been out of reset for 10 ms; LODGE_RESET is
read. -/
def execGatehouseLockOpen (s : State) : Out := s.upd fun h =>
  if h.ins.mainOn && !h.lines.rstLow && h.lodge.supply == .main then ({ h with lodge := { h.lodge with lock := false } }).lodgeCheck else h

/-- LODGE_SUPPLY_MOVE (R367, R368): with the main supply absent the Lodge moves between VBAT and VKEEP. -/
def execLodgeSupplyMove (s : State) : Out := s.upd fun h =>
  let next : LodgeSupply := match h.lodge.supply with
    | .main => .main
    | .vbat => .vkeep
    | .vkeep => if h.holdup && h.ins.vbatSwitch != .opened then .vbat else .vkeep
  { h with lodge := { h.lodge with supply := next } }

/-- LODGE_RESET (R370): every Lodge register takes its default. -/
def execLodgeReset (s : State) : Out := s.upd fun h =>
  { h with lodge := { Hw.reset.lodge with windowAt := h.clk, lock := h.lodge.lock, supply := h.lodge.supply, checked := h.lodge.checked,
                                          timeSet := h.lodge.timeSet, leadStep := h.lodge.leadStep } }

/-! ## Trim (R372, R373) -/

/-- Band of a temperature in 0.01 °C. -/
def bandOf (t : Int) : Nat := if t < -4000 then 0 else min 7 ((t + 4000) / 1600).toNat

/-- The temperature lies 1 °C inside a band; the outer bands have no outer edge. -/
def insideBand (t : Int) (b : Nat) : Bool :=
  (b == 0 || -4000 + 1600 * (b : Int) + 100 ≤ t) && (b == 7 || t ≤ -2400 + 1600 * (b : Int) - 100)

/-- The band for the next window: TS0 as last converted; with the main domain off the last one stays. -/
def Hw.bandNow (h : Hw) : Nat :=
  let r := h.result 44
  let b := bandOf r.value
  if h.ins.mainOn && r.slice != 3 && insideBand r.value b then b else h.lodge.bandSel

def clampTrim (n : Int) : Int := max (-511) (min 511 n)

/-- A window: 64 s (R372). -/
def windowUs : Nat := 64000000

/-- TRIM_WINDOW (R372–R374): the window in progress has ended, the next one begins on its boundary. -/
def execTrimWindow (s : State) : Out := s.upd fun h =>
  let h := h.reach (h.lodge.windowAt + windowUs)
  let b := h.bandNow
  let at_ := h.clk - (h.clk - h.lodge.windowAt) % windowUs
  { h with lodge := { h.lodge with windowAt := at_, bandSel := b, n := clampTrim (h.lodge.trim + h.lodge.band.getD b 0) } }

/-! ## Alarms and steps of the time (R381–R384, R292) -/

/-- The event of alarm i; while only the Lodge is alive it waits for the next boot (R382). -/
def Hw.raiseAlarm (h : Hw) (i : Nat) : Hw :=
  if h.ins.mainOn || h.seq.state == .standby then h.raise (40 + i)
  else { h with lodge := { h.lodge with alarms := h.lodge.alarms.modify i (fun a => { a with toRaise := true }) } }

/-- Alarm i fires (R382); it wakes the module from STANDBY where WAKE bit 1 is set (R516). -/
def Hw.fireAlarm (h : Hw) (i : Nat) (skipped : Bool) : Hw :=
  let a := h.lodge.alarms.getD i Alarm.disarmed
  if a.state == .armed then
    let h : Hw := { h with lodge := { h.lodge with
      alarms := h.lodge.alarms.set i { a with state := .fired, skipped := skipped } } }
    let h := h.raiseAlarm i
    if a.wake && h.wakes && h.seq.wake.getLsbD 1 then h.exitStandby else h
  else h

/-- Microseconds until the count reaches a value. -/
def Lodge.usTo (l : Lodge) (t : Nat) : Nat :=
  let rate := 1024 * ((trimWindow : Int) + l.n).toNat
  if rate = 0 then 0 else ((t - l.ticks) * tickUnit - l.frac + rate - 1) / rate

/-- Time passes until the count is at least a value. -/
def Hw.reachTick (h : Hw) (t : Nat) : Hw := if h.lodge.ticks < t then h.advance (h.lodge.usTo t) else h

/-- ALARM_FIRE (R382). -/
def execAlarmFire (a : Fin 2) (s : State) : Out := s.upd fun h =>
  let x := h.lodge.alarms.getD a Alarm.disarmed
  if x.state == .armed then (h.reachTick x.time).fireAlarm a false else h

/-- The alarms meet a step of the time to a new count (R383, R384): passed over, they fire with SKIPPED; met exactly, they fire
without it. -/
def Hw.stepAlarms (h : Hw) (new : Nat) : Hw :=
  (List.range 2).foldl (fun h i =>
    let t := (h.lodge.alarms.getD i Alarm.disarmed).time
    if t ≤ new then h.fireAlarm i (t < new) else h) h

/-- Sessions that are open across a step of 1 s or more are flagged TIME_STEPPED (R292). -/
def Hw.markStepped (h : Hw) (old new : Nat) : Hw :=
  if 1024 ≤ max (new - old) (old - new) then
    { h with slots := h.slots.map (fun s => if s.open? && !s.captured then { s with flags := s.flags ||| 4 } else s) }
  else h

/-- The Lodge is written: count, status and source; a synchronised time is LAST_SYNC. -/
def Hw.stepTime (h : Hw) (new : Nat) (st : TimeStatus) (source : Nat) (sync : Bool) : Hw :=
  let h := h.markStepped h.lodge.ticks new
  let h : Hw := { h with lodge := { h.lodge with ticks := new, frac := 0, status := st, source := source
                                                 lastSync := if sync then new else h.lodge.lastSync
                                                 lastSyncSource := if sync then source else h.lodge.lastSyncSource } }
  h.stepAlarms new

/-! ## Calendar and status (R377, R378) -/

/-- Last valid value of SECONDS (R377). -/
def lastSecond : Nat := 6311433599

/-- CALENDAR_OVERFLOW (R377). -/
def execCalendarOverflow (s : State) : Out := s.upd fun h =>
  let h := h.reachTick ((lastSecond + 1) * 1024)
  ({ h with lodge := { h.lodge with status := .invalid } }).raise 43

/-- HOLDOVER (R378). -/
def execHoldover (s : State) : Out := s.upd fun h =>
  if h.lodge.status == .setSynced then
    let h := h.reachTick (h.lodge.lastSync + 604800 * 1024)
    ({ h with lodge := { h.lodge with status := .holdover } }).raise 43
  else h

/-! ## TIME_SET (R379) and copies of the lead's time (R229, R230) -/

/-- TIME_SET_APPLY (R379 item 3): a closed lock discards the write. -/
def execTimeSetApply (s : State) : Out := s.upd fun h =>
  match h.lodge.timeSet with
  | some t =>
    if t.committed then
      let new := h.timeTarget t
      let h : Hw := { h with lodge := { h.lodge with timeSet := none } }
      if h.lodge.lock then h.endJob t.job 0x32 0 (be 4 t.seq)
      else
        let h := h.stepTime new (syncStatus t.synced) 1 t.synced
        ({ h with lodge := { h.lodge with lodgeReset := false } }).endJob t.job 0 0 (be 4 t.seq)
    else h
  | none => h

/-- STATUS of a time value. -/
def statusOf (v : DWord) : TimeStatus :=
  match (v.extractLsb' 10 4).toNat with
  | 1 => .setLocal
  | 2 => .setSynced
  | 3 => .holdover
  | _ => .invalid

/-- The Lodge `us` microseconds after the count of a time value. -/
def Hw.afterLead (h : Hw) (v : DWord) (us : Nat) : Lodge := ({ h.lodge with ticks := ticksOf v.toNat, frac := 0 }).run us

/-- The Lodge takes the lead's time, `us` microseconds after its cycle boundary, and the lead's status, with set source 2. -/
def Hw.copyLead (h : Hw) (v : DWord) (us : Nat) : Hw :=
  let l := h.afterLead v us
  let h := h.stepTime l.ticks (statusOf v) 2 (statusOf v == .setSynced)
  { h with lodge := { h.lodge with frac := l.frac } }

/-- A record lost outside a last-word commit: the counter is stored (R298, R317). -/
def Hw.loseStored (h : Hw) : Hw :=
  let h := h.loseRecord
  if h.inLimp then h else h.pair 0x201 (be 4 h.recordsLost)

/-- The same with its TIME_SET record (R229, R230, R298, R313): without log space the step comes without the record, which
counts as lost; where an erase is needed it comes when the erase has ended. In LIMP the step comes without a record (R482). -/
def Hw.copyLeadRecorded (h : Hw) (v : DWord) (us : Nat) : Hw :=
  if h.inLimp then h.copyLead v us
  else if h.logSpace < 18 then (h.copyLead v us).loseStored
  else if h.logErased < 3 then
    { h with lodge := { h.lodge with leadStep := some { value := v, delay := us, since := h.clk } } }
  else
    let after := timeValue (h.afterLead v us).ticks (statusOf v) 2
    (h.enqueueLog (h.timeRecord h.now after) .none).copyLead v us

/-- Admission (R229): TIME plus the follower's own delay from the cycle boundary. A closed lock discards the write (R369). -/
def Hw.timeAtAdmission (h : Hw) (v : DWord) (delayUs : Nat) : Hw :=
  if statusOf v == .invalid || h.lodge.lock then h else h.copyLeadRecorded v delayUs

/-- The comparison of R230 between the own count at the lead's boundary and TIME: a difference of 2 ticks is stepped over, with
a record from 1 s on; a change of the lead's status is copied. -/
def Hw.compareTime (h : Hw) : Hw :=
  let v := h.prm.leadTime
  if statusOf v == .invalid || h.lodge.lock then h
  else
    let lead := ticksOf v.toNat
    let diff := max (lead - h.prm.ownTicks) (h.prm.ownTicks - lead)
    let now := h.lodge.ticks + lead - h.prm.ownTicks
    if 1024 ≤ diff then h.copyLeadRecorded (timeValue now (statusOf v) 0) 0
    else if 2 ≤ diff then h.copyLead (timeValue now (statusOf v) 0) 0
    else h

/-- A change of the lead's time status is copied (R230, R378), but not INVALID (R229). -/
def Hw.copyStatus (h : Hw) (v : DWord) : Hw :=
  let st := statusOf v
  if h.lodge.lock || st == .invalid then h
  else { h with lodge := { h.lodge with status := st, source := 2
                                        lastSync := if st == .setSynced then h.lodge.ticks else h.lodge.lastSync
                                        lastSyncSource := if st == .setSynced then 2 else h.lodge.lastSyncSource } }

end Sys2Proof.Machine
end

