-- ==== Sys2Proof/Machine/Life.lean ====
section
/-! DEFINITION. The life cycle: the wipe of R519, seal breaks, SEAL, RETIRE (R27, R288, R519–R528). -/

namespace Sys2Proof.Machine

/-! ## A life-cycle change (R517, R519) -/

/-- Values restored from a LAST_WORD just written: its counters have no residue and whole seconds, the check totals start
equal to the totalizers, and the counts of R437 start at 0. -/
def Hw.rewind (h : Hw) : Hw :=
  let a := h.adc
  { h with
    metro := { h.metro with chans := h.metro.chans.map (fun x => { x with cImp := x.imp, cExp := x.exp, disRun := 0, compared := 0,
                                                                            disagreed := 0 }) }
    adc := { a with outs := a.outs.map (fun (t : OutTelem) => { t with residue := 0 })
                    runMain := a.runMain / 1000000 * 1000000, runBatt := a.runBatt / 1000000 * 1000000 } }

/-- Every life-cycle change: the commit of R519, the wipe of retained SRAM and what comes back from the store; the capture, the job
table, the unlock and the injections are gone. The job that makes the change (SEAL, RETIRE) ends after it and is written anew
(DEDUCED, log 41). The wipe is a FILL with 0 on channel 12 (R504), at its end here (DESIGN CHOICE, log 68). -/
def Hw.lifeChange (h : Hw) : Hw :=
  let h := (h.pair 0x300 h.lastWordPayload).faultRecord none
  let h := (((h.rewind).restoreGauge).rebuildSlots).lockConfig
  { h with
    life := { h.life with lastTransition := h.now }
    faults := { h.faults with cap := none, later := 0, inject := List.replicate 15 (0, false), arming := [] }
    bulk := { h.bulk with retained := [] }
    proto := { h.proto with jobs := h.proto.jobs.filter (fun j => j.state == .running && (j.op = 0x4B || j.op = 0xA6)) } }

/-! ## Seal break (R523–R525) -/

/-- Steps 5 and 6, once the SEAL_BREAK record is in the log: the wiped key, R519. The transition was at step 1. -/
def Hw.finishBreak (h : Hw) : Hw :=
  match h.life.breaking with
  | some _ =>
    let t := h.life.lastTransition
    let h := ({ h with life := { h.life with keySlot := none, breaking := none } }).lifeChange
    { h with life := { h.life with lastTransition := t } }
  | none => h

/-- Step 4, when the sessions that the break closes have their records: the SEAL_BREAK record goes to the log, unless it is there
already (R288, R524). -/
def Hw.breakStep (h : Hw) : Hw :=
  match h.life.breaking with
  | some b =>
    if b.deferred || b.asked || h.nRes ≠ 0 || h.pwr.commit.isSome then h
    else if b.cause = 0xFF then h.finishBreak
    else
      let h := h.enqueueLog (h.breakRecord b.cause b.sessions) .breaking
      { h with life := { h.life with breaking := some { b with asked := true } } }
  | none => h

/-- Steps 1 to 3: the fuse, with which the life-cycle change ends the unlock (R418), key 0x0202 and the capture, the closes.
`cause` is the byte of the record: 1 falling edge, 2 low at the first sample. The record and the wipe wait for deferred signing
that still runs (DEDUCED, log 41). -/
def Hw.beginBreak (h : Hw) (cause : Nat) : Hw :=
  let h := ({ h with life := { h.life with breaks := h.life.breaks + 1, lastTransition := h.now } }).lockConfig
  let h := (h.pair 0x202 (be 4 h.life.breaks)).report (0xBF + cause) 0 0 0 []
  let fixed := h.slots.countP (fun (x : Slot) => x.open? && !x.closePending)
  let b : BreakSt := { cause := cause, sessions := fixed, deferred := h.log.signPending, asked := false, atBoot := false }
  let h : Hw := { h with life := { h.life with breaking := some b } }
  (h.closeAll 0x06 0).breakStep

/-- A seal break that waited is processed once the boot is complete and deferred signing has finished (R286). -/
def Hw.breakAtBoot (h : Hw) : Hw :=
  match h.life.breakDue with
  | some c =>
    if h.log.signPending || !h.ins.booted then h
    else
      let h : Hw := { h with life := { h.life with breakDue := none } }
      if h.sealed then h.wake.beginBreak c else h
  | none => h

/-! ## SEAL (R522) -/

/-- The record of a SEAL whose job has failed no longer leads to a fuse (R522). -/
def Purpose.kept : Purpose → Purpose
  | .sealing _ => .none
  | p => p

/-- Key 0x0120: the public keys by generation (R294). -/
def keysPayload (ks : List (Nat × List Byte)) : List Byte := ks.flatMap (fun k => be 4 k.1 ++ k.2)

/-- Steps 1 to 3 of SEAL, with the key pair of the new generation (log 11): the statement goes to the log. -/
def Hw.beginSeal (h : Hw) (job : Nat) : Hw :=
  let gen := h.life.keyGen + 1
  let pub := publicKey gen
  let h := h.pairFor 0x203 (be 4 gen) (some job)
  let h : Hw := { h with life := { h.life with keySlot := some gen, keyGen := gen, pubKeys := h.life.pubKeys ++ [(gen, pub)] } }
  let h := h.pairFor 0x120 (keysPayload h.life.pubKeys) (some job)
  h.enqueueLog (h.sealRecord gen pub) (.sealing job)

/-- Step 4 of SEAL, when the statement is in the log under a number: DIVERGE clears, the fuse, R519. -/
def Hw.finishSeal (h : Hw) (job seq : Nat) : Hw :=
  let h := (List.range 8).foldl (fun h c => h.clearCause c 1) h
  (({ h with life := { h.life with seals := h.life.seals + 1 } }).lifeChange).endJob job 0 0 (be 4 h.life.keyGen ++ be 4 seq)

/-- A SEAL waits for its SEAL_STATEMENT record. -/
def Purpose.isSealing : Purpose → Bool
  | .sealing _ => true
  | _ => false

def Hw.sealing (h : Hw) : Bool :=
  h.store.queue.any (fun w => w.purpose.isSealing) || h.log.waiting.any (fun w => w.purpose.isSealing)

/-- A job is that of a SEAL whose statement is on its way. -/
def Hw.sealJob (h : Hw) (n : Nat) : Bool :=
  h.store.queue.any (fun w => w.purpose == .sealing n) || h.log.waiting.any (fun w => w.purpose == .sealing n)

/-- A SEAL is given up: a statement that has not begun is dropped, one that has leads to no fuse. -/
def Hw.dropSeal (h : Hw) : Hw :=
  let keep := fun (w : StoreWrite) => !(w.purpose.isSealing && w.phase = 0)
  let plain := fun (w : StoreWrite) => ({ w with purpose := w.purpose.kept } : StoreWrite)
  { h with
    store := { h.store with queue := (h.store.queue.filter keep).map plain }
    log := { h.log with waiting := h.log.waiting.filter (fun w => !w.purpose.isSealing) } }

/-- CALENn goes low before a SEAL has come to its fuse (R534): its job ends ABANDONED and the new key slot is wiped. A statement
that has not begun is given up, one that has leads to no fuse. -/
def Hw.abandonSeal (h : Hw) : Hw :=
  if h.sealing then
    let h := h.dropSeal
    ({ h with life := { h.life with keySlot := none } }).abandonJobs [0x4B]
  else h

/-- SEAL_BREAK (R27, R286, R457, R523): outside SEALED the contact changes its level, and the falling one
ends a SEAL in progress (R534). -/
def execSealBreak (sample : CalenSample) (s : State) : Out := s.upd fun h =>
  if !h.unheld || h.pwr.commit.isSome then h
  else match sample with
  | .rises => { h with lines := { h.lines with calenLow := false } }
  | .falls =>
    if h.lines.calenLow then h
    else
      let h : Hw := { h with lines := { h.lines with calenLow := true } }
      if !h.sealed then h.abandonSeal
      else if h.ins.booted then h.wake.beginBreak 1
      else { h with life := { h.life with breakDue := h.life.breakDue.orElse (fun _ => some 1) } }
  | .lowAtFirstSample =>
    let h : Hw := { h with lines := { h.lines with calenLow := true } }
    if h.sealed then ({ h with life := { h.life with breakDue := some 2 } }).breakAtBoot else h

/-! ## RETIRE (R526, R527) -/

/-- The retirement record, 320 bytes. -/
def Hw.retirementRecord (h : Hw) (force : Bool) : List Byte :=
  let mask := (List.range 8).foldl (fun a c => a + 2 ^ c * b2n (h.metering && (h.chan c).enabled)) 0
  let totals := if h.metering then
      (List.range 8).flatMap (fun c => be 8 ((h.chan c).imp / 2 ^ 32) ++ be 8 ((h.chan c).exp / 2 ^ 32))
    else zeros 128
  let b := be 1 7 ++ [1] ++ be 2 0x140 ++ be 4 0 ++ be 2 0xFFFF ++ be 2 mask ++ be 8 h.now.toNat ++ be 4 h.log.lastSeq ++
    be 4 h.ackSeq ++ be 1 (b2n force) ++ zeros 3 ++ totals ++ be 4 h.life.breaks ++
    be 4 (if h.metering then h.life.keyGen else 0) ++ be 4 h.romVersion ++ be 8 h.factory.serial.toNat ++
    be 4 h.recordsLost ++ zeros 68
  let b := b ++ be 4 (crc32 b).toNat
  b ++ sign 0 b

/-- Steps 1 to 3, the life-cycle change of R519, and the start of step 4: nothing else that the store was to do goes on. -/
def Hw.beginRetire (h : Hw) (force : Bool) : Hw :=
  let job := h.proto.lastJob
  let h := ({ h with life := { h.life with retirement := h.retirementRecord force, retired := true, keySlot := none } }).lifeChange
  { h with
    life := { h.life with retireLeft := retireSectors, retireJob := some job, retireBoot := false, breaking := none, breakDue := none }
    store := { h.store with queue := [], erase := none, proving := [], erased := [] }
    metro := { h.metro with calJob := none }
    lodge := { h.lodge with timeSet := none, leadStep := none }
    gauge := { h.gauge with tableJob := none }
    log := { h.log with reclaiming := false, waiting := [] } }

/-- A ring whose sectors have all been erased once more (R304, R526). -/
def RingSt.wiped (r : RingSt) : RingSt :=
  let used := (r.secs.filter (fun s => !s.worn)).map (·.erases)
  { secs := [], blank := (r.blank ++ used).map (· + 1) ++ List.replicate r.torn 1, torn := 0 }

/-- The log's ring likewise. -/
def Log.wiped (l : Log) : Log :=
  let size := l.size - 16 * l.worn.length
  { Hw.reset.log with size := size, erased := size, counts := (List.range (size / 16)).map (fun q => (q, l.count q + 1)) }

/-- The end of step 4: nothing is left in the store, retained SRAM is wiped by FILL (R504). -/
def Hw.finishRetire (h : Hw) : Hw :=
  let h := h.endJob? h.life.retireJob 0 0 []
  let s := h.store
  { h with
    store := { Hw.reset.store with config := s.config.wiped, half0 := s.half0.wiped, half1 := s.half1.wiped, fault := s.fault.wiped
                                   retiredSecs := s.retiredSecs, spare := s.spare, estimated := s.estimated }
    log := h.log.wiped
    bulk := { h.bulk with retained := [] }
    slots := Hw.reset.slots
    ackSeq := 0, recordsLost := 0
    metro := { h.metro with chans := h.metro.chans.map (fun x => { x with imp := 0, exp := 0, cImp := 0, cExp := 0, disRun := 0, compared := 0,
                                                                            disagreed := 0 }) }
    adc := { h.adc with outs := h.adc.outs.map (fun (t : OutTelem) => { t with energy := 0, residue := 0 }), runMain := 0, runBatt := 0 }
    gauge := { Hw.reset.gauge with fcc := h.image.designCap }
    faults := { h.faults with cap := none, later := 0, queue := [], log := [], lastEntry := 0, inject := List.replicate 15 (0, false), arming := [] }
    fw := { h.fw with slotA := FwSlot.erased, slotB := FwSlot.erased, stagedValid := false, programming := false }
    proto := { h.proto with jobs := h.proto.jobs.filter (fun j => j.op = 0xA6) }
    life := { h.life with pubKeys := [], retireJob := none } }

end Sys2Proof.Machine
end

