-- ==== Sys2Proof/Machine/Scrub.lean ====
section
/-! DEFINITION. What an error in SRAM does, as the scrub finds it (R326, R468, R469). -/

namespace Sys2Proof.Machine

/-- DETAIL of sources 0x12 and 0x13. -/
def wordDetail (inj : Bool) (w : SramWord) : List Byte :=
  injected inj ++ (match w with
    | .other => [0, 0, 0]
    | .totalizer c d => [1] ++ be 1 (c + 1) ++ be 1 (b2n d)
    | .slot n _ => [2] ++ be 1 n ++ [0]
    | .gauge => [3, 0, 0]
    | .capture => [4, 0, 0]
    | .jobTable => [5, 0, 0])

def Hw.holdChans (h : Hw) (cs : List Nat) : Hw :=
  if h.metering then cs.foldl (fun h c => h.enterHold c 2 false) h else h

/-- Hardware consequences of an uncorrectable error in retained SRAM (R469). -/
def Hw.wordLost (h : Hw) (w : SramWord) : Hw :=
  match w with
  | .totalizer c _ => h.holdChans [c.val]
  | .slot n holdsMask =>
    h.holdChans (if holdsMask then (List.range 8).filter (fun c => (h.chan c).enabled) else maskChans (h.slot n).mask)
  | .gauge =>
    let a := h.readKey 5 0x401
    let g := match a.2 with | .value r => a.1.gauge.load r.payload a.1.clk | _ => a.1.gauge
    { a.1 with gauge := { g with u := 100000000 } }
  | .other | .capture | .jobTable => h

/-- One error that the scrub finds. -/
def Hw.eccFound (h : Hw) (f : EccFinding) (inj : Bool) : Hw :=
  if f.retained then
    let src := if f.uncorrectable then 0x13 else 0x12
    let h : Hw := if f.uncorrectable && f.word == .capture then { h with faults := { h.faults with cap := none, later := 0 } } else h
    let h := h.report src (f.offset % 0x10000) 0 0 (wordDetail inj f.word)
    if f.uncorrectable then h.wordLost f.word else h
  else (if f.uncorrectable then h.abandonCore else h).report (if f.uncorrectable then 0x11 else 0x10) (f.offset % 0x80000) 0 0 (injected inj)

end Sys2Proof.Machine
end

