-- ==== Sys2Proof/Machine/Insertion.lean ====
section
/-! DEFINITION. The commands of insertion, removal and the input path (R15, R31–R45, R61, R80, R81, R335–R345, R361–R363,
R549). -/

namespace Sys2Proof.Machine

/-! ## Insertion (R31–R37) -/

/-- The holdup pack is connected to the Lodge path, in the variants that have one (R31). -/
def Hw.lodgePath (h : Hw) : VbatSwitch := if h.holdup then .lodgeOnly else .opened

/-- SEATING_CONFIRMED (R15, R37, R42): WAIT_VIN; a reseated module does a main-domain POR with cause RESEAT, and an arming of
Icehouse ends with it (R363). Icehouse itself is left with VIN only: a module that was removed standing in it reads ICEHOUSE
(DESIGN CHOICE, log 73). The detector takes its supply from VIN where there is no pack (R17). -/
def execSeatingConfirmed (s : State) : Out := s.upd fun h =>
  match h.ins.state with
  | .unseated | .removed =>
    { h with
      ins := { h.ins with state := .waitVin, presA := true, presB := true, fails := 0, holdoff := false,
                          vbatSwitch := if h.pwr.icehouse then .opened else h.lodgePath,
                          porCause := if h.ins.state == .removed then 6 else h.ins.porCause }
      pwr := { h.pwr with icehouseArmed := false, vinHere := !h.holdup || h.pwr.battAbsent } }
  | _ => h

/-- STRAP_SAMPLE (R22–R24): once, between the release of a POR or RSTn and the end of the boot. -/
def execStrapSample (addr : BitVec 2) (idx : BitVec 4) (lead : Bool) (s : State) : Out := s.upd fun h =>
  if h.unheld && !h.ins.booted && !h.ins.strapsDone && (h.ins.porCause != 0 || h.rst.cause == 2) then
    { h with straps := { addr := addr, idx := idx, lead := lead }, ins := { h.ins with strapsDone := true } }
  else h

/-- The exit from Icehouse (R363): VBAT is connected again, the POR that follows reads ICEHOUSE, also where the module has been
reseated in Icehouse, for which R42 names RESEAT (DESIGN CHOICE, log 73). -/
def Hw.leaveIcehouse (h : Hw) : Hw :=
  if h.pwr.icehouse then
    { h with pwr := { h.pwr with icehouse := false }
             ins := { h.ins with vbatSwitch := h.lodgePath, porCause := 8 } }
  else h

/-- INPUT_PRECHARGE_START (R31). -/
def execInputPrechargeStart (s : State) : Out := s.upd fun h =>
  if h.ins.state == .waitVin && !h.ins.holdoff then
    let h := h.leaveIcehouse
    { h with ins := { h.ins with state := .inputPrecharge, path33 := true }, pwr := { h.pwr with vinHere := true } }
  else h

/-- The main domain powers up with a POR (R34, R513): what POR clears is cleared, the boot starts. -/
def Hw.mainUp (h : Hw) : Hw :=
  let h : Hw := { h with
    ins := { h.ins with state := .storeCharge, inputSwitch := true, path33 := false, fails := 0, mainOn := true,
                        booted := false, storeReady := false, strapsDone := false,
                        vbatSwitch := if h.holdup then .closed else .opened }
    pwr := { h.pwr with vinUsable := true }
    rst := { h.rst with cause := h.ins.porCause } }
  (((h.porClear).applyImage).startMetro true).startAdc

/-- INPUT_SWITCH_CLOSE (R32, R37), and on the return to VIN (R342 step 1). -/
def execInputSwitchClose (s : State) : Out := s.upd fun h =>
  if h.ins.state == .inputPrecharge then h.mainUp
  else if h.pwr.ret == .precharge then
    { h with ins := { h.ins with inputSwitch := true, path33 := false, fails := 0 }
             pwr := { h.pwr with ret := .balance } }
  else h

/-- INPUT_PRECHARGE_TIMEOUT (R32): a hold-off, or INPUT_FAULT with every switch open at the third failure in a row. On the
return to VIN the count of R341 restarts too; a third failure there leaves the state as R37 lists no transition, and no further
attempt begins (R342; DESIGN CHOICE, log 61). -/
def execInputPrechargeTimeout (s : State) : Out := s.upd fun h =>
  if h.ins.state == .inputPrecharge then
    if 2 ≤ h.ins.fails then
      { h with ins := { h.ins with state := .inputFault, path33 := false, inputSwitch := false, vbatSwitch := .opened,
                                   fails := h.ins.fails + 1 } }
    else { h with ins := { h.ins with state := .waitVin, path33 := false, holdoff := true, fails := h.ins.fails + 1 } }
  else if h.pwr.ret == .precharge then
    { h with ins := { h.ins with path33 := false, holdoff := true, fails := h.ins.fails + 1 }, pwr := { h.pwr with ret := .counting } }
  else h

/-- The pre-charge of the return starts (R342 step 1): the limit of R32 on attempts holds there too. -/
def Hw.returnPrecharge (h : Hw) : Hw :=
  if h.ins.fails < 3 then { h with ins := { h.ins with path33 := true }, pwr := { h.pwr with ret := .precharge } } else h

/-- PRECHARGE_HOLDOFF_END (R32): a return whose count has ended meanwhile goes on with its pre-charge (R342). -/
def execPrechargeHoldoffEnd (s : State) : Out := s.upd fun h =>
  let h : Hw := { h with ins := { h.ins with holdoff := false } }
  if h.pwr.onBattery && h.pwr.ret == .held && h.pwr.commit.isNone then h.returnPrecharge else h

/-! ## The power path (R61, R80, R337–R345, R515, R549) -/

/-- VH outputs go off and EP ports to HELD; a VH output that was enabled, and not shed, starts again with VIN (R80, R81). -/
def Hw.vinOutputsOff (h : Hw) : Hw :=
  let h := [10, 11, 12, 13, 14, 15, 16, 17].foldl (fun h k => h.turnOff .battery k) h
  let f := fun (k : Nat) (o : Output) => if isVh k then { o with battOff := o.enabled && !o.shed } else o
  ({ h with outs := h.outs.mapIdx f, pwr := { h.pwr with vhWait := [none, none] } }).evalPgood

/-- The main domain is off and the module waits for VIN (R343, R344, R362, R515). -/
def Hw.toWaitVin (h : Hw) (cause : Nat) : Hw :=
  let ice := h.pwr.icehouseArmed
  let h := h.mainOff
  { h with
    ins := { h.ins with state := .waitVin, porCause := if ice then 8 else cause,
                        vbatSwitch := if ice then .opened else h.lodgePath }
    pwr := { h.pwr with vinUsable := false, icehouse := ice } }

/-- VIN_LOSS or loss of the pack without another supply: the fault and, in the same instant, the last-word commit (R343,
R344). Before STORE_READY no commit runs: a store write in progress ends under R329 items 1 and 2 (R549). -/
def Hw.lossFault (h : Hw) (trigger cause : Nat) : Hw :=
  let h := h.vinOutputsOff.chgOff
  let go := h.commits
  let h := h.railFault 8 0x65 0xFF [] false
  if go then h.lastWord trigger else ((h.cutErase).cutWrites).toWaitVin cause

/-- Detection of unusable VIN with a usable pack: the hand-over has started and always completes (R339). -/
def Hw.startHandOver (h : Hw) : Hw :=
  let h := (({ h with pwr := { h.pwr with handingOver := true } }).vinOutputsOff).chgOff
  h

/-- An excursion of VIN on battery: the count of R341 restarts and a return in progress is aborted (R342). Where the ramp of
step 3 had come to is not known: VIB stands at a free value of 10–15 V, from where it ramps back to 12.0 V. -/
def Hw.excursion (h : Hw) : Hw :=
  if h.pwr.onBattery && h.pwr.ret != .idle then
    let ramp := h.pwr.ret == .ramp
    let v := 10000 + Config.freeNat h.free % 5001
    let h : Hw := { h with ins := { h.ins with path33 := false }, pwr := { h.pwr with ret := .counting } }
    if ramp then { h.draw with pwr := { h.pwr with vibFrom := v, vibAt := h.clk } } else h
  else h

/-- Loss of VIN in READY: the charger turns off (R348). The commit at STANDBY entry does not keep the pack from taking over; any other commit runs to its
end on what it has (R328). -/
def Hw.vinLost (h : Hw) : Hw :=
  let usable := h.packUsable
  let was := h.pwr.vinUsable
  let h : Hw := { h.chgOff with pwr := { h.pwr with vinUsable := false } }
  let entering := h.pwr.commit == some 4
  if h.pwr.handingOver then h
  else if h.pwr.onBattery then h.excursion
  else if !was then h
  else if usable && (h.pwr.commit.isNone || entering) then h.startHandOver
  else if h.pwr.commit.isSome then h
  else if h.seq.state == .standby then h.toWaitVin 7
  else h.lossFault 1 7

/-- The reset cause kept by an insertion that VIN cut short (DEDUCED, log 23): that of the POR it belongs to. -/
def Hw.abortedCause (h : Hw) : Nat :=
  if h.ins.porCause != 0 then h.ins.porCause
  else if [1, 6, 7, 8, 0x0C].contains h.rst.cause then h.rst.cause else 1

/-- VIN is found unusable (R37, R61, R362): before READY a store write in progress ends under R329, with no commit (R549). -/
def Hw.vinFailed (h : Hw) : Hw :=
  match h.ins.state with
  | .inputPrecharge | .storeCharge => ((h.cutErase).cutWrites).toWaitVin h.abortedCause
  | .ready => h.vinLost
  | _ => { h with pwr := { h.pwr with vinUsable := false } }

/-- VIN held unusable by FOLLY_FORCE is found while the main domain is powered (R479). -/
def Hw.forcedVin (h : Hw) : Hw :=
  if h.faults.forces.contains 0x42 && (h.ins.state == .storeCharge || h.ins.state == .ready) then h.vinFailed else h

/-- STORE_READY (R33, R35–R37): READY finds a VIN that Folly holds unusable (R479). -/
def execStoreReady (s : State) : Out := s.upd fun h =>
  if h.ins.mainOn && !h.ins.storeReady then
    let h : Hw := { h with ins := { h.ins with
      storeReady := true, state := if h.ins.state == .storeCharge && h.ins.booted then .ready else h.ins.state } }
    h.autostart.tryPend.forced.forcedVin
  else h

/-! ## The end of a boot -/

/-- What the boot after a POR does beyond the boot after another reset: the values come back from the store (R513). -/
def Hw.bootPor (h : Hw) : Hw :=
  let h : Hw := { h with rst := { h.rst with cause := h.ins.porCause }, ins := { h.ins with porCause := 0 } }
  h.restore

/-- The scrub of all of retained SRAM at a STANDBY exit, before its first use (R516). -/
def Hw.exitScrub (h : Hw) (fs : List EccFinding) : Hw :=
  if h.ins.scrubDue then
    let h : Hw := { h with ins := { h.ins with scrubDue := false } }
    (fs.filter (·.retained)).foldl (fun h f => h.eccFound f false) h
  else h

/-- BOOT_COMPLETE (R34, R513, R516): the boot after a POR (`porCause` is not 0), RSTn, MODULE_RESTART or a STANDBY exit. It
does not end before the gatehouse lock is open (R369) nor while RSTn is low (R512). -/
def execBootComplete (b : BootSample) (s : State) : Out := s.upd fun h =>
  if !h.ins.mainOn || h.ins.booted || h.lines.rstLow || h.lodge.lock || h.pwr.commit.isSome || h.gone then h
  else
    let por := h.ins.porCause != 0
    let h := ((h.exitScrub b.scrub).mendSectors).marginRead b.weak
    let rstn := !por && h.rst.cause == 2
    let mr := !por && h.rst.cause == 3
    let h := if por || rstn || mr then (h.loadImage).loadWdt mr else h
    let h := if por then h.bootPor else if (rstn || mr) && h.metering then h.restoreHolds else h
    let h := if h.metering then h.loadAllCal else h
    let h := if por || rstn then (h.retest b).startLink else h
    let h := h.calibrate b (por || rstn)
    let h := if mr then h else h.startThermal b.temps
    let h := (((h.lodgeCheck).syncBreaks).resumeBreak).signAtBoot
    (((h.halve.startCore).served).forcedVin).breakAtBoot

/-! ## The commands of the power path -/

/-- VIN_UNUSABLE (R37, R61, R362): VIN measured below 32 V, or above 62 V for 5 µs; any other VIN is no such event. Above the
absolute maximum of 80 V no figure of the manual holds (R536; DESIGN CHOICE, log 52). -/
def execVinUnusable (mv : Nat) (s : State) : Out :=
  if 80000 < mv then .fault .beyondAbsoluteMaximum
  else s.upd fun h =>
    if 32000 ≤ mv && mv ≤ 62000 then h
    else
      let backup := h.pwr.onBattery || h.pwr.handingOver || h.ins.state != .ready
      let h : Hw := { h with pwr := { h.pwr with vinHere := mv != 0, vibFrom := if backup then h.pwr.vibFrom else mv / 4 } }
      h.vinFailed

/-- The module acts as in R343 for a loss of supply; in STANDBY no commit runs (R515), and one that runs goes on to its end
(R328). -/
def Hw.supplyLost (h : Hw) (trigger cause : Nat) : Hw :=
  if h.pwr.commit.isSome || h.leaving || h.gone && h.seq.state != .standby then h
  else if h.seq.state == .standby then h.toWaitVin cause
  else h.lossFault trigger cause

/-- The pack is lost: on battery R344; while the hand-over is in progress it was not usable at detection, which is a loss of VIN
(R366). -/
def Hw.packLost (h : Hw) : Hw :=
  if h.pwr.handingOver then ({ h with pwr := { h.pwr with handingOver := false } }).supplyLost 1 7
  else if h.pwr.onBattery then ({ h with pwr := { h.pwr with packSpent := true } }).supplyLost 2 0x0C
  else h

/-- HAND_OVER (R339): ON_BATTERY is 1 from here; the count of R341 starts when VIN is back in its band. -/
def execHandOver (s : State) : Out := s.upd fun h =>
  if h.pwr.handingOver then
    let h : Hw := { h with
      pwr := { h.pwr with handingOver := false, onBattery := true, ret := .counting, packSpent := false, vibAt := h.clk, reserveLow := false,
                          lowPackRaised := false, lowReserveRaised := false }
      slots := h.slots.map (fun s => if s.open? then { s with flags := s.flags ||| 8 } else s) }
    (((h.raise 32).unskip 12).unskip 13).evalPgood
  else h

/-- INPUT_SWITCH_OPEN_ON_BATTERY (R340). A return under way ends with it. -/
def execInputSwitchOpenOnBattery (s : State) : Out := s.upd fun h =>
  if h.pwr.onBattery || h.pwr.handingOver then
    ({ h with ins := { h.ins with inputSwitch := false } }).excursion
  else h

/-- VIN_EXCURSION (R341, R342). -/
def execVinExcursion (s : State) : Out := s.upd fun h => h.excursion

/-- RETURN_COUNT_COMPLETE (R341, R342 steps 1 and 2): VIN has stood in its band; the pre-charge of R32 observes its hold-off, for
whose end it waits, and its limit of attempts. A VIN that Folly holds unusable begins no return (R479). -/
def execReturnCountComplete (s : State) : Out := s.upd fun h =>
  if h.pwr.onBattery && h.pwr.ret == .counting && h.pwr.commit.isNone && !h.faults.forces.contains 0x42 then
    let h : Hw := { h with pwr := { h.pwr with vinHere := true } }
    if h.ins.inputSwitch then { h with pwr := { h.pwr with ret := .balance } }
    else if h.ins.holdoff then { h with pwr := { h.pwr with ret := .held } }
    else h.returnPrecharge
  else h

/-- RATIO_BALANCE_END (R342 step 3). -/
def execRatioBalanceEnd (s : State) : Out := s.upd fun h =>
  if h.pwr.ret == .balance then
    { h with pwr := { h.pwr with ret := .ramp, vibFrom := h.vibRef 0, vibAt := h.clk } }
  else h

/-- The states in which a VH output that was enabled starts again (R81, R193). -/
def Hw.restartsVh (h : Hw) : Bool :=
  match h.eff with
  | .seqUp | .run | .seqDown => true
  | _ => false

/-- A VH output starts on the return to VIN; the step in progress may be the one that enabled it (R185). -/
def Hw.startVh (h : Hw) (i : Nat) : Hw :=
  let h := h.startRamp (10 + i) (h.seq.active && maskHas h.stepNow.onMask (10 + i))
  { h with pwr := { h.pwr with vhWait := h.pwr.vhWait.set i (some h.clk) } }

/-- VIN_RETURN (R342 step 4, R81): VH1 starts and VH2 waits for its turn, or VH2 starts at once where it alone was enabled. None
is held off for want of VIN any more (R161). -/
def execVinReturn (s : State) : Out := s.upd fun h =>
  if h.pwr.ret == .ramp && h.pwr.onBattery then
    let h : Hw := { h with
      pwr := { h.pwr with onBattery := false, vinUsable := true, ret := .idle, reserveLow := false, lowPackRaised := false,
                          lowReserveRaised := false, packSpent := false, vhWait := [none, none], vhNext := false }
      chg := { h.chg with restartDue := h.holdup && h.ins.mainOn } }
    let h := ((h.raise 33).unskip 12).unskip 13
    let one := h.restartsVh && (h.out 10).battOff
    let two := h.restartsVh && (h.out 11).battOff
    let h : Hw := { h with outs := h.outs.map (fun o => { o with battOff := false }) }
    let h := if one then h.startVh 0 else if two then h.startVh 1 else h
    let h : Hw := { h with pwr := { h.pwr with vhNext := one && two } }
    let h := h.evalPgood.forced
    h.forcedVin
  else h

/-- VH_RESTART_STAGGER (R81). -/
def execVhRestartStagger (s : State) : Out := s.upd fun h =>
  if h.pwr.vhNext && !h.noVin && h.restartsVh && !(h.out 11).on then (h.startVh 1).forced else h

/-- VH_RESTART_TIMEOUT (R81): 100 ms after its start the output has not reached its window: the SEQ_TIMEOUT fault
(DEDUCED, log 24). -/
def execVhRestartTimeout (vh : Fin 2) (s : State) : Out := s.upd fun h =>
  let k := 10 + vh.val
  match h.pwr.vhWait.getD vh none with
  | some start =>
    let h := h.reach (start + 100000)
    let h : Hw := { h with pwr := { h.pwr with vhWait := h.pwr.vhWait.set vh none } }
    if !(h.out k).on || (h.out k).good then h
    else
      let h : Hw := { h with seq := { h.seq with toStep := h.seq.step, toDir := some .up, toUnmet := 1 <<< k, toTime := h.now } }
      (h.raise 18).railFault 5 0x70 (h.seq.step * 256) [] false
  | none => h

/-- LAST_WORD_COMMIT_END (R343, R344, R362, R514): the main domain powers off. The commit's fault log record holds the errors that
came while it ran (R486). -/
def execLastWordCommitEnd (s : State) : Out := s.upd fun h =>
  match h.pwr.commit with
  | none => h
  | some t =>
    let h := if t = 3 && h.seq.service.ready then h else h.amendFaults
    if h.ins.state == .removing then { h with pwr := { h.pwr with commit := none, commitRemoval := false } }
    else if t = 4 && h.seq.state == .standby && (h.pwr.vinUsable || h.pwr.onBattery && !h.pwr.packSpent || h.pwr.handingOver) then
      h.standbyOff
    else h.toWaitVin (if t = 2 || h.pwr.packSpent then 0x0C else 7)

/-- PACK_UNUSABLE (R344). -/
def execPackUnusable (cause : PackLoss) (s : State) : Out := s.upd fun h =>
  match cause with
  | .exhausted | .disconnected | .temperature => h.packLost

/-- BTS_OPEN (R350, R344): the pack is absent. -/
def execBtsOpen (s : State) : Out := s.upd fun h =>
  if !h.holdup || h.pwr.btsOpen then h
  else
    let was := h.pwr.battAbsent
    let h : Hw := { h with pwr := { h.pwr with battAbsent := true, btsOpen := true }
                           gauge := { h.gauge with socRef := none, foundWait := false } }
    let h : Hw := { h.chgOff with chg := { h.chgOff.chg with state :=
      if h.pwr.vinUsable && h.ins.mainOn && h.seq.state != .standby then .absent else .off } }
    (h.raiseIf (!was) 34).packLost

/-- RESERVE_LOW (R335, R345). -/
def execReserveLow (s : State) : Out := s.upd fun h =>
  if h.pwr.onBattery && !h.pwr.reserveLow then
    let first := !h.pwr.lowReserveRaised
    let h : Hw := { h with pwr := { h.pwr with reserveLow := true, lowReserveRaised := true } }
    h.raiseIf first 35
  else h

/-- HOLDUP_LOW (R345), the pack cause. -/
def execHoldupLow (s : State) : Out := s.upd fun h =>
  if h.pwr.onBattery && !h.pwr.lowPackRaised then
    ({ h with pwr := { h.pwr with lowPackRaised := true } }).raise 35
  else h

/-- ICEHOUSE_EXIT (R363). -/
def execIcehouseExit (s : State) : Out :=
  s.upd fun h => if h.ins.state == .waitVin then h.leaveIcehouse else h

/-! ## Removal (R16, R38–R42, R45, R549) -/

/-- REMOVAL_PROCEDURE (R37, R39): outputs off with discharge, switches open, HRSTn and PGOOD low, the commit with reason
REMOVAL, LEAVE due where the link runs. A service job still running is abandoned (R45). A sequence ends with its outputs off:
the state reads OFF (DESIGN CHOICE, log 55). -/
def execRemovalProcedure (s : State) : Out := s.upd fun h =>
  match h.ins.state with
  | .unseated | .removing | .removed => h
  | .inputFault => { h with ins := { h.ins with state := .unseated, presA := false, presB := false } }
  | _ =>
    let h := (h.turnOffAll .removal).govEnd
    let h := (h.endMove 3).chgOff
    let h := h.dropJob? h.seq.service.job
    let h := ((h.endJob? h.seq.job 0 1 []).endJob? h.seq.onJob 0 1 []).pgoodLow
    let links := (h.ins.booted || h.ins.mainOn && h.rst.cause = 3 && h.ins.porCause = 0) &&
      (h.prm.role == .lead || h.prm.role == .follower)
    let off := h.seq.state == .seqUp || h.seq.state == .run || h.seq.state == .seqDown
    let h : Hw := { h with
      seq := { h.seq with hrst := false, active := false, job := none, pendOn := false, onJob := none, retryWait := false,
                          retryReleased := false, standbyReq := none, clearTest := [], hostStepsDone := false,
                          service := { h.seq.service with job := none } }
      rst := { h.rst with restart := none, fwReset := false }
      prm := if links then { h.prm with leaveDue := some 1 } else h.prm
      proto := h.proto.released }
    let h := if h.commits then h.lastWord 3 else if h.pwr.commit.isNone then h.cutWrites else h
    { h with
      seq := { h.seq with state := if off then .off else h.seq.state, limpRun := false }
      ins := { h.ins with state := .removing, presA := false, presB := false, path33 := false, inputSwitch := false,
                          storeReady := false, vbatSwitch := .opened }
      pwr := { h.pwr with handingOver := false, ret := .idle } }

/-- REMOVAL_PROCEDURE_COMPLETE (R37): not before the commit has ended. -/
def execRemovalProcedureComplete (s : State) : Out := s.upd fun h =>
  if h.ins.state == .removing && h.pwr.commit.isNone then
    let h := h.mainOff
    { h with ins := { h.ins with state := .removed }, pwr := { h.pwr with vinUsable := false } }
  else h

end Sys2Proof.Machine
end

