-- ==== Sys2Proof/Machine/Promenade.lean ====
section
/-! DEFINITION. The Promenade link: frames, admission, cabinet lists, relay, lead loss (R209–R238). -/

namespace Sys2Proof.Machine

/-! ## Frames (R212–R215, R227) -/

/-- The frame of a type, a sender and a payload. -/
def prmFrame (ty src : Nat) (payload : List Byte) : List Byte :=
  let b := be 1 ty ++ be 1 src ++ be 1 payload.length ++ [0] ++ payload
  b ++ be 4 (crc32 b).toNat

/-- The module's own index (R22–R24). -/
def Hw.ownIndex (h : Hw) : Nat := h.straps.idx.toNat

/-- The link runs: lead or follower in CABINET, main domain powered, no index conflict. -/
def Hw.linkRuns (h : Hw) : Bool :=
  h.ins.mainOn && !h.prm.conflict && (h.prm.role == .lead || h.prm.role == .follower)

def frameType (f : List Byte) : Nat := (f.getD 0 0).toNat
def framePayload (f : List Byte) : List Byte := slice f 4 (f.getD 2 0).toNat

/-- A correct CRC over header and payload, at the place that LEN gives. -/
def frameCrcOk (f : List Byte) : Bool :=
  let n := (f.getD 2 0).toNat
  n ≤ 64 && f.length = n + 8 && f.drop (n + 4) == be 4 (crc32 (f.take (n + 4))).toNat

/-- TYPE permitted in a slot (R213): LEAD in slot 0 alone, where a lead's LEAVE is sent too (R234). -/
def typeAllowed (ty slot : Nat) : Bool :=
  if slot = 0 then ty = 1 || ty = 4 else ty = 2 || ty = 3 || ty = 4

def frameOk (f : List Byte) (slot : Nat) : Bool :=
  frameCrcOk f && (f.getD 1 0).toNat = slot && typeAllowed (frameType f) slot

/-! ## Relay (R226–R228, R419) -/

/-- Data bytes of a fragment. -/
def fragData : Nat := 40

/-- Fragment number i of a packet; LAST marks the last one. -/
def fragment (r : Relay) : List Byte :=
  let d := slice r.out (fragData * r.outFrag) fragData
  let last := r.out.length ≤ fragData * (r.outFrag + 1)
  be 1 (r.index + (if r.origin == .V then 16 else 0)) ++ be 1 r.rtag ++ be 1 (r.outFrag + (if last then 128 else 0)) ++
    be 1 d.length ++ d

/-- Fragments of the packet remain to be sent. -/
def Relay.sending (r : Relay) : Bool := fragData * r.outFrag < r.out.length

/-- The fragment bytes that the next own frame carries, and the relay after it. -/
def Relay.next (r : Option Relay) : List Byte × Option Relay :=
  match r with
  | some r => if r.sending then (fragment r, some { r with outFrag := r.outFrag + 1 }) else ([], some r)
  | none => ([], none)

/-- A packet in process at an address that waits to be relayed, with its order of submission. -/
def relayWaits (m : Mailbox) : Option (Nat × List Byte) :=
  match m.inProc, m.ready with
  | some p, none => if m.judged && p.2.getD 2 0 != 0 then some p else none
  | _, _ => none

/-- The next packet to relay, in order of submission across the addresses. -/
def Hw.relayPick (h : Hw) : Option (Origin × List Byte) :=
  match relayWaits h.proto.a, relayWaits h.proto.v with
  | some a, some v => if a.1 ≤ v.1 then some (.A, a.2) else some (.V, v.2)
  | some a, none => some (.A, a.2)
  | none, some v => some (.V, v.2)
  | none, none => none

/-- The lead takes up the next relay; a packet whose follower has left the roster is answered BAD_MODULE. -/
def Hw.startRelay (h : Hw) : Hw :=
  let one := fun (h : Hw) =>
    if h.prm.relay.isSome || h.prm.role != .lead || !h.serves then h
    else match h.relayPick with
    | some (o, p) =>
      let idx := (p.getD 2 0).toNat
      if idx < 16 && h.prm.roster.getLsbD idx then
        let r : Relay := { origin := o, index := idx, rtag := h.prm.relayTag, out := p, outFrag := 0, inFrag := 0,
                           inBytes := [], inDone := false }
        { h with prm := { h.prm with relay := some r, relayTag := (h.prm.relayTag + 1) % 256 } }
      else h.respond o stBadModule []
    | none => h
  one (one h)

/-- The relay in progress ends with RELAY_TIMEOUT (R228). -/
def Hw.relayTimeout (h : Hw) : Hw :=
  match h.prm.relay with
  | some r => (({ h with prm := { h.prm with relay := none } }).respond r.origin stRelayTimeout []).startRelay
  | none => h

/-- The bytes of a fragment that follow what has arrived: the relay number, the address and the fragment number agree. -/
def fragFits (r : Relay) (f : List Byte) : Bool :=
  (f.getD 0 0).toNat % 32 = r.index + (if r.origin == .V then 16 else 0) && (f.getD 1 0).toNat = r.rtag &&
    (f.getD 2 0).toNat % 128 = r.inFrag

def Relay.addFrag (r : Relay) (f : List Byte) : Relay :=
  { r with inFrag := r.inFrag + 1, inBytes := r.inBytes ++ slice f 4 (f.getD 3 0).toNat, inDone := 128 ≤ (f.getD 2 0).toNat }

/-- A reply fragment reaches the lead; the complete reply goes to the origin address unchanged (R419). -/
def Hw.replyFragment (h : Hw) (f : List Byte) : Hw :=
  match h.prm.relay with
  | some r =>
    if f.length < 5 || r.sending || !fragFits r f then h
    else
      let r := r.addFrag f
      let h : Hw := { h with prm := { h.prm with relay := some r } }
      if r.inDone then
        let h : Hw := { h with prm := { h.prm with relay := none } }
        (h.modMbx r.origin (fun m => { m with ready := some r.inBytes })).startRelay
      else h
  | none => h

/-- A request fragment for this follower wakes it (R68). A request with a missing fragment is discarded without a reply (R228),
and one whose byte 2 is not this follower's index is not accepted (R226). -/
def Hw.requestFragment (h : Hw) (f : List Byte) : Hw :=
  let peer := (f.getD 0 0).toNat
  if f.length < 5 || peer % 16 != h.ownIndex then h
  else
    let fresh : Relay := { origin := if peer.testBit 4 then .V else .A, index := h.ownIndex, rtag := (f.getD 1 0).toNat, out := [],
                           outFrag := 0, inFrag := 0, inBytes := [], inDone := false }
    let r := if (f.getD 2 0).toNat % 128 = 0 then some fresh else h.prm.relay.filter (fun r => !r.inDone && fragFits r f)
    let r := r.map (fun r => r.addFrag f)
    let r := r.filter (fun r => !r.inDone || (r.inBytes.getD 2 0).toNat = h.ownIndex)
    let h := h.wake
    { h with prm := { h.prm with relay := r } }

/-! ## Payloads -/

def Hw.leadPayload (h : Hw) (frag : List Byte) : List Byte :=
  let p := h.prm
  be 8 h.now.toNat ++ be 1 h.seq.state.code ++ be 1 p.cmd ++ be 1 (p.step + (if p.dirDown then 128 else 0)) ++ be 1 p.token ++
    be 2 p.roster.toNat ++ be 1 (b2n p.autoJoinRun) ++ [0] ++ be 4 p.cycle ++ frag

/-- DONE_STEP of R215. -/
def Hw.doneByte (h : Hw) : Nat :=
  (match h.seq.doneStep with | some n => n | none => 32) + (if h.seq.doneDown then 128 else 0)

def Hw.statusPayload (h : Hw) (frag : List Byte) : List Byte :=
  be 1 h.seq.state.code ++ be 1 h.doneByte ++
    be 1 (bits [h.seq.fltDrive, h.pwr.onBattery, h.serviceReady, h.metro.chans.any (·.held)]) ++ be 1 h.seq.cause ++
    beInt 4 h.adc.pIn ++ frag

def Hw.joinPayload (h : Hw) : List Byte := be 8 h.factory.serial.toNat ++ be 4 h.caps ++ be 1 h.seq.state.code

/-! ## The cabinet lists at the lead (R222, R223) -/

/-- The module of an entry reports LOCAL_STEP complete, or the end of its sequence. -/
def Hw.entryDone (h : Hw) (e : CabEntry) : Bool :=
  let down := h.prm.dirDown
  if e.index = 0 then
    (h.seq.doneDown == down && h.seq.doneStep.any (fun n => e.localStep ≤ n)) || h.eff == (if down then .off else .run)
  else
    let p := h.prm.peers.getD e.index Peer.none
    (p.done.testBit 7 == down && !p.done.testBit 5 && e.localStep ≤ p.done % 32) || p.state = (if down then 0 else 2)

/-! ## Members -/

def Hw.modPeer (h : Hw) (i : Nat) (f : Peer → Peer) : Hw := { h with prm := { h.prm with peers := h.prm.peers.modify i f } }

/-- A follower leaves the roster (R219): a relay to it times out and a cabinet entry that names it completes. -/
def Hw.dropFollower (h : Hw) (i : Nat) : Hw :=
  if h.prm.roster.getLsbD i then
    let h : Hw := { h with prm := { h.prm with roster := h.prm.roster &&& ~~~ ((1 : BitVec 16) <<< i), joins := h.prm.joins.filter (· != i) } }
    let h := h.raise 62
    let h := if h.prm.relay.any (fun r => r.index = i) then h.relayTimeout else h
    if h.prm.cabRunning && h.cabEntry.any (fun e => e.index = i) then (h.raise 63).cabNext else h
  else h

/-- JOINs are admitted at the cycle boundary (R217). -/
def Hw.admitJoins (h : Hw) : Hw :=
  let ok := fun (i : Nat) => h.prm.admitMask.getLsbD i
  { h with prm := { h.prm with roster := (h.prm.joins.filter ok).foldl (fun m i => m ||| (1 <<< i)) h.prm.roster, joins := [] } }

/-- CAB_CMD of the cycle: HOLD in the first ten, then CLEAR in its three cycles, otherwise as ordered (R218, R232, R233). -/
def Prm.command (p : Prm) : Nat := if p.cycle < 10 then 0 else if 0 < p.clearLeft then 3 else p.order

/-- The lead's cycle. With its LEAVE the lead gives up what it ordered: when it starts again, CAB_CMD follows its next request
alone (R218). -/
def Hw.leadCycle (h : Hw) : Hw :=
  match h.prm.leaveDue with
  | some r =>
    { h with prm := { h.prm with tx := prmFrame 4 0 (be 1 r), leaveDue := none, leadOn := false, link := .listening, roster := 0,
                                 joins := [], cabRunning := false, order := 0, clearLeft := 0 } }
  | none =>
    let h := h.admitJoins.judgeDue.startRelay
    let (frag, r) := Relay.next h.prm.relay
    let h : Hw := { h with prm := { h.prm with cmd := h.prm.command, clearLeft := h.prm.clearLeft - b2n (h.prm.command == 3), relay := r } }
    { h with prm := { h.prm with tx := prmFrame 1 0 (h.leadPayload frag), tokenSent := h.prm.token, cycle := h.prm.cycle + 1 } }

/-- The follower's slot of a cycle. -/
def Hw.followerSlot (h : Hw) : Hw :=
  match h.prm.link with
  | .active =>
    match h.prm.leaveDue with
    | some r =>
      { h with prm := { h.prm with tx := prmFrame 4 h.ownIndex (be 1 r), leaveDue := none, link := .listening, relay := none } }
    | none =>
      let send := match h.prm.relay with | some r => r.inDone && !r.out.isEmpty | none => false
      let (frag, r) := if send then Relay.next h.prm.relay else ([], h.prm.relay)
      let r := if send then r.filter Relay.sending else r
      let done := send && r.isNone
      let h : Hw := { h with prm := { h.prm with tx := prmFrame 2 h.ownIndex (h.statusPayload frag), relay := r } }
      if done then (h.arm true).tryStandby else h
  | .joining =>
    if h.prm.joinSent || h.prm.joinWait then { h with prm := { h.prm with tx := [] } }
    else { h with prm := { h.prm with tx := prmFrame 3 h.ownIndex h.joinPayload, joinSent := true } }
  | _ => { h with prm := { h.prm with tx := [], leaveDue := none } }

/-- PRM_CYCLE (R211). A module that stands in SERVICE_READY or is being removed has left the link by its LEAVE. -/
def execPrmCycle (s : State) : Out := s.upd fun h =>
  if h.linkRuns then
    if h.prm.role == .lead then (if h.prm.leadOn then h.leadCycle else { h with prm := { h.prm with tx := [] } })
    else h.followerSlot
  else { h with prm := { h.prm with tx := [] } }

/-! ## Received frames -/

/-- A discarded frame (R213, R471): TYPE in bits 15–8 and the slot in bits 7–0. PRM_ERR stays at the top of its 32 bits, where a
frame count wraps (DESIGN CHOICE, log 71). -/
def Hw.discardFrame (h : Hw) (f : List Byte) (slot : Nat) (detail : List Byte) : Hw :=
  ({ h with prm := { h.prm with err := min 0xFFFFFFFF (h.prm.err + 1) } }).report 0xB0 (frameType f * 256 + slot) 4 4 detail

/-- CAB_CMD at a follower changes from the value last acted on (R225). -/
def Hw.actOnCommand (h : Hw) : Hw :=
  let c := h.prm.cmd
  if c = h.prm.acted then h
  else
    let h : Hw := { h with prm := { h.prm with acted := c } }
    let h := if c = 0 then h else h.wake
    if c = 1 then h.onRequest none else if c = 2 then h.offRequest none else if c = 3 then h.clearFault none else h

/-- Admission at the follower (R220, R229). -/
def Hw.admitted' (h : Hw) (autoJoin : Bool) (delayUs : Nat) : Hw :=
  let h : Hw := { h with prm := { h.prm with link := .active, joinSent := false, joinWait := false, acted := h.prm.cmd } }
  let h := h.timeAtAdmission h.prm.leadTime delayUs
  if autoJoin && h.prm.leadState = 2 && h.prm.cmd = 1 then h.onRequest none else h

/-- The count of the Lodge as it stood some microseconds ago. -/
def Lodge.ago (l : Lodge) (us : Nat) : Nat :=
  (l.ticks * tickUnit + l.frac - us * (1024 * ((trimWindow : Int) + l.n).toNat)) / tickUnit

/-- The fields of a LEAD frame are taken (R214, R237); the own count is that of the cycle boundary (R230). -/
def Hw.takeLead (h : Hw) (p : List Byte) (delayUs : Nat) : Hw :=
  { h with prm := { h.prm with
      leadTime := BitVec.ofNat 64 (ube (slice p 0 8)), ownTicks := h.lodge.ago delayUs, leadState := ube (slice p 8 1)
      cmd := ube (slice p 9 1) % 4, dirDown := (ube (slice p 10 1)).testBit 7, step := ube (slice p 10 1) % 32
      token := ube (slice p 11 1), tokenSent := ube (slice p 11 1), roster := BitVec.ofNat 16 (ube (slice p 12 2)), cycle := ube (slice p 16 4) } }

/-- A valid LEAD frame at a follower. -/
def Hw.leadAtFollower (h : Hw) (p : List Byte) (delayUs : Nat) : Hw :=
  let old := h.prm.leadTime
  let h := h.takeLead p delayUs
  let mine := h.prm.roster.getLsbD h.ownIndex
  match h.prm.link with
  | .listening => h
  | .orphan => { h with prm := { h.prm with link := .listening } }
  | .joining =>
    if h.prm.joinSent then
      if mine then h.admitted' ((ube (slice p 14 1)).testBit 0) delayUs
      else { h with prm := { h.prm with joinSent := false, joinWait := true } }
    else h
  | .active =>
    if mine then
      let h := if statusOf old == statusOf h.prm.leadTime then h else h.copyStatus h.prm.leadTime
      (h.actOnCommand).requestFragment (p.drop 20)
    else { h with prm := { h.prm with link := .listening, relay := none } }

/-- The strapping LEAD = 0 with IDX = 0 in CABINET: the module transmits nothing and is a follower without a lead (R24). -/
def Hw.strapSilent (h : Hw) : Bool := h.ins.mainOn && !h.prm.conflict && h.prm.role == .silent

/-- A follower loses its lead (R234), whether it was admitted, joining or listening: everything it holds is kept. One that is
silent by its straps never has one (R24). -/
def Hw.orphan (h : Hw) : Hw :=
  if (h.prm.role == .follower || h.strapSilent) && h.prm.link != .orphan then
    ({ h with prm := { h.prm with link := .orphan, orphanAt := h.clk, joinSent := false, joinWait := false, tx := [], relay := none } }).raise 61
  else h

/-- A STATUS frame of an admitted follower at the lead (R215). -/
def Hw.statusAtLead (h : Hw) (slot : Nat) (p : List Byte) : Hw :=
  if h.prm.roster.getLsbD slot then
    let h := h.modPeer slot (fun x => { x with state := ube (slice p 0 1), done := ube (slice p 1 1), flags := ube (slice p 2 1),
                                               cause := ube (slice p 3 1), pIn := ube (slice p 4 4) })
    if h.prm.relay.any (fun r => r.index = slot) then h.replyFragment (p.drop 8) else h
  else h

/-- A JOIN at the lead waits for the next cycle boundary (R217). -/
def Hw.joinAtLead (h : Hw) (slot : Nat) (p : List Byte) : Hw :=
  if !h.prm.leadOn || h.prm.roster.getLsbD slot || h.prm.joins.contains slot || !h.prm.admitMask.getLsbD slot then h
  else
    let h := h.modPeer slot (fun x => { x with serial := BitVec.ofNat 64 (ube (slice p 0 8)),
                                               caps := BitVec.ofNat 32 (ube (slice p 8 4)), state := ube (slice p 12 1),
                                               done := 32, flags := 0, cause := 0, pIn := 0 })
    { h with prm := { h.prm with joins := h.prm.joins ++ [slot] } }

/-- An index conflict (R216, R218): PROM.CONFLICT, INDEX_CONFLICT, and nothing is transmitted until the next POR or RSTn. -/
def Hw.indexConflict (h : Hw) (ty : Nat) : Hw :=
  let own := if h.prm.role == .lead then 0 else h.ownIndex
  let h : Hw := { h with prm := { h.prm with conflict := true, role := .silent, tx := [] } }
  (h.raise 60).report 0xB1 (ty * 256 + own) 4 4 []

/-- A valid frame of another module in the own slot while the module listens; a lead hears another lead by its LEAD frame. -/
def Hw.hearsRival (h : Hw) (slot ty : Nat) : Bool :=
  h.ins.booted && h.prm.link == .listening && (if h.prm.role == .lead then slot = 0 && ty = 1 else slot = h.ownIndex)

/-- An accepted frame, by its type, its slot and the role of the receiver; `delayUs` is the time from the cycle boundary to a
LEAD frame's arrival. -/
def Hw.acceptFrame (h : Hw) (slot : Nat) (f : List Byte) (delayUs : Nat) : Hw :=
  let h := h.modPeer slot (fun x => { x with frames := (x.frames + 1) % 2 ^ 32 })
  let p := framePayload f
  if h.hearsRival slot (frameType f) then h.indexConflict (frameType f)
  else if h.prm.role == .lead then
    match frameType f with
    | 2 => h.statusAtLead slot p
    | 3 => h.joinAtLead slot p
    | 4 => h.dropFollower slot
    | _ => h
  else if slot = 0 then
    match frameType f with
    | 1 => h.leadAtFollower p delayUs
    | _ => h.orphan
  else h

/-- A frame arrives in a slot: the CRC check, which Folly may invert (checker 0x0C), then R213. -/
def Hw.frame (h : Hw) (slot : Nat) (f : List Byte) (delayUs : Nat) : Hw :=
  if h.linkRuns then
    let inj := h.hit 0x0C
    let h := h.take 0x0C
    if frameOk f slot && !inj then h.acceptFrame slot f delayUs else h.discardFrame f slot (injected inj)
  else h

/-- LEAD_FRAME (R214, R229). -/
def execLeadFrame (slot : Fin 16) (frame : HeardFrame) (s : State) : Out :=
  s.upd fun h => h.frame slot frame.bytes frame.delayUs

/-- STATUS_FRAME (R215). -/
def execStatusFrame (slot : Fin 16) (frame : List Byte) (s : State) : Out := s.upd fun h => h.frame slot frame 0

/-- JOIN (R217). -/
def execJoin (slot : Fin 16) (frame : List Byte) (s : State) : Out := s.upd fun h => h.frame slot frame 0

/-- LEAVE (R219, R234). -/
def execLeave (slot : Fin 16) (frame : List Byte) (s : State) : Out := s.upd fun h => h.frame slot frame 0

/-! ## Admission and loss -/

/-- LISTEN_COMPLETE (R216, R218): `heard` is the TYPE of a valid frame of another module in the own slot, if one came that no
command of its own has brought. -/
def execListenComplete (heard : Option Byte) (s : State) : Out := s.upd fun h =>
  if h.linkRuns && h.prm.link == .listening && h.ins.booted then
    match heard with
    | some ty => h.indexConflict ty.toNat
    | none =>
      if h.serviceReady then h
      else if h.prm.role == .lead then
        { h with prm := { h.prm with link := .active, leadOn := true, cycle := 0, cmd := 0, roster := 1 } }
      else { h with prm := { h.prm with link := .joining, joinSent := false, joinWait := false } }
  else h

/-- JOIN_RETRY (R217). -/
def execJoinRetry (s : State) : Out := s.upd fun h =>
  if h.linkRuns && h.prm.link == .joining && h.prm.joinWait then
    { h with prm := { h.prm with link := .listening, joinWait := false, joinSent := false } }
  else h

/-- FOLLOWER_SILENT (R219). -/
def execFollowerSilent (idx : Fin 16) (s : State) : Out := s.upd fun h =>
  if h.linkRuns && h.prm.role == .lead && idx.val != 0 then h.dropFollower idx else h

/-- ORPHAN_HOLD (R234). -/
def execOrphanHold (s : State) : Out := s.upd fun h => if h.linkRuns || h.strapSilent then h.orphan else h

/-- ORPHAN_TIMEOUT (R234). -/
def execOrphanTimeout (s : State) : Out := s.upd fun h =>
  if h.prm.link == .orphan && h.image.prm.orphanTimeout != 0 then
    let h := h.reach (h.prm.orphanAt + 1000000 * h.image.prm.orphanTimeout)
    ({ h with prm := { h.prm with orphanExpired := true } }).offRequest none
  else h

/-! ## The lead's cabinet lists, time, relay and CLEAR -/

/-- The entry in progress of a lead that runs a list. -/
def Hw.entryNow (h : Hw) : Option CabEntry := if h.prm.role == .lead && h.prm.cabRunning then h.cabEntry else none

/-- CAB_ENTRY_COMPLETE (R222). -/
def execCabEntryComplete (s : State) : Out := s.upd fun h =>
  match h.entryNow with
  | some e => if h.entryDone e then h.cabNext else h
  | none => h

/-- CAB_ENTRY_TIMEOUT (R223, R471): the conditions are tested first; then a SEQ_TIMEOUT on the lead. -/
def execCabEntryTimeout (s : State) : Out := s.upd fun h =>
  match h.entryNow with
  | some e =>
    if h.entryDone e then h.cabNext
    else
      let n := h.prm.step
      let h := h.endJob? h.seq.job 0 2 []
      let h : Hw := { h with seq := { h.seq with job := none, toStep := h.seq.step, toDir := some h.seq.dir, toUnmet := 0, toTime := h.now } }
      (h.raise 18).railFault 5 0x71 (n * 256) [] false
  | none => h

/-- PRM_TIME_COMPARE (R230). -/
def execPrmTimeCompare (s : State) : Out := s.upd fun h =>
  if h.linkRuns && h.prm.role == .follower && h.prm.link == .active then h.compareTime else h

/-- RELAY_TIMEOUT (R228). -/
def execRelayTimeout (s : State) : Out := s.upd fun h =>
  if h.prm.role == .lead && h.prm.relay.any (fun r => !r.sending) then h.relayTimeout else h

/-- CAB_CLEAR_TEST (R233): the test of R204 at the end of the third CLEAR cycle ends the job of the lead's CLEAR_FAULT. A line that
the lead drives again, after another fault, names no other module. -/
def execCabClearTest (lineHigh : Bool) (s : State) : Out := s.upd fun h =>
  match h.prm.clearJob with
  | some j =>
    if h.prm.clearLeft = 0 then
      let high := lineHigh && !h.seq.fltDrive
      let h : Hw := { h with prm := { h.prm with clearJob := none }, lines := { h.lines with fltLow := !high } }
      let latched := h.seq.state == .faultLatched
      if high then
        let h := if latched then ({ h with seq := { h.seq with retries := 0 } }).faultRestart else h
        h.endJob j 0 0 []
      else
        let h := if latched then ({ h with seq := { h.seq with cause := if h.seq.fltDrive then h.seq.cause else 10 } }).evalPgood else h
        h.endJob j 0 1 []
    else h
  | none => h

end Sys2Proof.Machine
end

