-- ==== Sys2Proof/Machine/Bus.lean ====
section
/-! DEFINITION. The host bus and the mailboxes: write and read transactions, protocol errors, wake, submissions, replies, the
event registers and the host watchdog (R385–R396, R404–R413, R453–R463, R551). -/

namespace Sys2Proof.Machine

/-- The bus interface answers: the main domain is out of reset, the module is not being removed; before, there is no
acknowledge at all (R17, R396, R403). -/
def Hw.busUp (h : Hw) : Bool := h.live && !h.gone

/-- The 7-bit bus addresses that ADDR1 and ADDR0 select (R23). -/
def Straps.address (s : Straps) : Origin → BitVec 7
  | .A => 0x58 + 2 * s.addr.setWidth 7
  | .V => 0x59 + 2 * s.addr.setWidth 7

/-- Which of its two addresses an address byte matches, if one. -/
def Straps.origin (s : Straps) (adr : BitVec 7) : Option Origin :=
  if adr = s.address .A then some .A else if adr = s.address .V then some .V else none

/-- A transaction acts where its address is one of the module's. -/
def Hw.addressed (h : Hw) (adr : BitVec 7) (f : Origin → Hw) : Hw :=
  match h.straps.origin adr with
  | some o => f o
  | none => h

/-- Pointer of a data byte of a write: it stays within its 64-byte page (R388). -/
def pageAddr (ptr i : Nat) : Nat := ptr / 64 * 64 + (ptr + i) % 64

/-! ## The host watchdog (R458–R463) -/

/-- A normal period starts. -/
def Wdt.restart (w : Wdt) (clk : Nat) : Wdt := { w with start := clk, grace := false, keyArmed := false }

/-- An expiry: the first sets WARN and starts the second period, the second ends that period and starts a host restart
(R458, R461). -/
def Hw.wdtExpire (h : Hw) : Hw :=
  if h.wdt.warn then ({ h with wdt := { h.wdt with warn := false, grace := false } }).hostRestart
  else ({ h with wdt := { h.wdt with warn := true, grace := false, start := h.clk } }).raise 44

/-- An early service or a wrong key (R459–R461): 0x5A is no longer expected. -/
def Hw.wdtViolation (h : Hw) : Hw :=
  (({ h with wdt := { h.wdt with keyArmed := false, earlyCount := min 255 (h.wdt.earlyCount + 1) } }).raise 46).wdtExpire

/-- A write to SERVICE at its commit (R459–R461, R463). -/
def Hw.wdtService (h : Hw) (b : Byte) : Hw :=
  if b = 0xA5 then { h with wdt := { h.wdt with keyArmed := true } }
  else if !h.wdtCounts then { h with wdt := { h.wdt with keyArmed := false } }
  else if b = 0x5A && h.wdt.keyArmed && h.wdtOpen then
    let w := h.wdt.restart h.clk
    { h with wdt := if w.warn then { w with warn := false, warnCount := min 255 (w.warnCount + 1) } else w }
  else h.wdtViolation

/-- A watchdog byte as judged in a transaction: the registers as the earlier bytes leave them, and a high byte that still
waits for its low byte (R551). -/
structure WdtView where
  w : Wdt
  high : Option Nat
  deriving DecidableEq, Repr

/-- The limits of a two-byte field, by the pointer of its high byte. -/
def wdtRange (a v : Nat) : Bool :=
  if a = 0x102 then 1 ≤ v else if a = 0x108 then 1 ≤ v && v ≤ 600 else 1 ≤ v && v ≤ 1000

def Wdt.field (w : Wdt) (a : Nat) : Nat := if a = 0x102 then w.period else if a = 0x108 then w.graceS else w.hrstWidth

def Wdt.setField (w : Wdt) (a v : Nat) : Wdt :=
  if a = 0x102 then { w with period := v } else if a = 0x108 then { w with graceS := v } else { w with hrstWidth := v }

/-- One data byte to the watchdog registers: `none` is a NACK. `opened` is OPEN as the byte is received (R458, R551). -/
def WdtView.byte (v : WdtView) (opened : Bool) (a : Nat) (b : Byte) : Option WdtView :=
  let w := v.w
  if a = 0x100 then
    let en := b.getLsbD 0
    let lk := b.getLsbD 1
    let win := b.toNat / 4 % 4
    if win = 0 || (w.lock && ((w.enable && !en) || !lk)) || (win ≠ w.window && en && !opened) then none
    else some { v with w := { w with enable := en, lock := lk, window := win } }
  else if a = 0x102 || a = 0x108 || a = 0x10A then
    if a = 0x102 && w.enable && !opened then none
    else some { w := w.setField a (b.toNat * 256 + w.field a % 256), high := some a }
  else if a = 0x103 || a = 0x109 || a = 0x10B then
    let n := w.field (a - 1) / 256 * 256 + b.toNat
    if (a = 0x103 && w.enable && !opened) || !wdtRange (a - 1) n then none
    else some { w := w.setField (a - 1) n, high := none }
  else if a = 0x104 then some v
  else none

/-- The registers that a transaction has written take their values; ENABLE rising starts a normal period, ENABLE falling stops
the count and clears WARN (R551). -/
def Hw.wdtCommit (h : Hw) (w : Wdt) : Hw :=
  let rise := w.enable && !h.wdt.enable
  let fall := !w.enable && h.wdt.enable
  let w := if rise then { w.restart h.clk with start := if h.seq.hrst then h.clk else w.start }
    else if fall then { w with warn := false, grace := false } else w
  { h with wdt := w }

/-! ## Access (R387, R390) -/

/-- The registers other than the watchdog's that a write at an address may change. -/
def writable (o : Origin) (a : Nat) : Bool :=
  a = 0x40 || (0x1000 ≤ a && a < 0x1100) || (o == .A && 0x80 ≤ a && a < 0x90)

/-- The source of a write violation (R458, R466): watchdog access from address V has one of its own. -/
def violation (o : Origin) (a : Nat) : Nat := if o == .V && 0x100 ≤ a && a < 0x110 then 0x32 else 0x30

/-- Every data byte in order: the watchdog view that results, or the pointer of the first byte that fails and whether it is
NACKed; a high byte judged at the end of the transaction was acknowledged (R551). -/
def checkBytes (o : Origin) (opened : Bool) (ptr : Nat) : Nat → List Byte → WdtView → Except (Nat × Bool) WdtView
  | _, [], v =>
    match v.high with
    | some a => if wdtRange a (v.w.field a) then .ok v else .error (a, false)
    | none => .ok v
  | i, b :: bs, v =>
    let a := pageAddr ptr i
    if writable o a then checkBytes o opened ptr (i + 1) bs v
    else if o == .A && 0x100 ≤ a && a < 0x110 then
      match v.byte opened a b with
      | some v' => checkBytes o opened ptr (i + 1) bs v'
      | none => .error (a, true)
    else .error (a, true)

/-! ## Submissions (R409–R411) -/

/-- The packet that a submission takes: the whole mailbox, or, where the tag does not match, opcode, written tag and MODULE
alone, which yield BAD_CRC. -/
def Mailbox.entry (m : Mailbox) (tag : Byte) : List Byte :=
  let all := Cells.read 0 m.cmd 0 256
  if all.getD 1 0 = tag then all else [all.getD 0 0, tag, all.getD 2 0]

/-- The written tag is byte 1 of the command mailbox (R409). -/
def Mailbox.tagMatches (m : Mailbox) (tag : Byte) : Bool := (Cells.read 0 m.cmd 0 256).getD 1 0 == tag

/-- A packet has the tag; what stands for a submission without a packet has none (R409, R410). -/
def tagIs (p : Option (Nat × List Byte)) (tag : Byte) : Bool :=
  match p with | some p => 4 ≤ p.2.length && p.2.getD 1 0 == tag | none => false

/-- A write to CMD_SUBMIT at its commit. A tag that does not match takes no packet and is no accepted submission; its BAD_CRC
reply takes a place as a packet's does (DESIGN CHOICE, log 48). A packet that channel 0 loses to parity errors gets no reply
(R507). -/
def Hw.submit (h : Hw) (o : Origin) (tag : Byte) : Hw :=
  let m := h.mbx o
  let accepted := m.tagMatches tag
  if tagIs m.inProc tag || tagIs m.queued tag then h
  else if m.inProc.isSome && m.queued.isSome then h.modMbx o (fun m => { m with overrun := true })
  else
    let t := if accepted then h.wake.transfer 0 (m.entry tag).length else (h.wake, true)
    let h := t.1
    let e := (h.proto.submissions, m.entry tag)
    let h : Hw := { h with proto := { h.proto with submissions := h.proto.submissions + 1 } }
    let busy := accepted && (m.replyState == .idle || m.replyState == .ready)
    let h := h.modMbx o (fun m => { m with lastTag := if accepted then tag else m.lastTag, overrun := m.overrun && !accepted
                                           coreReset := m.coreReset && !accepted
                                           replyState := if busy then .busy else m.replyState
                                           judged := m.judged && m.inProc.isSome
                                           queued := if m.inProc.isSome && t.2 then some e else none,
                                           inProc := if m.inProc.isSome then m.inProc else if t.2 then some e else none })
    if m.inProc.isSome then h else h.judgeDue.startRelay

/-! ## The commit of a write (R388–R390, R453, R454) -/

/-- One byte of EVT_PEND or EVT_MASK (R453): reserved sources keep 0 in both; sources of an absent unit, which never become
pending (R8), keep 0 in EVT_PEND. -/
def Hw.evtByte (h : Hw) (a : Nat) (b : Byte) : Hw :=
  let hi := 7 - (a % 8)
  let keep : BitVec 64 := ~~~ ((0xFF : BitVec 64) <<< (8 * hi))
  let new := (List.range 8).foldl (fun (m : BitVec 64) i =>
    if b.getLsbD i && !(if a < 0x88 then h.mute (8 * hi + i) else reservedEvents.getLsbD (8 * hi + i)) then
      m ||| ((1 : BitVec 64) <<< (8 * hi + i)) else m) 0
  if a < 0x88 then { h with evt := { h.evt with pend := (h.evt.pend &&& keep) ||| new } }
  else { h with evt := { h.evt with mask := (h.evt.mask &&& keep) ||| new } }

/-- One committed byte. -/
def Hw.putByte (h : Hw) (o : Origin) (a : Nat) (b : Byte) : Hw :=
  if a = 0x40 then h.submit o b
  else if 0x1000 ≤ a && a < 0x1100 then h.modMbx o (fun m => { m with cmd := Cells.put 0 m.cmd (a - 0x1000) b })
  else if 0x80 ≤ a && a < 0x90 then h.evtByte a b
  else if a = 0x104 then h.wdtService b
  else h

def Hw.putBytes (h : Hw) (o : Origin) (ptr : Nat) : Nat → List Byte → Hw
  | _, [] => h
  | i, b :: bs => Hw.putBytes (h.putByte o (pageAddr ptr i) b) o ptr (i + 1) bs

/-- A START at an address: the pointer that a core reset has cleared returns to 0x0000, a stretch has ended (R395, R403). -/
def Hw.start (h : Hw) (o : Origin) : Hw :=
  h.wake.modMbx o (fun m => { m with ptr := if m.ptrReset then 0 else m.ptr, ptrReset := false, stretching := false })

/-- A transaction that finds the bus interface down: no byte is acknowledged; in STANDBY the address byte has matched, which wakes
the module (R395, R396). -/
def Hw.unanswered (h : Hw) (o : Origin) (f : Mailbox → Mailbox) : Hw :=
  (if h.wakes then h.exitStandby else h).modMbx o (fun m => { f m with acked := false, stretching := false })

/-- A write transaction at an address, complete at its commit instant: pointer and data together, or, with one byte NACKed,
nothing but the captured violation. -/
def Hw.commitWrite (h : Hw) (o : Origin) (ptr : Nat) (data : List Byte) : Hw :=
  if !h.busUp then h.unanswered o id
  else
    let h := h.start o
    match checkBytes o h.wdtOpen ptr 0 data { w := h.wdt, high := none } with
    | .error (a, nack) => (h.report (violation o a) a (masterOf o) 1 []).modMbx o (fun m => { m with acked := !nack })
    | .ok v =>
      let h := h.modMbx o (fun m => { m with ptr := if data.isEmpty then ptr else pageAddr ptr data.length, acked := true })
      let h := if v.w = h.wdt then h else h.wdtCommit v.w
      h.putBytes o ptr 0 data

/-! ## The commands of the host bus -/

/-- HOST_BUS_WRITE (R23, R386–R390, R458, R551). -/
def execHostBusWrite (adr : BitVec 7) (ptr : Half) (data : List Byte) (s : State) : Out :=
  s.upd fun h => h.addressed adr fun o => h.commitWrite o ptr.toNat data

/-- A read transaction of n bytes (R391, R392); its bytes are kept as delivered. -/
def Hw.readBus (h : Hw) (o : Origin) (ptr : Option Half) (n : Nat) : Hw :=
  if !h.busUp then h.unanswered o (fun m => { m with readBytes := List.replicate n 0xFF })
  else
    let h := h.start o
    let p := match ptr with | some p => p.toNat | none => (h.mbx o).ptr
    let bytes := (List.range n).map (fun i => h.readByte o ((p + i) % 65536))
    h.modMbx o (fun m => { m with ptr := (p + n) % 65536, readBytes := bytes, acked := true })

/-- READ_SNAPSHOT (R23, R177, R299, R391, R392). Taking a reply is the row REPLY_TAKEN. -/
def execReadSnapshot (adr : BitVec 7) (ptr : Option Half) (n : Nat) (s : State) : Out :=
  s.upd fun h => h.addressed adr fun o => h.readBus o ptr n

/-- A protocol error of R394: the transaction is discarded, BUS_PROTO captured with the pointer at that moment. -/
def Hw.busError (h : Hw) (o : Origin) (ptr : Nat) : Hw :=
  if h.busUp then
    ((h.start o).report 0x40 ptr (masterOf o) 4 []).modMbx o (fun m => { m with acked := false })
  else h

/-- REPEATED_START_IN_ACK (R394). -/
def execRepeatedStartInAck (o : Origin) (ptr : Half) (s : State) : Out := s.upd fun h => h.busError o ptr.toNat

/-- START_INSIDE_BYTE (R394). -/
def execStartInsideByte (o : Origin) (ptr : Half) (s : State) : Out := s.upd fun h => h.busError o ptr.toNat

/-- STOP_INSIDE_BYTE (R394). -/
def execStopInsideByte (o : Origin) (ptr : Half) (s : State) : Out := s.upd fun h => h.busError o ptr.toNat

/-- ONE_POINTER_BYTE (R394): the pointer is the one left by the transaction before. -/
def execOnePointerByte (o : Origin) (s : State) : Out := s.upd fun h =>
  h.busError o (if (h.mbx o).ptrReset then 0 else (h.mbx o).ptr)

/-- STALLED_TRANSACTION (R394). -/
def execStalledTransaction (o : Origin) (ptr : Half) (s : State) : Out := s.upd fun h => h.busError o ptr.toNat

/-- ADDRESS_MATCH_WAKE (R68, R395, R516): in IDLE and STANDBY the matcher acknowledges, holds SCL low and wakes the module. -/
def execAddressMatchWake (adr : BitVec 7) (s : State) : Out := s.upd fun h => h.addressed adr fun o =>
  if h.wakes then (h.exitStandby).modMbx o (fun m => { m with stretching := true })
  else if h.idle.idle && h.busUp then h.wake.modMbx o (fun m => { m with stretching := true })
  else h

/-- WAKE_TIMEOUT (R395): SCL is released and the transaction ends unserved, NACKed or read as 0xFF. How many bytes a controller
reads is a free value. -/
def execWakeTimeout (o : Origin) (s : State) : Out := s.upd fun h =>
  if (h.mbx o).stretching then
    let n := Config.freeNat h.free % 65536
    h.draw.modMbx o (fun m => { m with stretching := false, acked := false, readBytes := List.replicate n 0xFF })
  else h

/-! ## The commands of the mailboxes -/

/-- CMD_SUBMIT (R409–R411): a write of one byte to pointer 0x0040. -/
def execCmdSubmit (o : Origin) (tag : Byte) (s : State) : Out := s.upd fun h => h.commitWrite o 0x40 [tag]

/-- The packet whose reply is placed is FOLLY_INJECT, or none is in process. -/
def Mailbox.injectReply (m : Mailbox) : Bool := match m.inProc with | some p => p.2.getD 0 0 == 0xF0 | none => true

/-- The ready reply goes into the reply mailbox, on channel 1, and the queued packet moves up (R406, R410–R412). A reply that
parity errors end is not placed (R507); an injection is armed with its reply (R478). -/
def Hw.placeReply (h : Hw) (o : Origin) : Hw :=
  let m := h.mbx o
  match m.ready with
  | some bytes =>
    let later := m.queued.isSome
    let t := h.transfer 1 bytes.length
    let h := t.1
    if !t.2 then
      (h.modMbx o (fun m => { m with ready := none, judged := false, inProc := m.queued, queued := none })).judgeDue.startRelay
    else
    let h := if m.injectReply then h.arm false else h
    let h := h.modMbx o (fun m => { m with rep := Cells.putAll 0 [] 0 bytes, repLen := bytes.length - 6, replyTag := bytes.getD 1 0,
                                           replyState := if later then .readyOlder else .ready, taken := false,
                                           ready := none, judged := false, inProc := m.queued, queued := none })
    h.judgeDue.startRelay
  | none => h

/-- The packet whose reply is placed is ENTER_STANDBY, or none is in process. -/
def Mailbox.standbyReply (m : Mailbox) : Bool := match m.inProc with | some p => p.2.getD 0 0 == 0x09 | none => true

/-- REPLY_PLACED (R411, R412, R514): between transactions, once the previous reply has been taken; a removal leaves no reply
(R421). -/
def execReplyPlaced (o : Origin) (s : State) : Out := s.upd fun h =>
  let h := h.judge o
  let m := h.mbx o
  if m.taken && m.ready.isSome && h.ins.booted && !h.gone && h.rst.coreReq.isNone then
    let h := h.placeReply o
    if m.standbyReply then h.tryStandby else h
  else h

/-- REPLY_TAKEN (R411): where a later reply is ready it is placed now. -/
def execReplyTaken (o : Origin) (s : State) : Out := s.upd fun h =>
  let m := h.mbx o
  if m.taken || !h.busUp then h
  else
    let h := (h.modMbx o (fun m => { m with taken := true })).judge o
    let m := h.mbx o
    if m.replyState == .readyOlder then
      if m.ready.isSome && h.rst.coreReq.isNone then
        let h := h.placeReply o
        if m.standbyReply then h.tryStandby else h
      else h.modMbx o (fun m => { m with replyState := .busy })
    else h

/-- An unlock that 15 min have ended (R418). -/
def Unlock.expire (u : Unlock) (clk : Nat) : Unlock :=
  if u.unlocked && u.lastAt + 900000000 ≤ clk then { u with unlocked := false } else u

/-- UNLOCK_TIMEOUT (R418): the module's own unlock, or at a follower that of relayed packets, whichever ends first. -/
def execUnlockTimeout (s : State) : Out := s.upd fun h =>
  let due := fun (u : Unlock) => if u.unlocked then some (u.lastAt + 900000000) else none
  let t := match due h.proto.unlock, due h.prm.unlock with
    | some a, some b => some (min a b)
    | some a, none => some a
    | none, b => b
  match t with
  | some t =>
    let h := h.reach t
    { h with proto := { h.proto with unlock := h.proto.unlock.expire h.clk }
             prm := { h.prm with unlock := h.prm.unlock.expire h.clk } }
  | none => h

/-- A lockout that 60 s have ended (R417). -/
def Unlock.release (u : Unlock) (clk : Nat) : Unlock :=
  if u.locked && u.lockedAt + 60000000 ≤ clk then { u with locked := false, wrong := 0 } else u

/-- UNLOCK_LOCKOUT_END (R417). -/
def execUnlockLockoutEnd (s : State) : Out := s.upd fun h =>
  let due := fun (u : Unlock) => if u.locked then some (u.lockedAt + 60000000) else none
  let t := match due h.proto.unlock, due h.prm.unlock with
    | some a, some b => some (min a b)
    | some a, none => some a
    | none, b => b
  match t with
  | some t =>
    let h := h.reach t
    { h with proto := { h.proto with unlock := h.proto.unlock.release h.clk }
             prm := { h.prm with unlock := h.prm.unlock.release h.clk } }
  | none => h

/-! ## The commands of the event registers and the watchdogs -/

/-- EVT_PEND_WRITE (R453, R454): a write transaction to EVT_PEND. -/
def execEvtPendWrite (adr : BitVec 7) (ptr : Half) (data : List Byte) (s : State) : Out :=
  s.upd fun h => h.addressed adr fun o => h.commitWrite o ptr.toNat data

/-- WDT_ENABLE (R458, R551): WDT_CTRL is written. -/
def execWdtEnable (ctrl : Byte) (s : State) : Out := s.upd fun h => h.commitWrite .A 0x100 [ctrl]

/-- WDT_DISABLE (R458, R551): WDT_CTRL is written. -/
def execWdtDisable (ctrl : Byte) (s : State) : Out := s.upd fun h => h.commitWrite .A 0x100 [ctrl]

/-- WDT_KEY_ARM (R459): 0xA5 to SERVICE. -/
def execWdtKeyArm (s : State) : Out := s.upd fun h => h.commitWrite .A 0x104 [0xA5]

/-- WDT_SERVICE (R459–R461): another value to SERVICE. -/
def execWdtService (value : Byte) (s : State) : Out := s.upd fun h => h.commitWrite .A 0x104 [value]

/-- WDT_EXPIRY (R460, R461): the period has run without a service. -/
def execWdtExpiry (s : State) : Out := s.upd fun h =>
  if h.wdtCounts && !h.wdt.grace then (h.reach (h.wdt.start + 1000 * h.wdt.period)).wake.wdtExpire else h

/-- HRSTN_RELEASE (R462, R463): the last host-restart step is complete, or POWER_UP has come to the release, and HRST_WIDTH has
elapsed. -/
def execHrstnRelease (s : State) : Out := s.upd fun h =>
  if h.seq.hostStepsDone && (h.eff == .run || h.eff == .seqUp) && !h.seq.hrst then
    let h := h.reach (h.wdt.start + 1000 * h.wdt.hrstWidth)
    h.releaseHrst
  else h

/-- GRACE_EXPIRY (R463): a first expiry. -/
def execGraceExpiry (s : State) : Out := s.upd fun h =>
  if h.wdtCounts && h.wdt.grace then (h.reach (h.wdt.start + 1000000 * h.wdt.graceS)).wake.wdtExpire else h

/-! ## The fault log and SERVICE_PREPARE -/

/-- FAULT_LOG_WRITE (R472): the oldest error in wait gets its entry; in LIMP the store takes none (R482). -/
def execFaultLogWrite (s : State) : Out := s.upd fun h =>
  if h.ins.booted && !h.inLimp && h.pwr.commit.isNone then h.writeFault else h

/-- SERVICE_PREPARE_COMPLETE (R43 step 5, R44). -/
def execServicePrepareComplete (s : State) : Out := s.upd fun h =>
  let h := h.serviceStep
  let q := h.seq.service
  match q.job with
  | some j =>
    if q.lastWordDone && h.store.proving.all (fun v => v.job != some j) && h.prm.leaveDue.isNone && h.pwr.commit.isNone && (h.eff == .off || h.eff == .faultLatched) then
      let h := if h.eff == .faultLatched then h.faultRestart else h
      let h := (h.dropPend 1).endJob j 0 0 []
      { h with seq := { h.seq with service := { job := none, ready := true, downAsked := true, lastWordDone := true } } }
    else h
  | none => h

end Sys2Proof.Machine
end

