-- ==== Sys2Proof/Machine/Telemetry.lean ====
section
/-! DEFINITION. The measurement converters and the thermal comparators of the sensors (R162–R179, R491, R494). -/

namespace Sys2Proof.Machine

/-! ## Masks and slices (R163–R167) -/

/-- Channels that a module without the holdup unit does not have (R8). -/
def holdupChannels : BitVec 64 := (1 <<< 20) ||| (1 <<< 42) ||| (1 <<< 50)

/-- Forced channels of every variant (R166). -/
def forcedChannels : BitVec 64 :=
  [18, 19, 21, 22, 23, 43, 44, 45, 46, 47, 48, 49, 59, 60].foldl (fun m c => m ||| ((1 : BitVec 64) <<< c)) 0

/-- The effective scan mask: host mask, forced channels, the channels of the outputs that are on (R166). -/
def Hw.scanMask (h : Hw) (host : BitVec 64) : BitVec 64 :=
  let outs := (List.range 18).foldl
    (fun (m : BitVec 64) k => if (h.out k).on then m ||| (1 <<< k) ||| (1 <<< (24 + k)) else m) 0
  let m := (host &&& 0x1FFFFFFFFFFFFFFF) ||| forcedChannels ||| outs
  if h.holdup then m ||| holdupChannels else m &&& ~~~ holdupChannels

/-- Slices in service, ascending. -/
def Adc.inService (a : Adc) : List Nat := (List.range 3).filter (fun s => !a.sliceOos.getLsbD s)

/-- The active slices in order: with all three in service by the rotation period, otherwise those that remain (R163, R164). -/
def Adc.active (a : Adc) : List Nat :=
  if a.sliceOos == 0 then [a.rotation % 3, (a.rotation + 1) % 3] else a.inService

/-- The slice that converts the channel at a position of the scan list. -/
def Adc.sliceAt (a : Adc) (i : Nat) : Nat :=
  let act := a.active
  act.getD (i % max 1 act.length) 3

/-- The channels of a mask in ascending order. -/
def maskList (m : BitVec 64) : List Nat := (List.range 64).filter (fun c => m.getLsbD c)

/-! ## Scan boundaries -/

/-- Cleared peaks (R174). -/
def OutTelem.clearPeaks (t : OutTelem) : OutTelem :=
  { t with peakEmpty := true, vMin := 0xFFFF, iMax := -2147483648, pMax := -2147483648, clearDue := false }

/-- The window in progress is discarded (R178). -/
def OutTelem.restart (t : OutTelem) : OutTelem := { t with n := 0, sumV := 0, sumI := 0, sumP := 0 }

/-- A scan boundary: peaks that TELEM_PEAKS read are cleared, a new T_AVG starts its window (R174, R178). -/
def Adc.boundary (a : Adc) : Adc :=
  let a := { a with outs := a.outs.map (fun (t : OutTelem) => if t.clearDue then t.clearPeaks else t) }
  if a.restartWindow then
    { a with outs := a.outs.map OutTelem.restart, supplySum := List.replicate 64 0, supplyN := List.replicate 64 0, pInSum := 0,
             restartWindow := false }
  else a

/-- The reference buffer in IDLE follows a new REF_MODE (R169, R178). -/
def Hw.refMode (h : Hw) (set : ScanCfg) : RefState :=
  if h.idle.idle && set.refFull && h.adc.ref == .low then .settling
  else if h.idle.idle && !set.refFull && h.adc.ref == .full then .low
  else h.adc.ref

/-- SCAN_START (R163, R166–R168, R170, R178): after the calibration of the boot; new settings and the forced mask take effect
here. -/
def execScanStart (s : State) : Out := s.upd fun h =>
  if h.ins.mainOn && h.ins.booted && !h.adc.scanning && h.adc.ref != .off && !(h.adc.ref == .settling && h.adc.fromOff) then
    let set := h.adc.next.getD h.adc.set
    let a := { h.adc with set := set, next := none }
    { h with adc := { a.boundary with scanning := true, mask := h.scanMask set.mask, ref := h.refMode set } }
  else h

/-! ## The results of a scan -/

/-- The result that the scan brings for a channel. -/
def scanned (rs : List ChannelResult) (c : Nat) : Option ChannelResult := rs.find? (fun r => r.chan.val = c)

/-- Round to nearest, of a sum over n. -/
def roundDiv (s : Int) (n : Nat) : Int := (2 * s + n).fdiv (2 * n)

/-- A code in the unit of its channel: by the trimmed gain, channel 50 by the thermistor (R165); an open BTS reads 0x8000
(R172). Each result is rounded to the nearest unit before anything else uses it (DESIGN CHOICE, log 75). -/
def Hw.scaled (h : Hw) (c : Nat) (code : BitVec 14) : Int :=
  if c = 50 then (if h.pwr.btsOpen then -32768 else Config.thermistor code.toNat)
  else roundDiv (((code.toNat : Int) - h.factory.zeroCodes.getD c 0) * h.factory.gains.getD c 0) 65536

/-- Raw results: VALID is 1 for what this scan converted and 0 for the rest (R176). The slices are those in service at the end of
the scan, also for what it converted before one left (DESIGN CHOICE, log 70). -/
def Adc.store (a : Adc) (scale : Nat → BitVec 14 → Int) (rs : List ChannelResult) : List ChanResult :=
  let order := maskList a.mask
  a.chans.mapIdx fun c r =>
    match order.idxOf? c, scanned rs c with
    | some i, some x =>
      if a.active.isEmpty then { r with valid := false }
      else { slice := a.sliceAt i, valid := true, scan := a.scanCount + 1, code := x.code, value := scale c x.code }
    | _, _ => { r with valid := false }

/-- One output takes a scan's V (mV) and I (mA): sums, peaks, energy over the time since its previous scan (R173–R175). P_MAX is
rounded to the nearest mW, and an output's first scan adds no energy (DESIGN CHOICE, log 62); what a scan brings below 1 µJ is cut
off (DESIGN CHOICE, log 75). -/
def OutTelem.take (t : OutTelem) (v i : Int) (on ended frozen : Bool) : OutTelem :=
  let p := v * i
  let dt := t.since.getD 0
  let t := { t with n := t.n + 1, sumV := t.sumV + v, sumI := t.sumI + i, sumP := t.sumP + p, since := some 0 }
  let t := if on then { t with peakEmpty := false, iMax := max t.iMax i, pMax := max t.pMax (roundDiv p 1000) } else t
  let t := if on && ended then { t with vMin := min t.vMin (min 65535 v.toNat) } else t
  if on && 0 < p && !frozen then
    let r := t.residue + p.toNat * dt / 1000000
    { t with energy := t.energy + r / 1000, residue := r % 1000 }
  else t

/-- The channels of every output that were converted together. -/
def Hw.takeOutputs (h : Hw) (rs : List ChannelResult) (dt : Nat) : Hw :=
  let f := fun (k : Nat) (t : OutTelem) =>
    let t := { t with since := t.since.map (· + dt) }
    match scanned rs k, scanned rs (24 + k) with
    | some _, some _ =>
      if h.adc.mask.getLsbD k && h.adc.mask.getLsbD (24 + k) then
        t.take (h.result k).value (h.result (24 + k)).value (h.out k).on (h.out k).rampEnded h.pwr.commit.isSome
      else t
    | _, _ => t
  { h with adc := { h.adc with outs := h.adc.outs.mapIdx f } }

/-- P_IN of the scan, from the source that the governor uses (R71, R176), in mW. -/
def Hw.scanPower (h : Hw) : Int :=
  let v := fun c => (h.result c).value
  if h.pwr.onBattery then (v 20 * -v 42).tdiv 1000 else (v 18 * v 43).tdiv 1000

/-- The supply block's sums (R176). -/
def Hw.takeSupply (h : Hw) : Hw :=
  let valid := fun c => (h.result c).valid && !(c == 50 && h.pwr.btsOpen)
  { h with adc := { h.adc with
      supplySum := h.adc.supplySum.mapIdx (fun c s => if valid c then s + (h.result c).value else s)
      supplyN := h.adc.supplyN.mapIdx (fun c n => if valid c then n + 1 else n)
      pInSum := h.adc.pInSum + h.scanPower } }

/-- The reference and ground checks (R171). -/
def Hw.checkReference (h : Hw) : Hw :=
  let r := (h.result 59).value
  let g := (h.result 60).value
  if !(h.result 59).valid || !(h.result 60).valid then h
  else
    let good := 1188 ≤ r && r ≤ 1212 && -2 ≤ g && g ≤ 2
    let a := h.adc
    if good then
      let n := a.refGood + 1
      { h with adc := { a with refBad := 0, refGood := n, refFault := a.refFault && n < 100 } }
    else
      let n := a.refBad + 1
      let h : Hw := { h with adc := { a with refBad := n, refGood := 0 } }
      if n = 3 && !a.refFault then
        let h : Hw := { h with adc := { h.adc with refFault := true } }
        (h.raise 11).report 0x6B 3 0 0 []
      else h

/-- VBAT and the pack temperature as last converted (R337); an open BTS has its own step (R350). -/
def Hw.takePack (h : Hw) : Hw :=
  let v := h.result 20
  let t := h.result 50
  { h with pwr := { h.pwr with vbat := if v.valid then v.value.toNat else h.pwr.vbat
                               packTemp := if t.valid && t.value != -32768 then t.value else h.pwr.packTemp } }

/-- A move between bands needs the temperature to lie 2 °C inside the new one (R496). -/
def moveBand (edges : List Int) (old : Nat) (t : Int) : Nat :=
  if edges.all (fun e => 200 ≤ (t - e).natAbs) then bandAmong edges t else old

/-- The bands of the flash, from TS5, and of the scrub, from TS0 (R326, R330, R496). -/
def Hw.takeBands (h : Hw) : Hw :=
  let flash := h.result 49
  let scrub := h.result 44
  { h with therm := { h.therm with
      flashBand := if flash.valid then moveBand flashEdges h.therm.flashBand flash.value else h.therm.flashBand
      scrubBand := if scrub.valid then moveBand scrubEdges h.therm.scrubBand scrub.value else h.therm.scrubBand } }

/-! ## Thermal fault (R491, R494) -/

/-- The hottest of nodes 0–14. -/
def Thermal.hottest (t : Thermal) : Int := (t.nodes.take 15).foldl max (t.nodes.getD 0 0)

/-- The hottest of nodes 0–14, the lowest number among equals. -/
def Thermal.hottestNode (t : Thermal) : Nat :=
  ((List.range 15).find? (fun n => t.nodes.getD n 0 == t.hottest)).getD 0

/-- THERMAL_FAULT: a running-rail fault with cause THERMAL; the node in ADDRESS. -/
def Hw.thermalFault (h : Hw) (node : Nat) (detail : List Byte) : Hw :=
  ({ h with therm := { h.therm with hold := true } }).railFault 7 0x80 node detail false

/-- First node that a sensor anchors (R487). -/
def firstNode (sensor : Nat) : Nat := [0, 1, 3, 8, 10, 14].getD sensor 0

/-- A sensor at or above 135 °C in two successive scans is a thermal fault; in a state in which R200 acts it is found again
at every scan. -/
def Hw.sensorTrip (h : Hw) : Hw :=
  let hot := fun (i : Nat) => (h.result (44 + i)).valid && 13500 ≤ (h.result (44 + i)).value
  let hits := h.therm.hits.mapIdx (fun i n => if hot i then min 3 (n + 1) else 0)
  let acts := h.faultActs false
  let h : Hw := { h with therm := { h.therm with hits := hits } }
  match (List.range 6).find? (fun i => hits.getD i 0 = 2 || (acts && 2 ≤ hits.getD i 0)) with
  | some i =>
    let h : Hw := { h with therm := { h.therm with trip := some (firstNode i, h.clk) } }
    h.thermalFault (firstNode i) []
  | none => h

/-- The next rotation period (R163). -/
def Adc.rotate (a : Adc) : Adc := { a with rotation := (a.rotation + 1) % 3, rotationDue := false, calibrating := true }

/-- SCAN_COMPLETE (R167, R171, R173–R175, R491): the results of the scan in progress; `dtUs` is the time since the scan
before. With no slice in service the running-rail fault follows as soon as R200 acts (R164). -/
def execScanComplete (rs : List ChannelResult) (dtUs : Nat) (s : State) : Out := s.upd fun h =>
  if h.ins.mainOn && h.adc.scanning then
    let h : Hw := { h with adc := h.adc.boundary }
    let lost := h.adc.active.isEmpty
    let h : Hw := { h with adc := { h.adc with chans := h.adc.store h.scaled rs } }
    let h : Hw := { h with adc := { h.adc with scanCount := h.adc.scanCount + 1, scanning := false, ready := true } }
    let h := if lost then h else ((((h.takeOutputs rs dtUs).takeSupply).takePack).takeBands).checkReference
    let h : Hw := if h.adc.rotationDue then { h with adc := h.adc.rotate } else h
    if !lost then h.sensorTrip else if h.faultActs false then h.railFault 9 0x6A 3 [] false else h
  else h

/-- SLICE_ROTATION (R163, R164, R179): deferred to the end of a scan in progress. -/
def execSliceRotation (s : State) : Out := s.upd fun h =>
  if h.ins.mainOn && h.adc.sliceOos == 0 then
    if h.adc.scanning then { h with adc := { h.adc with rotationDue := true } } else { h with adc := h.adc.rotate }
  else h

/-- SLICE_CALIBRATION_END (R163, R164): a slice beyond a limit leaves service; with none left it is a running-rail fault.
CAL_SLICE of R176 then reads 3 until the next rotation, though the slice idles till then (DESIGN CHOICE, log 70). -/
def execSliceCalibrationEnd (sl : Fin 3) (gainBad offsetBad : Bool) (s : State) : Out := s.upd fun h =>
  if h.adc.calibrating && (h.adc.rotation + 2) % 3 = sl.val then
    let h : Hw := { h with adc := { h.adc with calibrating := false } }
    if gainBad || offsetBad then
      let h : Hw := { h with adc := { h.adc with sliceOos := h.adc.sliceOos ||| (1 <<< sl.val), rotationDue := false } }
      let h := (h.raise 10).report 0x69 sl 0 0 []
      if h.adc.sliceOos == 7 then h.railFault 9 0x6A 3 [] false else h
    else h
  else h

/-! ## Averages (R173, R176) -/

/-- The values of a complete window of one output. -/
def OutTelem.average (t : OutTelem) (on : Bool) : OutTelem :=
  if t.n = 0 then { t with valid := false, onAtEnd := on }
  else
    let v := roundDiv t.sumV t.n
    { t.restart with vAvg := min 65535 v.toNat, iAvg := roundDiv t.sumI t.n, pAvg := roundDiv t.sumP (1000 * t.n), valid := true,
                     sat := 65535 < v, onAtEnd := on }

/-- AVERAGING_WINDOW_END (R173, R176). A window that a new T_AVG has discarded no longer ends; its successor starts at the scan
boundary (R178). -/
def execAveragingWindowEnd (s : State) : Out := s.upd fun h =>
  if h.ins.mainOn && !h.adc.restartWindow then
    let a := h.adc
    let mean := fun (c : Nat) (old : Int) => let n := a.supplyN.getD c 0; if n = 0 then old else roundDiv (a.supplySum.getD c 0) n
    let n18 := a.supplyN.getD 18 0
    { h with adc := { a with
        outs := a.outs.mapIdx (fun k t => t.average (h.out k).on)
        supply := a.supply.mapIdx mean
        pIn := if n18 = 0 then a.pIn else roundDiv a.pInSum n18
        supplySum := List.replicate 64 0, supplyN := List.replicate 64 0, pInSum := 0
        windowCount := a.windowCount + 1 } }
  else h

/-- REF_SETTLED (R170). -/
def execRefSettled (s : State) : Out := s.upd fun h =>
  if h.ins.mainOn && h.adc.ref == .settling then { h with adc := { h.adc with ref := .full, fromOff := false } } else h

/-- OUTPUT_ENERGY_CHECKPOINT (R58, R175, R326): key 0x0410. In LIMP the store takes no such write (R482). -/
def execOutputEnergyCheckpoint (s : State) : Out := s.upd fun h =>
  if h.ins.booted && h.pwr.commit.isNone && !h.inLimp then h.wake.pair 0x410 h.counters else h

end Sys2Proof.Machine
end

