-- ==== Sys2Proof/Machine/Light.lean ====
section
/-! DEFINITION. Light load, IDLE and the power budget governor (R65–R79, R148, R169, R353, R495). -/

namespace Sys2Proof.Machine

/-! ## Pulse-skipping and IDLE (R65–R69) -/

/-- A converter may pulse-skip (R66, R148): outputs by LIGHT_LOAD, MIN_PH and ripple class, the ratio stage on VIN, the backup
converter on battery. A VP output does so on its last phase (R65). -/
def Hw.maySkip (h : Hw) (c : Nat) : Bool :=
  if c < 12 then
    (h.out c).on && (h.cfg c).lightLoad &&
      (if isVp c then (h.cfg c).minPh ≤ 1 && h.pool.active c = 1 else 2 ≤ (h.cfg c).ripple)
  else if c = 12 then h.ins.mainOn && h.ins.inputSwitch && !h.pwr.onBattery
  else h.pwr.onBattery

/-- The entry and exit thresholds of a converter: mA for outputs, mW of VIB load for the ratio stage and the backup converter.
An output of class RC2 has raised ones while throttling is at stage 1 or above (R65, R149). -/
def Hw.skipLimits (h : Hw) (c : Nat) : Nat × Nat :=
  let raised := h.throttled && (h.cfg c).ripple = 2
  if isVp c then (800, 1200)
  else if isVm c then (if raised then (700, 1000) else (350, 500))
  else if isVh c then (if raised then (400, 600) else (200, 300))
  else (2000, 3000)

/-- PULSE_SKIP_ENTRY (R65): the load stayed below the entry threshold for 64 cycles. -/
def execPulseSkipEntry (x : ConverterLoad) (s : State) : Out := s.upd fun h =>
  if h.maySkip x.conv && x.load < (h.skipLimits x.conv).1 then
    { h with idle := { h.idle with skipping := h.idle.skipping.set x.conv true } }
  else h

/-- PULSE_SKIP_EXIT (R65, R68): the load is above the exit threshold; the fast clock wakes. -/
def execPulseSkipExit (x : ConverterLoad) (s : State) : Out := s.upd fun h =>
  if (h.skipLimits x.conv).2 < x.load then h.wake.unskip x.conv else h

/-- Condition 1 of R67 for the converters that run. -/
def Hw.allSkipping (h : Hw) : Bool :=
  (List.range 12).all (fun k => !(h.out k).on || (h.maySkip k && h.idle.skipping.getD k false)) &&
    h.idle.skipping.getD (if h.pwr.onBattery then 13 else 12) false

/-- Conditions 2 and 3 of R67. -/
def Hw.poolQuiet (h : Hw) : Bool :=
  h.pool.phases.all (fun p => p.cond != .rampDown && p.cond != .quiet) && h.pool.move.isNone &&
    h.pool.rails.all (fun r => !r.respacing && !r.hintHold && !r.slewing)

/-- The charger charges (R364, HOLDUP.CHARGING). -/
def Charger.charging (c : Charger) : Bool :=
  c.state == .precondition || c.state == .cc || c.state == .cv || c.state == .topoff

/-- Condition 5 of R67, and idle in the sense of R324: no command, job, capture, signing, bulk transfer, flash program or erase
queued or running. -/
def Hw.nothingQueued (h : Hw) : Bool :=
  h.proto.a.inProc.isNone && h.proto.v.inProc.isNone && h.proto.jobs.all (fun j => j.state != .running) &&
    !h.log.signPending && h.slots.all (fun s => !s.captured && !s.closePending && !s.startPending) && h.bulk.rings.all (·.isEmpty) &&
    h.store.queue.isEmpty &&
    h.store.erase.isNone && h.store.proving.isEmpty && h.store.erased.isEmpty && !h.log.reclaiming && h.log.waiting.isEmpty && h.faults.queue.isEmpty && h.prm.relay.isNone &&
    h.life.retireLeft = 0

/-- Condition 6 of R67: a governor action is in progress at every stage but NORMAL (DESIGN CHOICE, log 60). -/
def Hw.portsSettled (h : Hw) : Bool :=
  h.ports.all (fun p => p.state != .precharge && p.state != .startup) && h.gov.stage == .normal

/-- IDLE_ENTRY (R67, R169): in REF_MODE AUTO the reference buffer goes to LOW, also during a scan, which REF then shows at once
(DESIGN CHOICE, log 70). -/
def execIdleEntry (s : State) : Out := s.upd fun h =>
  if h.seq.state == .run && h.allSkipping && h.poolQuiet && !h.chg.charging && h.nothingQueued && h.portsSettled &&
     !h.idle.idle then
    let low := !h.adc.set.refFull && (h.adc.ref == .full || h.adc.ref == .settling) && !h.adc.fromOff
    { h with idle := { h.idle with idle := true }, adc := { h.adc with ref := if low then .low else h.adc.ref } }
  else h

/-- IDLE_WAKE (R68, R395): the bus interface clock runs, SCL is released. -/
def execIdleWake (s : State) : Out := s.upd fun h => { h.wake with proto := h.proto.released }

/-! ## The governor's terms (R70, R495) -/

/-- T_TGT in 0.01 °C of R493 and R495. -/
def targetTemp (stage : Nat) : Int := if stage = 0 then 11600 else if stage = 1 then 11200 else 10800

/-- 1500 W in mW. -/
def maxBudget : Nat := 1500000

/-- B_TH of R495 in mW, from the latest model update. -/
def Thermal.budget (t : Thermal) (pIn : Nat) : Nat :=
  let hs := t.nodes.getD 15 0
  let d := t.hottest - hs
  if d < 500 * 65536 then maxBudget
  else min maxBudget ((pIn : Int) * (targetTemp t.stage * 65536 - hs) / d).toNat

/-- The ratio-stage term: 140 W, the EP pass-through and the VH input power. -/
def ratioTerm (g : GovSample) : Nat := 140000 + g.epPower + g.vhPower

/-- The source budget follows ON_BATTERY. -/
def Hw.sourceTerm (h : Hw) : Nat := 1000 * (if h.pwr.onBattery then h.gov.batW else h.gov.vinW)

/-- B_EFF: the ratio-stage term applies on VIN only. -/
def Hw.budget (h : Hw) (g : GovSample) : Nat :=
  let b := min h.sourceTerm (h.therm.budget g.pIn)
  if h.pwr.onBattery then b else min b (ratioTerm g)

/-- SOURCE, THERMAL and RATIO of R79. -/
def Hw.markTerms (h : Hw) (g : GovSample) : Hw :=
  let b := h.budget g
  { h with gov := { h.gov with bEff := b, batSource := h.pwr.onBattery, thermal := h.therm.budget g.pIn == b,
                               ratio := !h.pwr.onBattery && ratioTerm g == b } }

/-! ## Escalation (R73–R75) -/

/-- I_NEW of R74 as an ILIM_CODE: rounded down to 0.25 A, not below the floor. -/
def derateCode (portMa excessMw vinMv floor : Nat) : Nat :=
  if vinMv = 0 then floor
  else max floor (((portMa * vinMv - excessMw * 1000) / vinMv) / 250 - 2)

/-- Ports of a class from the highest number down. -/
def portOrder : List Nat := [5, 4, 3, 2, 1, 0]

/-- A port that derating can act on: on, not P0, its limit above its floor. -/
def Hw.canDerate (h : Hw) (p : Nat) : Bool :=
  !(h.port p).isOff && (h.cfg (12 + p)).prio != 0 && (h.cfg (12 + p)).floorCode < (h.port p).active

/-- Classes P3 to P1 in order, ports of a class from the highest number. -/
def Hw.derateOrder (h : Hw) : List Nat :=
  [3, 2, 1].flatMap (fun c => portOrder.filter (fun p => (h.cfg (12 + p)).prio = c && h.canDerate p))

/-- One derating step: the first port whose limit falls by it, ports that I_NEW would not lower being passed over (DESIGN CHOICE,
log 60); `none` when no port remains above its floor. -/
def Hw.derate (h : Hw) (g : GovSample) (b : Nat) : Option Hw :=
  let code := fun (p : Nat) => derateCode (g.portMa.getD p 0) (g.pIn - b) g.vin (h.cfg (12 + p)).floorCode
  match h.derateOrder with
  | [] => none
  | p0 :: ps =>
    match (p0 :: ps).find? (fun p => code p < (h.port p).active) with
    | some p =>
      let h1 := h.modPort p (fun x => { x with active := code p })
      some { h1 with gov := { h1.gov with derated := p :: h1.gov.derated.filter (fun q => q != p) } }
    | none => some h

/-- Outputs of a class in the order of R73: EP, VH, VM, VP, each from the highest number: 17 down to 12, 11, 10, 9 … 0. -/
def shedOrder : List Nat := [17, 16, 15, 14, 13, 12, 11, 10, 9, 8, 7, 6, 5, 4, 3, 2, 1, 0]

def Hw.nextShedOut (h : Hw) : Option Nat :=
  ([3, 2, 1].flatMap (fun c => shedOrder.filter (fun k => (h.cfg k).prio = c))).find?
    (fun k => (h.out k).on && !(h.out k).shed)

/-- One output is shed (R75). -/
def Hw.shedOut (h : Hw) (k power : Nat) : Hw :=
  let h := h.turnOff .command k
  let h := h.modOut k (fun o => { o with shed := true })
  let h := if isEp k then h.modPort (k - 12) (fun p => { p with shed := true }) else h
  let h : Hw := { h with gov := { h.gov with shedList := { out := k, power := power, since := none } :: h.gov.shedList,
                                             nextShed := h.clk + 10000 } }
  (h.raise 1).evalPgood

/-- The charger under the governor (R353). -/
def Hw.govCharger (h : Hw) : Hw :=
  { h with chg := { h.chg with govHalf := h.gov.stage == .capped,
                               govHold := h.gov.stage == .derating || h.gov.stage == .shedding || h.gov.stage == .exhausted } }

def Hw.setStage (h : Hw) (s : GovStage) : Hw := ({ h with gov := { h.gov with stage := s } }).govCharger

/-- P_IN exceeds B_EFF: one action of R73. The release timers restart. -/
def Hw.escalate (h : Hw) (g : GovSample) (b : Nat) : Hw :=
  let h : Hw := { h with gov := { h.gov with lowSince := none, nextRaise := none
                                             shedList := h.gov.shedList.map (fun e => { e with since := none }) } }
  match h.gov.stage with
  | .normal | .over =>
    let h := h.raise 0
    ({ h with gov := { h.gov with dwellEnd := h.clk + 1000 * h.gov.tCap } }).setStage .capped
  | .capped => if h.gov.dwellEnd ≤ h.clk || 5 * b < 4 * g.pIn then h.setStage .derating else h
  | .derating =>
    match h.derate g b with
    | some h' => h'
    | none => if h.eff == .run then h.setStage .shedding else h
  | .shedding =>
    if h.gov.nextShed ≤ h.clk then
      match h.nextShedOut with
      | some k => h.shedOut k g.shedPower
      | none => (h.raise 2).setStage .exhausted
    else h
  | .exhausted => h

/-! ## Release (R76) -/

/-- The last output shed comes back: it ramps as when enabled. -/
def Hw.restoreOut (h : Hw) (k : Nat) : Hw :=
  let h := h.modOut k (fun o => { o with shed := false })
  if isEp k then h.modPort (k - 12) (fun p => { p with shed := false }) else (h.turnOn k false).evalPgood

/-- The limit of the port derated last rises by 0.25 A. -/
def Hw.raiseLimit (h : Hw) (p : Nat) : Hw :=
  let h := h.modPort p (fun x => { x with active := min x.ilim (x.active + 1) })
  if (h.port p).active = (h.port p).ilim then { h with gov := { h.gov with derated := h.gov.derated.drop 1 } } else h

/-- P_IN lies at or below 0.90 × B_EFF: one release, in the reverse order of application. -/
def Hw.release (h : Hw) (g : GovSample) (b : Nat) : Hw :=
  let fit := fun (e : Shed) => if 10 * (g.pIn + e.power) ≤ 9 * b then { e with since := some (e.since.getD h.clk) } else { e with since := none }
  let low := h.gov.lowSince.getD h.clk
  let h : Hw := { h with gov := { h.gov with shedList := h.gov.shedList.map fit, lowSince := some low } }
  match h.gov.shedList with
  | e :: es =>
    let h : Hw := { h with gov := { h.gov with nextRaise := none } }
    if e.since.any (fun t => t + 1000000 ≤ h.clk) then
      ({ h with gov := { h.gov with shedList := es } }).restoreOut e.out
    else h
  | [] =>
    match h.gov.derated with
    | p :: _ =>
      let due := h.gov.nextRaise.getD (h.clk + 100000)
      let h : Hw := { h with gov := { h.gov with nextRaise := some due } }
      if due ≤ h.clk then ({ h with gov := { h.gov with nextRaise := some (h.clk + 100000) } }).raiseLimit p else h
    | [] =>
      let h : Hw := { h with gov := { h.gov with nextRaise := none } }
      if h.gov.stage != .normal && low + 1000000 ≤ h.clk then h.setStage .normal else h

/-- Between 0.90 × B_EFF and B_EFF the governor holds its actions, and the times of R76 start anew. -/
def Hw.holdActions (h : Hw) : Hw :=
  { h with gov := { h.gov with lowSince := none, nextRaise := none
                               shedList := h.gov.shedList.map (fun e => { e with since := none }) } }

/-- One evaluation (R71, R77): the governor is idle outside SEQ_UP, RUN and SEQ_DOWN. -/
def Hw.govern (h : Hw) (g : GovSample) : Hw :=
  match h.eff with
  | .seqUp | .run | .seqDown =>
    if h.pwr.commit.isSome || h.gone then h
    else
      let h := h.markTerms g
      let b := h.gov.bEff
      if b < g.pIn then h.escalate g b else if 10 * g.pIn ≤ 9 * b then h.release g b else h.holdActions
  | _ => h

/-- GOVERNOR_EVALUATE (R71): the next regular evaluation, 1 ms after the last. -/
def execGovernorEvaluate (g : GovSample) (s : State) : Out := s.upd fun h =>
  let h := (h.reach (h.gov.lastEval + 1000)).wake
  ({ h with gov := { h.gov with lastEval := h.clk } }).govern g

/-- GOVERNOR_COMPARATOR_WAKE (R71): an additional evaluation from IDLE. -/
def execGovernorComparatorWake (g : GovSample) (s : State) : Out := s.upd fun h =>
  if h.idle.idle then h.wake.govern g else h

end Sys2Proof.Machine
end

