-- ==== Sys2Proof/Machine/StoreRows.lean ====
section
/-! DEFINITION. The commands of the record store and of the session log: appends, deferred signing, flash operations,
compaction, the scrub (R275, R276, R283–R286, R304–R333, R468, R469). -/

namespace Sys2Proof.Machine

/-! ## Session records (R276, R283) -/

/-- The record of slot n is appended: CLOSED, SESSION_CLOSED, the job ends LOGGED. -/
def Hw.slotLogged (h : Hw) (n : Nat) : Hw :=
  let j := (h.slot n).closeJob
  let h := h.putSlot n true .closed
  let h := h.endJob? j 0 0 (be 4 (h.slot n).seq)
  let h := h.modSlot n (fun s => { s with closeJob := none })
  ((h.raise 27).breakStep).serviceStep

/-- Slots captured at the same block end are served in ascending order (R283). -/
def Hw.slotTurn (h : Hw) (n : Nat) : Bool :=
  (List.range n).all (fun m => let s := h.slot m; !(s.open? && s.captured && s.tStop == (h.slot n).tStop))

/-- A store write failure (R466): captured under 0xA3. -/
def Hw.writeFailure (h : Hw) (key : Nat) : Hw := h.report 0xA3 key 0 1 []

/-- The sector of a log position fails its verify (R305): a spare, never erased before, takes its place; without one what is left of
the newest sector is skipped, and the sector is not used again. -/
def Hw.retireLogAt (h : Hw) (pos : Nat) : Hw :=
  let gen := h.log.genAt pos
  let h : Hw := { h with log := if 0 < h.store.spare then h.log.setCount (pos / 16) 0 else h.log.wearAt pos }
  h.retireSector 4 gen

/-- The sector that the log programmed last fails its verify. -/
def Hw.retireLog (h : Hw) : Hw := h.retireLogAt ((h.log.wpos + h.log.size - 1) % h.log.size)

/-- An append fails (R300): its position is skipped and its number stays taken. With a failed verify its sector is retired; a
spare takes over what the sector holds (DESIGN CHOICE, log 40), without one what is left of it is skipped too. -/
def Hw.logFails (h : Hw) (draft : List Byte) (seq : Nat) (sig bad : Bool) : Hw :=
  let before := h.logSpace
  let h : Hw := { h with log := h.log.write draft seq sig false false }
  (((if bad then h.retireLog else h).writeFailure 0xE001).reclaim).lowSince before

/-- RECORD_APPENDED (R276, R283, R300, R313): the record of a captured slot has been signed and appended. With a failed verify the
number it took stays its own, the job ends STORE_ERROR and the record stays for the next erased entry; so with a transfer on
channel 6 that parity errors end (R507). -/
def execRecordAppended (slot : Fin 128) (verifyOk : Bool) (s : State) : Out := s.upd fun h =>
  let x := h.slot slot
  if x.open? && x.captured && h.pwr.commit.isNone && h.slotTurn slot && !(h.log.waiting.any (waitsFor slot)) then
    let draft := h.sessionDraft slot x
    if h.log.erased = 0 then
      (h.wait draft true x.seq .none).reclaim
    else
      let t := h.transfer 6 draft.length
      let h := t.1
      if verifyOk && t.2 then h.slotLogged slot
      else
        let seq := h.log.number x.seq
        let h := (h.logFails draft seq true t.2).endJob? x.closeJob 0x70 0 []
        h.modSlot slot (fun s => { s with closeJob := none, seq := seq })
  else h

/-- A record of another type than SESSION_CLOSE that waited begins: its body is programmed, under the number it takes now, ahead of
what the store has queued. -/
def Hw.beginWaiting (h : Hw) (w : WaitRec) : Hw :=
  let b := h.beginLog (logWrite w.draft w.signed w.seq w.purpose)
  { b.1 with store := { b.1.store with queue := b.2 :: b.1.store.queue } }

/-- The oldest record in wait gets an erased entry and its number. A SESSION_CLOSE record goes first, and its own row ends the
append (R283, R313; DEDUCED, log 40). -/
def Hw.serveWaiting (h : Hw) : Hw :=
  match h.log.waiting.find? (fun w => slice w.draft 0 1 == [1]) with
  | some w =>
    let seq := h.log.number w.seq
    let h : Hw := { h with log := { h.log with waiting := h.log.waiting.erase w, nextSeq := max h.log.nextSeq seq } }
    h.modSlot (ube (slice w.draft 8 2)) (fun s => { s with seq := seq })
  | none =>
    match h.log.waiting with
    | w :: ws => if h.sessionsDue then h else ({ h with log := { h.log with waiting := ws } }).beginWaiting w
    | [] => h

/-- APPEND_AFTER_RECLAIM (R313). -/
def execAppendAfterReclaim (s : State) : Out := s.upd fun h =>
  if 0 < h.log.erased && h.pwr.commit.isNone then h.serveWaiting else h

/-! ## Deferred signing (R285, R286) -/

/-- What deferred signing leaves: every unsigned record signed, its program still to be verified, or marked DAMAGED with its event
and fault log entry; CLOSED_PF slots become CLOSED. -/
def Hw.signAll (h : Hw) : Hw :=
  let old := h.log.entries
  let new := old.map LogEntry.sign
  let ends := (new.filter (fun e => e.signed && !old.contains e)).map (fun e =>
    ({ ring := .sessionLog, gen := h.log.genAt e.pos, key := 0xE001, seq := e.seq, len := 64
       old := none, copy := false, job := none } : Verify))
  let count := fun (es : List LogEntry) => es.countP (·.damaged)
  let bad := count new - count old
  let h : Hw := { h with
    log := { h.log with entries := new, signPending := false }
    slots := h.slots.map (fun s => if s.st == .closedPf then { s with st := .closed } else s)
    store := { h.store with proving := h.store.proving ++ ends } }
  (List.range bad).foldl (fun h _ => (h.raise 28).report 0xA2 0xE001 0 0 []) h

/-- DEFERRED_SIGNING_END: a seal break that waited for it goes on (R286, R524). -/
def execDeferredSigningEnd (s : State) : Out := s.upd fun h =>
  if h.log.signPending && h.ins.mainOn && h.pwr.commit.isNone then
    let h := h.signAll
    let h : Hw := { h with life := { h.life with breaking := h.life.breaking.map (fun b => { b with deferred := false }) } }
    h.breakStep.breakAtBoot
  else h

/-! ## Erases (R304, R305, R330) -/

/-- The erase of the oldest sector of a record ring ends. -/
def Hw.ringErased (h : Hw) (r : Ring) (ok : Bool) : Hw :=
  let ring := h.store.ring r
  let spare := 0 < h.store.spare
  let h := h.forgetFaults r
  let h : Hw := { h with store := { h.store with erase := none } }
  if ok then ({ h with store := h.store.setRing r ring.eraseOldest }).gaugeWrites
  else ({ h with store := h.store.setRing r (ring.replaceOldest spare) }).retireSector (Ring.code r) ring.oldestGen

/-- The sector that an erase left erased last fails its verify: the spare in its place was never erased; without one it is gone. It
may have been opened since. -/
def RingSt.badErase (r : RingSt) (spare : Bool) : RingSt :=
  if r.blank.isEmpty then if spare then r.renew r.topGen else r.wear
  else { r with blank := r.blank.dropLast ++ (if spare then [0] else []) }

/-- The verify of a sector that a row erased in one step (R305). -/
def Hw.eraseProved (h : Hw) (e : Erased) (ok : Bool) : Hw :=
  if ok then h
  else
    let ring := (h.store.ring e.ring).badErase (0 < h.store.spare)
    ({ h with store := h.store.setRing e.ring ring }).retireSector (Ring.code e.ring) e.gen

/-- A step to the lead's time that waited for the erase is taken, later by the time waited (R313). -/
def Hw.resumeStep (h : Hw) : Hw :=
  match h.lodge.leadStep with
  | some t =>
    let h : Hw := { h with lodge := { h.lodge with leadStep := none } }
    if h.lodge.lock then h else h.copyLeadRecorded t.value (t.delay + (h.clk - t.since))
  | none => h

/-- The reclaim erase of the session log ends (R305, R312, R313). -/
def Hw.logErased' (h : Hw) (ok : Bool) : Hw :=
  let before := h.logSpace
  let spare := 0 < h.store.spare
  let h : Hw :=
    if ok then { h with log := h.log.eraseOldest }
    else ({ h with log := if spare then h.log.replaceOldest else h.log.loseOldest }).retireSector 4 (h.log.gen - (h.log.size / 16 - 1))
  ((h.lowSince before).reclaim).resumeStep

/-- One sector of RETIRE (R526), checked by COMPARE: one that fails is retired (R305); the list goes with the store. Its job reports
progress by sector. -/
def Hw.retireErased (h : Hw) (ok : Bool) : Hw :=
  let left := h.life.retireLeft - 1
  let had := 0 < h.store.spare
  let h : Hw := if ok then h
    else { h.raise (if had then 51 else 52) with
      store := { h.store with retiredSecs := h.store.retiredSecs + 1, spare := h.store.spare - 1 } }
  let h : Hw := { h with life := { h.life with retireLeft := left } }
  if left = 0 then h.finishRetire
  else match h.life.retireJob with
  | some j => h.modJob j (fun x => { x with progress := (retireSectors - left) * 100 / retireSectors })
  | none => h

/-- A flash operation ends: a core reset that waits has its safe point (R464). -/
def Hw.safePoint (h : Hw) : Hw := { h with rst := { h.rst with safe := true } }

/-- The oldest erase that a row made in one step is verified. -/
def Hw.proveErase (h : Hw) (ok : Bool) : Hw :=
  match h.store.erased with
  | e :: es => ({ h with store := { h.store with erased := es } }).eraseProved e ok
  | [] => h

/-- FLASH_ERASE_COMPLETE (R304, R305, R313, R330): the erase in progress ends, then those that rows made in one step; a failed verify
retires the sector. The erase of a compaction begins when its copies have committed (R323). -/
def execFlashEraseComplete (verifyOk : Bool) (s : State) : Out := s.upd fun h =>
  if !h.ins.mainOn || h.pwr.commit.isSome then h
  else
    let h := h.safePoint
    if 0 < h.life.retireLeft then h.retireErased verifyOk
    else if h.log.reclaiming then h.logErased' verifyOk
    else match h.store.erase with
    | some e => if h.store.proving.any (fun v => v.copy && v.ring == e.ring) then h else h.ringErased e.ring verifyOk
    | none => h.proveErase verifyOk

/-! ## Programs (R305, R311, R315, R330) -/

/-- What a complete write was for. -/
def Hw.writeDone (h : Hw) (w : StoreWrite) : Hw :=
  match w.purpose with
  | .job n | .table n => h.endJob n 0 0 []
  | .image n img => h.endJob n 0 0 (be 4 img.configId.toNat)
  | .sealing n => h.finishSeal n w.seq
  | .breaking => h.finishBreak
  | .cal _ last =>
    if last then { h with metro := { h.metro with calJob := h.metro.calJob.map (fun j => { j with written := true }) } } else h
  | .none | .timeSet _ | .calChange _ => h

/-- The head of the queue after a completed program operation: a parameter pair takes body, COMMIT, body, COMMIT; a log record
body with signature, COMMIT, SIGNED; an image its bytes and final record, then COMMIT. A log record that finds E = 0 waits, and
none begins between the records of a block end. -/
def Hw.programmed (h : Hw) (w : StoreWrite) (ws : List StoreWrite) : Hw :=
  let next := fun (h : Hw) (w : StoreWrite) => { h with store := { h.store with queue := { w with phase := w.phase + 1 } :: ws } }
  let pop := fun (h : Hw) => { h with store := { h.store with queue := ws } }
  if w.isLog then
    match w.phase with
    | 0 =>
      if h.log.erased = 0 then
        let w := h.formRecord w
        pop (h.wait w.payload w.signed w.seq w.purpose).reclaim
      else if h.sessionsDue then h
      else
        let b := h.beginLog w
        { b.1 with store := { b.1.store with queue := b.2 :: ws } }
    | 1 => next (({ h with log := h.log.mark w.seq false }).timeCommitted w.purpose w.seq) w
    | _ => (pop { h with log := h.log.mark w.seq w.signed }).writeDone w
  else
    match w.purpose, w.phase with
    | .image _ _, 0 => next h w
    | .image _ img, _ => (pop (h.putImage w.payload img true)).writeDone w
    | _, 0 | _, 2 => next h w
    | _, 1 => next (h.keep w.half (mkRec w.key w.seq false w.payload)) w
    | _, _ => (pop (h.keep (!w.half) (mkRec w.key (w.seq + 1) true w.payload))).writeDone w

/-- The job of a parameter write ends STORE_ERROR (R450) and what it was to do is given up. -/
def Hw.writeLost (h : Hw) (w : StoreWrite) : Hw :=
  match w.purpose with
  | .job n | .timeSet n | .calChange n | .table n | .image n _ | .sealing n => h.endJob n 0x70 0 []
  | .cal _ _ =>
    match h.metro.calJob with
    | some j => ({ h with metro := { h.metro with calJob := none } }).endJob j.job 0x70 0 []
    | none => h
  | .breaking | .none => h

/-- The program operation of a log record fails, its verify (`bad`; R300, R305) or its transfer (R507): the job ends STORE_ERROR,
the record keeps its number and is appended again in the next erased entry. One that lacks SIGNED alone is signed at the next boot
(R285, R311), and a seal break goes on. -/
def Hw.logLost (h : Hw) (w : StoreWrite) (ws : List StoreWrite) (bad : Bool) : Hw :=
  let w := h.formRecord w
  let seq := h.log.number w.seq
  let h := if w.phase = 0 then h.logFails w.payload seq w.signed bad
    else (if bad then h.retireLog else h).writeFailure 0xE001
  let h := h.writeLost w
  let again : StoreWrite := { w with seq := seq, phase := 0, purpose := w.purpose.kept }
  let h : Hw := { h with store := { h.store with queue := if w.phase < 2 then ws ++ [again] else ws } }
  if 2 ≤ w.phase && w.purpose == .breaking then h.finishBreak else h

/-- The program operation of a parameter copy fails its verify (R305): its record is left without COMMIT and its sector is retired;
with a replacement the copy is repeated there, without one the write fails. -/
def Hw.copyFails (h : Hw) (w : StoreWrite) (ws : List StoreWrite) : Hw :=
  let spare := 0 < h.store.spare
  let half := if w.phase < 2 then w.half else !w.half
  let r : Ring := match w.purpose with | .image _ _ => .config | _ => if half then .half1 else .half0
  let gen := (h.store.ring r).topGen
  if spare then
    let h : Hw := { h with store := h.store.setRing r ((h.store.ring r).renew gen) }
    let h := h.retireSector (Ring.code r) gen
    { h with store := { h.store with queue := { w with phase := w.phase / 2 * 2 } :: ws } }
  else
    let h := h.cutCopy w false
    let s := h.store.setRing r (h.store.ring r).wear
    let h := ({ h with store := { s with queue := ws } }).retireSector (Ring.code r) gen
    (h.writeFailure w.key).writeLost w

/-- What a failed program takes back: a copy of compaction or of a pair is left without COMMIT, a UNARY word reads as before (R308,
R319). -/
def RingSt.undo (r : RingSt) (v : Verify) : RingSt :=
  let f := fun (x : Rec) =>
    if x.key = v.key && x.seq = v.seq then
      match v.old with
      | some u => { x with unary := u }
      | none => { x with committed := false }
    else x
  { r with secs := r.secs.map (fun s => if s.gen = v.gen then { s with recs := s.recs.map f } else s) }

/-- The record that a verify names. -/
def RingSt.named (r : RingSt) (v : Verify) : Option Rec :=
  (r.secs.find? (fun s => s.gen = v.gen)).bind (fun s => s.recs.find? (fun x => x.key = v.key && x.seq = v.seq))

/-- The job that a write was for ends STORE_ERROR (R450), and what it was to do is given up: a SEAL leads to no fuse, a
SERVICE_PREPARE does not become READY. -/
def Hw.jobFails (h : Hw) (n : Option Nat) : Hw :=
  let h := h.endJob? n 0x70 0 []
  let h := match n with
    | some n => if h.sealJob n then h.dropSeal else h
    | none => h
  if n.isSome && h.seq.service.job == n then
    { h with seq := { h.seq with service := { h.seq.service with job := none } } }
  else h

/-- What a row programmed in one step fails: it is taken back, a fault log entry with it; a copy of a compaction is programmed again
at the head of the ring. -/
def Hw.takeBack (h : Hw) (v : Verify) : Hw :=
  if v.ring == .sessionLog then
    let f := fun (e : LogEntry) => if e.seq = v.seq then { e with signed := false } else e
    ({ h with log := { h.log with entries := h.log.entries.map f } }).writeFailure v.key
  else
    let ring := h.store.ring v.ring
    let x := ring.named v
    let entries := if v.ring == .faultLog && v.key = 5 then h.faults.log.filter (fun e => !x.any (fun x => x.payload == e.bytes)) else h.faults.log
    let h : Hw := { h with store := h.store.setRing v.ring (ring.undo v), faults := { h.faults with log := entries } }
    let h := (h.writeFailure v.key).jobFails v.job
    match x with
    | some r => if v.copy then (h.place v.ring r).prove v.ring r true none else h
    | none => h

/-- The verify of what a row programmed in one step fails (R305): its sector is retired. A spare takes over what the sector holds and
the program is repeated there (DESIGN CHOICE, log 29); without one it is taken back. -/
def Hw.proveFails (h : Hw) (v : Verify) : Hw :=
  let spare := 0 < h.store.spare
  let again := fun (h : Hw) => if spare then { h with store := { h.store with proving := v :: h.store.proving } } else h.takeBack v
  match v.ring with
  | .sessionLog =>
    match h.log.entries.find? (fun e => e.seq = v.seq) with
    | some e => again (h.retireLogAt e.pos)
    | none => h
  | r =>
    let ring := h.store.ring r
    let ring := if spare then ring.renew v.gen else ring.wearGen v.gen
    again (({ h with store := h.store.setRing r ring }).retireSector (Ring.code r) v.gen)

/-- The oldest program that a row made in one step ends: its bytes have come on channel 6 (R500, R507), and it is verified. -/
def Hw.proved (h : Hw) (v : Verify) (ok : Bool) : Hw :=
  let t := h.transfer 6 v.len
  if !t.2 then t.1.takeBack v else if ok then t.1 else t.1.proveFails v

/-- The write at the head of the store's queue is left without COMMIT and ends STORE_ERROR (R507, R308). -/
def Hw.programLost (h : Hw) : Hw :=
  match h.store.queue with
  | w :: ws =>
    if w.isLog then h.logLost w ws false
    else
      let h := h.cutCopy w false
      (({ h with store := { h.store with queue := ws } }).writeFailure w.key).writeLost w
  | [] => h

/-- The program operation of the write at the head of the queue ends. Its bytes have come on channel 6 (R500, R507). -/
def Hw.programEnds (h : Hw) (w : StoreWrite) (ws : List StoreWrite) (ok : Bool) : Hw :=
  let t := h.transfer 6 w.payload.length
  if !t.2 then t.1.programLost
  else if ok then t.1.programmed w ws else if w.isLog then t.1.logLost w ws true else t.1.copyFails w ws

/-- FLASH_PROGRAM_COMPLETE (R305, R311, R315, R330, R531): the program operation in progress ends: that of FW_ACTIVATE, the oldest
that a row made in one step, or that of the write at the head of the queue. -/
def execFlashProgramComplete (verifyOk : Bool) (s : State) : Out := s.upd fun h =>
  if !h.ins.mainOn || h.pwr.commit.isSome then h
  else
    let h := h.safePoint
    if h.fw.programming then h.activated verifyOk
    else match h.store.proving with
    | v :: vs => ({ h with store := { h.store with proving := vs } }).proved v verifyOk
    | [] => match h.store.queue with
      | w :: ws => h.programEnds w ws verifyOk
      | [] => h

/-! ## Compaction (R323, R324) -/

/-- The module is idle in the sense of R324. -/
def Hw.storeIdle (h : Hw) : Bool := h.nothingQueued && h.pwr.commit.isNone

/-- Whether a ring is to be compacted now (R324). -/
def Hw.compactDue (h : Hw) (r : Ring) : Bool :=
  let ring := h.store.ring r
  2 ≤ ring.secs.length &&
    (ring.free < (Ring.urgent r) ||
      (h.storeIdle && match r with
        | .half0 | .half1 => 4 * ring.liveShare (h.store.live r) < sectorRoom
        | .config => ring.liveShare (h.store.live r) = 0
        | .faultLog | .sessionLog => false))

/-- IDLE_COMPACTION (R312, R323, R324): the live records are copied, then the erase of the oldest sector begins. -/
def execIdleCompaction (r : Ring) (s : State) : Out := s.upd fun h =>
  if !h.ins.booted || h.pwr.commit.isSome || h.inLimp || h.store.erase.isSome || h.log.reclaiming || 0 < h.life.retireLeft then h
  else match r with
  | .sessionLog =>
    if h.storeIdle && h.log.erased < 256 && 0 < h.log.reclaimable h.ackSeq then { h with log := { h.log with reclaiming := true } }
    else h.reclaim
  | _ =>
    if h.compactDue r then
      let h := h.copyOldest r
      { h with store := { h.store with erase := some { ring := r, retire := false } } }
    else h

/-! ## The scrub (R326, R468, R469, R472) -/

/-- A word that an injection of Folly meets: which one is a free value. -/
def Hw.wordMet (h : Hw) (totals : Bool) : SramWord :=
  let n := Config.freeNat (h.free + 1)
  if totals then .totalizer (Fin.ofNat 8 (n / 2)) (n % 2 = 1)
  else match n % 5 with
    | 0 => .other
    | 1 => .slot (Fin.ofNat 128 (n / 10)) (n / 5 % 2 = 1)
    | 2 => .gauge
    | 3 => .capture
    | _ => .jobTable

/-- The checks of a scrub that Folly inverts: checker 0x02, or 0x03 for totalizer words. -/
def Hw.scrubInjected (h : Hw) (id : Nat) : Hw :=
  let n := (h.faults.inject.getD (id - 1) (0, false)).1
  (List.range n).foldl (fun h _ =>
    let hard := h.hitHard id
    let f : EccFinding := { retained := true, offset := Config.freeNat h.free, uncorrectable := hard, word := h.wordMet (id = 3) }
    (((h.take id).draw).draw).eccFound f true) h

/-- SRAM_SCRUB (R326): what the scrub finds, and what Folly makes it find. -/
def execSramScrub (fs : List EccFinding) (s : State) : Out := s.upd fun h =>
  if h.ins.mainOn && h.ins.booted then
    let h := fs.foldl (fun h f => h.eccFound f false) h.wake
    (h.scrubInjected 2).scrubInjected 3
  else h

end Sys2Proof.Machine
end

