-- ==== Sys2Proof/Machine/CmdMetro.lean ====
section
/-! DEFINITION. The metrology and session commands (R266, R268, R270, R271, R277–R282, R294–R298, R435–R438). -/

namespace Sys2Proof.Machine

/-! ## Room in the log -/

/-- The refusal for lack of log space below a level, or of erased entries (R298, R313). -/
def Hw.logRefuses (h : Hw) (level : Int) : Option Nat :=
  if h.logSpace < level then some stLogFull else if h.logErased < 3 then some stBusy else none

/-! ## Channels -/

/-- A channel number of a command, 1–8. -/
def chanOk (c : Byte) : Bool := 1 ≤ c.toNat && c.toNat ≤ 8

/-- The reply of R437. -/
def Hw.metroData (h : Hw) (c : Nat) : List Byte :=
  let x := h.chan c
  be 1 (c + 1) ++ be 1 x.disRun ++ be 4 (x.word c).toNat ++ zeros 2 ++ be 8 (x.cImp / 2 ^ 32) ++ be 8 (x.cExp / 2 ^ 32) ++
    be 4 x.compared ++ be 4 x.disagreed

/-- METRO_STATUS (R270, R437): the bits DISAGREE_SEEN, CREEP and OVERRANGE are cleared as they are read; sessions keep them. -/
def execMetroStatus (o : Origin) (chan : Byte) (s : State) : Out := s.upd fun h => h.serve (.metroStatus o chan) fun h =>
  if chanOk chan then
    let c := chan.toNat - 1
    let data := h.metroData c
    (h.gather.modChan c (fun x => { x with disagreeSeen := false, creep := false, overrange := false })).ok o data
  else h.respond o stBadParam []

/-- Number of the last completed block, 0 before the first has ended (DESIGN CHOICE, log 48). -/
def Metro.lastBlock (m : Metro) : Nat := m.block - 1

/-- METRO_READ (R256, R435). -/
def execMetroRead (o : Origin) (chan : Byte) (s : State) : Out := s.upd fun h => h.serve (.metroRead o chan) fun h =>
  if chanOk chan then
    let x := h.chan (chan.toNat - 1)
    let v := x.valsP
    h.ok o ([chan, 0] ++ be 4 h.metro.lastBlock ++ be 4 v.volt ++ beInt 4 v.amp ++ beInt 4 v.power ++ be 4 v.freq)
  else h.respond o stBadParam []

/-- REGISTER_READ (R271, R435). -/
def execRegisterRead (o : Origin) (mask : Half) (s : State) : Out := s.upd fun h => h.serve (.registerRead o mask) fun h =>
  if mask = 0 || 256 ≤ mask.toNat then h.respond o stBadParam []
  else
    let chans := (List.range 8).filter (fun c => mask.getLsbD c)
    h.ok o (be 4 h.metro.lastBlock ++ be 8 h.metro.blockTime.toNat ++
      chans.flatMap (fun c => be 8 ((h.chan c).imp / 2 ^ 32) ++ be 8 ((h.chan c).exp / 2 ^ 32)))

/-! ## Sessions (R277–R282) -/

/-- The refusal of R277, in its order, if one applies. -/
def Hw.openRefused (h : Hw) (mask : Half) : Option Nat :=
  let m : BitVec 8 := BitVec.ofNat 8 mask.toNat
  let cs := maskChans m
  if !h.sealed then some stWrongLife
  else if !h.ins.storeReady then some stNotReady
  else if h.serviceReady || h.seq.state == .standby || h.inLimp then some stWrongState
  else if h.seq.state == .faultLatched then some stFaultLatched
  else if mask = 0 || 256 ≤ mask.toNat || cs.any (fun c => !(h.chan c).enabled) ||
      cs.any (fun c => cs.any (fun d => (h.chan c).dc != (h.chan d).dc)) then some stBadParam
  else if cs.any (fun c => (h.chan c).held) then some stMetroHold
  else if h.slots.any (fun s => s.open? && !s.captured && (s.mask &&& m) != 0) then some stWrongState
  else if h.lodge.status == .invalid && !h.image.allowUnsync then some stTimeInvalid
  else if !h.slots.any (fun s => s.st == .free) then some stNoSlot
  else h.logRefuses 34

/-- The lowest-numbered FREE slot. -/
def Hw.freeSlot (h : Hw) : Nat := (slotNumbers.find? (fun n => (h.slot n).st == .free)).getD 0

/-- The slot as OPEN_SESSION leaves it: its start capture comes at the next block end. -/
def Hw.openedSlot (h : Hw) (mask : Half) (sid : List Byte) : Slot :=
  { Slot.none with st := .opened, startPending := true, mask := BitVec.ofNat 8 mask.toNat, sid := sid
                   flags := (if h.lodge.status == .invalid then 2 else 0) ||| (if h.pwr.onBattery then 8 else 0), openJob := some h.proto.lastJob }

/-- OPEN_SESSION (R277, R278). -/
def execOpenSession (o : Origin) (mask : Half) (sid : List Byte) (s : State) : Out := s.upd fun h => h.serve (.openSession o mask sid) fun h =>
  if sid.length ≠ 16 then h.respond o stBadLength []
  else match h.openRefused mask with
  | some st => h.respond o st []
  | none =>
    let before := h.logSpace
    let n := h.freeSlot
    let h := (h.newJob 0x43 false).pending o (be 1 n)
    (h.modSlot n (fun _ => h.openedSlot mask sid)).lowSince before

/-- CLOSE_SESSION (R281, R282): a slot that is not OPEN holds no identifier to compare, so its state comes first. -/
def execCloseSession (o : Origin) (slot : Byte) (sid : List Byte) (s : State) : Out := s.upd fun h => h.serve (.closeSession o slot sid) fun h =>
  let n := slot.toNat
  let x := h.slot n
  if 127 < n then h.respond o stBadParam []
  else if !x.open? then h.respond o stWrongState []
  else if sid ≠ x.sid then h.respond o stBadParam []
  else match x.closeJob with
  | some j => h.respond o stPending (be 2 j)
  | none =>
    let h := (h.newJob 0x44 false).pending o []
    h.modSlot n (fun x => { x.askClose 1 0 with closeJob := some h.proto.lastJob })

def SlotState.code : SlotState → Nat
  | .free => 0 | .opened => 1 | .closed => 2 | .closedPf => 3

/-- The reply of R436. -/
def Hw.slotData (h : Hw) (n : Nat) : List Byte :=
  let x := h.slot n
  let lost := be 4 h.recordsLost
  if x.st == .free then be 1 n ++ zeros 65 ++ lost ++ zeros 4
  else
    let live := x.open? && !x.captured
    let imp := if x.startPending then 0 else (if live then h.regSum x.mask (·.imp) else x.impStop) - x.impStart
    let exp := if x.startPending then 0 else (if live then h.regSum x.mask (·.exp) else x.expStop) - x.expStart
    be 1 n ++ be 1 x.st.code ++ be 1 (b2n x.startPending + 2 * b2n x.closePending) ++ be 1 x.reason ++ be 2 x.mask.toNat ++
      fit 16 0 x.sid ++ be 8 x.tStart.toNat ++ be 8 x.impStart ++ be 8 x.expStart ++ be 4 (if x.open? then 0 else x.seq) ++ be 8 imp ++ be 8 exp ++ lost ++
      be 4 x.metro.toNat

/-- SESSION_STATUS (R280, R436). -/
def execSessionStatus (o : Origin) (slot : Byte) (s : State) : Out := s.upd fun h => h.serve (.sessionStatus o slot) fun h =>
  if 127 < slot.toNat then h.respond o stBadParam [] else h.ok o (h.slotData slot.toNat)

/-! ## Records and keys (R294–R297) -/

/-- STATE of R296 and the record of a log entry. -/
def Hw.entryData (h : Hw) (e : LogEntry) : List Byte :=
  be 4 e.seq ++ be 1 (b2n e.signed + 2 * b2n e.damaged + 4 * b2n (e.seq ≤ h.ackSeq)) ++ zeros 3 ++ fit 192 0xFF e.bytes

/-- RECORD_READ (R296, R435). An entry that fails its checks cannot be read. -/
def execRecordRead (o : Origin) (seq : Word) (s : State) : Out := s.upd fun h => h.serve (.recordRead o seq) fun h =>
  if seq = 0 then
    if h.life.retired then h.ok o (be 4 0 ++ [1] ++ zeros 3 ++ h.life.retirement) else h.respond o stBadParam []
  else match h.log.find seq.toNat with
  | some e =>
    let a := h.readRecord 7 9 4 0xE001
    if a.2 then a.1.ok o (a.1.entryData e) else a.1.respond o stStoreError []
  | none => h.respond o stBadParam []

/-- ACK_SEQ becomes n (R297): CLOSED slots up to it become FREE. -/
def Hw.ackTo (h : Hw) (n : Nat) : Hw :=
  let h := h.pair 0x200 (be 4 n)
  let h : Hw := { h with ackSeq := n, slots := h.slots.map (fun (x : Slot) => if x.st == .closed && x.seq ≤ n then Slot.none else x) }
  h.reclaim

/-- RECORD_ACK (R297). -/
def execRecordAck (o : Origin) (n : Word) (s : State) : Out := s.upd fun h => h.serve (.recordAck o n) fun h =>
  if h.log.lastSeq < n.toNat then h.respond o stBadParam []
  else if n.toNat ≤ h.ackSeq then h.ok o []
  else (h.ackTo n.toNat).ok o []

/-- PUBLIC_KEY_READ (R294): generation 0 names the current one. -/
def execPublicKeyRead (o : Origin) (gen : Word) (s : State) : Out := s.upd fun h => h.serve (.publicKeyRead o gen) fun h =>
  let g := if gen = 0 then h.life.keyGen else gen.toNat
  match h.life.pubKeys.find? (fun k => k.1 = g) with
  | some k => h.ok o (be 4 g ++ fit 64 0 k.2)
  | none => h.respond o stBadParam []

/-! ## Calibration (R244, R266, R268) and SEAL (R438) -/

/-- CAL_WRITE (R266, R298, R313). -/
def execCalWrite (o : Origin) (chan : Byte) (rsv : BitVec 24) (block : List Byte) (s : State) : Out :=
  s.upd fun h => h.serve (.calWrite o chan rsv block) fun h =>
    let c := chan.toNat - 1
    if block.length ≠ 48 then h.respond o stBadLength []
    else if !chanOk chan || rsv ≠ 0 || !calCrcOk block || !calInRange block then h.respond o stBadParam []
    else if h.slots.any (fun s => s.open? && s.mask.getLsbD c) then h.respond o stWrongState []
    else if h.metro.calJob.isSome then h.respond o stBusy []
    else match h.logRefuses 18 with
    | some st => h.respond o st []
    | none =>
      let old := (h.chan c).calP
      let h := (h.newJob 0x49 false).pending o []
      let j : CalJob := { chan := c, job := h.proto.lastJob, written := false }
      let h : Hw := { h with metro := { h.metro with calJob := some j } }
      let h := (h.enqueue (0x100 + c) block (.cal c false)).enqueue (0x108 + c) block (.cal c true)
      h.enqueueLog (h.calRecord c block old) (.calChange j.job)

/-- CAL_READ (R268). -/
def execCalRead (o : Origin) (chan : Byte) (s : State) : Out := s.upd fun h => h.serve (.calRead o chan) fun h =>
  if chanOk chan then
    let x := h.chan (chan.toNat - 1)
    h.ok o ([chan] ++ be 1 x.check ++ zeros 2 ++ fit 48 0 x.calP)
  else h.respond o stBadParam []

/-- The refusal of R438; a second SEAL while one runs is BUSY (DESIGN CHOICE, log 40). -/
def Hw.sealRefused (h : Hw) : Option Nat :=
  if h.life.state ≠ 2 || 32 ≤ h.life.seals then some stWrongLife
  else if h.sealing then some stBusy
  else if h.lines.calenLow || h.metro.calJob.isSome || h.metro.chans.any (fun x => x.enabled && x.calHold) then some stWrongState
  else h.logRefuses 2

/-- SEAL (R438, R450, R522): the job ends when the SEAL_STATEMENT record is in the log. -/
def execSeal (o : Origin) (s : State) : Out := s.upd fun h => h.serve (.seal o) fun h =>
  match h.sealRefused with
  | some st => h.respond o st []
  | none =>
    let h := (h.newJob 0x4B false).pending o []
    h.beginSeal h.proto.lastJob

end Sys2Proof.Machine
end

