-- ==== Sys2Proof/Machine/Holdup.lean ====
section
/-! DEFINITION. The charger and the gauge (R346–R360, R324, R326). -/

namespace Sys2Proof.Machine

/-! ## Charger settings (R346, R348, R349) -/

/-- CV_NOM and V_PRE of a chemistry, mV per cell. -/
def Chem.cvNom : Chem → Nat
  | .liIon => 4200
  | .lfp => 3650

def Chem.vPre : Chem → Nat
  | .liIon => 3000
  | .lfp => 2500

/-- CV_EFF in mV per cell: CV_NOM − CV_REDUCE − the offset of band 3. -/
def Hw.cvEff (h : Hw) : Nat := h.image.chem.cvNom - h.chg.set.cvReduce - (if h.chg.band = 3 then 100 else 0)

/-- I_TERM in force, never above half of I_CHG (R346). -/
def Hw.iTerm (h : Hw) : Nat :=
  min ((h.image.charge.iTerm).getD (defaultTerm h.image.designCap h.image.charge.iChg) |> h.chg.set.iTerm.getD)
    (h.chg.set.iChg / 2)

/-- The charge current in force in mA (R348, R349, R353). -/
def Hw.iSet (h : Hw) : Nat :=
  if h.chg.govHold then 0
  else
    let half := fun (n : Nat) => if h.chg.govHalf then n / 2 else n
    match h.chg.state with
    | .precondition => half (max 100 (h.chg.set.iChg / 10))
    | .cc | .cv | .topoff => half (if h.chg.band = 1 then h.chg.set.iChg / 2 else h.chg.set.iChg)
    | _ => 0

/-- Cell voltage in mV. -/
def Hw.cellMv (h : Hw) : Nat := if h.image.cells = 0 then 0 else h.pwr.vbat / h.image.cells

/-- Band of a pack temperature in 0.01 °C, coming from a band (R349): outwards at once, back inwards 2 °C inside it. -/
def packBand (t : Int) (was : Nat) : Nat :=
  if t < 0 || (was = 0 && t < 200) then 0
  else if t < 1000 || (was ≤ 1 && t < 1200) then 1
  else if 5500 < t || (was = 4 && 5300 < t) then 4
  else if 4500 < t || (3 ≤ was && 4300 < t) then 3
  else 2

/-- Charging is not allowed in the band. -/
def noCharge (band : Nat) : Bool := band = 0 || 4 ≤ band

/-! ## Charger states (R348) -/

/-- The charger enters a state; the charge timer counts in PRECONDITION, CC and CV only. -/
def Hw.chgTo (h : Hw) (st : ChgState) : Hw :=
  { h with chg := { h.chg with state := st, timerRun := st == .precondition || st == .cc || st == .cv } }

/-- Entry to FAULT. -/
def Hw.chgFault (h : Hw) (reason : Nat) : Hw :=
  let h := h.chgTo .fault
  ({ h with chg := { h.chg with fault := reason } }).raise 37

/-- The charge timer starts anew, and a fault reason goes with it. -/
def Hw.chgReset (h : Hw) : Hw := { h with chg := { h.chg with timer := 0, fault := 0 } }

/-- The enabling conditions: VIN usable, CHG_EN, the main domain on, the unit present. -/
def Hw.chgEnabled (h : Hw) : Bool :=
  h.holdup && h.chg.set.en && h.pwr.vinUsable && !h.pwr.onBattery && !h.pwr.handingOver && h.ins.mainOn && !h.gone &&
    h.seq.state != .standby

/-- The gauge works: the unit is present, the main domain on, VBAT connected, the core not in LIMP. -/
def Hw.gauges (h : Hw) : Bool := h.holdup && h.ins.booted && !h.pwr.battAbsent && !h.inLimp && h.pwr.commit.isNone

/-- A reference point of the gauge (R357): FCC is learned from two of them at least 40 % apart with no gap between. -/
def Hw.reference (h : Hw) (soc u : Nat) : Hw :=
  let g := h.gauge
  let span := match g.socRef with | some s => (s : Int) - soc | none => 0
  let learn := g.socRef.isSome && 400000000 ≤ span.natAbs
  let raw := g.dqRef.natAbs * 1000000 / span.natAbs
  let new := max (max (g.fcc * 9 / 10) (h.image.designCap / 2)) (min (min (g.fcc * 11 / 10) (h.image.designCap * 6 / 5)) raw)
  let g := { g with soc := soc, u := u, noRest := false, dqRef := 0, socRef := some soc, refAt := h.clk }
  if learn then
    ({ h with gauge := { g with fcc := new, learning := false, learnedDue := true } }).raise 39
  else { h with gauge := g }

/-- Entry to DONE: CHARGE_DONE; where the gauge works its anchor of R354, and its state written at the end of charge (R326). -/
def Hw.chgDone (h : Hw) : Hw :=
  let h := (h.chgTo .done).raise 36
  if h.gauges then
    let h := h.reference 1000000000 10000000
    ({ h with gauge := { h.gauge with stateDue := true } }).gaugeWrites
  else h

/-- "Evaluate" of R348; a band without charging pauses it, a short BTS is a fault. -/
def Hw.chgEvaluate (h : Hw) : Hw :=
  if 10000 < h.pwr.packTemp then h.chgFault 3
  else
    let h : Hw := { h with chg := { h.chg with band := packBand h.pwr.packTemp h.chg.band } }
    if noCharge h.chg.band then h.chgTo .tempPause
    else if h.cellMv < h.image.chem.vPre then h.chgTo .precondition
    else if h.cellMv + h.chg.set.vRech < h.cvEff then h.chgTo .cc
    else h.chgDone

/-- The pack is absent (R350, R351). -/
def Hw.packGone (h : Hw) (bts : Bool) : Hw :=
  let h := h.chgTo .absent
  ({ h with pwr := { h.pwr with battAbsent := true, btsOpen := bts }
            gauge := { h.gauge with socRef := none, foundWait := false } }).raise 34

/-- The pack is found again (R351, R359); a charger that stood in FAULT starts its timer anew. -/
def Hw.packFound (h : Hw) : Hw :=
  let h := ({ h with pwr := { h.pwr with battAbsent := false, btsOpen := false }
                     gauge := { h.gauge with foundWait := true } }).raise 34
  let h := if h.chg.fault = 0 then h else h.chgReset
  if h.chgEnabled then h.chgEvaluate else h.chgTo .off

/-! ## The charger's steps -/

/-- The charger works in a state, not held by the governor (R353). -/
def Hw.chgIn (h : Hw) (st : ChgState) : Bool := h.chg.state == st && !h.chg.govHold && h.ins.mainOn

/-- PRECONDITION_DONE (R348). -/
def execPreconditionDone (s : State) : Out := s.upd fun h => if h.chgIn .precondition then h.chgTo .cc else h

/-- CV_REACHED (R348). -/
def execCvReached (s : State) : Out := s.upd fun h => if h.chgIn .cc then h.chgTo .cv else h

/-- CHARGE_TERMINATION (R348). -/
def execChargeTermination (s : State) : Out := s.upd fun h =>
  if h.chgIn .cv then (if h.chg.set.tTopoff = 0 then h.chgDone else h.chgTo .topoff) else h

/-- TOPOFF_END (R348, R354). -/
def execTopoffEnd (s : State) : Out := s.upd fun h => if h.chgIn .topoff then h.chgDone else h

/-- RECHARGE (R348). -/
def execRecharge (s : State) : Out := s.upd fun h => if h.chgIn .done then (h.chgReset).chgTo .cc else h

/-- CHARGE_TIMER_EXPIRY (R348): 10 h of charge timer. -/
def execChargeTimerExpiry (s : State) : Out := s.upd fun h =>
  if h.chg.timerRun && !h.chg.govHold && h.ins.mainOn then (h.advance (36000000000 - h.chg.timer)).chgFault 1 else h

/-- PRECONDITION_TIMEOUT (R348). -/
def execPreconditionTimeout (s : State) : Out := s.upd fun h => if h.chgIn .precondition then h.chgFault 2 else h

/-- CHARGER_BAND_CHANGE (R348, R349): the pack temperature in 0.01 °C. -/
def execChargerBandChange (temp : Int) (s : State) : Out := s.upd fun h =>
  if h.holdup && h.ins.mainOn && !h.pwr.battAbsent then
    let band := packBand temp h.chg.band
    let h : Hw := { h with pwr := { h.pwr with packTemp := temp }, chg := { h.chg with band := band } }
    match h.chg.state with
    | .precondition | .cc | .cv | .topoff | .done =>
      if 10000 < temp then h.chgFault 3 else if noCharge band then h.chgTo .tempPause else h
    | .tempPause => if 10000 < temp then h.chgFault 3 else if noCharge band then h else h.chgEvaluate
    | .off | .absent | .fault => h
  else h

/-- CHARGER_RESTART_EVAL (R342 step 5, R348): 1 s after the enabling conditions returned. -/
def execChargerRestartEval (s : State) : Out := s.upd fun h =>
  if h.chg.restartDue && h.chgEnabled then
    let h : Hw := { h with chg := { h.chg with restartDue := false } }
    if h.pwr.battAbsent then h.chgTo .absent
    else
      let sagged := h.cellMv + h.chg.set.vRech < h.cvEff
      (if sagged || h.chg.fault ≠ 0 then h.chgReset else h).chgEvaluate
  else h

/-- What a probe has measured. -/
def Hw.probed (h : Hw) (p : ProbeSample) : Hw :=
  { h with pwr := { h.pwr with vbat := p.vbat, packTemp := p.temp.getD h.pwr.packTemp } }

/-- BTS above 100 °C while the charger works on the pack, or pauses: FAULT 0x03 (R348). -/
def Hw.btsShort (h : Hw) : Bool :=
  10000 < h.pwr.packTemp && !(h.chg.state == .off || h.chg.state == .absent || h.chg.state == .fault)

/-- PACK_PROBE (R348, R351): while VIN is usable and not on battery. -/
def execPackProbe (sample : ProbeSample) (s : State) : Out := s.upd fun h =>
  if h.holdup && h.ins.mainOn && h.pwr.vinUsable && !h.pwr.onBattery && !h.pwr.handingOver && !h.gone && h.seq.state != .standby then
    let h := h.probed sample
    let level := h.image.cells * 1500 < sample.vbat
    let passes := sample.drop ≤ 1000
    let bts := match sample.temp with | some t => t ≤ 10000 | none => false
    if h.pwr.battAbsent then (if level && passes && bts then h.packFound else h)
    else if !level || !passes || sample.temp.isNone then h.packGone sample.temp.isNone
    else if h.btsShort then h.chgFault 3
    else h
  else h

/-- The settings changed: the charger stops, or it will evaluate 1 s after CHG_EN came back. -/
def Hw.chgSettings (h : Hw) (c : ChargeCfg) : Hw :=
  let was := h.chg.set.en
  let h : Hw := { h with chg := { h.chg with set := c } }
  if !c.en then h.chgOff
  else if !was && h.chgEnabled && h.chg.state == .off then { h with chg := { h.chg with restartDue := true } }
  else h

/-- The safe defaults of R352 over the image. -/
def Hw.safeCharge (h : Hw) : ChargeCfg :=
  let c := h.image.charge
  { c with iChg := min c.iChg 500, cvReduce := max c.cvReduce 50 }

/-- The instant of the host-contact timeout. -/
def Hw.keepaliveDue (h : Hw) : Nat := h.chg.contactAt + 60000000 * h.image.keepaliveMin

/-- KEEPALIVE_TIMEOUT (R346, R352). -/
def execKeepaliveTimeout (s : State) : Out := s.upd fun h =>
  if h.holdup && h.ins.mainOn && h.ins.booted && !h.chg.safeDefaults then
    let h := (h.reach h.keepaliveDue).chgSettings h.safeCharge
    ({ h with chg := { h.chg with safeDefaults := true } }).raise 38
  else h

/-! ## The gauge (R354–R359) -/

/-- The table in force (R358). -/
def Gauge.table (g : Gauge) : Option (List (Nat × Nat)) := g.active

/-- Band 0–7 of the resistance table at a state of charge. -/
def Gauge.resBand (g : Gauge) : Nat := min 7 (g.soc / 125000000)

/-- Resistance of a band in 0.1 mΩ: learned, otherwise the default of the chemistry. -/
def Hw.resOf (h : Hw) (b : Nat) : Nat := h.gauge.res.getD b (Config.defaultRes h.image.chem b)

/-- A resistance step (R357): at least DESIGN_CAP / 5; ΔV in 0.1 mV over ΔI in mA. -/
def Hw.learnRes (h : Hw) (step : Option (Nat × Nat)) : Hw :=
  match step with
  | some (ma, dv) =>
    if h.image.designCap ≤ 5 * ma && ma ≠ 0 then
      let res := ((List.range 8).map h.resOf).set h.gauge.resBand (min 65535 (dv * 1000 / ma))
      { h with gauge := { h.gauge with res := res, learnedDue := true } }
    else h
  | none => h

/-- Discharge adds to the cycle count (R357). -/
def Gauge.cycle (g : Gauge) (dq : Int) : Gauge :=
  let d := g.discharge + dq.toNat
  let full := g.fcc * 1000
  if full = 0 || d < full then { g with discharge := d }
  else { g with discharge := d % full, cycles := g.cycles + d / full, learnedDue := true }

/-- SOC and U after a counted charge in µAh (R354, R356). -/
def Gauge.count (g : Gauge) (dq : Int) (clk : Nat) : Gauge :=
  let soc : Int := if g.fcc = 0 then g.soc else (g.soc : Int) - dq * 1000000 / g.fcc
  let du := if g.fcc = 0 then 0 else dq.natAbs * 5000 / g.fcc
  let day := if g.noRest then (clk - g.updatedAt) * 5000000 / 86400000000 else 0
  { g with soc := min 1000000000 soc.toNat, u := g.u + du + day, dqRef := g.dqRef + dq, updatedAt := clk }

/-- GAUGE_UPDATE (R68, R354, R356, R357). -/
def execGaugeUpdate (g : GaugeSample) (s : State) : Out := s.upd fun h =>
  if h.gauges then
    let h : Hw := { h.wake with gauge := (h.gauge.count g.dq h.clk).cycle g.dq }
    (h.learnRes g.step).gaugeWrites
  else h

/-- A custom table read at a cell voltage in 0.1 mV: the segment that holds it. -/
def segment (v : Nat) : List (Nat × Nat) → Option ((Nat × Nat) × (Nat × Nat))
  | a :: b :: r => if a.2 ≤ v && v ≤ b.2 && a.2 < b.2 then some (a, b) else segment v (b :: r)
  | _ => none

/-- A stretch of a custom table on which the voltage stands still, at a cell voltage: the charge at its two ends. -/
def flatAt (v : Nat) : List (Nat × Nat) → Option (Nat × Nat)
  | a :: b :: r => if a.2 = v && b.2 = v then some (a.1, ((flatAt v (b :: r)).map (·.2)).getD b.1) else flatAt v (b :: r)
  | _ => none

/-- SOC of a cell voltage by the active table, and whether its slope there is at least 2 mV per 1 %. Between two points of a
custom table it runs straight. On a flat stretch the slope is 0 and the charge lies anywhere between its ends; a voltage outside
that table has no stated value (DESIGN CHOICE, log 32). -/
def Hw.ocvRead (h : Hw) (v : Nat) : Hw × Nat × Bool :=
  match h.gauge.table with
  | none => (h, min 1000000000 (Config.ocvSoc h.image.chem v), 20 ≤ Config.ocvSlope h.image.chem v)
  | some t =>
    match flatAt v t, segment v t with
    | some (p, q), _ => (h.draw, (p + Config.freeNat h.free % (q - p + 1)) * 100000, false)
    | none, some (a, b) => (h, (a.1 * (b.2 - a.2) + (v - a.2) * (b.1 - a.1)) * 100000 / (b.2 - a.2), 2 * (b.1 - a.1) ≤ 10 * (b.2 - a.2))
    | none, none => (h.draw, Config.freeNat h.free % 1000000001, Config.freeNat h.free % 2 = 1)

/-- REST_POINT (R355, R357, R358): `ocv` is the cell voltage in 0.1 mV. A table loaded applies from here. -/
def execRestPoint (ocv : Nat) (s : State) : Out := s.upd fun h =>
  if h.gauges then
    let h : Hw := { h with gauge := { h.gauge with active := h.gauge.custom } }
    let r := h.ocvRead ocv
    if r.2.2 then (r.1.reference r.2.1 10000000).gaugeWrites else r.1
  else h

/-- NO_REST (R356). -/
def execNoRest (s : State) : Out := s.upd fun h =>
  if h.gauges && !h.gauge.noRest then
    ({ h with gauge := { h.gauge with noRest := true, updatedAt := h.clk } }).raise 39
  else h

/-- PACK_FOUND_OCV (R359): U is 10 %, whatever the slope. -/
def execPackFoundOcv (ocv : Nat) (s : State) : Out := s.upd fun h =>
  if h.gauges && h.gauge.foundWait then
    let r := h.ocvRead ocv
    let g := r.1.gauge
    { r.1 with gauge := { g with soc := r.2.1, u := 100000000, foundWait := false, socRef := none } }
  else h

/-- GAUGE_STATE_CHECKPOINT (R326): key 0x0401; in LIMP the store takes no such write (R482). -/
def execGaugeStateCheckpoint (s : State) : Out := s.upd fun h =>
  if h.holdup && h.ins.booted && h.pwr.commit.isNone && !h.inLimp then
    ({ h with gauge := { h.gauge with stateDue := true } }).wake.gaugeWrites
  else h

end Sys2Proof.Machine
end

