-- ==== Sys2Proof/Machine/CmdBattery.lean ====
section
/-! DEFINITION. The battery commands (R338, R346, R348, R352, R358–R360, R439, R440). -/

namespace Sys2Proof.Machine

/-- The settings that CHARGER_SET carries, if every one lies in the range of R346. -/
def chargerParams (chgEn iChg cvReduce : Byte) (iTerm : Half) (tTop vRech : Byte) : Option ChargeCfg :=
  let i := 100 + 50 * iChg.toNat
  let t := iTerm.toNat
  if chgEn.toNat ≤ 1 && iChg.toNat ≤ 38 && cvReduce.toNat ≤ 30 && 20 ≤ t && 2 * t ≤ i && t % 10 = 0 && tTop.toNat ≤ 60 &&
      5 ≤ vRech.toNat && vRech.toNat ≤ 30 then
    some { en := chgEn = 1, iChg := i, cvReduce := 10 * cvReduce.toNat, iTerm := some t, tTopoff := tTop.toNat,
           vRech := 10 * vRech.toNat }
  else none

/-- CHARGER_SET takes effect: the safe defaults end (R352), FAULT is left by an evaluation (R348). -/
def Hw.setCharger (h : Hw) (c : ChargeCfg) : Hw :=
  let fault := h.chg.state == .fault
  let h := h.chgSettings c
  let h : Hw := { h with chg := { h.chg with safeDefaults := false, contactAt := h.clk } }
  if fault && h.chgEnabled && !h.pwr.battAbsent then h.chgReset.chgEvaluate else h

/-- CHARGER_SET (R346, R352, R439). -/
def execChargerSet (o : Origin) (chgEn iChg cvReduce : Byte) (iTerm : Half) (tTop vRech : Byte) (s : State) : Out :=
  s.upd fun h => h.serve (.chargerSet o chgEn iChg cvReduce iTerm tTop vRech) fun h =>
    match chargerParams chgEn iChg cvReduce iTerm tTop vRech with
    | some c => (h.setCharger c).ok o []
    | none => h.respond o stBadParam []

/-- CHARGER_KEEPALIVE (R352). -/
def execChargerKeepalive (o : Origin) (s : State) : Out := s.upd fun h => h.serve (.chargerKeepalive o) fun h =>
  { h with chg := { h.chg with contactAt := h.clk } }.ok o []

/-- Pack current in mA, positive into the pack, as last converted. -/
def Hw.packMa (h : Hw) : Int := (h.result 42).value

/-- CHARGER_STATUS (R440). -/
def Hw.chargerData (h : Hw) : List Byte :=
  let c := h.chg
  be 1 c.state.code ++ be 1 c.fault ++ be 1 c.band ++ be 1 (bits [c.safeDefaults, h.pwr.battAbsent, c.govHold]) ++
    be 2 h.pwr.vbat ++ beInt 4 h.packMa ++ be 2 h.cvEff ++ be 2 h.iSet ++ be 2 (min 65535 (c.timer / 60000000)) ++
    be 2 (min 65535 ((h.keepaliveDue - h.clk) / 1000000)) ++ beInt 2 h.pwr.packTemp

/-- CHARGER_STATUS (R440). -/
def execChargerStatus (o : Origin) (s : State) : Out := s.upd fun h => h.serve (.chargerStatus o) fun h => h.ok o h.chargerData

def Chem.code : Chem → Nat
  | .liIon => 0
  | .lfp => 1

/-- Charge left in mAh (R360). -/
def Hw.remaining (h : Hw) : Nat := h.gauge.fcc * h.gauge.soc / 1000000000

/-- Minutes to empty at the present discharge (R360). -/
def Hw.timeToEmpty (h : Hw) : Nat := if h.packMa < 0 then min 65534 (h.remaining * 60 / h.packMa.natAbs) else 65535

/-- GAUGE_READ (R360, R440). -/
def Hw.gaugeData (h : Hw) : List Byte :=
  let g := h.gauge
  be 2 (min 10000 (g.soc / 100000)) ++ be 2 (min 65535 (g.u / 100000)) ++ be 2 h.remaining ++ be 2 g.fcc ++
    be 2 h.image.designCap ++ be 2 (min 65535 g.cycles) ++ be 2 (h.resOf g.resBand) ++ be 2 h.timeToEmpty ++
    be 2 (min 65535 ((h.clk - g.refAt) / hourUs)) ++ be 1 (if g.active.isSome then 2 else h.image.chem.code) ++
    be 1 (bits [g.noRest, g.learning])

/-- GAUGE_READ (R360, R440). -/
def execGaugeRead (o : Origin) (s : State) : Out := s.upd fun h => h.serve (.gaugeRead o) fun h => h.ok o h.gaugeData

/-- GAUGE_RESET_LEARN (R359): the custom table stays. -/
def execGaugeResetLearn (o : Origin) (s : State) : Out := s.upd fun h => h.serve (.gaugeResetLearn o) fun h =>
  let g := h.gauge
  let h : Hw := { h with gauge := { g with fcc := h.image.designCap, res := [], cycles := 0, learning := true, discharge := 0,
                                           dqRef := 0, socRef := none, learnedDue := true } }
  (h.gaugeWrites).ok o []

/-- SOC rises strictly from 0 to 10 000 and OCV does not fall (R358). -/
def tableRises : List (Nat × Nat) → Bool
  | a :: b :: r => a.1 < b.1 && a.2 ≤ b.2 && tableRises (b :: r)
  | _ => true

def tableOk (t : List (Nat × Nat)) : Bool :=
  (t.head?.map (·.1)) == some 0 && (t.getLast?.map (·.1)) == some 10000 && tableRises t

/-- GAUGE_TABLE_LOAD (R358, R450): the table is stored with the learned values, at once or as soon as the store has room (R324);
the job ends then. -/
def execGaugeTableLoad (o : Origin) (points : List (Half × Half)) (s : State) : Out := s.upd fun h => h.serve (.gaugeTableLoad o points) fun h =>
  let t := points.map (fun p => (p.1.toNat, p.2.toNat))
  if t.length ≠ 32 then h.respond o stBadLength []
  else if h.gauge.tableJob.isSome then h.respond o stBusy []
  else if !tableOk t then h.respond o stBadParam []
  else
    let h := (h.newJob 0x65 false).pending o []
    let n := h.proto.lastJob
    let h : Hw := { h with gauge := { h.gauge with custom := some t, learnedDue := true, tableJob := some n } }
    h.gaugeWrites.raise 39

/-- A byte read as signed. -/
def signedByte (b : Byte) : Int := sint 8 b.toNat

/-- The settings that BACKUP_SET carries, if they lie in the ranges of R338 for the chemistry. -/
def backupParams (c : Chem) (en : Byte) (vCut : Half) (tMin tMax lowSoc : Byte) : Option BackupCfg :=
  let v := vCut.toNat
  let lo := match c with | .liIon => 2800 | .lfp => 2500
  let hi := match c with | .liIon => 3400 | .lfp => 3000
  if en.toNat ≤ 1 && lo ≤ v && v ≤ hi && v % 10 = 0 && -30 ≤ signedByte tMin && signedByte tMin ≤ 0 && 45 ≤ tMax.toNat &&
      tMax.toNat ≤ 70 && lowSoc.toNat ≤ 50 then
    some { en := en = 1, vCut := v, tMin := signedByte tMin, tMax := tMax.toNat, lowSoc := lowSoc.toNat }
  else none

/-- BACKUP_SET (R338, R439). -/
def execBackupSet (o : Origin) (en : Byte) (vCut : Half) (tMin tMax lowSoc : Byte) (s : State) : Out :=
  s.upd fun h => h.serve (.backupSet o en vCut tMin tMax lowSoc) fun h =>
    match backupParams h.image.chem en vCut tMin tMax lowSoc with
    | some b => { h with pwr := { h.pwr with backup := b } }.ok o []
    | none => h.respond o stBadParam []

end Sys2Proof.Machine
end

