-- ==== Sys2Proof/Machine/Operands.lean ====
section
/-! DEFINITION. Operand forms: the bytes of flash as the store's layouts give them (R301, R303, R306, R310), and the rules that
CONFIG_COMMIT applies to an image (R72, R85, R131, R146, R154, R181, R187, R188, R338, R346, R462, R467). -/

namespace Sys2Proof.Machine

/-! ## Raw flash (R301, R303, R306, R310) -/

/-- Sectors of a region (R301). -/
def regionSectors (region : Nat) : Nat :=
  match region with
  | 1 => 256
  | 2 => 128
  | 3 => 128
  | 4 => 4096
  | 5 => 1024
  | _ => 0

/-- A sector header (R303). -/
def sectorHeader (region gen erases : Nat) : List Byte :=
  be 4 0x4B435331 ++ be 1 region ++ zeros 3 ++ be 4 gen ++ be 4 erases

/-- A record as it lies in flash (R306). -/
def Rec.bytes (r : Rec) : List Byte :=
  let head := be 2 r.key ++ be 4 r.seq ++ be 2 r.payload.length ++ be 1 (b2n r.copy) ++ zeros 7
  let body := head ++ r.payload
  let full := body ++ be 4 (crc32 body).toNat
  let pad := List.replicate (recSize r.payload.length - 16 - full.length) (0xFF : Byte)
  full ++ pad ++ [if r.committed then 0x3C else 0xFF, 0xFF, 0xFF, 0xFF] ++ be 4 r.unary.toNat ++ List.replicate 8 0xFF

/-- Where the sectors of a ring lie in their region: the sector of generation g is number g − 1, counted round the ring;
erased ones wait with the generations that follow. -/
def RingSt.sector (r : RingSt) (region n : Nat) : List Byte :=
  let size := regionSectors region
  match r.secs.find? (fun s => (s.gen + size - 1) % size = n) with
  | some s => sectorHeader region s.gen s.erases ++ s.recs.flatMap Rec.bytes
  | none =>
    let j := (n + size - r.topGen % size) % size
    sectorHeader region (r.topGen + 1 + j) (r.blank.getD j 0)

/-- The header of sector q of the session log: its sectors carry successive generations round the ring. -/
def Log.header (l : Log) (q : Nat) : List Byte :=
  let n := l.size / 16
  let oldest := (l.wpos + l.erased) % l.size / 16
  let age := (q + n - oldest) % n
  sectorHeader 4 (l.gen + 1 + age - n) (l.count q)

/-- A log entry as it lies in flash (R310). -/
def LogEntry.raw (e : LogEntry) (head : List Byte) : List Byte :=
  let body := be 2 0xE001 ++ be 4 e.seq ++ be 2 0xC0 ++ zeros 8 ++ fit 128 0xFF e.bytes
  let sig := fit 64 0xFF (e.bytes.drop 128)
  let m := fun (b : Bool) => if b then (0x3C : Byte) else 0xFF
  head ++ body ++ sig ++ be 4 (crc32 body).toNat ++ List.replicate 12 0xFF ++ [m e.committed, m e.signed, m e.damaged] ++
    List.replicate 13 0xFF

/-- The 256 bytes of log position p. -/
def Log.raw (l : Log) (p : Nat) : List Byte :=
  let head := if p % 16 = 0 && p < l.size then l.header (p / 16) else List.replicate 16 0xFF
  match l.entries.find? (fun e => e.pos = p) with
  | some e => e.raw head
  | none => head ++ List.replicate 240 0xFF

/-- A byte of a region (R301): the session log and the rings of records. -/
def Hw.storedByte (h : Hw) (region a : Nat) : Byte :=
  if region = 4 then (h.log.raw (a / 256)).getD (a % 256) 0xFF
  else
    let ring := if region = 1 then h.store.config else if region = 2 then h.store.half0
      else if region = 3 then h.store.half1 else h.store.fault
    (ring.sector region (a / 4096)).getD (a % 4096) 0xFF

/-- Bytes of a region from an offset; sectors that RETIRE has erased read 0xFF (R506, R526). -/
def Hw.flashBytes (h : Hw) (region off n : Nat) : List Byte :=
  (List.range n).map fun i =>
    if regionBase region + (off + i) / 4096 < h.retireGone then 0xFF else h.storedByte region (off + i)

/-! ## The rules of CONFIG_COMMIT (R445) -/

def Image.out (i : Image) (k : Nat) : OutCfg := i.outs.getD k OutCfg.base

/-! ## Sequence steps and cabinet entries as an image spells them (R187, R221, R462) -/

def mask24 (bs : List Byte) : BitVec 24 := BitVec.ofNat 24 (ube bs)

/-- A step of 20 bytes (R187). -/
def decodeStep (b : List Byte) : Step :=
  let ctrl := b.getD 0 0
  let xev := b.getD 1 0
  { last := ctrl.getLsbD 7, hrstRelease := ctrl.getLsbD 6, xevSel := (xev.extractLsb' 0 3).toNat, xevLevel := xev.getLsbD 3
    onMask := mask24 (slice b 2 3), offMask := mask24 (slice b 5 3), waitMask := mask24 (slice b 8 3)
    token := ube (slice b 11 1), tStable := ube (slice b 12 2), delay := ube (slice b 14 2), timeout := ube (slice b 16 2)
    matchStep := ube (slice b 18 1)
    reserved := ctrl.extractLsb' 0 6 != 0 || xev.extractLsb' 4 4 != 0 || b.getD 19 0 != 0 ||
      mask24 (slice b 2 3) >>> 18 != 0 || mask24 (slice b 5 3) >>> 18 != 0 || mask24 (slice b 8 3) >>> 18 != 0 }

/-- An entry of 4 bytes of a cabinet list (R221). -/
def decodeCab (b : List Byte) : CabEntry :=
  let i := b.getD 0 0
  { index := (i.extractLsb' 0 4).toNat, last := i.getLsbD 7, localStep := ube (slice b 1 1), token := ube (slice b 2 1)
    timeout := ube (slice b 3 1) }

/-- n entries of a list from an offset, each of a size. -/
def entries (f : List Byte → α) (bs : List Byte) (off size : Nat) : Nat → List α
  | 0 => []
  | n + 1 => f (slice bs off size) :: entries f bs (off + size) size n

/-- A sequence of up to n steps. -/
def decodeSteps (bs : List Byte) (off n : Nat) : List Step := upToLast (entries decodeStep bs off 20 n)

/-- A cabinet list ends at its LAST. -/
def upToLastCab : List CabEntry → List CabEntry
  | [] => []
  | e :: r => if e.last then [e] else e :: upToLastCab r

def decodeCabs (bs : List Byte) (off : Nat) : List CabEntry := upToLastCab (entries decodeCab bs off 4 32)

/-- The image that staged bytes spell: its sequences and lists are read from the bytes, the rest of the layout is not given
(R445; DESIGN CHOICE, log 9). -/
def decodeImage (bs : List Byte) : Option Image :=
  (Config.imageOf bs).map fun i =>
    { i with up := decodeSteps bs (Config.listOffset 0) 32, down := decodeSteps bs (Config.listOffset 1) 32
             host := decodeSteps bs (Config.listOffset 2) i.host.length
             prm := { i.prm with upList := decodeCabs bs (Config.listOffset 3), downList := decodeCabs bs (Config.listOffset 4) } }

def Image.upSteps (i : Image) : List Step := upToLast i.up
def Image.downSteps (i : Image) : List Step := upToLast i.down
def Image.hostSteps (i : Image) : List Step := upToLast i.host

/-- All outputs that steps name. -/
def stepsName (ss : List Step) : BitVec 24 := ss.foldl (fun m s => m ||| s.onMask ||| s.offMask ||| s.waitMask) 0

def stepsEnable (ss : List Step) : BitVec 24 := ss.foldl (fun m s => m ||| s.onMask) 0
def stepsDisable (ss : List Step) : BitVec 24 := ss.foldl (fun m s => m ||| s.offMask) 0

def subMask (a b : BitVec 24) : Bool := a &&& ~~~b == 0

/-- The outputs on which the host stands: the PGOOD set, what HRSTn depends on, the host-restart sequence. -/
def Image.hostOuts (i : Image) : BitVec 24 := i.pgoodSet ||| hrstOuts i.upSteps ||| stepsName i.hostSteps

/-- Class P0 (R72) and no HOST_SW (R154) on those outputs. -/
def Image.hostOutsOk (i : Image) : Bool := (maskOuts i.hostOuts).all (fun k => (i.out k).prio = 0 && !(i.out k).hostSw)

def Image.owned (i : Image) (k : Nat) : Nat := i.owners.countP (fun n => n = k + 1)

/-- R85 and R86 for VP output k. -/
def Image.poolOk (i : Image) (k : Nat) : Bool :=
  let c := i.out k
  let most := if k = 0 then 6 else 4
  c.maxPh ≤ most && c.minPh ≤ c.maxPh && 3000 ≤ c.iAdd && c.iAdd ≤ 6500 && c.iAdd % 250 = 0 && c.iShed % 250 = 0 && 1000 ≤ c.iShed &&
    c.iShed + 1000 ≤ c.iAdd && 5 ≤ c.tDwell && c.tDwell ≤ 1000 &&
    (if c.maxPh = 0 then
      i.owned k = 0 && !c.vclEn && !maskHas (stepsName (i.upSteps ++ i.downSteps ++ i.hostSteps)) k
    else 1 ≤ c.minPh && c.minPh ≤ i.owned k && i.owned k ≤ c.maxPh)

/-- R131 for VP output k. -/
def Image.linkOk (i : Image) (k : Nat) : Bool :=
  let c := i.out k
  c.maxPh = 0 || (c.vSet ≤ 560 && c.slewDef ≤ 6 && c.slewMax ≤ 6 && (!c.vclEn || (c.vMax ≤ 560 && c.vMin ≤ c.vSet && c.vSet ≤ c.vMax)))

/-- R146 for a VM or VH output. -/
def Image.regulatorOk (i : Image) (k : Nat) : Bool :=
  let c := i.out k
  let top := if isVm k then 470 else 460
  let slow := if isVm k then 1 else 10
  let fast := if isVm k then 100 else 400
  c.vMin ≤ c.vSet && c.vSet ≤ c.vMax && c.vMax ≤ top && slow ≤ c.ramp && c.ramp ≤ fast && c.ripple ≤ 2

/-- R181, and the codes of R49 and R74 for a port. -/
def Image.superviseOk (i : Image) (k : Nat) : Bool :=
  let c := i.out k
  c.uv ≤ 36 && c.ov ≤ 36 && c.filt ≤ 10 && c.prio ≤ 3 &&
    (!isEp k || (c.ilim ≤ 16 && c.floorCode ≤ c.ilim && (c.mode == .off || (0x08 ≤ c.descAddr && c.descAddr ≤ 0x77))))

/-- Rules 5 and 8 of R188 and the ranges of R187 for one step. -/
def Step.ok (s : Step) : Bool :=
  10 * s.delay < 1000 * s.timeout && 100 * s.tStable ≤ 1000 * s.timeout && 1 ≤ s.timeout && s.timeout ≤ 1000 && s.delay ≤ 65535 &&
    s.xevSel ≤ 4 && s.token ≤ 255 && !s.reserved &&
    (if s.waitMask == 0 then s.tStable = 0 else 1 ≤ s.tStable && s.tStable ≤ 1000)

/-- No mask meets an earlier one (rule 3). -/
def apart : BitVec 24 → List (BitVec 24) → Bool
  | _, [] => true
  | m, x :: r => m &&& x == 0 && apart (m ||| x) r

/-- Every WAIT_MASK names only outputs of the masks so far (rule 4). -/
def waitsOk (f : Step → BitVec 24) : BitVec 24 → List Step → Bool
  | _, [] => true
  | m, s :: r => subMask s.waitMask (m ||| f s) && waitsOk f (m ||| f s) r

/-- Rule 6: what the first steps have enabled is disabled at MATCH or later. -/
def matchesOk (down : List Step) : BitVec 24 → List Step → Bool
  | _, [] => true
  | m, s :: r => subMask (m ||| s.onMask) (stepsDisable (down.drop s.matchStep)) && matchesOk down (m ||| s.onMask) r

/-- R188. -/
def Image.sequencesOk (i : Image) : Bool :=
  let up := i.upSteps
  let down := i.downSteps
  (i.up.take 32).any (·.last) && (i.down.take 32).any (·.last) &&
    up.all (fun s => s.offMask == 0) && down.all (fun s => s.onMask == 0 && !s.hrstRelease && s.matchStep = 0) &&
    apart 0 (up.map (·.onMask)) && apart 0 (down.map (·.offMask)) && subMask (stepsEnable up) (stepsDisable down) &&
    waitsOk Step.onMask 0 up && waitsOk Step.offMask 0 down && up.all Step.ok && down.all Step.ok &&
    matchesOk down 0 up && up.countP (·.hrstRelease) ≤ 1

/-- The outputs on at the end of host-restart steps: OFF_MASK first, then ON_MASK. -/
def hostEnd : BitVec 24 → List Step → BitVec 24
  | m, [] => m
  | m, s :: r => hostEnd ((m &&& ~~~s.offMask) ||| s.onMask) r

/-- The host-restart sequence (R462). -/
def Image.hostOk (i : Image) : Bool :=
  let on := stepsEnable i.upSteps
  i.host.length ≤ 8 && subMask (stepsName i.hostSteps) on && subMask on (hostEnd on i.hostSteps)

/-- The ranges of R346 and R338. -/
def Image.batteryOk (i : Image) : Bool :=
  let c := i.charge
  let b := i.backup
  let cells := match i.chem with
    | .liIon => 2 ≤ i.cells && i.cells ≤ 4 && 2800 ≤ b.vCut && b.vCut ≤ 3400
    | .lfp => 2 ≤ i.cells && i.cells ≤ 5 && 2500 ≤ b.vCut && b.vCut ≤ 3000
  let term := match c.iTerm with
    | some t => 20 ≤ t && 2 * t ≤ c.iChg && t % 10 = 0
    | none => true
  cells && term && 500 ≤ i.designCap && i.designCap ≤ 20000 && i.designCap % 10 = 0 && 1 ≤ i.keepaliveMin && i.keepaliveMin ≤ 60 &&
    100 ≤ c.iChg && c.iChg ≤ 2000 && c.iChg % 50 = 0 && c.cvReduce ≤ 300 && c.cvReduce % 10 = 0 && c.tTopoff ≤ 60 && 50 ≤ c.vRech &&
    c.vRech ≤ 300 && c.vRech % 10 = 0 && b.vCut % 10 = 0 && -30 ≤ b.tMin && b.tMin ≤ 0 && 45 ≤ b.tMax && b.tMax ≤ 70 && b.lowSoc ≤ 50

/-- Reactions that R466 permits (R467). -/
def Image.policiesOk (i : Image) : Bool := (List.range 13).all (fun n => reactionOk (n + 1) (i.policies.getD n 0))

/-- The ranges of R70, R85, R168, R173, R178, R194, R203, R319, R457, R458 (DEDUCED, log 9: an image outside them is refused). -/
def Image.rangesOk (i : Image) : Bool :=
  let w := i.wdt
  i.owners.all (fun n => n ≤ 4) && 10 ≤ i.vinW && i.vinW ≤ 1500 && 5 ≤ i.batW && i.batW ≤ 60 && 1 ≤ i.tCap && i.tCap ≤ 100 &&
    i.retryMax ≤ 7 && i.tOffMin ≤ 10000 && 1 ≤ w.window && w.window ≤ 3 && 1 ≤ w.period && w.period ≤ 65535 &&
    1 ≤ w.graceS && w.graceS ≤ 600 && 1 ≤ w.hrstWidth && w.hrstWidth ≤ 1000 && i.filters.all (fun n => 1 ≤ n && n ≤ 255) &&
    i.xevEdge.all (fun n => n ≤ 3) && 10 ≤ i.ckptStep && i.ckptStep ≤ 100 && i.ckptStep % 10 = 0 &&
    1 ≤ i.scan.interval && i.scan.interval ≤ 50 && 1 ≤ i.scan.tAvg && i.scan.tAvg ≤ 10000 && i.prm.orphanTimeout ≤ 65535

/-- A cabinet list within the bounds of R221: up to 32 entries, the last with LAST. A module outside a cabinet uses none. -/
def cabOk (es : List CabEntry) : Bool :=
  es.length ≤ 32 && (upToLastCab es).any (·.last) &&
    (upToLastCab es).all (fun e => e.index ≤ 15 && e.localStep ≤ 31 && e.token ≤ 255 && 1 ≤ e.timeout && e.timeout ≤ 255)

def Image.cabinetOk (i : Image) : Bool := !i.prm.cabinet || (cabOk i.prm.upList && cabOk i.prm.downList)

/-- Every rule that the configuration chapters give for CONFIG_COMMIT. -/
def Image.ok (i : Image) : Bool :=
  i.hostOutsOk && (List.range 4).all (fun k => i.poolOk k && i.linkOk k) &&
    ((List.range 8).map (· + 4)).all i.regulatorOk && (List.range 18).all i.superviseOk && i.sequencesOk && i.hostOk &&
    i.batteryOk && i.policiesOk && i.rangesOk && i.cabinetOk

end Sys2Proof.Machine
end

