-- ==== Sys2Proof/Machine/CmdStore.lean ====
section
/-! DEFINITION. The store commands (R302, R316, R331, R332, R444, R445, R506). -/

namespace Sys2Proof.Machine

/-! ## BULK_READ -/

/-- The sector of a region that is being erased: the oldest of its ring (R312, R323), or the one that RETIRE has come to (R526). -/
def Hw.erasing (h : Hw) (region : Nat) : Option Nat :=
  if 0 < h.life.retireLeft then
    if regionBase region ≤ h.retireGone && h.retireGone < regionBase region + regionSectors region then some (h.retireGone - regionBase region)
    else none
  else if region = 4 then
    if h.log.reclaiming then some ((h.log.wpos + h.log.erased) % h.log.size / 16) else none
  else match h.store.erase, h.store.fault.secs with
    | some e, x :: _ => if e.ring == .faultLog && region = 5 then some ((x.gen + 1023) % 1024) else none
    | _, _ => none

/-- A range touches the sector that is being erased. -/
def Hw.meetsErase (h : Hw) (region off n : Nat) : Bool :=
  match h.erasing region with
  | some q => off / 4096 ≤ q && q ≤ (off + n - 1) / 4096
  | none => false

/-- The log entries that a range touches are each checked as they are read. -/
def Hw.bulkChecks (h : Hw) (region off n : Nat) : Hw :=
  if region = 4 then
    (h.log.entries.filter (fun e => off / 256 ≤ e.pos && e.pos ≤ (off + n - 1) / 256)).foldl
      (fun h _ => (h.regionCheck 4 0xE001).1) h
  else h

/-- BULK_READ (R444, R506): raw bytes as they stand, on channel 9. A transfer that parity errors end answers STORE_ERROR (R507;
DESIGN CHOICE, log 68). -/
def execBulkRead (o : Origin) (region : Byte) (rsv : BitVec 24) (offset : Word) (len : Byte) (s : State) : Out :=
  s.upd fun h => h.serve (.bulkRead o region rsv offset len) fun h =>
    let r := region.toNat
    let a := offset.toNat
    let n := len.toNat
    if (r ≠ 4 && r ≠ 5) || rsv ≠ 0 || n < 1 || 240 < n || regionSectors r * 4096 < a + n then h.respond o stBadParam []
    else if h.meetsErase r a n then h.respond o stBusy []
    else
      let t := (h.bulkChecks r a n).transfer 9 n
      if t.2 then t.1.ok o (be 4 a ++ be 1 n ++ zeros 3 ++ h.flashBytes r a n) else t.1.respond o stStoreError []

/-! ## Host keys (R331) -/

def hostKey (key : Half) : Bool := 0x8000 ≤ key.toNat && key.toNat ≤ 0x803F

/-- STORE_READ (R316, R331, R444). -/
def execStoreRead (o : Origin) (key : Half) (s : State) : Out := s.upd fun h => h.serve (.storeRead o key) fun h =>
  if hostKey key then
    let a := h.readKey 5 key.toNat
    match a.2 with
    | .conflict => (a.1.conflict key.toNat).respond o stStoreError []
    | .absent => a.1.ok o (be 2 key.toNat ++ [0, 0])
    | .value r => a.1.ok o (be 2 key.toNat ++ be 1 r.payload.length ++ [0] ++ r.payload)
  else h.respond o stBadParam []

/-- STORE_WRITE (R324, R331, R444): LENGTH 0 deletes the key. -/
def execStoreWrite (o : Origin) (key : Half) (len rsv : Byte) (payload : List Byte) (s : State) : Out :=
  s.upd fun h => h.serve (.storeWrite o key len rsv payload) fun h =>
    if payload.length ≠ len.toNat then h.respond o stBadLength []
    else if h.halfShort then h.respond o stBusy []
    else if !hostKey key || 240 < len.toNat || rsv ≠ 0 then h.respond o stBadParam []
    else
      let h := (h.newJob 0x92 false).pending o []
      h.enqueue key.toNat payload (.job h.proto.lastJob)

/-! ## Configuration images (R302, R445) -/

/-- Size of the staging buffer. -/
def stagingSize : Nat := 32768

/-- CONFIG_WRITE (R444, R445). -/
def execConfigWrite (o : Origin) (offset : Word) (len : Byte) (rsv : BitVec 24) (data : List Byte) (s : State) : Out :=
  s.upd fun h => h.serve (.configWrite o offset len rsv data) fun h =>
    let a := offset.toNat
    let n := len.toNat
    if data.length ≠ n then h.respond o stBadLength []
    else if n < 1 || 240 < n || rsv ≠ 0 || stagingSize < a + n then h.respond o stBadParam []
    else { h with store := { h.store with staging := Cells.putAll 0xFF h.store.staging a data } }.ok o []

/-- The image of the staged bytes, if it keeps every rule of CONFIG_COMMIT. -/
def stagedImage (bytes : List Byte) : Option Image :=
  match decodeImage bytes with
  | some i => if i.ok then some i else none
  | none => none

/-- The checked image goes to the store's queue (R302, R445): it becomes current with its final record, its settings act from the
next boot. -/
def Hw.commitImage (h : Hw) (bytes : List Byte) (i : Image) (crc : Word) : Hw :=
  let w : StoreWrite := { key := 2, payload := bytes, isLog := false, signed := false, phase := 0, seq := 0, half := false,
                          purpose := .image h.proto.lastJob { i with configId := crc } }
  { h with store := { h.store with queue := h.store.queue ++ [w], staging := [] } }

/-- CONFIG_COMMIT (R444, R445, R450). -/
def execConfigCommit (o : Origin) (len crc : Word) (s : State) : Out := s.upd fun h => h.serve (.configCommit o len crc) fun h =>
  let n := len.toNat
  let bytes := Cells.read 0xFF h.store.staging 0 n
  if n < 64 || stagingSize < n then h.respond o stBadParam []
  else if crc32 bytes ≠ crc then h.respond o stBadParam (be 4 0xFFFFFFFF)
  else match stagedImage bytes with
  | some i =>
    let h := (h.newJob 0x94 false).pending o []
    h.commitImage bytes i crc
  | none => h.respond o stBadParam (be 4 (Config.badOffset bytes))

/-! ## STORE_STATUS (R332, R445) -/

/-- Erase counts of all sectors of the regions. -/
def Hw.eraseCounts (h : Hw) : List Nat :=
  h.store.config.eraseCounts ++ h.store.half0.eraseCounts ++ h.store.half1.eraseCounts ++ h.store.fault.eraseCounts ++
    h.log.eraseCounts

def Hw.storeData (h : Hw) : List Byte :=
  let cs := h.eraseCounts
  let kib := fun (r : RingSt) => be 2 (r.free / 1024)
  kib h.store.config ++ kib h.store.half0 ++ kib h.store.half1 ++ kib h.store.fault ++ be 4 h.log.erased ++
    be 4 (h.log.free h.ackSeq) ++ be 4 (cs.foldl min (cs.headD 0)) ++ be 4 (cs.foldl max 0) ++ be 2 h.store.estimated ++
    be 2 h.store.retiredSecs ++ be 2 h.store.spare ++ be 2 h.store.conflicts ++ be 2 h.store.restored.toNat ++
    be 4 h.recordsLost ++ zeros 2

/-- STORE_STATUS (R332, R445). -/
def execStoreStatus (o : Origin) (s : State) : Out := s.upd fun h => h.serve (.storeStatus o) fun h => h.ok o h.storeData

end Sys2Proof.Machine
end

