-- ==== Sys2Proof/Machine/Metrology.lean ====
section
/-! DEFINITION. Belvedere: blocks, the cross-check, METRO_HOLD by stuck bitstreams, totalizer bases (R242–R271, R276, R319). -/

namespace Sys2Proof.Machine

/-! ## Comparison intervals -/

/-- A complete interval waits for its comparison, if the channel was enabled in it; the next begins (R259, R261). A calibration
that takes effect at this boundary acts in the next. -/
def Chan.closeInterval (x : Chan) : Chan :=
  { x with lIP := x.dIP, lEP := x.dEP, lIC := x.dIC, lEC := x.dEC, lSkip := x.skip || x.held || !x.enabled, skip := x.held,
           dIP := 0, dEP := 0, dIC := 0, dEC := 0 }

/-! ## Captures and checkpoints at a block end -/

/-- The captures of one slot at a block end (R276, R277). -/
def Hw.captureSlot (h : Hw) (t : DWord) (n : Nat) : Hw :=
  let s := h.slot n
  if !s.open? || s.captured then h
  else if s.closePending then
    let h := if s.startPending then h.endJob? s.openJob 0 1 (be 1 n) else h
    h.modSlot n (fun _ => { h.stopSlot t s with openJob := if s.startPending then none else s.openJob })
  else if s.startPending then
    let h := h.endJob? s.openJob 0 0 (be 1 n)
    h.modSlot n (fun _ => { h.startSlot t s with openJob := none })
  else h

def Hw.captureSlots (h : Hw) (t : DWord) : Hw :=
  if h.nRes = 0 then h else slotNumbers.foldl (fun h n => h.captureSlot t n) h

def Chan.total (x : Chan) (dir : Nat) : Nat := if dir = 0 then x.imp else x.exp

/-- CHECKPOINT_STEP for the channel-directions whose totalizer has changed (R319, R320); one that falls due wakes the fast
clock (R68). -/
def Hw.checkpoints (h : Hw) (old : List Chan) : Hw :=
  (List.range 16).foldl (fun h cd =>
    let new := (h.chan (cd / 2)).total (cd % 2)
    if new = (old.getD (cd / 2) Chan.blank).total (cd % 2) then h
    else
      let t := h.checkpoint cd new
      if t.store == h.store then h else t.wake) h

/-- The CRC checks of a calibration block by both paths, which Folly may invert (checker 0x0D). -/
def Hw.calInjected (h : Hw) : Bool := h.hit 0x0D || (h.take 0x0D).hit 0x0D
def Hw.calChecks (h : Hw) : Hw := (h.take 0x0D).take 0x0D

/-- A CAL_WRITE whose copies are committed is loaded at the block boundary (R266): DIVERGE clears, CAL clears with a
consistent load, and the job ends. -/
def Hw.finishCal (h : Hw) : Hw :=
  match h.metro.calJob with
  | some j =>
    if j.written then
      let inj := h.calInjected
      let p := h.calChecks.readKey 6 (0x100 + j.chan)
      let q := p.1.readKey 6 (0x108 + j.chan)
      let h := q.1.loadBlocks j.chan p.2 q.2 inj
      let h := h.clearCause j.chan 1
      let r := (h.chan j.chan).check
      let h := if r = 0 then h.clearCause j.chan 2 else h
      let h : Hw := { h with metro := { h.metro with calJob := none } }
      h.endJob j.job 0 (if r = 0 then 0 else 1) (be 1 r)
    else h
  | none => h

/-! ## The commands of the family -/

/-- Blocks run while the main domain is out of reset, its boot complete, and Belvedere is not frozen (R17, R241, R252, R258). -/
def Hw.metroRuns (h : Hw) : Bool := h.metering && h.live && !h.metro.frozen

/-- A block's results join Belvedere's FIFO of 8 (R503); in a full one the oldest gives way (DESIGN CHOICE, log 68). -/
def queue8 (q : List Nat) (block : Nat) : List Nat := (if 8 ≤ q.length then q.drop 1 else q) ++ [block]

/-- BLOCK_END (R68, R252, R253, R503): 100 ms after the block's start; the request of channels 4 and 5 wakes the fast clock. -/
def execBlockEnd (cs : List (List ModBits)) (s : State) : Out := s.upd fun h =>
  if h.metroRuns then
    let at_ := h.metro.blockStart + 100000
    let h := (h.reach at_).wake
    let old := h.metro.chans
    let h := h.endBlock cs at_
    let h := (h.gather).captureSlots h.now
    let h := h.checkpoints old
    let last := h.metro.ivBlocks + 1 = 10
    let h : Hw := { h with metro := { h.metro with
      block := h.metro.block + 1, blockStart := at_, blockTime := h.now
      ivBlocks := if last then 0 else h.metro.ivBlocks + 1
      compareDue := h.metro.compareDue || last
      ivEnd := if last then at_ else h.metro.ivEnd
      fifoP := queue8 h.metro.fifoP h.metro.block
      fifoC := queue8 h.metro.fifoC h.metro.block
      chans := if last then h.metro.chans.map Chan.closeInterval else h.metro.chans } }
    h.finishCal
  else h

/-- The agreement of R260 for one pair of increments: 1 mWh is 3600 mJ. -/
def agrees (p c : Nat) : Bool := 18000000 * max (p - c) (c - p) ≤ 3600 * p + 5000 * 2 ^ 32

/-- The comparison of one channel (R260, R261). -/
def Hw.compareChan (h : Hw) (c : Nat) : Hw :=
  let x := h.chan c
  if x.lSkip then h
  else if agrees x.lIP x.lIC && agrees x.lEP x.lEC then
    h.modChan c (fun x => { x with compared := x.compared + 1, disRun := 0, disagree := false })
  else
    let h := h.modChan c (fun x => { x with compared := x.compared + 1, disagreed := x.disagreed + 1, disRun := x.disRun + 1,
                                            disagree := true, disagreeSeen := true })
    let h := (h.raise 24).gather
    if 3 ≤ (h.chan c).disRun then h.enterHold c 1 false else h

/-- Once an interval each path checks the CRC of its working copies (R247); the copies themselves do not change between
loads, so only Folly makes a check fail. -/
def Hw.recheckCal (h : Hw) (c : Nat) : Hw :=
  let inj := h.calInjected
  let h := h.calChecks
  if inj then h.enterHold c 2 true else h

/-- COMPARISON (R247, R259–R261): 5 ms after the interval's end. -/
def execComparison (s : State) : Out := s.upd fun h =>
  if h.metroRuns && h.metro.compareDue then
    let h := h.reach (h.metro.ivEnd + 5000)
    let h : Hw := { h with metro := { h.metro with compareDue := false } }
    let h := (List.range 8).foldl Hw.compareChan h
    (List.range 8).foldl Hw.recheckCal h
  else h

/-- A stuck bitstream is held at its level by Folly (R479). -/
def Hw.stuckForced (h : Hw) (c : Nat) : Bool := h.faults.forces.contains (0x50 + c)

/-- STUCK_BITSTREAM (R243, R247). -/
def execStuckBitstream (ch : Fin 8) (s : State) : Out := s.upd fun h =>
  if h.metroRuns && (h.chan ch).enabled then h.enterHold ch 3 (h.stuckForced ch) else h

/-- INPUT_CAUSE_CLEAR (R262). -/
def execInputCauseClear (ch : Fin 8) (s : State) : Out := s.upd fun h =>
  if h.metroRuns && !h.stuckForced ch then h.clearCause ch 3 else h

/-- CHECKPOINT_BASE (R68, R319): a changed totalizer without a base or a cleared bit for 15 min. -/
def execCheckpointBase (ch : Fin 8) (dir : Bool) (s : State) : Out := s.upd fun h =>
  let cd := 2 * ch.val + b2n dir
  let now := (h.chan ch).total (b2n dir)
  if h.metroRuns && now != h.store.ckptAt.getD cd 0 then
    h.wake.newBase cd now
  else h

end Sys2Proof.Machine
end

