-- ==== Sys2Proof/Machine/CmdDiag.lean ====
section
/-! DEFINITION. The diagnostic commands (R105, R109, R163, R164, R449, R450, R477–R480, R505). -/

namespace Sys2Proof.Machine

/-! ## Folly (R477–R479) -/

/-- Checkers and detectors that SEALED keeps from Folly (R477, R479). -/
def sealedChecker (c : Nat) : Bool := [3, 6, 7, 9, 0x0D].contains c

/-- FOLLY_INJECT (R449, R477, R478): severity 1 only for the ECC checkers; in force once the reply is placed. -/
def execFollyInject (o : Origin) (checker count : Byte) (s : State) : Out := s.upd fun h => h.serve (.follyInject o checker count) fun h =>
  let c := checker.toNat % 128
  let hard := checker.getLsbD 7
  if h.sealed && sealedChecker c then h.respond o stWrongLife []
  else if c < 1 || 15 < c || (hard && 7 < c) || count = 0 then h.respond o stBadParam []
  else
    let a : Arming := { relayed := h.relayed o, checker := c, count := count.toNat, hard := hard }
    { h with faults := { h.faults with arming := h.faults.arming ++ [a] } }.ok o []

/-- The SOURCE values of R479. -/
def forceSource (n : Nat) : Bool :=
  n ≤ 0x11 || (0x20 ≤ n && n ≤ 0x2B) || (0x30 ≤ n && n ≤ 0x3B) || (0x40 ≤ n && n ≤ 0x42) || (0x50 ≤ n && n ≤ 0x57)

/-- What a detector does as it is forced (R479): comparators and over-current at once, VIB and the thermal detector in every
state, as a real detection is captured and logged there (R550), VIN unusable as a loss of VIN, a stuck bitstream as METRO_HOLD. -/
def Hw.forceActs (h : Hw) (n : Nat) : Hw :=
  if n = 0x42 then h.forcedVin
  else if n = 0x40 then h.vibFault (injected true)
  else if n = 0x41 then h.thermalFault h.therm.hottestNode (injected true)
  else if 0x50 ≤ n then
    let c := n - 0x50
    if h.metroRuns && (h.chan c).enabled then h.enterHold c 3 true else h
  else h.forced

/-- FOLLY_FORCE (R449, R479). -/
def execFollyForce (o : Origin) (source action : Byte) (s : State) : Out := s.upd fun h => h.serve (.follyForce o source action) fun h =>
  let n := source.toNat
  let others := h.faults.forces.filter (fun x => x ≠ n)
  if h.sealed && 0x50 ≤ n && forceSource n then h.respond o stWrongLife []
  else if !forceSource n || 1 < action.toNat then h.respond o stBadParam []
  else if action = 1 then (({ h with faults := { h.faults with forces := others ++ [n] } }).ok o []).forceActs n
  else { h with faults := { h.faults with forces := others } }.ok o []

/-! ## DIAG_COMPARE (R449, R450, R505) -/

/-- The offset of the first byte that is not 0xFF. -/
def firstDirty : Nat → List Byte → Option Nat
  | _, [] => none
  | i, b :: r => if b = 0xFF then firstDirty (i + 1) r else some i

/-- A sector header that reads as valid for a region (R303). -/
def headerOk (region : Nat) (b : List Byte) : Bool :=
  slice b 0 4 == be 4 0x4B435331 && slice b 4 1 == be 1 region && slice b 5 3 == zeros 3

/-- The erased check of one sector: the offset of its first mismatch. -/
def Hw.notErased (h : Hw) (region q : Nat) : Option Nat :=
  let b := h.flashBytes region (4096 * q) 4096
  if headerOk region b then (firstDirty 16 (b.drop 16)).map (· + 4096 * q) else some (4096 * q)

/-- MODE 0 on one sector, with one ECC check (DEDUCED, log 43). -/
def Hw.erasedCheck (h : Hw) (region q : Nat) : Hw × Option Nat :=
  let a := h.regionCheck region (if region = 4 then 0xE001 else 0)
  (a.1, a.1.notErased region q)

/-- Where two payloads part. -/
def firstDiff : List Byte → List Byte → Option Nat
  | [], [] => none
  | a :: x, b :: y => if a = b then (firstDiff x y).map (· + 1) else some 0
  | _, _ => some 0

/-- The partner of a second copy: the same key, SEQ one lower, COPY = 0, in either half, whatever its CRC. -/
def Store.partner (s : Store) (r : Rec) : Option Rec :=
  s.params.find? (fun x => x.committed && x.key = r.key && !x.copy && x.seq + 1 = r.seq)

/-- The copy compare of one record at an offset of its region, read from flash with its checks; one that fails them does not exist.
The CRCs compare as correct or not, for they cover SEQ and COPY, which differ in every pair (DEDUCED, log 43). -/
def Hw.compareRec (h : Hw) (region off : Nat) (r : Rec) : Hw × Option Nat :=
  if r.exists? && r.copy then
    let a := (h.flashCheck ((flashChecker region r.key).getD 5) region r.key)
    let inj := a.1.hit 8
    let h := a.1.take 8
    if !a.2 || inj then (h, none)
    else match h.store.partner r with
    | some p => (h, ((firstDiff r.payload p.payload).or (if p.broken then some r.payload.length else none)).map (fun i => off + 16 + i))
    | none => (h, some off)
  else (h, none)

/-- Records of one sector, from an offset on. -/
def Hw.compareRecs (h : Hw) (region : Nat) : Nat → List Rec → Hw × Option Nat
  | _, [] => (h, none)
  | off, r :: rs =>
    let a := h.compareRec region off r
    match a.2 with
    | some m => (a.1, some m)
    | none => a.1.compareRecs region (off + recSize r.payload.length) rs

/-- MODE 1 on the records of one sector. -/
def Hw.copyCompare (h : Hw) (region q : Nat) : Hw × Option Nat :=
  let ring := if region = 2 then h.store.half0 else h.store.half1
  let size := regionSectors region
  let recs := match ring.secs.find? (fun s => (s.gen + size - 1) % size = q) with
    | some s => s.recs
    | none => []
  h.compareRecs region (4096 * q + 16) recs

/-- The comparison in progress is abandoned with its job (R507). -/
def Hw.diagLost (h : Hw) : Hw := ({ h with bulk := { h.bulk with diag := none } }).abandonJobs [0xF2]

/-- DIAG_COMPARE checks its next sector, through channel 15, between the store's own operations and not while a commit runs (R500,
R505). PROGRESS follows the sectors; the job ends with the first mismatch or the last sector. -/
def Hw.diagSector (h : Hw) : Hw :=
  match h.bulk.diag with
  | some d =>
    if !h.ins.booted || h.flashBusy || h.pwr.commit.isSome || 0 < h.life.retireLeft then h
    else
      let t := h.transfer 15 4096
      if !t.2 then t.1.diagLost
      else
        let a := if d.copies then t.1.copyCompare d.region d.next else t.1.erasedCheck d.region d.next
        let stop := fun (h : Hw) => ({ h with bulk := { h.bulk with diag := none } } : Hw)
        match a.2 with
        | some m => (stop a.1).endJob d.job 0 1 (be 4 m)
        | none =>
          if d.left ≤ 1 then (stop a.1).endJob d.job 0 0 (be 4 0xFFFFFFFF)
          else
            let h := a.1.modJob d.job (fun j => { j with progress := (d.count - d.left + 1) * 100 / d.count })
            { h with bulk := { h.bulk with diag := some { d with next := d.next + 1, left := d.left - 1 } } }
  | none => h

/-- DIAG_COMPARE (R449, R450, R505): its sectors are checked as the bulk engine runs. One job at a time (R424). -/
def execDiagCompare (o : Origin) (mode region : Byte) (first : Word) (count : Half) (s : State) : Out :=
  s.upd fun h => h.serve (.diagCompare o mode region first count) fun h =>
    let r := region.toNat
    let q := first.toNat
    let n := count.toNat
    let regionOk := if mode = 0 then 1 ≤ r && r ≤ 5 else mode = 1 && (r = 2 || r = 3)
    if h.bulk.diag.isSome then h.respond o stBusy []
    else if !regionOk || n < 1 || 4096 < n || regionSectors r < q + n then h.respond o stBadParam []
    else
      let h := (h.newJob 0xF2 true).pending o []
      { h with bulk := { h.bulk with diag := some { job := h.proto.lastJob, copies := mode = 1, region := r, next := q, left := n, count := n } } }

/-! ## DIAG_SELFTEST (R105, R163, R449, R450, R480) -/

/-- The output of the phase's owner or of the output it serves is on. -/
def Hw.phaseInUse (h : Hw) (p : Nat) : Bool :=
  let x := h.phase p
  (0 < x.owner && (h.out (x.owner - 1)).on) || (0 < x.serving && (h.out (x.serving - 1)).on)

/-- The result of a test: no rule says how this part's phases and slices fare, so it is a free value. 0 is PASS; a failed
phase has reason SELFTEST, a failed slice GAIN or OFFSET. -/
def testReason (phase : Bool) (draw : Nat) : Nat := if phase then draw % 2 else draw % 3

/-- DIAG_SELFTEST (R449, R450, R480). -/
def execDiagSelftest (o : Origin) (target : Byte) (s : State) : Out := s.upd fun h => h.serve (.diagSelftest o target) fun h =>
  let t := target.toNat
  let phase := 1 ≤ t && t ≤ 8
  let slice := 0x10 ≤ t && t ≤ 0x12
  if !phase && !slice then h.respond o stBadParam []
  else if (phase && h.phaseInUse (t - 1)) || (slice && h.adc.active.contains (t - 0x10)) then h.respond o stWrongState []
  else
    let h := (h.newJob 0xF3 false).pending o []
    let job := h.proto.lastJob
    let x := testReason phase (Config.freeNat h.free)
    (h.draw).endJob job 0 (if x = 0 then 0 else 1) (be 1 x)

end Sys2Proof.Machine
end

