-- ==== Sys2Proof/Machine/CmdFault.lean ====
section
/-! DEFINITION. The event and fault commands (R442, R443, R451, R466, R470, R472). -/

namespace Sys2Proof.Machine

/-- EVENT_COUNTERS_CLEAR (R442). A MASK bit of a reserved source is no reserved field: it names a counter that stands at 0 (DESIGN
CHOICE, log 71). -/
def execEventCountersClear (o : Origin) (mask : DWord) (s : State) : Out := s.upd fun h => h.serve (.eventCountersClear o mask) fun h =>
  let cnt := h.evt.cnt.mapIdx (fun i n => if mask.getLsbD i then 0 else n)
  { h with evt := { h.evt with cnt := cnt } }.ok o []

/-- The FAULT_READ reply (R443). -/
def Hw.faultData (h : Hw) : List Byte :=
  match h.faults.cap with
  | some c =>
    [1] ++ be 1 c.source ++ be 3 c.addr ++ be 1 (c.access * 16 + c.master) ++ be 8 c.time.toNat ++ be 4 c.micros ++
      be 4 h.faults.later ++ zeros 2
  | none => zeros 18 ++ be 4 h.faults.later ++ zeros 2

/-- FAULT_READ (R416, R442, R443): REARM empties the capture after the reply is built. -/
def execFaultRead (o : Origin) (flags : Byte) (s : State) : Out := s.upd fun h => h.serve (.faultRead o flags) fun h =>
  if flags.getLsbD 0 && o == .V then h.deny o 0x81 4 stDenied
  else if 1 < flags.toNat then h.respond o stBadParam []
  else
    let data := h.faultData
    let h : Hw := if flags = 1 then { h with faults := { h.faults with cap := none, later := 0 } } else h
    h.ok o data

/-- FAULT_POLICY_SET (R442, R466). -/
def execFaultPolicySet (o : Origin) (cls reaction : Byte) (s : State) : Out := s.upd fun h => h.serve (.faultPolicySet o cls reaction) fun h =>
  let c := cls.toNat
  if c < 1 || 13 < c || !reactionOk c reaction.toNat then h.respond o stBadParam []
  else { h with faults := { h.faults with policies := h.faults.policies.set (c - 1) reaction.toNat } }.ok o []

/-- Log entries from a number upward, at most n. -/
def Faults.served (f : Faults) (first n : Nat) : List FaultEntry := (f.log.filter (fun e => first ≤ e.num)).take n

/-- The entries that pass the CRC checks of their records (checker 0x08). -/
def Hw.passEntries (h : Hw) (es : List FaultEntry) : Hw × List FaultEntry :=
  es.foldl (fun (a : Hw × List FaultEntry) e => (a.1.take 8, if a.1.hit 8 then a.2 else a.2 ++ [e])) (h, [])

/-- FAULT_LOG_READ (R442, R443). -/
def execFaultLogRead (o : Origin) (first : Word) (count : Byte) (s : State) : Out := s.upd fun h => h.serve (.faultLogRead o first count) fun h =>
  let f := first.toNat
  let n := count.toNat
  if n < 1 || 7 < n || h.faults.lastEntry < f then h.respond o stBadParam []
  else
    let a := h.passEntries (h.faults.served f n)
    let start := match a.2 with
      | e :: _ => e.num
      | [] => f
    a.1.ok o (be 4 start ++ be 1 a.2.length ++ zeros 3 ++ a.2.flatMap FaultEntry.bytes)

end Sys2Proof.Machine
end

