-- ==== Sys2Proof/Machine/CmdLife.lean ====
section
/-! DEFINITION. The life-cycle and firmware commands (R446, R447, R520–R532). -/

namespace Sys2Proof.Machine

/-- LIFECYCLE_GET (R446). -/
def Hw.lifeData (h : Hw) : List Byte :=
  be 1 h.life.state ++ [0] ++ be 4 h.life.breaks ++ be 4 h.life.keyGen ++ be 8 h.life.lastTransition.toNat

/-- LIFECYCLE_GET (R446). -/
def execLifecycleGet (o : Origin) (s : State) : Out := s.upd fun h => h.serve (.lifecycleGet o) fun h => h.ok o h.lifeData

/-- CALIBRATION is entered (R521). -/
def Hw.enterCalibration (h : Hw) : Hw := ({ h with life := { h.life with calEntered := true } }).lifeChange

/-- A SEAL fuse is programmed without Belvedere (R521). -/
def Hw.sealPlain (h : Hw) : Hw := ({ h with life := { h.life with seals := h.life.seals + 1 } }).lifeChange

/-- LIFECYCLE_ADVANCE (R447, R520, R521). CALENn high fails the privilege of the TARGET and is captured (R416). -/
def execLifecycleAdvance (o : Origin) (target : Byte) (s : State) : Out := s.upd fun h => h.serve (.lifecycleAdvance o target) fun h =>
  if target = 2 then
    if h.life.state ≠ 1 then h.respond o stWrongLife []
    else if !h.metering then h.respond o stBadParam []
    else if !h.lines.calenLow then h.deny o 0xA1 4 stDenied
    else h.enterCalibration.ok o []
  else if target = 3 then
    if h.metering then h.respond o stBadParam []
    else if h.life.state ≠ 1 || 32 ≤ h.life.seals then h.respond o stWrongLife []
    else h.sealPlain.ok o []
  else h.respond o stBadParam []

/-! ## Firmware (R529–R532) -/

/-- Size of a slot. -/
def slotSize : Nat := 2097152

/-- Data programmed into a slot: bytes 112–127 stay erased (R530). -/
def putFirmware (m : Cells) (a : Nat) : List Byte → Cells
  | [] => m
  | b :: r => putFirmware (if 112 ≤ a && a < 128 then m else Cells.put 0xFF m a b) (a + 1) r

/-- A chunk goes into the slot that is not running; at offset 0 the slot is erased first (R446, R530). -/
def Hw.stage (h : Hw) (offset : Nat) (data : List Byte) : Hw :=
  let b := !h.fw.runB
  let x := if offset = 0 then FwSlot.erased else h.fw.slot b
  let x := { x with bytes := putFirmware x.bytes offset data, staged := offset + data.length }
  let valid := h.fw.stagedValid && offset ≠ 0
  let programming := h.fw.programming && offset ≠ 0
  { h with fw := { h.fw.setSlot b x with stagedValid := valid, programming := programming, chunk := some (offset, h.clk) } }

/-- FW_STAGE (R446, R450, R528, R530): the chunk moves on channel 14. A transfer that parity errors end stages nothing (R507); the
reply is then STORE_ERROR (DESIGN CHOICE, log 68). -/
def execFwStage (o : Origin) (offset : Word) (len : Byte) (rsv : BitVec 24) (data : List Byte) (s : State) : Out :=
  s.upd fun h => h.serve (.fwStage o offset len rsv data) fun h =>
    let a := offset.toNat
    if data.length ≠ len.toNat then h.respond o stBadLength []
    else if h.life.retired then h.respond o stWrongLife []
    else if len = 0 || 240 < len.toNat || rsv ≠ 0 || slotSize < a + len.toNat ||
        (a ≠ 0 && a ≠ (h.fw.slot (!h.fw.runB)).staged) then h.respond o stBadParam []
    else
      let t := h.transfer 14 data.length
      let h := t.1
      if a = 0 then
        let h := (h.newJob 0xA2 true).pending o []
        let n := h.proto.lastJob
        if t.2 then (h.stage a data).endJob n 0 0 (be 4 len.toNat)
        else ({ (h.stage a data) with fw := (h.stage a data).fw.unstage }).abandonJobs [0xA2]
      else if t.2 then (h.stage a data).ok o [] else h.respond o stStoreError []

/-- What FW_VERIFY reads in a slot. -/
def FwSlot.field (x : FwSlot) (a n : Nat) : Nat := ube (Cells.read 0xFF x.bytes a n)

/-- The fields of the header, with what its signature under the boot ROM's key and its body hash say (R529). -/
def FwSlot.parsed (x : FwSlot) (key : List Byte) : FwSlot :=
  let n := x.field 4 4
  { x with
    length := n, version := BitVec.ofNat 32 (x.field 8 4), secVersion := x.field 12 4
    headerOk := x.field 0 4 = 0x4B465731 && signedBy key (Cells.read 0xFF x.bytes 0 48) (Cells.read 0xFF x.bytes 48 64)
    bodyOk := sha256 (Cells.read 0xFF x.bytes 128 (n - 128)) == Cells.read 0xFF x.bytes 16 32 }

/-- The result of FW_VERIFY, in the order of R530: 0 VALID, 1 SIGNATURE, 2 LENGTH, 3 ROLLBACK. -/
def FwSlot.verdict (x : FwSlot) (len rollback : Nat) : Nat :=
  if len ≠ x.length || len ≠ x.staged || len < 128 then 2
  else if !x.headerOk || !x.bodyOk then 1
  else if x.secVersion < rollback then 3
  else 0

/-- FW_VERIFY (R446, R450, R530): the slot is read through its ECC check and fed to the hash on channel 8; an uncorrectable error
in it spoils the hash (R469, R477). -/
def execFwVerify (o : Origin) (len : Word) (s : State) : Out := s.upd fun h => h.serve (.fwVerify o len) fun h =>
  let b := !h.fw.runB
  let x := (h.fw.slot b).parsed h.factory.fwKey
  if (h.fw.slot b).staged = 0 then h.respond o stWrongState []
  else
    let t := ((h.newJob 0xA3 true).pending o []).transfer 8 x.length
    if !t.2 then t.1.abandonJobs [0xA3]
    else
      let c := t.1.flashCheck 4 (if b then 0xF2 else 0xF1) 0
      let h := c.1
      let x := if c.2 then x else { x with bodyOk := false }
      let r := x.verdict len.toNat h.fw.rollback
      let h : Hw := { h with fw := { h.fw.setSlot b x with stagedValid := r = 0 } }
      h.endJob h.proto.lastJob 0 r (be 4 x.version.toNat)

/-- FW_ACTIVATE takes effect (R531): the activation number is programmed, and its complement follows. -/
def Hw.activateFw (h : Hw) (now : Bool) : Hw :=
  let b := !h.fw.runB
  let n := (h.fw.slot h.fw.runB).activation + 1
  { h with
    fw := { h.fw.setSlot b { h.fw.slot b with activation := n } with programming := true }
    rst := { h.rst with fwReset := now || h.inLimp } }

/-- FW_ACTIVATE (R446, R531). -/
def execFwActivate (o : Origin) (flags : Byte) (s : State) : Out := s.upd fun h => h.serve (.fwActivate o flags) fun h =>
  if !h.fw.stagedValid then h.respond o stWrongState []
  else if 1 < flags.toNat then h.respond o stBadParam []
  else (h.activateFw (flags = 1)).ok o []

/-- IDENTITY_CERT_READ (R294, R446). -/
def execIdentityCertRead (o : Origin) (offset : Half) (len : Byte) (s : State) : Out := s.upd fun h => h.serve (.identityCertRead o offset len) fun h =>
  let c := h.factory.cert
  let n := len.toNat
  if n < 1 || 240 < n || c.length ≤ offset.toNat then h.respond o stBadParam []
  else h.ok o (be 2 c.length ++ be 2 offset.toNat ++ slice c offset.toNat n)

/-- The refusal of RETIRE (R447). -/
def Hw.retireRefused (h : Hw) (flags : Byte) : Option Nat :=
  if h.life.state = 0 || h.life.state = 4 then some stWrongLife
  else if 0 < h.nRes || (h.ackSeq < h.log.lastSeq && !flags.getLsbD 0) then some stWrongState
  else if 1 < flags.toNat then some stBadParam
  else none

/-- RETIRE (R447, R526): its job ends with the erase of the last sector. -/
def execRetire (o : Origin) (flags : Byte) (s : State) : Out := s.upd fun h => h.serve (.retire o flags) fun h =>
  match h.retireRefused flags with
  | some st => h.respond o st []
  | none => ((h.newJob 0xA6 true).pending o []).beginRetire (flags = 1)

end Sys2Proof.Machine
end

