-- ==== Sys2Proof/Machine/Link.lean ====
section
/-! DEFINITION. The voltage command link and the reference ramps of every output (R115–R144, R150, R156, R157). -/

namespace Sys2Proof.Machine

/-! ## Frames (R119–R122) -/

/-- The 23 protected bits of a request. -/
def requestBits (op : BitVec 4) (rail : BitVec 2) (tog : Bool) (payload : Half) : List Bool :=
  natBits 4 op.toNat ++ natBits 2 rail.toNat ++ [tog] ++ natBits 16 payload.toNat

/-- Response codes of R127. -/
inductive Resp where
  | ack
  | nakCrc
  | nakRange
  | nakRail
  | nakState
  | nakOp
  | ackRepeat
  deriving DecidableEq, Repr

def Resp.code : Resp → BitVec 3
  | .ack => 0 | .nakCrc => 1 | .nakRange => 2 | .nakRail => 3 | .nakState => 4 | .nakOp => 5 | .ackRepeat => 6

/-- FLAGS of R128 for rail k. -/
def Hw.vclFlags (h : Hw) (k : Nat) : BitVec 4 :=
  let r := h.rail k
  BitVec.ofNat 4 (bits [r.hintHold, h.capped, r.slewing, r.settled])

/-- FLAGS without a rail: CAPPED alone (R121), also in a NAK_OP for a rail outside link control (DESIGN CHOICE, log 58). -/
def Hw.bareFlags (h : Hw) : BitVec 4 := if h.capped then 2 else 0

/-- The response with its CRC (R120). -/
def vclFrame (resp : BitVec 3) (flags : BitVec 4) (data : Half) : VclResponse :=
  { resp := resp, flags := flags, data := data,
    crc := crc4 (natBits 3 resp.toNat ++ natBits 4 flags.toNat ++ natBits 16 data.toNat) }

/-- The response of a request naming rail k: DATA is 0 in every NAK (R120, R121). -/
def Hw.vclAnswer (h : Hw) (r : Resp) (k : Nat) (data : Half) : Hw :=
  let named := (h.cfg k).vclEn && r != .nakCrc && r != .nakRail
  let ok := r == .ack || r == .ackRepeat
  { h with vcl := { h.vcl with resp := some (vclFrame r.code (if named then h.vclFlags k else h.bareFlags) (if ok then data else 0))
                               ok := if r == .ack then sat16 h.vcl.ok else h.vcl.ok } }

/-- A VCL violation (R129, R143): event, capture, count. A NAK_CRC is one too, as R466 lists it in the class (DEDUCED, log 14). -/
def Hw.vclBad (h : Hw) (src access op k : Nat) (detail : List Byte) : Hw :=
  let h : Hw := { h with vcl := { h.vcl with bad := sat16 h.vcl.bad } }
  (h.raise 7).report src (op * 16 + k) 3 access detail

/-! ## Reference ramps (R133, R136, R140, R156, R157) -/

/-- The reference of output k moves to a code: the ramp starts from the reference as it stands, at a slew class for a VP
output and at RAMP for the others. The slew episode begins or goes on. -/
def Hw.retarget (h : Hw) (k code cls : Nat) : Hw :=
  let moves := h.refHalf k != codeHalf k code || (if isVp k then (h.rail k).slewing else (h.out k).ramping)
  let h := (h.turnRef k).modOut k (fun o =>
    { o with tgt := code, ramping := if isVp k then o.ramping else moves, held := false,
             past := if o.episode then o.past else o.past.take 1, episode := o.episode || moves,
             epMax := if o.episode then max o.epMax code else if moves then code else 0 })
  if isVp k then
    let h := h.modRail k (fun r => { r with slewing := moves, cls := cls, stallRaised := false
                                            slewEnd := if moves then r.slewEnd else some h.clk })
    h.cancelSheds k
  else h

/-- The ramp of output k has reached its target (R133, R150): a first end of the enabling ramp counts towards arming. -/
def Hw.rampDone (h : Hw) (k : Nat) : Hw :=
  let h := h.modOut k (fun o =>
    ({ o with ref := codeHalf k o.tgt, past := (h.clk, codeHalf k o.tgt) :: o.past, ramping := false, held := false,
              rampEnded := true }).arm)
  if isVp k then h.modRail k (fun r => { r with slewing := false, slewEnd := some h.clk }) else h

/-- A VP reference moves by one code, 5 × 0.5 mV, towards its target (R130, R133). -/
def Hw.codeStep (h : Hw) (k : Nat) : Hw :=
  let next := toward (h.out k).ref (codeHalf k (h.out k).tgt) 5
  if next = codeHalf k (h.out k).tgt then (h.rampDone k).forced
  else h.modOut k (fun o => { o with ref := next, past := (h.clk, next) :: o.past })

/-- A VM or VH reference stands while a phase of its downward ramp ends at the sink limit, and goes on afterwards (R151). -/
def Hw.sinkHold (h : Hw) (k : Nat) (paused : Bool) : Hw :=
  let o := h.out k
  if o.ramping && paused != o.held && (o.held || codeHalf k o.tgt < h.refHalf k) then
    (h.turnRef k).modOut k (fun o => { o with held := paused })
  else h

/-- SLEW_STEP (R130, R133, R135, R151): of a VP output one code towards the target, none in a paused cycle, and the ramp ends
at the target; a VM or VH output, whose reference moves at RAMP, enters or leaves a pause of its downward ramp. -/
def execSlewStep (k : Fin 12) (paused : Bool) (s : State) : Out := s.upd fun h =>
  if isVp k then (if (h.rail k).slewing && !paused then h.codeStep k else h) else h.sinkHold k paused

/-- SETTLED (R134), after any ramp that has ended, an enabling or RAIL_SET ramp among them (DESIGN CHOICE, log 74). -/
def execSettled (k : Fin 4) (s : State) : Out := s.upd fun h =>
  if (h.out k).on && !(h.rail k).slewing && (h.out k).rampEnded then h.modRail k (fun r => { r with settled := true }) else h

/-- VCL_SLEW_STALL (R135): once a ramp. -/
def execVclSlewStall (k : Fin 4) (s : State) : Out := s.upd fun h =>
  if (h.rail k).slewing && !(h.rail k).stallRaised then (h.modRail k (fun r => { r with stallRaised := true })).raise 8 else h

/-- SLEW_EPISODE_END (R140, R157): the reference has stood at its target for t_F; one that a power-down holds short of it has
not. -/
def execSlewEpisodeEnd (k : Fin 12) (s : State) : Out := s.upd fun h =>
  let rest := if isVp k then !(h.rail k).slewing else !(h.out k).ramping
  if (h.out k).episode && rest && (h.out k).ref = codeHalf k (h.out k).tgt then
    h.modOut k (fun o => { o with episode := false, epMax := 0, past := [] })
  else h

/-- RAMP_END (R150, R185): the ramp in progress of an output that is on ends; a reference that the sink limit holds has not
reached its target (R151). -/
def execRampEnd (k : Fin 12) (s : State) : Out := s.upd fun h =>
  let moving := if isVp k then (h.rail k).slewing else (h.out k).ramping && !(h.out k).held
  if (h.out k).on && moving then (h.rampDone k).forced else h

/-! ## Requests (R126–R138) -/

/-- A request as received: its CRC check, which Folly may invert (checker 0x0B), the checks of R127 in their order, and its
action at t_ACC. `reserved` says that a reserved opcode or bit is set; `body` answers for an accepted request or refuses it. -/
def Hw.vclRequest (h : Hw) (op : BitVec 4) (rail : BitVec 2) (tog : Bool) (payload : Half) (crc : BitVec 4) (reserved : Bool)
    (body : Hw → Nat → Hw) : Hw :=
  if !h.live then h
  else
    let k := rail.toNat
    let h := h.wake
    let inj := h.hit 0x0B
    let h := h.take 0x0B
    if inj || crc4 (requestBits op rail tog payload) != crc then (h.vclBad 0x51 4 op.toNat k (if inj then injected true else [])).vclAnswer .nakCrc k 0
    else if reserved then (h.vclBad 0x50 3 op.toNat k []).vclAnswer .nakOp k 0
    else if !(h.cfg k).vclEn then (h.vclBad 0x50 3 op.toNat k []).vclAnswer .nakRail k 0
    else body h k

/-- An accepted request that changes no state of the rail is answered; the kept copy differs from it and is cleared (R137). -/
def Hw.vclRead (h : Hw) (k : Nat) (data : Half) : Hw :=
  ({ h with vcl := { h.vcl with kept := none } }).vclAnswer .ack k data

/-- R132: SETV and HINT are accepted by a rail that is on, past its enabling step, not shed, outside FAULT_LATCHED. -/
def Hw.vclAccepts (h : Hw) (k : Nat) : Bool :=
  (h.out k).on && (h.out k).stepDone && !(h.out k).shed && h.eff != .faultLatched

/-- The kept copy matches in all four fields (R137). -/
def VclKept.same (x : VclKept) (op k : Nat) (tog : Bool) (payload : Half) : Bool :=
  x.op == op && x.rail == k && x.tog == tog && x.payload == payload

/-- A state-changing request is accepted: it is kept with the DATA of its ACK, and carried out. -/
def Hw.vclCarry (h : Hw) (op k : Nat) (tog : Bool) (payload data : Half) (act : Hw → Hw) : Hw :=
  match h.vcl.kept with
  | some x =>
    if x.same op k tog payload then h.vclAnswer .ackRepeat k x.data
    else (act { h with vcl := { h.vcl with kept := some ⟨op, k, tog, payload, data⟩ } }).vclAnswer .ack k data
  | none => (act { h with vcl := { h.vcl with kept := some ⟨op, k, tog, payload, data⟩ } }).vclAnswer .ack k data

/-- VCL_NOP (R126): opcode 0, or a reserved opcode, which is answered NAK_OP. The opcodes 1 to 5 have rows of their own. -/
def execVclNop (op : BitVec 4) (rail : BitVec 2) (tog : Bool) (payload : Half) (crc : BitVec 4) (s : State) : Out :=
  s.upd fun h =>
    let op := if 6 ≤ op.toNat then op else 0
    h.vclRequest op rail tog payload crc (op != 0 || payload != 0) (fun h k => h.vclRead k 0)

/-- The slew class applied (R130, R131). -/
def slewApplied (c : OutCfg) (slew : Nat) : Nat := min (if slew = 7 then c.slewDef else slew) c.slewMax

/-- SETV (R126, R131–R133, R136, R137). -/
def execSetv (rail : BitVec 2) (tog : Bool) (payload : Half) (crc : BitVec 4) (s : State) : Out := s.upd fun h =>
  h.vclRequest 1 rail tog payload crc (payload.extractLsb' 10 3 != 0) fun h k =>
    let code := (payload.extractLsb' 0 10).toNat
    let cls := slewApplied (h.cfg k) (payload.extractLsb' 13 3).toNat
    if !h.vclAccepts k then (h.vclBad 0x50 3 1 k []).vclAnswer .nakState k 0
    else if 560 < code || code < (h.cfg k).vMin || (h.cfg k).vMax < code then
      (h.vclBad 0x50 3 1 k []).vclAnswer .nakRange k 0
    else h.vclCarry 1 k tog payload (BitVec.ofNat 16 (cls * 8192 + code)) (fun h =>
      (h.modRail k (fun r => { r with settled := false })).retarget k code cls)

/-- n_H of R99 and R138: a count of 0 names no step size; I_OUT is signed (R110, R126), and a sum below 0 asks for no phase. -/
def hintCount (c : OutCfg) (iOut : Int) (count : Nat) : Nat :=
  if count = 0 then c.maxPh else min c.maxPh (((iOut + 250 * count).toNat + c.iAdd - 1) / c.iAdd)

/-- HINT (R99, R100, R137, R138): the hold starts, sheds are cancelled, phases are added up to n_H. -/
def execHint (rail : BitVec 2) (tog : Bool) (payload : Half) (crc : BitVec 4) (iOut : Int) (s : State) : Out := s.upd fun h =>
  h.vclRequest 2 rail tog payload crc (payload.extractLsb' 0 8 != 0) fun h k =>
    if !h.vclAccepts k then (h.vclBad 0x50 3 2 k []).vclAnswer .nakState k 0
    else
      let n := hintCount (h.cfg k) iOut (payload.extractLsb' 8 8).toNat
      h.vclCarry 2 k tog payload (BitVec.ofNat 16 (n * 16 + h.pool.active k)) fun h =>
        let h := (h.modRail k (fun r => { r with hintHold := true })).cancelSheds k
        (h.unskip k).addUpTo k n

/-- GETV (R126): the class in use, of a rail at rest or off that of its last ramp (DESIGN CHOICE, log 58), and the present
reference code. -/
def execGetv (rail : BitVec 2) (tog : Bool) (payload : Half) (crc : BitVec 4) (s : State) : Out := s.upd fun h =>
  h.vclRequest 3 rail tog payload crc (payload != 0) fun h k =>
    h.vclRead k (BitVec.ofNat 16 ((h.rail k).cls * 8192 + h.refNow k))

/-- GETI (R126): signed, 10 mA per count, saturating. -/
def execGeti (rail : BitVec 2) (tog : Bool) (payload : Half) (crc : BitVec 4) (ma10 : Int) (s : State) : Out := s.upd fun h =>
  h.vclRequest 4 rail tog payload crc (payload != 0) fun h k =>
    h.vclRead k (BitVec.ofInt 16 (max (-32768) (min 32767 ma10)))

/-- GETVM (R126). -/
def execGetvm (rail : BitVec 2) (tog : Bool) (payload : Half) (crc : BitVec 4) (mv : Nat) (s : State) : Out := s.upd fun h =>
  h.vclRequest 5 rail tog payload crc (payload != 0) fun h k => h.vclRead k (BitVec.ofNat 16 (min 65535 mv))

/-- TRUNCATED (R125, R129): no response; the bits received name the opcode and the rail. -/
def execTruncated (op : BitVec 4) (rail : BitVec 2) (s : State) : Out := s.upd fun h =>
  if h.live then
    let h : Hw := { h.wake with vcl := { h.vcl with resp := none } }
    h.vclBad 0x50 4 op.toNat rail.toNat []
  else h

end Sys2Proof.Machine
end

