-- ==== Sys2Proof/Machine/Ports.lean ====
section
/-! DEFINITION. The protected ports EP1–EP6 and the accessory bus that reads their descriptors (R46–R57, R398–R403). -/

namespace Sys2Proof.Machine

/-! ## Shared operations -/

/-- Current of an ILIM_CODE in mA (R428). -/
def ilimMa (code : Nat) : Nat := 500 + 250 * code

/-- A port may start: enabled, not shed, VIN present, system state RUN or SEQ_UP (R57). -/
def Hw.portAllowed (h : Hw) (p : Nat) : Bool :=
  let x := h.port p
  x.enabled && !x.shed && !h.noVin && h.pwr.commit.isNone && !h.gone &&
    (h.seq.state == .run || h.seq.state == .seqUp)

def Hw.portMode (h : Hw) (p : Nat) : DescMode := (h.cfg (12 + p)).mode

/-- Pre-charge begins: the 47 Ω path closes and the 2 s of R52 run. The output of the port counts as on from here. -/
def Hw.beginPrecharge (h : Hw) (p : Nat) : Hw :=
  let k := 12 + p
  let inStep := h.seq.active && maskHas h.stepNow.onMask k
  let h := h.modPort p (fun x => { x with state := .precharge, waiting := false, spacing := true, reread := false })
  h.modOut k (fun o => { o with on := true, enabled := true, ramping := true, rampEnded := false, stepDone := !inStep,
                                sup := .enabling, good := false, outside := false, shed := false, faultOff := false, discharging := false })

/-- A pre-charge is asked for; inside the 2 s it waits (R52). -/
def Hw.askPrecharge (h : Hw) (p : Nat) : Hw :=
  if (h.port p).spacing then h.modPort p (fun x => { x with waiting := true }) else h.beginPrecharge p

/-- A failed read: it starts again 1 ms later while inside the 100 ms (R50). -/
def Hw.failRead (h : Hw) (p : Nat) : Hw := (h.modPort p (fun x => { x with reread := true })).freeBus p

/-- ADDRESS of an accessory-bus error (R471): the target address; the memory address is 0x0000 (R50). -/
def Hw.accAddr (h : Hw) : Nat :=
  match h.acc.port with
  | some p => (h.cfg (12 + p)).descAddr % 128 * 65536
  | none => 0

/-- An accessory-bus error is captured (R401): bus protocol, master 7, access protocol. -/
def Hw.accError (h : Hw) : Hw := h.report 0x42 h.accAddr 7 4 []

/-- The board is accepted: pre-charge (R57). -/
def Hw.acceptBoard (h : Hw) (p : Nat) : Hw := (h.modPort p (fun x => { x with accepted := true })).askPrecharge p

/-- The board is refused with a reason (R51). -/
def Hw.refuseBoard (h : Hw) (p reason : Nat) : Hw :=
  (h.modPort p (fun x => { x with state := .refused, reason := reason, reread := false })).raise 3

/-- DESC_ABSENT (R51). -/
def Hw.descAbsent (h : Hw) (p : Nat) : Hw :=
  if h.portMode p == .required then h.refuseBoard p 0x10
  else (h.modPort p (fun x => { x with reread := false })).acceptBoard p

/-- The content that R51 calls valid: MAGIC, VERSION, reserved bytes, CRC. -/
def descOk (d : List Byte) : Bool :=
  slice d 0 2 == [0x4B, 0x44] && d.getD 2 0 == 1 && d.getD 3 0 == 0 && slice d 12 2 == [0, 0] &&
    slice d 14 2 == be 2 (crc16 (d.take 14)).toNat

/-- A descriptor of 16 bytes is judged (R51); Folly may invert the CRC check (R477, checker 0x0E). -/
def Hw.judgeDesc (h : Hw) (p : Nat) (d : List Byte) : Hw :=
  let bad := h.hit 0x0E
  let h := h.take 0x0E
  if descOk d && !bad then
    let i := ube (slice d 4 2)
    let c := ube (slice d 6 2)
    let h := h.modPort p (fun x => { x with descValid := true, iDecl := i, cDecl := c, boardId := slice d 8 4 })
    if ilimMa (h.port p).ilim < i then h.refuseBoard p 0x12
    else if 220 < c then h.refuseBoard p 0x13
    else h.acceptBoard p
  else h.refuseBoard p 0x11

/-- A port latches off with a reason (R54, R55). -/
def Hw.latchPort (h : Hw) (p reason : Nat) : Hw :=
  let k := 12 + p
  let h := h.modPort p (fun x => { x with state := .latched, reason := reason, waiting := false })
  (((h.modOut k (fun o => o.turnOff ((h.cfg k).safe != .offFloat) 0))).raise 4).evalPgood

/-- The switch or the pre-charge path of a port is closed. -/
def Port.closed (x : Port) : Bool := !x.isOff

/-- A port starts again from SEATING (R56, R57): the 50 ms and the descriptor read run again. -/
def Hw.reseat (h : Hw) (p : Nat) : Hw :=
  h.modPort p (fun x => { x with state := if x.eppresLow then .seating else .empty, reason := 0, accepted := false,
                                 waiting := false, reread := false })

/-! ## Seating and descriptors -/

/-- EPPRES_FALL (R48, R57, R68). In reset the input is ignored (R17): the level alone is kept for the release. -/
def execEppresFall (p : Fin 6) (s : State) : Out := s.upd fun h =>
  let h := h.modPort p (fun x => { x with eppresLow := true })
  if h.live then h.wake.modPort p (fun x => { x with state := if x.state == .empty then .seating else x.state }) else h

/-- EP_SEATING_STABLE (R57): the descriptor is read, or in mode OFF pre-charge starts. -/
def execEpSeatingStable (p : Fin 6) (s : State) : Out := s.upd fun h =>
  let x := h.port p
  if x.state == .seating && x.eppresLow && !x.waiting && h.portAllowed p then
    if h.portMode p == .off then h.acceptBoard p
    else (h.modPort p (fun x => { x with state := .descCheck, reread := false })).startRead
  else h

/-- DESC_READ_COMPLETE (R50, R51): 16 bytes are judged, a third address not acknowledged is DESC_ABSENT, and a read left short is
a failed read, which is captured; after an earlier one the address is sent again (R402). The bus goes on once the port has its
decision. -/
def execDescReadComplete (p : Fin 6) (read : Option (List Byte)) (s : State) : Out := s.upd fun h =>
  if (h.port p).state == .descCheck && h.reading == some p.val && !h.acc.waiting then
    match read with
    | none => if h.acc.nacks < 2 then h else (h.descAbsent p).freeBus p
    | some d => if d.length = 16 then (h.judgeDesc p d).freeBus p else (h.accError).failRead p
  else h

/-- DESC_READ_RETRY (R50). -/
def execDescReadRetry (p : Fin 6) (s : State) : Out := s.upd fun h =>
  if (h.port p).state == .descCheck && (h.port p).reread then
    (h.modPort p (fun x => { x with reread := false })).startRead
  else h

/-- DESC_READ_TIMEOUT (R50). A pre-charge that waits has its decision already. -/
def execDescReadTimeout (p : Fin 6) (s : State) : Out := s.upd fun h =>
  if (h.port p).state == .descCheck && !(h.port p).waiting then
    (h.descAbsent p).freeBus p
  else h

/-! ## Pre-charge, start-up, protection -/

/-- EP_PRECHARGE_COMPLETE (R52, R53). -/
def execEpPrechargeComplete (p : Fin 6) (s : State) : Out := s.upd fun h =>
  if (h.port p).state == .precharge then h.modPort p (fun x => { x with state := .startup }) else h

/-- PRECHARGE_TIMEOUT (R52). -/
def execPrechargeTimeout (p : Fin 6) (s : State) : Out := s.upd fun h =>
  if (h.port p).state == .precharge then h.latchPort p 4 else h

/-- EP_PRECHARGE_INTERVAL_END (R52): a start that waits begins, if the port may still start. -/
def execEpPrechargeIntervalEnd (p : Fin 6) (s : State) : Out := s.upd fun h =>
  let h := h.modPort p (fun x => { x with spacing := false })
  if (h.port p).waiting then
    if h.portAllowed p then h.beginPrecharge p else h.modPort p (fun x => { x with waiting := false })
  else h

/-- EP_STARTUP_END (R53, R57): the port is ON; supervision starts (R185). -/
def execEpStartupEnd (p : Fin 6) (s : State) : Out := s.upd fun h =>
  if (h.port p).state == .startup then
    let h := h.modPort p (fun x => { x with state := .on })
    (h.modOut (12 + p) (fun o => ({ o with ramping := false, rampEnded := true }).arm)).forced
  else h

/-- STARTUP_FAIL (R53). -/
def execStartupFail (p : Fin 6) (s : State) : Out := s.upd fun h =>
  if (h.port p).state == .startup then h.latchPort p 3 else h

/-- OC_SUSTAINED (R54), after t_SU. -/
def execOcSustained (p : Fin 6) (s : State) : Out := s.upd fun h =>
  if (h.port p).state == .on then h.latchPort p 2 else h

/-- OC_FAST (R54), in any state in which the main switch or the pre-charge path is closed. -/
def execOcFast (p : Fin 6) (s : State) : Out := s.upd fun h =>
  if (h.port p).closed then h.latchPort p 1 else h

/-- REVERSE (R54). -/
def execReverse (p : Fin 6) (s : State) : Out := s.upd fun h =>
  if (h.port p).closed then h.latchPort p 5 else h

/-- EPPRES_RISE (R48, R56, R68): after the fixed 10 µs filter, off and EMPTY from any state; a descriptor read of the port ends
(R403). EPSEAT follows the configured filter, N × 10 µs after the edge, the shortest delay that R457 allows (DESIGN CHOICE, log
71). In reset the level alone is kept. -/
def execEppresRise (p : Fin 6) (s : State) : Out := s.upd fun h =>
  let k := 12 + p.val
  let rest := 10 * (h.image.filters.getD (7 + p) 10 - 1)
  let h := h.modPort p (fun x => { x with eppresLow := false, seatEnd := h.clk + rest, accepted := false })
  if h.live then
    let h := h.wake.modPort p (fun x => { x with state := .empty, reason := 0, waiting := false, reread := false })
    let h := h.modOut k (fun o => if o.on then o.turnOff ((h.cfg k).safe != .offFloat) 0 else o)
    (h.freeBus p).evalPgood
  else h

/-- EP_HELD_RESTART (R57): through pre-charge where the descriptor was accepted since seating or the mode is OFF, otherwise
through seating. -/
def execEpHeldRestart (p : Fin 6) (s : State) : Out := s.upd fun h =>
  let x := h.port p
  if x.state == .held && x.eppresLow && !x.waiting && h.portAllowed p then
    if x.accepted || h.portMode p == .off then h.askPrecharge p else h.reseat p
  else h

/-! ## The accessory bus (R398–R402) -/

/-- ARBITRATION_LOSS (R400): what was read is discarded; the transaction waits for its restart. Not captured. -/
def execArbitrationLoss (s : State) : Out := s.upd fun h =>
  if h.reading.isSome && !h.acc.waiting then { h with acc := { h.acc with waiting := true, free := false, condLosses := 0 } } else h

/-- No STOP of the module's ends the transaction: the bus is not free until it has been found so (R399). -/
def Hw.busTaken (h : Hw) : Hw := { h with acc := { h.acc with free := false } }

/-- ARB_LOST_COND (R401): when the third successive retry ends so, the transaction fails. -/
def execArbLostCond (s : State) : Out := s.upd fun h =>
  match h.reading with
  | some p =>
    if h.acc.waiting then h
    else if 3 ≤ h.acc.condLosses then (((h.raise 14).accError).busTaken).failRead p
    else { h with acc := { h.acc with waiting := true, free := false, condLosses := h.acc.condLosses + 1 } }
  | none => h

/-- ACC_TRANSACTION_RESTART (R399, R400): the bus is free and the index-dependent wait has passed: a transaction that waits
starts. -/
def execAccTransactionRestart (s : State) : Out :=
  s.upd fun h => ({ h with acc := { h.acc with waiting := false, free := true, sclStuck := false } }).startRead

/-- ACC_ADDRESS_NACK_RETRY (R402): the address was not acknowledged and is sent again, up to twice. The third NACK in a
transaction is DESC_READ_COMPLETE with no acknowledge. -/
def execAccAddressNackRetry (s : State) : Out := s.upd fun h =>
  if h.reading.isSome && !h.acc.waiting && h.acc.nacks < 2 then
    { h with acc := { h.acc with nacks := h.acc.nacks + 1, condLosses := 0 } }
  else h

/-- SDA_STUCK_LOW (R402): with the bus otherwise idle, also between the repeats of a transaction, up to 9 clocks and a STOP, after
which the bus is free; captured. -/
def execSdaStuckLow (s : State) : Out := s.upd fun h =>
  if h.live && !h.gone then
    let h := h.accError
    { h with acc := { h.acc with free := !h.acc.sclStuck } }
  else h

/-- SCL is held low with the bus idle (R402): no transaction starts, and the event comes once an episode. -/
def Hw.sclEpisode (h : Hw) : Hw :=
  if h.acc.sclStuck then h else ({ h with acc := { h.acc with sclStuck := true, free := false } }).raise 14

/-- SCL_HELD_LOW (R402): a transaction fails and is captured; with the bus idle an episode begins. Whether the address of a
transaction has just not been acknowledged, so that the bus is idle and the repeat waits, no command says: a free value (DESIGN
CHOICE, log 71). -/
def execSclHeldLow (s : State) : Out := s.upd fun h =>
  match h.reading with
  | some p =>
    if h.acc.waiting then h.sclEpisode
    else
      let idle := h.acc.nacks < 2 && Config.freeNat h.free % 2 = 1
      let h := h.draw
      if idle then ({ h with acc := { h.acc with waiting := true, nacks := h.acc.nacks + 1 } }).sclEpisode
      else (((h.raise 14).accError).busTaken).failRead p
  | none => if !h.live || h.gone then h else h.sclEpisode

end Sys2Proof.Machine
end

