-- ==== Sys2Proof/Machine/CmdPower.lean ====
section
/-! DEFINITION. The power commands: sequences, outputs, the pool, ports, budgets, CLEAR_FAULT (R101, R155, R156, R198, R204,
R233, R428–R433). -/

namespace Sys2Proof.Machine

/-! ## Sequences (R198) -/

/-- PENDING with a job number that stands already. -/
def Hw.pendingJob (h : Hw) (o : Origin) (n : Nat) : Hw := h.respond o stPending (be 2 n)

/-- A command that finds its sequence in progress: the job of the sequence, or a new one attached to it. -/
def Hw.attachJob (h : Hw) (o : Origin) (op : Byte) : Hw :=
  match h.seq.job with
  | some n => h.pendingJob o n
  | none =>
    let h := h.newJob op false
    ({ h with seq := { h.seq with job := some h.proto.lastJob } }).pending o []

/-- POWER_UP (R198, R220). -/
def execPowerUp (o : Origin) (s : State) : Out := s.upd fun h => h.serve (.powerUp o) fun h =>
  if h.seq.state == .faultLatched then h.respond o stFaultLatched []
  else if !h.ins.storeReady then h.respond o stNotReady []
  else if !h.lines.en || h.serviceReady || !h.admitted then h.respond o stWrongState []
  else match h.seq.state with
  | .run => h.ok o []
  | .seqUp => h.attachJob o 0x10
  | .off | .seqDown =>
    let h := (h.newJob 0x10 false).pending o []
    (h.onRequest (some h.proto.lastJob)).forced
  | .faultLatched | .standby | .limp => h.respond o stWrongState []

/-- POWER_DOWN (R195, R198). -/
def execPowerDown (o : Origin) (s : State) : Out := s.upd fun h => h.serve (.powerDown o) fun h =>
  match h.seq.state with
  | .seqUp | .run =>
    let h := (h.newJob 0x11 false).pending o []
    h.offRequest (some h.proto.lastJob)
  | .seqDown => (h.dropPend 1).attachJob o 0x11
  | .off | .standby => (h.offRequest none).ok o []
  | .faultLatched => h.respond o stFaultLatched []
  | .limp => h.respond o stWrongState []

/-- SEQ_STATUS (R432). -/
def Hw.seqData (h : Hw) : List Byte :=
  let left := if h.seq.offWait then (h.seq.offStart + 1000 * h.image.tOffMin - h.clk + 999) / 1000 else 0
  let dir := match h.seq.toDir with
    | some .up => 0
    | some .down => 1
    | some .host => 2
    | none => 0xFF
  be 2 h.seqReg ++ be 3 h.railgood.toNat ++ be 1 h.seq.cause ++ be 2 left ++ be 2 (h.seq.job.getD 0) ++ be 1 h.seq.toStep ++
    be 1 dir ++ be 3 h.seq.toUnmet.toNat ++ [0] ++ be 8 h.seq.toTime.toNat

/-- SEQ_STATUS (R432). -/
def execSeqStatus (o : Origin) (s : State) : Out := s.upd fun h => h.serve (.seqStatus o) fun h => h.ok o h.seqData

/-- CLEAR_FAULT (R204), at a lead R233. -/
def execClearFault (o : Origin) (s : State) : Out := s.upd fun h => h.serve (.clearFault o) fun h =>
  if h.prm.role == .lead then
    if h.seq.state == .faultLatched && h.thermHolds then h.respond o stWrongState []
    else if h.prm.clearJob.isSome then h.respond o stBusy []
    else
      let h := (h.newJob 0x1C false).pending o []
      let latched := h.seq.state == .faultLatched
      { h with prm := { h.prm with clearLeft := 3, clearJob := some h.proto.lastJob, order := if latched then 0 else h.prm.order }
               seq := { h.seq with fltDrive := h.seq.fltDrive && !latched } }
  else h.clearFault (some o)

/-! ## Outputs (R155, R156, R186, R429) -/

/-- The codes that RAIL_SET takes for output k (R156, R428). -/
def Hw.codeOk (h : Hw) (k code : Nat) : Bool :=
  let c := h.cfg k
  if isVp k && !c.vclEn then code ≤ 560 else c.vMin ≤ code && code ≤ c.vMax

/-- A host target is stored; the reference of an output that is on moves to it, one that is off takes it when it is next
enabled (R156, R428). -/
def Hw.setTarget (h : Hw) (k code : Nat) : Hw :=
  let h := h.modOut k (fun o => { o with hostTarget := some code })
  let h := h.raiseIf (isVp k && (h.cfg k).vclEn) 9
  if (h.out k).on then h.retarget k code (h.cfg k).slewDef else h.modOut k (fun o => { o with tgt := code })

/-- RAIL_SET (R156, R428): the state first, the values second, since R156 gives no order of its own (R423). -/
def execRailSet (o : Origin) (output : Byte) (code : Half) (s : State) : Out := s.upd fun h => h.serve (.railSet o output code) fun h =>
  let k := output.toNat
  if h.seq.state == .seqDown then h.respond o stWrongState []
  else if h.seq.state == .faultLatched then h.respond o stFaultLatched []
  else if 11 < k || !h.used k || !h.codeOk k code.toNat then h.respond o stBadParam []
  else (h.setTarget k code.toNat).ok o []

/-- STATE of R429. -/
def Hw.railState (h : Hw) (k : Nat) : Nat :=
  let o := h.out k
  if o.on then (if (if isVp k then (h.rail k).slewing else o.ramping) then 1 else 2)
  else if o.shed then 3
  else if o.battOff then 4
  else if o.faultOff then 5
  else 0

/-- FLAGS of R429. -/
def Hw.railFlags (h : Hw) (k : Nat) : Nat :=
  if isVp k then
    let r := h.rail k
    bits [(h.out k).on, r.slewing, r.settled, (h.cfg k).vclEn, r.hintHold, h.capped, h.override k]
  else h.railstat k

/-- The reply of R429. -/
def Hw.railData (h : Hw) (k : Nat) : List Byte :=
  let o := h.out k
  let c := h.cfg k
  be 1 k ++ be 1 (h.railState k) ++ be 2 (h.target k) ++ be 2 c.vSet ++ be 2 (if o.on then h.refNow k else h.target k) ++
    be 1 (h.railFlags k) ++ be 1 (o.sup.code + 4 * b2n o.good) ++ be 1 c.prio ++ be 1 c.safe.code ++ be 1 o.uv ++ be 1 o.ov ++
    be 1 o.filt ++ be 1 (if isVp k then 0 else c.ripple) ++ be 2 h.vcl.ok ++ be 2 h.vcl.bad

/-- RAIL_GET (R429). -/
def execRailGet (o : Origin) (output : Byte) (s : State) : Out := s.upd fun h => h.serve (.railGet o output) fun h =>
  if 11 < output.toNat then h.respond o stBadParam [] else h.ok o (h.railData output.toNat)

/-- A disabled output is no longer restored by the governor (R75) nor by the return to VIN (R81). -/
def Hw.forget (h : Hw) (k : Nat) : Hw :=
  { h with gov := { h.gov with shedList := h.gov.shedList.filter (fun x => x.out != k) }
           pwr := { h.pwr with vhWait := if isVh k then h.pwr.vhWait.set (k - 10) none else h.pwr.vhWait } }

/-- An output is switched by its host: one that is shed stays shed until it is restored (R75). -/
def Hw.switch (h : Hw) (k : Nat) (on : Bool) : Hw :=
  let h := h.modOut k (fun o => { o with hostState := some on })
  if on then (if (h.out k).shed then h.modOut k (fun o => { o with enabled := true }) else h.turnOn k false)
  else (h.disable k).forget k

/-- RAIL_ENABLE (R155). -/
def execRailEnable (o : Origin) (output on : Byte) (s : State) : Out := s.upd fun h => h.serve (.railEnable o output on) fun h =>
  let k := output.toNat
  if k < 4 || 11 < k || !h.used k || 1 < on.toNat then h.respond o stBadParam []
  else if !(h.cfg k).hostSw then h.respond o stLocked []
  else if h.seq.state == .faultLatched then h.respond o stFaultLatched []
  else if h.seq.state != .run then h.respond o stWrongState []
  else (h.switch k (on = 1)).evalPgood.forced.ok o []

/-- SUPERVISOR_SET (R181, R186). -/
def execSupervisorSet (o : Origin) (output uv ov filt : Byte) (s : State) : Out := s.upd fun h => h.serve (.supervisorSet o output uv ov filt) fun h =>
  if 17 < output.toNat || 36 < uv.toNat || 36 < ov.toNat || 10 < filt.toNat then h.respond o stBadParam []
  else (h.modOut output.toNat (fun x => { x with uv := uv.toNat, ov := ov.toNat, filt := filt.toNat })).ok o []

/-! ## The pool (R101–R103, R430) -/

/-- Phases that name an output as their owner. -/
def Pool.ownCount (po : Pool) (n : Nat) : Nat := po.phases.countP (fun p => p.owner = n)

/-- The refusal of R101, if one applies: the state first, the values of PHASE and OWNER with it second (R423). -/
def Hw.assignRefused (h : Hw) (phase n : Nat) : Option Nat :=
  let x := h.phase (phase - 1)
  if h.seq.state == .faultLatched then some stFaultLatched
  else if h.pool.move.isSome then some stBusy
  else if phase = 0 || 8 < phase || 4 < n then some stBadParam
  else if x.cond == .oos || (n ≠ 0 && !h.used (n - 1)) then some stBadParam
  else if n ≠ 0 && (h.cfg (n - 1)).maxPh < h.pool.ownCount n + 1 then some stBadParam
  else if x.owner ≠ 0 && h.pool.ownCount x.owner - 1 < (h.cfg (x.owner - 1)).minPh then some stBadParam
  else none

/-- A move starts (R102): an ACTIVE phase is shed first, a STANDBY or PARKED one goes to QUIET, and one that is in RAMP_DOWN or
QUIET already moves with the shed in progress (DESIGN CHOICE, log 56). -/
def Hw.startMove (h : Hw) (p n : Nat) : Hw :=
  let m : Move := { phase := p, newOwner := n, job := h.proto.lastJob }
  let h : Hw := { h with pool := { h.pool with move := some m } }
  match (h.phase p).cond with
  | .active => h.tryMove
  | .standby | .parked => h.modPhase p (fun x => { x with cond := .quiet, serving := 0 })
  | .rampDown | .quiet | .oos => h

/-- POOL_ASSIGN (R101, R102). -/
def execPoolAssign (o : Origin) (phase owner : Byte) (s : State) : Out := s.upd fun h => h.serve (.poolAssign o phase owner) fun h =>
  let p := phase.toNat
  let n := owner.toNat
  if 1 ≤ p && p ≤ 8 && (h.phase (p - 1)).owner = n then h.ok o []
  else match h.assignRefused p n with
  | some st => h.respond o st []
  | none => ((h.newJob 0x16 false).pending o []).startMove (p - 1) n

/-- The reply of R430. The current of a phase is no channel of R165: it is a free value. -/
def Hw.poolData (h : Hw) : List Byte :=
  (List.range 8).flatMap (fun p =>
    be 1 (h.phase p).code ++ be 1 (if (h.phase p).cond == .oos then (h.phase p).oosReason else 0) ++
      beInt 4 (Config.freeInt (h.free + p))) ++
  (List.range 4).flatMap (fun k =>
    let r := h.rail k
    be 1 (h.cfg k).minPh ++ be 1 (h.cfg k).maxPh ++ be 1 (h.pool.active k) ++ be 1 (h.pool.lent k) ++ be 1 (b2n r.degraded) ++ [0] ++
      be 2 r.add ++ be 2 r.shed ++ be 2 r.cancel ++ be 2 r.denied)

/-- POOL_STATUS (R430). -/
def execPoolStatus (o : Origin) (s : State) : Out := s.upd fun h => h.serve (.poolStatus o) fun h =>
  { h with free := h.free + 8 }.ok o h.poolData

/-! ## Ports (R56, R428, R431, R433) -/

/-- A limit takes effect; a derated port keeps its lower active limit (R74). -/
def Hw.setIlim (h : Hw) (p code : Nat) : Hw :=
  h.modPort p (fun x => { x with ilim := code, active := if h.gov.derated.contains p then min code x.active else code })

/-- PORT_SET: a latched or refused port starts again from SEATING (R56); a shed one stays shed (R75). -/
def Hw.setPort (h : Hw) (p : Nat) (on : Bool) (code : Nat) : Hw :=
  let h := if code ≤ 16 then h.setIlim p code else h
  if on then
    let h := (h.modPort p (fun x => { x with enabled := true })).modOut (12 + p) (fun x => { x with enabled := true })
    if (h.port p).state == .latched || (h.port p).state == .refused then h.reseat p else h
  else (h.disable (12 + p)).forget (12 + p)

/-- PORT_SET (R44, R56, R428). -/
def execPortSet (o : Origin) (port enable ilim : Byte) (s : State) : Out := s.upd fun h => h.serve (.portSet o port enable ilim) fun h =>
  if h.seq.state == .faultLatched then h.respond o stFaultLatched []
  else if h.serviceReady then h.respond o stWrongState []
  else if port = 0 || 6 < port.toNat || 1 < enable.toNat || (16 < ilim.toNat && ilim ≠ 0xFF) then h.respond o stBadParam []
  else (h.setPort (port.toNat - 1) (enable = 1) ilim.toNat).evalPgood.ok o []

/-- The reply of R431. -/
def Hw.portData (h : Hw) (p : Nat) : List Byte :=
  let x := h.port p
  let t := h.adc.outs.getD (12 + p) OutTelem.empty
  let shed := x.shed || (h.out (12 + p)).shed
  be 1 (p + 1) ++ be 1 x.state.code ++ be 1 x.reason ++
    be 1 (bits [x.enabled, shed, x.active != x.ilim, x.descValid]) ++ be 1 (h.portMode p).code ++ be 1 x.ilim ++ be 1 x.active ++
    be 1 (h.cfg (12 + p)).prio ++ be 2 x.iDecl ++ be 2 x.cDecl ++ fit 4 0 x.boardId ++ be 2 t.vAvg ++ beInt 4 t.iAvg ++
    beInt 4 t.pAvg ++ be 8 t.energy

/-- PORT_STATUS (R431). -/
def execPortStatus (o : Origin) (port : Byte) (s : State) : Out := s.upd fun h => h.serve (.portStatus o port) fun h =>
  if port = 0 || 6 < port.toNat then h.respond o stBadParam [] else h.ok o (h.portData (port.toNat - 1))

/-! ## Budgets (R70, R428, R433) -/

/-- BUDGET_SET (R428). -/
def execBudgetSet (o : Origin) (vinW batW : Half) (tCap : Byte) (s : State) : Out := s.upd fun h => h.serve (.budgetSet o vinW batW tCap) fun h =>
  let v := vinW.toNat
  let b := batW.toNat
  let t := tCap.toNat
  if v < 10 || 1500 < v || b < 5 || 60 < b || t < 1 || 100 < t then h.respond o stBadParam []
  else ({ h with gov := { h.gov with vinW := v, batW := b, tCap := t } }).ok o []

end Sys2Proof.Machine
end

