-- ==== Sys2Proof/Machine/CmdProm.lean ====
section
/-! DEFINITION. The Promenade commands (R235, R237, R448). -/

namespace Sys2Proof.Machine

/-- PROM_STATUS (R237, R448). -/
def Hw.promData (h : Hw) : List Byte :=
  be 2 h.promReg ++ be 2 h.prm.roster.toNat ++ be 1 h.cabReg ++ [0] ++ be 4 h.prm.err ++ be 4 h.prm.cycle ++
    be 2 h.image.prm.orphanTimeout ++ be 2 h.prm.admitMask.toNat ++ be 1 (b2n h.prm.autoJoinRun) ++ [0]

/-- PROM_STATUS (R448). -/
def execPromStatus (o : Origin) (s : State) : Out := s.upd fun h => h.serve (.promStatus o) fun h => h.ok o h.promData

/-- What a module knows of itself, in the fields of its STATUS frame (R215). -/
def Hw.selfPeer (h : Hw) : Peer :=
  { Peer.none with
    state := h.seq.state.code
    flags := bits [h.seq.fltDrive, h.pwr.onBattery, h.serviceReady, h.metro.chans.any (·.held)]
    cause := h.seq.cause
    serial := h.factory.serial
    pIn := (h.adc.pIn % 2 ^ 32).toNat }

/-- The entry of an index: the lead's record of the follower; at a follower its own fields, and the roster alone for others. Of
index 0, which sends neither STATUS nor JOIN, the lead has no record: its fields read 0 (DESIGN CHOICE, log 71). -/
def Hw.peerOf (h : Hw) (i : Nat) : Peer :=
  match h.prm.role with
  | .lead => h.prm.peers.getD i Peer.none
  | .follower => if i = h.ownIndex then h.selfPeer else { Peer.none with frames := (h.prm.peers.getD i Peer.none).frames }
  | .standalone | .silent => Peer.none

/-- The 20 bytes of an index (R448). -/
def Hw.peerData (h : Hw) (i : Nat) : List Byte :=
  let p := h.peerOf i
  be 1 (b2n (h.prm.roster.getLsbD i)) ++ be 1 p.state ++ be 1 p.flags ++ be 1 p.cause ++ be 8 p.serial.toNat ++ be 4 p.frames ++
    be 4 p.pIn

/-- PROM_ROSTER (R448). -/
def execPromRoster (o : Origin) (first count : Byte) (s : State) : Out := s.upd fun h => h.serve (.promRoster o first count) fun h =>
  let f := first.toNat
  let n := count.toNat
  if 15 < f || n < 1 || 8 < n || 16 < f + n then h.respond o stBadParam []
  else h.ok o ([first, count] ++ (List.range n).flatMap (fun i => h.peerData (f + i)))

/-- PROM_ADMIT_POLICY (R235, R448). -/
def execPromAdmitPolicy (o : Origin) (mask : Half) (policy : Byte) (s : State) : Out := s.upd fun h => h.serve (.promAdmitPolicy o mask policy) fun h =>
  if h.prm.role == .follower || (h.prm.role == .silent && !h.straps.lead) then h.respond o stWrongState []
  else if mask.getLsbD 0 || 1 < policy.toNat then h.respond o stBadParam []
  else { h with prm := { h.prm with admitMask := mask, autoJoinRun := policy = 1 } }.ok o []

end Sys2Proof.Machine
end

