-- ==== Sys2Proof/Machine/CmdSystem.lean ====
section
/-! DEFINITION. The system commands (R43, R194, R361, R414, R415, R417, R426, R427, R514). -/

namespace Sys2Proof.Machine

/-- NOP (R427). -/
def execNop (o : Origin) (s : State) : Out := s.upd fun h => h.serve (.nop o) fun h => h.ok o []

/-- The reply of R426. -/
def Hw.identData (h : Hw) : List Byte :=
  h.idRegs ++ be 4 h.caps ++ be 8 h.factory.serial.toNat ++ be 4 (h.fw.slot h.fw.runB).version.toNat ++
    be 4 (if h.fw.stagedValid then (h.fw.slot (!h.fw.runB)).version.toNat else 0) ++ be 4 h.factory.bootRom.toNat ++
    be 4 h.romVersion ++ be 1 h.straps.code ++ [0] ++ be 4 h.image.configId.toNat

/-- IDENT (R426). -/
def execIdent (o : Origin) (s : State) : Out := s.upd fun h => h.serve (.ident o) fun h => h.ok o h.identData

/-- GET_STATUS (R427): pointers 0x0000–0x003F at one instant. -/
def execGetStatus (o : Origin) (s : State) : Out := s.upd fun h => h.serve (.getStatus o) fun h => h.ok o h.lowRegs

def JobState.code : JobState → Nat
  | .running => 0
  | .done => 1
  | .abandoned => 2

/-- The reply of R415 about a job number. -/
def Hw.jobData (h : Hw) (n : Nat) : List Byte :=
  match h.proto.jobs.find? (fun j => j.num = n) with
  | some j => be 2 n ++ [j.op] ++ be 1 j.state.code ++ be 1 j.status ++ be 1 j.result ++ be 1 j.progress ++ [0] ++ j.data.take 32
  | none => be 2 n ++ [0, 3, 0, 0, 0, 0]

/-- JOB_STATUS (R415). -/
def execJobStatus (o : Origin) (job : Half) (s : State) : Out :=
  s.upd fun h => h.serve (.jobStatus o job) fun h => h.ok o (h.jobData job.toNat)

/-- CORE_RESET (R427, R464): no reply is placed. -/
def execCoreReset (o : Origin) (key : Byte) (s : State) : Out := s.upd fun h => h.serve (.coreReset o key) fun h =>
  if key = 0xC4 then h.askCoreReset 0x04 else h.respond o stBadParam []

/-- MODULE_RESTART (R427, R511): no reply is placed. -/
def execModuleRestart (o : Origin) (key : Byte) (s : State) : Out := s.upd fun h => h.serve (.moduleRestart o key) fun h =>
  if key = 0xE7 then h.askRestart .moduleRestart else h.respond o stBadParam []

/-! ## The configuration unlock (R417, R418) -/

/-- A fresh challenge. -/
def challenge (draw : Nat) : List Byte := (List.range 16).map (Config.challengeByte draw)

/-- CONFIG_UNLOCK (R417). During the lockout it is LOCKED, whatever MODE asks for. -/
def execConfigUnlock (o : Origin) (mode : Byte) (s : State) : Out := s.upd fun h => h.serve (.configUnlock o mode) fun h =>
  let u := h.unlockOf o
  let rel := h.relayed o
  if u.locked then h.respond o stLocked []
  else if mode = 0 then
    let c := challenge h.free
    (h.draw.setUnlock rel { u with challenge := some c, issuedAt := h.clk }).ok o c
  else if mode = 1 then (h.setUnlock rel { u with unlocked := false }).ok o []
  else h.respond o stBadParam []

/-- The answer that a challenge wants. -/
def Hw.unlockMac (h : Hw) (c : List Byte) : List Byte := hmac256 h.factory.secret (c ++ be 8 h.factory.serial.toNat)

/-- An unlock after a wrong response; the third in succession starts the lockout. -/
def Unlock.wrongMac (u : Unlock) (clk : Nat) : Unlock :=
  let n := u.wrong + 1
  { u with challenge := Option.none, wrong := n, locked := u.locked || 3 ≤ n, lockedAt := if 3 ≤ n && !u.locked then clk else u.lockedAt }

/-- CONFIG_UNLOCK_RESPONSE (R417): a challenge serves one response within 30 s. -/
def execConfigUnlockResponse (o : Origin) (mac : List Byte) (s : State) : Out := s.upd fun h => h.serve (.configUnlockResponse o mac) fun h =>
  let u := h.unlockOf o
  let rel := h.relayed o
  match u.challenge with
  | none => h.respond o stWrongState []
  | some c =>
    if u.issuedAt + 30000000 < h.clk then (h.setUnlock rel { u with challenge := none }).respond o stWrongState []
    else if mac = h.unlockMac c then
      (h.setUnlock rel { u with unlocked := true, challenge := none, lastAt := h.clk, wrong := 0 }).ok o []
    else (h.setUnlock rel (u.wrongMac h.clk)).deny o 0x07 4 stDenied

/-! ## SERVICE_PREPARE, STANDBY, Icehouse -/

/-- SERVICE_PREPARE (R43, R44). -/
def execServicePrepare (o : Origin) (s : State) : Out := s.upd fun h => h.serve (.servicePrepare o) fun h =>
  if h.serviceReady then h.ok o []
  else if h.seq.service.job.isSome then h.respond o stBusy []
  else
    let h := (h.newJob 0x08 true).pending o []
    let sv : Service := { job := some h.proto.lastJob, ready := false, downAsked := false, lastWordDone := false }
    (({ h with seq := { h.seq with service := sv } }).closeAll 0x03 0).serviceStep

/-- ENTER_STANDBY (R427, R514). -/
def execEnterStandby (o : Origin) (wake : Byte) (s : State) : Out := s.upd fun h => h.serve (.enterStandby o wake) fun h =>
  if 0 < h.nRes || h.seq.state == .seqUp || h.seq.state == .seqDown then h.respond o stWrongState []
  else if h.seq.state == .faultLatched then h.respond o stFaultLatched []
  else if 4 ≤ wake.toNat then h.respond o stBadParam []
  else
    let h : Hw := { h with seq := { h.seq with standbyReq := some wake } }
    let h := h.ok o []
    if h.seq.state == .run then h.offRequest none else h

/-- ENTER_ICEHOUSE (R361). -/
def execEnterIcehouse (o : Origin) (arm : Byte) (s : State) : Out := s.upd fun h => h.serve (.enterIcehouse o arm) fun h =>
  if arm = 1 && (!h.pwr.vinUsable || h.pwr.onBattery || 0 < h.nRes) then h.respond o stWrongState []
  else if 2 ≤ arm.toNat then h.respond o stBadParam []
  else ({ h with pwr := { h.pwr with icehouseArmed := arm = 1 } }).ok o []

end Sys2Proof.Machine
end

