-- ==== Sys2Proof/Machine/CmdTelemetry.lean ====
section
/-! DEFINITION. The telemetry commands (R170, R174, R178, R434). -/

namespace Sys2Proof.Machine

/-- The block of TELEM_READ (R434). -/
def Hw.telemBlock (h : Hw) (b : Nat) : Option (List Byte) :=
  if b < 18 then some (h.outBlock b)
  else if b = 0x40 then some h.supplyBlock
  else if b = 0x41 then some h.adcBlock
  else none

/-- TELEM_READ (R434). -/
def execTelemRead (o : Origin) (block : Byte) (s : State) : Out := s.upd fun h => h.serve (.telemRead o block) fun h =>
  match h.telemBlock block.toNat with
  | some bs => h.ok o ([block, 0, 0, 0] ++ bs)
  | none => h.respond o stBadParam []

/-- The reply of TELEM_PEAKS. -/
def Hw.peakData (h : Hw) (k : Nat) : List Byte :=
  let t := h.adc.outs.getD k OutTelem.empty
  be 1 k ++ be 1 (b2n t.peakEmpty) ++ be 2 t.vMin ++ beInt 4 t.iMax ++ beInt 4 t.pMax

/-- TELEM_PEAKS (R174): the clear takes effect at the next scan boundary. -/
def execTelemPeaks (o : Origin) (output : Byte) (s : State) : Out := s.upd fun h => h.serve (.telemPeaks o output) fun h =>
  let k := output.toNat
  if 17 < k then h.respond o stBadParam []
  else
    let f := fun (t : OutTelem) => { t with clearDue := true }
    { h with adc := { h.adc with outs := h.adc.outs.modify k f } }.ok o (h.peakData k)

/-- ADC_SCAN_SET (R178, R434): in effect at the start of the next scan; a new T_AVG discards the averaging window at once. -/
def execAdcScanSet (o : Origin) (mask : DWord) (interval refMode : Byte) (tAvg : Half) (s : State) : Out :=
  s.upd fun h => h.serve (.adcScanSet o mask interval refMode tAvg) fun h =>
    let i := interval.toNat
    let t := tAvg.toNat
    if i < 1 || 50 < i || 1 < refMode.toNat || t < 1 || 10000 < t then h.respond o stBadParam []
    else
      let set : ScanCfg := { mask := mask, interval := i, refFull := refMode = 1, tAvg := t }
      let cut := t != (h.adc.next.getD h.adc.set).tAvg
      { h with adc := { h.adc with next := some set, restartWindow := h.adc.restartWindow || cut } }.ok o []

/-- One channel of ADC_READ: the raw word and the scaled value. -/
def Hw.adcChan (h : Hw) (c : Nat) : List Byte := h.rawWord c ++ beInt 4 (h.reported c (h.result c).value)

/-- ADC_READ (R170, R434). -/
def execAdcRead (o : Origin) (first count : Byte) (s : State) : Out := s.upd fun h => h.serve (.adcRead o first count) fun h =>
  let f := first.toNat
  let n := count.toNat
  if !h.adc.ready then h.respond o stNotReady []
  else if 63 < f || n < 1 || 16 < n || 64 < f + n then h.respond o stBadParam []
  else h.ok o ([first, count] ++ (List.range n).flatMap (fun i => h.adcChan (f + i)))

/-- ENERGY_READ (R175, R434). -/
def execEnergyRead (o : Origin) (s : State) : Out := s.upd fun h => h.serve (.energyRead o) fun h => h.ok o h.counters

end Sys2Proof.Machine
end

