-- ==== Sys2Proof/Machine/CmdTime.lean ====
section
/-! DEFINITION. The time commands (R374, R376, R377, R379–R381, R441). -/

namespace Sys2Proof.Machine

/-- A time value of a command names seconds and fraction alone, not past the last valid second (R377, R379). -/
def timeOk (v : DWord) : Bool := v.extractLsb' 0 14 == 0 && v.toNat / 2 ^ 24 ≤ lastSecond

/-- An admitted follower (R231). -/
def Hw.follows (h : Hw) : Bool := h.prm.role == .follower && h.prm.link == .active

/-- The refusal of TIME_SET, in the order of R379; a set still in progress is BUSY. -/
def Hw.timeRefused (h : Hw) (value : DWord) (flags : Byte) : Option Nat :=
  if h.follows then some stWrongState
  else if h.lodge.lock then some stNotReady
  else if !timeOk value || 1 < flags.toNat then some stBadParam
  else if h.logSpace < 18 then some stLogFull
  else if h.logErased < 3 || h.lodge.timeSet.isSome then some stBusy
  else none

/-- TIME_SET (R379, R450): the Lodge is written by TIME_SET_APPLY, after the record. -/
def execTimeSet (o : Origin) (value : DWord) (flags : Byte) (s : State) : Out := s.upd fun h => h.serve (.timeSet o value flags) fun h =>
  match h.timeRefused value flags with
  | some st => h.respond o st []
  | none =>
    let h := (h.newJob 0x70 false).pending o []
    let n := h.proto.lastJob
    let t : TimeSetJob := { value := ticksOf value.toNat, acceptedAt := h.clk, synced := flags = 1, job := n, committed := false,
                            seq := 0 }
    ({ h with lodge := { h.lodge with timeSet := some t } }).enqueueLog [] (.timeSet n)

/-! ## The calendar (R377) -/

structure Date where
  year : Nat
  month : Nat
  day : Nat
  deriving DecidableEq, Repr

/-- The Gregorian date of a day counted from 2000-01-01: years are taken to begin in March, counted from 1600. -/
def dateOf (days : Nat) : Date :=
  let z := days + 146097 - 60
  let era := z / 146097
  let d := z % 146097
  let y := (d - d / 1460 + d / 36524 - d / 146096) / 365
  let doy := d - (365 * y + y / 4 - y / 100)
  let mp := (5 * doy + 2) / 153
  let month := if mp < 10 then mp + 3 else mp - 9
  { year := 1600 + 400 * era + y + (if month ≤ 2 then 1 else 0), month := month, day := doy - (153 * mp + 2) / 5 + 1 }

/-- LODGESTAT (R380). VKEEP that has not been converted may be low or not. -/
def Hw.lodgeStat (h : Hw) : Nat :=
  let r := h.result 21
  let low : Bool := if r.slice = 3 then decide (Config.freeNat h.free % 2 = 1) else decide (r.value < 2200)
  (match h.lodge.supply with | .main => 0 | .vbat => 1 | .vkeep => 2) + 4 * b2n h.lodge.lodgeReset + 8 * b2n low +
    16 * h.lodge.bandSel

/-- LAST_SYNC as a time value. -/
def Lodge.syncValue (l : Lodge) : DWord :=
  if l.lastSyncSource = 0 then 0 else timeValue l.lastSync .setSynced l.lastSyncSource

/-- The reply to TIME_GET (R380, R441). -/
def Hw.timeData (h : Hw) : List Byte :=
  let secs := h.lodge.ticks / 1024
  let d := dateOf (secs / 86400)
  be 8 h.now.toNat ++ be 2 d.year ++ be 1 d.month ++ be 1 d.day ++ be 1 (secs / 3600 % 24) ++ be 1 (secs / 60 % 60) ++
    be 1 (secs % 60) ++ [0] ++ be 2 (h.lodge.ticks % 1024 * 1000 / 1024) ++ be 8 h.lodge.syncValue.toNat ++
    beInt 2 h.lodge.n ++ be 1 h.lodgeStat ++ [0]

/-- TIME_GET (R380, R441). -/
def execTimeGet (o : Origin) (s : State) : Out := s.upd fun h => h.serve (.timeGet o) fun h => h.draw.ok o h.timeData

/-! ## Trim and alarms -/

/-- A trim value of R374: TRIM lies within ±511, BAND[k] in a signed byte. -/
def trimOk (t : Int) : Bool := -511 ≤ t && t ≤ 511

/-- TRIM_SET (R374): in effect at the start of the next window. A closed lock discards writes to the Lodge (R369). -/
def execTrimSet (o : Origin) (trim : Half) (band : List Byte) (s : State) : Out := s.upd fun h => h.serve (.trimSet o trim band) fun h =>
  let t := sint 16 trim.toNat
  if band.length ≠ 8 then h.respond o stBadLength []
  else if h.lodge.lock then h.respond o stNotReady []
  else if !trimOk t then h.respond o stBadParam []
  else
    let bs := band.map (fun (b : Byte) => sint 8 b.toNat)
    { h with lodge := { h.lodge with trim := t, band := bs } }.ok o []

/-- The setting of an alarm. -/
def alarmOf (wake : Bool) (ticks : Nat) : Alarm := { state := .armed, time := ticks, wake := wake, skipped := false, toRaise := false }

/-- ALARM_SET (R381, R441): for a disarm bytes 6–15 are ignored. -/
def execAlarmSet (o : Origin) (alarm action flags rsv : Byte) (value : DWord) (s : State) : Out :=
  s.upd fun h => h.serve (.alarmSet o alarm action flags rsv value) fun h =>
    let i := alarm.toNat - 1
    if h.lodge.status == .invalid then h.respond o stWrongState []
    else if h.lodge.lock then h.respond o stNotReady []
    else if alarm = 0 || 2 < alarm.toNat || 1 < action.toNat then h.respond o stBadParam []
    else if action = 0 then
      let off := h.lodge.alarms.modify i (fun (a : Alarm) => { a with state := .disarmed })
      { h with lodge := { h.lodge with alarms := off } }.ok o []
    else if 1 < flags.toNat || rsv ≠ 0 || !timeOk value || ticksOf value.toNat ≤ h.lodge.ticks then h.respond o stBadParam []
    else { h with lodge := { h.lodge with alarms := h.lodge.alarms.set i (alarmOf (flags = 1) (ticksOf value.toNat)) } }.ok o []

def AlarmState.code : AlarmState → Nat
  | .disarmed => 0
  | .armed => 1
  | .fired => 2

/-- One alarm of ALARM_STATUS. -/
def Alarm.data (a : Alarm) : List Byte :=
  be 1 a.state.code ++ be 1 (b2n a.wake + 2 * b2n a.skipped) ++ zeros 2 ++ be 8 (timeValue a.time .invalid 0).toNat

/-- ALARM_STATUS (R383, R441). -/
def execAlarmStatus (o : Origin) (s : State) : Out := s.upd fun h => h.serve (.alarmStatus o) fun h =>
  h.ok o ((h.lodge.alarms.getD 0 Alarm.disarmed).data ++ (h.lodge.alarms.getD 1 Alarm.disarmed).data)

end Sys2Proof.Machine
end

