-- ==== Sys2Proof/Machine/Engines.lean ====
section
/-! DEFINITION. The thermal model and the bulk transfer engine (R487–R509). -/

namespace Sys2Proof.Machine

/-! ## Thermal model (R487–R494) -/

/-- A channel of the last complete scan, 0 where it brought none. -/
def Hw.scan (h : Hw) (c : Nat) : Int := if (h.result c).valid then (h.result c).value else 0

/-- A flow of current through a node: mA, the voltage it is switched at in mV, and twice the share of the full frequency. -/
structure Heat where
  amps : Int
  volts : Int
  freq : Int
  deriving DecidableEq, Repr

def Hw.phaseHeat (h : Hw) (a : UnscannedAmps) (p : Nat) : Heat := { amps := a.phases.getD p 0, volts := h.scan 19, freq := 2 }

def Hw.railHeat (h : Hw) (k : Nat) : Heat :=
  { amps := h.scan (24 + k), volts := h.scan k, freq := if (h.out k).halfFreq then 1 else 2 }

/-- A current that is conducted and not switched. -/
def Hw.flow (h : Hw) (c : Nat) : Heat := { amps := h.scan c, volts := 0, freq := 0 }

/-- The measurements that a node's loss is taken from (R487): the last complete scan, and the currents that it does not carry
(DESIGN CHOICE, log 69). -/
def Hw.heats (h : Hw) (a : UnscannedAmps) (n : Nat) : List Heat :=
  match n with
  | 1 | 2 => [{ amps := a.vib, volts := h.scan 18, freq := 2 }]
  | 3 | 4 | 5 | 6 => [h.phaseHeat a (2 * n - 6), h.phaseHeat a (2 * n - 5)]
  | 7 => (List.range 8).map (fun p => { h.phaseHeat a p with freq := 0 })
  | 8 => [h.railHeat 4, h.railHeat 5, h.railHeat 6]
  | 9 => [h.railHeat 7, h.railHeat 8, h.railHeat 9]
  | 10 => [h.railHeat 10]
  | 11 => [h.railHeat 11]
  | 12 => (List.range 6).map (fun p => h.flow (36 + p)) ++ [h.flow 43]
  | 13 => [{ amps := h.scan 42, volts := h.scan 19, freq := 2 }]
  | _ => []

def Hw.thermNode (h : Hw) (n : Nat) : ThermNode := h.factory.thermal.getD n ThermNode.none

/-- What a node's loss counts beside currents (R487): the fast clock of the control engine and the core, the phases that run in a
pool pair, flash activity and Belvedere (DESIGN CHOICE, log 69). -/
def Hw.activity (h : Hw) (n : Nat) : Nat :=
  match n with
  | 0 => b2n (!h.idle.idle)
  | 3 | 4 | 5 | 6 => [2 * n - 6, 2 * n - 5].countP (fun p => (h.phase p).cond == .active || (h.phase p).cond == .rampDown)
  | 14 => b2n h.flashBusy + b2n (h.metering && h.live && !h.metro.frozen)
  | _ => 0

/-- Under a latch with every output off the losses are zero and T_HS stays as last estimated (R494). -/
def Hw.cold (h : Hw) : Bool := h.seq.state == .faultLatched && !h.outs.any (·.on)

/-- The loss of a node: conduction in I², switching in f × V × I, and a fixed term, to which its activity adds (R487); node 15 has
none. -/
def Hw.loss (h : Hw) (a : UnscannedAmps) (n : Nat) : Int :=
  let c := h.thermNode n
  if n = 15 || h.cold then 0
  else (h.heats a n).foldl (fun w x => w + c.conduction * (x.amps * x.amps) + c.switching * (x.freq * (x.volts * x.amps).natAbs))
    (c.fixed + c.active * h.activity n)

/-- Time between two updates in 1/16 ms (R488). -/
def Thermal.interval (t : Thermal) : Int := if t.fast then 1 else 16

/-- The nodes after the time between two updates, from their losses and from the heat that flows between them (R487). -/
def Hw.predicted (h : Hw) (a : UnscannedAmps) : List Int :=
  let node := fun (n : Nat) => h.therm.nodes.getD n 0
  (List.range 16).map fun n =>
    let c := h.thermNode n
    let out := (List.range 16).foldl (fun w m => w + c.links.getD m 0 * (node n - node m)) 0
    node n + (h.therm.interval * c.rise * (h.loss a n - out)).tdiv (2 ^ 48)

/-- Residual of sensor i against the model value of the first node it anchors; 0 where it has no result (R489, R490). -/
def Hw.residual (h : Hw) (pred : List Int) (i : Nat) : Int :=
  let r := h.result (44 + i)
  if r.valid then r.value * 65536 - pred.getD (firstNode i) 0 else 0

/-- The model's values corrected by the sensors (R489); `pred` holds the nodes as the model finds them from losses and heat
flow, in the unit of `Thermal.nodes`. -/
def Hw.corrected (h : Hw) (pred : List Int) : List Int :=
  let res := (List.range 6).map (h.residual pred)
  (List.range 15).map (fun n => pred.getD n 0 + (res.getD (anchorOf n) 0).tdiv 64) ++
    [if h.cold then h.therm.nodes.getD 15 0 else pred.getD 15 0 + (res.foldl (· + ·) 0).tdiv 6144]

/-- Update rate (R488): 16 kHz from 108 °C on, 1 kHz again after 100 ms below 105 °C. -/
def Thermal.pace (t : Thermal) (clk : Nat) : Thermal :=
  if degrees 108 ≤ t.hottest then { t with fast := true, coolSince := none }
  else if degrees 105 ≤ t.hottest then { t with coolSince := none }
  else
    let since := t.coolSince.getD clk
    if since + 100000 ≤ clk then { t with fast := false, coolSince := some since } else { t with coolSince := some since }

/-- The stage after an update (R492). -/
def Thermal.nextStage (t : Thermal) : Nat :=
  let m := t.hottest
  if degrees 122 ≤ m then 2
  else if t.stage = 2 then (if m ≤ degrees 119 then 1 else 2)
  else if degrees 118 ≤ m then 1
  else if t.stage = 1 then (if m ≤ degrees 115 then 0 else 1)
  else 0

/-- The warning and the throttling stages (R492). -/
def Hw.thermStages (h : Hw) : Hw :=
  let t := h.therm
  let enter := degrees 110 ≤ t.hottest && !t.warn
  let warn := if degrees 110 ≤ t.hottest then true else if t.hottest ≤ degrees 107 then false else t.warn
  let st := t.nextStage
  let h : Hw := { h with therm := { t with warn := warn, stage := st } }
  ((h.raiseIf enter 12).raiseIf (st != t.stage) 13).halve

/-- The comparator of R491 and the model trip in one model update: the model's node is the one recorded (R494). -/
def Hw.renameTrip (h : Hw) (node : Nat) (trip : Nat × Nat) : Hw :=
  let re := fun (c : Capture) =>
    if c.source = 0x80 && c.addr = trip.1 && c.micros = (trip.2 - h.rst.bootAt) % 2 ^ 32 then { c with addr := node } else c
  let entry := fun (e : FaultEntry) => { e with err := re e.err }
  { h with faults := { h.faults with cap := h.faults.cap.map re, queue := h.faults.queue.map entry } }

/-- The refusal of CLEAR_FAULT and of retries after a thermal fault ends when every node is below 110 °C (R204, R494). -/
def Thermal.cool (t : Thermal) : Thermal := { t with hold := t.hold && (t.nodes.take 15).any (fun n => degrees 110 ≤ n) }

/-- THERMAL_MODEL_UPDATE (R487–R494). A fault that R200 acts on is found at every update; a trip of the comparator that came in a
state in which R200 did not act is acted on with the model's. A forced detector names the hottest node. -/
def execThermalModelUpdate (amps : UnscannedAmps) (s : State) : Out := s.upd fun h =>
  if h.ins.mainOn && h.ins.booted then
    let was := h.therm.hot
    let trip := h.therm.trip
    let h : Hw := { h with therm := { h.therm with nodes := h.corrected (h.predicted amps) } }
    let h : Hw := { h with therm := (h.therm.pace h.clk).cool }
    let h : Hw := { h with therm := { h.therm with hot := degrees 135 ≤ h.therm.hottest, trip := none } }
    let h := h.thermStages
    let acts := h.faultActs false
    if h.therm.hot && (acts || !was) then
      match trip with
      | some t =>
        let h := h.renameTrip h.therm.hottestNode t
        if acts then ({ h with therm := { h.therm with hold := true } }).railOff 7 else h
      | none => h.thermalFault h.therm.hottestNode []
    else if h.faults.forces.contains 0x41 && acts then h.thermalFault h.therm.hottestNode (injected true)
    else h
  else h

/-! ## Bulk transfer engine (R498–R509) -/

/-- Bytes of the buffer that a channel holds at most (R498). -/
def bufferShare : Nat := 256

def Bulk.ring (b : Bulk) (c : Nat) : List Desc := b.rings.getD c []

def Bulk.setRing (b : Bulk) (c : Nat) (r : List Desc) : Bulk := { b with rings := b.rings.set c r }

/-- An owner posts a descriptor of 1 byte to 64 KiB; with 16 in the ring it waits (R499). -/
def Bulk.post (b : Bulk) (p : BulkPost) : Bulk :=
  if p.len < 1 || 65536 < p.len then b
  else if (b.ring p.chan).length < 16 then
    b.setRing p.chan (b.ring p.chan ++ [{ post := p, got := 0, put := 0, retried := none }])
  else { b with waiting := b.waiting ++ [p] }

/-- The descriptor at the head of a ring ends: its bursts leave the buffer, and the oldest that waits for the channel takes the
entry freed (R499). -/
def Bulk.pop (b : Bulk) (c : Nat) : Bulk :=
  let b := { b.setRing c ((b.ring c).drop 1) with buffer := b.buffer.filter (fun x => x.chan != c) }
  match b.waiting.find? (fun p => p.chan.val = c) with
  | some p => { b with waiting := b.waiting.erase p }.post p
  | none => b

/-- Bytes of the buffer that a channel holds, those of a second source among them. -/
def Bulk.held (b : Bulk) (c : Nat) : Nat :=
  b.buffer.foldl (fun a x => if x.chan = c then a + x.bytes.length + x.other.length else a) 0

/-- Bytes at a place, from an offset on; SRAM addresses wrap (DESIGN CHOICE, log 68). -/
def Hw.readAt (h : Hw) (p : BulkPlace) (off n : Nat) : List Byte :=
  match p with
  | .sram a => (List.range n).map (fun i => Cells.get 0 h.bulk.sram ((a.toNat + off + i) % 0x80000))
  | .retained a => (List.range n).map (fun i => Cells.get 0 h.bulk.retained ((a.toNat + off + i) % 0x10000))
  | .flash r a => h.flashBytes r.toNat (a.toNat + off) n
  | .mailbox o a => (List.range n).map (fun i => Cells.get 0 (h.mbx o).cmd ((a.toNat + off + i) % 0x100))
  | .unit bs => fit n 0 (slice bs off n)

/-- Bytes of a memory from an address on. -/
def putRange (m : Cells) (start size : Nat) (bs : List Byte) : Cells :=
  (bs.zipIdx).foldl (fun (m : Cells) (x : Byte × Nat) => Cells.put 0 m ((start + x.2) % size) x.1) m

/-- Bytes are written to a place, from an offset on. Those for the flash or another peripheral are kept as the last burst it got:
flash is programmed by the store's own rows. -/
def Hw.writeAt (h : Hw) (c : Nat) (p : BulkPlace) (off : Nat) (bs : List Byte) : Hw :=
  match p with
  | .sram a => { h with bulk := { h.bulk with sram := putRange h.bulk.sram (a.toNat + off) 0x80000 bs } }
  | .retained a => { h with bulk := { h.bulk with retained := putRange h.bulk.retained (a.toNat + off) 0x10000 bs } }
  | .mailbox o a => h.modMbx o (fun m => { m with rep := putRange m.rep (a.toNat + off) 0x100 bs })
  | .flash _ _ | .unit _ => { h with bulk := { h.bulk with sent := h.bulk.sent.set c bs } }

/-- A place that moves bytes without a request line: memory (R501). -/
def inMemory : BulkPlace → Bool
  | .sram _ | .retained _ => true
  | .flash _ _ | .mailbox _ _ | .unit _ => false

/-- A last-word commit pauses the channel, after a removal until the main domain powers off (R502). -/
def Hw.paused (h : Hw) (c : Nat) : Bool := (h.pwr.commit.isSome || h.leaving) && pausedInCommit c

/-- The contacts that the channel serves are gone with the removal: the host bus and what the link brings (R39, R509). -/
def Hw.unplugged (h : Hw) (c : Nat) : Bool := h.leaving && [0, 1, 11].contains c

/-- The channel may be served: its request line, or none needed at this end of the transfer; not while a commit pauses it, nor
Belvedere's after the freeze, nor over contacts that a removal opens (R501, R502, R258, R509). -/
def Hw.mayServe (h : Hw) (requests : BitVec 16) (c : Nat) (p : BulkPlace) : Bool :=
  (requests.getLsbD c || inMemory p) && !h.paused c && !h.unplugged c && !(h.metro.frozen && (c == 4 || c == 5))

/-- The read engine has something to read for a channel: bytes not yet read, and room in its share, of both sources in a COMPARE
(R498). FILL reads nothing. -/
def Hw.asks (h : Hw) (requests : BitVec 16) (c : Nat) : Bool :=
  match h.bulk.ring c with
  | d :: _ =>
    let n := min (burstOf c) (d.post.len - d.got)
    d.post.mode != 1 && d.got < d.post.len && h.bulk.held c + (if d.post.mode = 2 then 2 * n else n) ≤ bufferShare &&
      h.mayServe requests c d.post.src
  | [] => false

/-- The write engine has something to write for a channel: a burst in the buffer, or a FILL. A COMPARE writes nothing and ends its
burst at once. Of a paused channel the burst that was in progress as the pause began is finished, and no more (R502). -/
def Hw.empties (h : Hw) (requests : BitVec 16) (c : Nat) : Bool :=
  match h.bulk.ring c with
  | d :: _ =>
    if d.post.mode = 1 then h.mayServe requests c d.post.dst
    else h.bulk.buffer.any (fun x => x.chan = c) && (d.post.mode == 2 || requests.getLsbD c || inMemory d.post.dst) &&
      (!h.paused c || h.bulk.finishing.contains c) && !h.unplugged c
  | [] => false

/-- Class 0 in the order 4, 5, 6; then class 1 round-robin after the last one that an engine served (R501). -/
def bulkTurn (last : Nat) (ask : Nat → Bool) : Option Nat :=
  let after := (List.range 16).map (fun i => (last + 1 + i) % 16)
  ([4, 5, 6].find? ask).or ((after.filter (fun c => c != 4 && c != 5 && c != 6)).find? ask)

/-- A class 1 channel has been served by the write engine, or by the read engine (R501). -/
def Bulk.served (b : Bulk) (c : Nat) : Bulk := if c = 4 || c = 5 || c = 6 then b else { b with last := c }
def Bulk.fetched (b : Bulk) (c : Nat) : Bulk := if c = 4 || c = 5 || c = 6 then b else { b with lastRead := c }

/-- The read engine fills buffer space with the next burst of a channel (R498, R505). -/
def Hw.fetch (h : Hw) (c : Nat) : Hw :=
  match h.bulk.ring c with
  | d :: rest =>
    let n := min (burstOf c) (d.post.len - d.got)
    let x : Burst := { chan := c, bytes := h.readAt d.post.src d.got n
                       other := if d.post.mode = 2 then h.readAt d.post.other d.got n else [] }
    let b := (h.bulk.setRing c ({ d with got := d.got + n } :: rest)).fetched c
    { h with bulk := { b with buffer := b.buffer ++ [x] } }
  | [] => h

/-- A packet whose transfer failed gets no reply; the queued one moves up. -/
def Hw.dropPacket (h : Hw) (reply : Bool) : Hw :=
  let busy := fun (o : Origin) => (h.mbx o).inProc.isSome && (h.mbx o).ready.isSome == reply
  let o := if busy .A then Origin.A else .V
  (h.modMbx o (fun m => { m with ready := none, judged := false, inProc := m.queued, queued := none })).judgeDue

/-- The owner's failure path (R507). Which metering channel a block transfer of channels 4 and 5 served is a free value. -/
def Hw.descLost (h : Hw) (c : Nat) : Hw :=
  match c with
  | 0 => h.dropPacket false
  | 1 => h.dropPacket true
  | 4 | 5 => if h.metering then h.draw.enterHold (Config.freeNat h.free % 8) 2 false else h
  | 6 => h.programLost
  | 7 => h.abandonJobs [0xA3]
  | 8 => h.abandonJobs [0x44, 0x4B, 0xA3]
  | 12 => h.abandonJobs [0xA6]
  | 14 => ({ h with fw := h.fw.unstage }).abandonJobs [0xA2]
  | 15 => h.diagLost
  | _ => h

/-- The results of a block leave Belvedere's FIFO with the descriptor that carried them (R503). -/
def Metro.drain (m : Metro) (c : Nat) : Metro :=
  if c = 4 then { m with fifoP := m.fifoP.drop 1 } else if c = 5 then { m with fifoC := m.fifoC.drop 1 } else m

/-- The descriptor of channel c is complete; one that had to be repeated is captured now (R507). -/
def Hw.descDone (h : Hw) (c : Nat) (d : Desc) : Hw :=
  let h : Hw := { h with bulk := h.bulk.pop c, metro := h.metro.drain c, fw := if c = 14 then { h.fw with chunk := none } else h.fw }
  match d.retried with
  | some n => h.report 0x14 (c * 65536 + n.1) 5 0 (injected n.2)
  | none => h

/-- n more bytes of the descriptor at the head of channel c are done. -/
def Hw.putMore (h : Hw) (c : Nat) (d : Desc) (n : Nat) : Hw :=
  if d.post.len ≤ d.put + n then h.descDone c d
  else
    let rest := (h.bulk.ring c).drop 1
    { h with bulk := h.bulk.setRing c ({ d with put := d.put + n } :: rest) }

/-- Four bytes of the fill value, repeated from an offset (R504). -/
def fillBytes (v : Word) (off n : Nat) : List Byte := (List.range n).map (fun i => (be 4 v.toNat).getD ((off + i) % 4) 0)

/-- A burst of the buffer is written, or compared; COMPARE stops at the first mismatch (R498, R505). -/
def Hw.emptyBurst (h : Hw) (c : Nat) (d : Desc) (x : Burst) : Hw :=
  let n := x.bytes.length
  let h : Hw := { h with bulk := { h.bulk with buffer := h.bulk.buffer.erase x } }
  if d.post.mode = 2 then
    match (List.range n).find? (fun i => x.bytes.getD i 0 != x.other.getD i 0) with
    | some i => ({ h with bulk := { h.bulk with found := h.bulk.found.set c (d.put + i) } }).descDone c d
    | none => ({ h with bulk := { h.bulk with found := h.bulk.found.set c 0xFFFFFFFF } }).putMore c d n
  else (h.writeAt c d.post.dst d.put x.bytes).putMore c d n

/-- A parity error (R507): the burst is discarded; the descriptor starts again once, then it is abandoned. Where in the burst the
error lies is a free value. -/
def Hw.parity (h : Hw) (c : Nat) (d : Desc) (size : Nat) (inj : Bool) : Hw :=
  let n := Config.freeNat h.free % size
  let h := h.draw
  match d.retried with
  | none =>
    let rest := (h.bulk.ring c).drop 1
    let b := h.bulk.setRing c ({ d with got := 0, put := 0, retried := some (n, inj) } :: rest)
    { h with bulk := { b with buffer := b.buffer.filter (fun x => x.chan != c) } }
  | some _ =>
    let h : Hw := { h with bulk := h.bulk.pop c }
    (h.report 0x15 (c * 65536 + n) 5 0 (injected inj)).descLost c

/-- The write engine takes a channel's turn, one burst (R501): FILL reads nothing from the buffer; a burst that is read from it is
checked. -/
def Hw.writeEngine (h : Hw) (c : Nat) (parityError : Bool) : Hw :=
  let h : Hw := { h with bulk := { h.bulk.served c with finishing := h.bulk.finishing.filter (fun x => x != c) } }
  match h.bulk.ring c with
  | d :: _ =>
    if d.post.mode = 1 then
      let n := min (burstOf c) (d.post.len - d.put)
      (h.writeAt c d.post.dst d.put (fillBytes d.post.fill d.put n)).putMore c d n
    else match h.bulk.buffer.find? (fun x => x.chan = c) with
      | some x =>
        let inj := h.hit 0x0F
        let h := h.take 0x0F
        if parityError || inj then h.parity c d x.bytes.length inj else h.emptyBurst c d x
      | none => h
  | [] => h

/-- The owner of a channel can post (R499): the core while it runs; in IDLE, where the slices hold their results, not channels 2
and 3 (R503). -/
def Hw.owned (h : Hw) (c : Nat) : Bool :=
  (!coreOwns c || (h.ins.booted && h.rst.coreReq.isNone)) && !(h.idle.idle && (c = 2 || c = 3))

/-- BULK_BURST (R498–R503, R505, R507): what owners have posted joins the rings; the write engine moves one burst out of the
buffer and the read engine one into it, each for the channel whose turn it is; a DIAG_COMPARE in progress checks its next sector
(DESIGN CHOICE, log 68). In IDLE the engine stands still until something is posted or requested (R503). -/
def execBulkBurst (posts : List BulkPost) (requests : BitVec 16) (parityError : Bool) (s : State) : Out := s.upd fun h =>
  let posts := posts.filter (fun p => h.owned p.chan)
  let requests := if h.idle.idle then requests &&& 0xFFF3 else requests
  if !h.ins.mainOn || (h.idle.idle && posts.isEmpty && requests = 0) then h
  else
    let h : Hw := { h.wake with bulk := posts.foldl Bulk.post h.wake.bulk }
    let h := match bulkTurn h.bulk.last (h.empties requests) with
      | some c => h.writeEngine c parityError
      | none => h
    let h := match bulkTurn h.bulk.lastRead (h.asks requests) with
      | some c => h.fetch c
      | none => h
    h.diagSector

end Sys2Proof.Machine
end

