-- ==== Sys2Proof/Machine/Dispatch.lean ====
section
/-! DEFINITION. One arm per command: a direct call of its meaning. -/

namespace Sys2Proof.Machine

/-- The effect of a command on everything but the queue. -/
def exec (i : Instr) (s : State) : Host.Outcome State Fault Refusal :=
  match i with
  | .strapSample addr idx lead => Sys2Proof.Machine.execStrapSample addr idx lead s
  | .bootComplete b => Sys2Proof.Machine.execBootComplete b s
  | .vinUnusable mv => Sys2Proof.Machine.execVinUnusable mv s
  | .vhRestartTimeout vh => Sys2Proof.Machine.execVhRestartTimeout vh s
  | .packUnusable cause => Sys2Proof.Machine.execPackUnusable cause s
  | .eppresFall p => Sys2Proof.Machine.execEppresFall p s
  | .epSeatingStable p => Sys2Proof.Machine.execEpSeatingStable p s
  | .descReadComplete p read => Sys2Proof.Machine.execDescReadComplete p read s
  | .descReadRetry p => Sys2Proof.Machine.execDescReadRetry p s
  | .descReadTimeout p => Sys2Proof.Machine.execDescReadTimeout p s
  | .epPrechargeComplete p => Sys2Proof.Machine.execEpPrechargeComplete p s
  | .prechargeTimeout p => Sys2Proof.Machine.execPrechargeTimeout p s
  | .epPrechargeIntervalEnd p => Sys2Proof.Machine.execEpPrechargeIntervalEnd p s
  | .epStartupEnd p => Sys2Proof.Machine.execEpStartupEnd p s
  | .startupFail p => Sys2Proof.Machine.execStartupFail p s
  | .ocSustained p => Sys2Proof.Machine.execOcSustained p s
  | .ocFast p => Sys2Proof.Machine.execOcFast p s
  | .reverse p => Sys2Proof.Machine.execReverse p s
  | .eppresRise p => Sys2Proof.Machine.execEppresRise p s
  | .epHeldRestart p => Sys2Proof.Machine.execEpHeldRestart p s
  | .pulseSkipEntry x => Sys2Proof.Machine.execPulseSkipEntry x s
  | .pulseSkipExit x => Sys2Proof.Machine.execPulseSkipExit x s
  | .governorEvaluate g => Sys2Proof.Machine.execGovernorEvaluate g s
  | .governorComparatorWake g => Sys2Proof.Machine.execGovernorComparatorWake g s
  | .phaseAdd claims => Sys2Proof.Machine.execPhaseAdd claims s
  | .burstAdd claims => Sys2Proof.Machine.execBurstAdd claims s
  | .phaseRespacingEnd k => Sys2Proof.Machine.execPhaseRespacingEnd k s
  | .phaseShed k => Sys2Proof.Machine.execPhaseShed k s
  | .shedRampDownEnd p => Sys2Proof.Machine.execShedRampDownEnd p s
  | .quietEnd p addHolds => Sys2Proof.Machine.execQuietEnd p addHolds s
  | .shedCancel p => Sys2Proof.Machine.execShedCancel p s
  | .hintHoldEnd k => Sys2Proof.Machine.execHintHoldEnd k s
  | .phaseOutOfService p m overAdd => Sys2Proof.Machine.execPhaseOutOfService p m overAdd s
  | .ocLatch k mv => Sys2Proof.Machine.execOcLatch k mv s
  | .imbalance vh => Sys2Proof.Machine.execImbalance vh s
  | .vclNop op rail tog payload crc => Sys2Proof.Machine.execVclNop op rail tog payload crc s
  | .setv rail tog payload crc => Sys2Proof.Machine.execSetv rail tog payload crc s
  | .hint rail tog payload crc iOut => Sys2Proof.Machine.execHint rail tog payload crc iOut s
  | .getv rail tog payload crc => Sys2Proof.Machine.execGetv rail tog payload crc s
  | .geti rail tog payload crc ma10 => Sys2Proof.Machine.execGeti rail tog payload crc ma10 s
  | .getvm rail tog payload crc mv => Sys2Proof.Machine.execGetvm rail tog payload crc mv s
  | .truncated op rail => Sys2Proof.Machine.execTruncated op rail s
  | .slewStep k paused => Sys2Proof.Machine.execSlewStep k paused s
  | .settled k => Sys2Proof.Machine.execSettled k s
  | .vclSlewStall k => Sys2Proof.Machine.execVclSlewStall k s
  | .slewEpisodeEnd k => Sys2Proof.Machine.execSlewEpisodeEnd k s
  | .rampEnd k => Sys2Proof.Machine.execRampEnd k s
  | .scanComplete rs dtUs => Sys2Proof.Machine.execScanComplete rs dtUs s
  | .sliceCalibrationEnd sl gainBad offsetBad => Sys2Proof.Machine.execSliceCalibrationEnd sl gainBad offsetBad s
  | .seqStepComplete low => Sys2Proof.Machine.execSeqStepComplete low s
  | .seqTimeout low => Sys2Proof.Machine.execSeqTimeout low s
  | .windowBreach w => Sys2Proof.Machine.execWindowBreach w s
  | .goodSet w => Sys2Proof.Machine.execGoodSet w s
  | .clearFaultLineTest lineHigh => Sys2Proof.Machine.execClearFaultLineTest lineHigh s
  | .xevEdge x level => Sys2Proof.Machine.execXevEdge x level s
  | .leadFrame slot frame => Sys2Proof.Machine.execLeadFrame slot frame s
  | .statusFrame slot frame => Sys2Proof.Machine.execStatusFrame slot frame s
  | .join slot frame => Sys2Proof.Machine.execJoin slot frame s
  | .leave slot frame => Sys2Proof.Machine.execLeave slot frame s
  | .listenComplete heard => Sys2Proof.Machine.execListenComplete heard s
  | .followerSilent idx => Sys2Proof.Machine.execFollowerSilent idx s
  | .cabClearTest lineHigh => Sys2Proof.Machine.execCabClearTest lineHigh s
  | .blockEnd cs => Sys2Proof.Machine.execBlockEnd cs s
  | .stuckBitstream ch => Sys2Proof.Machine.execStuckBitstream ch s
  | .inputCauseClear ch => Sys2Proof.Machine.execInputCauseClear ch s
  | .recordAppended slot verifyOk => Sys2Proof.Machine.execRecordAppended slot verifyOk s
  | .flashEraseComplete verifyOk => Sys2Proof.Machine.execFlashEraseComplete verifyOk s
  | .flashProgramComplete verifyOk => Sys2Proof.Machine.execFlashProgramComplete verifyOk s
  | .idleCompaction r => Sys2Proof.Machine.execIdleCompaction r s
  | .checkpointBase ch dir => Sys2Proof.Machine.execCheckpointBase ch dir s
  | .sramScrub fs => Sys2Proof.Machine.execSramScrub fs s
  | .chargerBandChange temp => Sys2Proof.Machine.execChargerBandChange temp s
  | .packProbe sample => Sys2Proof.Machine.execPackProbe sample s
  | .gaugeUpdate g => Sys2Proof.Machine.execGaugeUpdate g s
  | .restPoint ocv => Sys2Proof.Machine.execRestPoint ocv s
  | .packFoundOcv ocv => Sys2Proof.Machine.execPackFoundOcv ocv s
  | .alarmFire a => Sys2Proof.Machine.execAlarmFire a s
  | .hostBusWrite adr ptr data => Sys2Proof.Machine.execHostBusWrite adr ptr data s
  | .readSnapshot adr ptr n => Sys2Proof.Machine.execReadSnapshot adr ptr n s
  | .repeatedStartInAck o ptr => Sys2Proof.Machine.execRepeatedStartInAck o ptr s
  | .startInsideByte o ptr => Sys2Proof.Machine.execStartInsideByte o ptr s
  | .stopInsideByte o ptr => Sys2Proof.Machine.execStopInsideByte o ptr s
  | .onePointerByte o => Sys2Proof.Machine.execOnePointerByte o s
  | .stalledTransaction o ptr => Sys2Proof.Machine.execStalledTransaction o ptr s
  | .addressMatchWake adr => Sys2Proof.Machine.execAddressMatchWake adr s
  | .wakeTimeout o => Sys2Proof.Machine.execWakeTimeout o s
  | .cmdSubmit o tag => Sys2Proof.Machine.execCmdSubmit o tag s
  | .replyPlaced o => Sys2Proof.Machine.execReplyPlaced o s
  | .replyTaken o => Sys2Proof.Machine.execReplyTaken o s
  | .evtPendWrite adr ptr data => Sys2Proof.Machine.execEvtPendWrite adr ptr data s
  | .wdtEnable ctrl => Sys2Proof.Machine.execWdtEnable ctrl s
  | .wdtDisable ctrl => Sys2Proof.Machine.execWdtDisable ctrl s
  | .wdtService value => Sys2Proof.Machine.execWdtService value s
  | .thermalModelUpdate amps => Sys2Proof.Machine.execThermalModelUpdate amps s
  | .bulkBurst posts requests parityError => Sys2Proof.Machine.execBulkBurst posts requests parityError s
  | .standbyWake w => Sys2Proof.Machine.execStandbyWake w s
  | .sealBreak sample => Sys2Proof.Machine.execSealBreak sample s
  | .nop o => Sys2Proof.Machine.execNop o s
  | .ident o => Sys2Proof.Machine.execIdent o s
  | .getStatus o => Sys2Proof.Machine.execGetStatus o s
  | .jobStatus o job => Sys2Proof.Machine.execJobStatus o job s
  | .coreReset o key => Sys2Proof.Machine.execCoreReset o key s
  | .moduleRestart o key => Sys2Proof.Machine.execModuleRestart o key s
  | .configUnlock o mode => Sys2Proof.Machine.execConfigUnlock o mode s
  | .configUnlockResponse o mac => Sys2Proof.Machine.execConfigUnlockResponse o mac s
  | .servicePrepare o => Sys2Proof.Machine.execServicePrepare o s
  | .enterStandby o wake => Sys2Proof.Machine.execEnterStandby o wake s
  | .enterIcehouse o arm => Sys2Proof.Machine.execEnterIcehouse o arm s
  | .powerUp o => Sys2Proof.Machine.execPowerUp o s
  | .powerDown o => Sys2Proof.Machine.execPowerDown o s
  | .railSet o output code => Sys2Proof.Machine.execRailSet o output code s
  | .railGet o output => Sys2Proof.Machine.execRailGet o output s
  | .railEnable o output on => Sys2Proof.Machine.execRailEnable o output on s
  | .supervisorSet o output uv ov filt => Sys2Proof.Machine.execSupervisorSet o output uv ov filt s
  | .poolAssign o phase owner => Sys2Proof.Machine.execPoolAssign o phase owner s
  | .poolStatus o => Sys2Proof.Machine.execPoolStatus o s
  | .portSet o port enable ilim => Sys2Proof.Machine.execPortSet o port enable ilim s
  | .portStatus o port => Sys2Proof.Machine.execPortStatus o port s
  | .budgetSet o vinW batW tCap => Sys2Proof.Machine.execBudgetSet o vinW batW tCap s
  | .seqStatus o => Sys2Proof.Machine.execSeqStatus o s
  | .clearFault o => Sys2Proof.Machine.execClearFault o s
  | .telemRead o block => Sys2Proof.Machine.execTelemRead o block s
  | .telemPeaks o output => Sys2Proof.Machine.execTelemPeaks o output s
  | .adcScanSet o mask interval refMode tAvg => Sys2Proof.Machine.execAdcScanSet o mask interval refMode tAvg s
  | .adcRead o first count => Sys2Proof.Machine.execAdcRead o first count s
  | .energyRead o => Sys2Proof.Machine.execEnergyRead o s
  | .metroStatus o chan => Sys2Proof.Machine.execMetroStatus o chan s
  | .metroRead o chan => Sys2Proof.Machine.execMetroRead o chan s
  | .registerRead o mask => Sys2Proof.Machine.execRegisterRead o mask s
  | .openSession o mask sid => Sys2Proof.Machine.execOpenSession o mask sid s
  | .closeSession o slot sid => Sys2Proof.Machine.execCloseSession o slot sid s
  | .sessionStatus o slot => Sys2Proof.Machine.execSessionStatus o slot s
  | .recordRead o seq => Sys2Proof.Machine.execRecordRead o seq s
  | .recordAck o n => Sys2Proof.Machine.execRecordAck o n s
  | .publicKeyRead o gen => Sys2Proof.Machine.execPublicKeyRead o gen s
  | .calWrite o chan rsv block => Sys2Proof.Machine.execCalWrite o chan rsv block s
  | .calRead o chan => Sys2Proof.Machine.execCalRead o chan s
  | .seal o => Sys2Proof.Machine.execSeal o s
  | .chargerSet o chgEn iChg cvReduce iTerm tTop vRech => Sys2Proof.Machine.execChargerSet o chgEn iChg cvReduce iTerm tTop vRech s
  | .chargerKeepalive o => Sys2Proof.Machine.execChargerKeepalive o s
  | .chargerStatus o => Sys2Proof.Machine.execChargerStatus o s
  | .gaugeRead o => Sys2Proof.Machine.execGaugeRead o s
  | .gaugeResetLearn o => Sys2Proof.Machine.execGaugeResetLearn o s
  | .gaugeTableLoad o points => Sys2Proof.Machine.execGaugeTableLoad o points s
  | .backupSet o en vCut tMin tMax lowSoc => Sys2Proof.Machine.execBackupSet o en vCut tMin tMax lowSoc s
  | .timeSet o value flags => Sys2Proof.Machine.execTimeSet o value flags s
  | .timeGet o => Sys2Proof.Machine.execTimeGet o s
  | .trimSet o trim band => Sys2Proof.Machine.execTrimSet o trim band s
  | .alarmSet o alarm action flags rsv value => Sys2Proof.Machine.execAlarmSet o alarm action flags rsv value s
  | .alarmStatus o => Sys2Proof.Machine.execAlarmStatus o s
  | .eventCountersClear o mask => Sys2Proof.Machine.execEventCountersClear o mask s
  | .faultRead o flags => Sys2Proof.Machine.execFaultRead o flags s
  | .faultPolicySet o cls reaction => Sys2Proof.Machine.execFaultPolicySet o cls reaction s
  | .faultLogRead o first count => Sys2Proof.Machine.execFaultLogRead o first count s
  | .bulkRead o region rsv offset len => Sys2Proof.Machine.execBulkRead o region rsv offset len s
  | .storeRead o key => Sys2Proof.Machine.execStoreRead o key s
  | .storeWrite o key len rsv payload => Sys2Proof.Machine.execStoreWrite o key len rsv payload s
  | .configWrite o offset len rsv data => Sys2Proof.Machine.execConfigWrite o offset len rsv data s
  | .configCommit o len crc => Sys2Proof.Machine.execConfigCommit o len crc s
  | .storeStatus o => Sys2Proof.Machine.execStoreStatus o s
  | .lifecycleGet o => Sys2Proof.Machine.execLifecycleGet o s
  | .lifecycleAdvance o target => Sys2Proof.Machine.execLifecycleAdvance o target s
  | .fwStage o offset len rsv data => Sys2Proof.Machine.execFwStage o offset len rsv data s
  | .fwVerify o len => Sys2Proof.Machine.execFwVerify o len s
  | .fwActivate o flags => Sys2Proof.Machine.execFwActivate o flags s
  | .identityCertRead o offset len => Sys2Proof.Machine.execIdentityCertRead o offset len s
  | .retire o flags => Sys2Proof.Machine.execRetire o flags s
  | .promStatus o => Sys2Proof.Machine.execPromStatus o s
  | .promRoster o first count => Sys2Proof.Machine.execPromRoster o first count s
  | .promAdmitPolicy o mask policy => Sys2Proof.Machine.execPromAdmitPolicy o mask policy s
  | .follyInject o checker count => Sys2Proof.Machine.execFollyInject o checker count s
  | .follyForce o source action => Sys2Proof.Machine.execFollyForce o source action s
  | .diagCompare o mode region first count => Sys2Proof.Machine.execDiagCompare o mode region first count s
  | .diagSelftest o target => Sys2Proof.Machine.execDiagSelftest o target s
  | .seatingConfirmed => Sys2Proof.Machine.execSeatingConfirmed s
  | .inputPrechargeStart => Sys2Proof.Machine.execInputPrechargeStart s
  | .inputSwitchClose => Sys2Proof.Machine.execInputSwitchClose s
  | .inputPrechargeTimeout => Sys2Proof.Machine.execInputPrechargeTimeout s
  | .prechargeHoldoffEnd => Sys2Proof.Machine.execPrechargeHoldoffEnd s
  | .storeReady => Sys2Proof.Machine.execStoreReady s
  | .removalProcedure => Sys2Proof.Machine.execRemovalProcedure s
  | .removalProcedureComplete => Sys2Proof.Machine.execRemovalProcedureComplete s
  | .handOver => Sys2Proof.Machine.execHandOver s
  | .inputSwitchOpenOnBattery => Sys2Proof.Machine.execInputSwitchOpenOnBattery s
  | .vinExcursion => Sys2Proof.Machine.execVinExcursion s
  | .returnCountComplete => Sys2Proof.Machine.execReturnCountComplete s
  | .ratioBalanceEnd => Sys2Proof.Machine.execRatioBalanceEnd s
  | .vinReturn => Sys2Proof.Machine.execVinReturn s
  | .vhRestartStagger => Sys2Proof.Machine.execVhRestartStagger s
  | .lastWordCommitEnd => Sys2Proof.Machine.execLastWordCommitEnd s
  | .btsOpen => Sys2Proof.Machine.execBtsOpen s
  | .reserveLow => Sys2Proof.Machine.execReserveLow s
  | .holdupLow => Sys2Proof.Machine.execHoldupLow s
  | .icehouseExit => Sys2Proof.Machine.execIcehouseExit s
  | .idleEntry => Sys2Proof.Machine.execIdleEntry s
  | .idleWake => Sys2Proof.Machine.execIdleWake s
  | .poolMoveWaitTimeout => Sys2Proof.Machine.execPoolMoveWaitTimeout s
  | .scanStart => Sys2Proof.Machine.execScanStart s
  | .sliceRotation => Sys2Proof.Machine.execSliceRotation s
  | .averagingWindowEnd => Sys2Proof.Machine.execAveragingWindowEnd s
  | .refSettled => Sys2Proof.Machine.execRefSettled s
  | .outputEnergyCheckpoint => Sys2Proof.Machine.execOutputEnergyCheckpoint s
  | .enRise => Sys2Proof.Machine.execEnRise s
  | .enFall => Sys2Proof.Machine.execEnFall s
  | .offMinElapsed => Sys2Proof.Machine.execOffMinElapsed s
  | .fltnFall => Sys2Proof.Machine.execFltnFall s
  | .retryDue => Sys2Proof.Machine.execRetryDue s
  | .retryStart => Sys2Proof.Machine.execRetryStart s
  | .retryCountReset => Sys2Proof.Machine.execRetryCountReset s
  | .prmCycle => Sys2Proof.Machine.execPrmCycle s
  | .joinRetry => Sys2Proof.Machine.execJoinRetry s
  | .orphanHold => Sys2Proof.Machine.execOrphanHold s
  | .orphanTimeout => Sys2Proof.Machine.execOrphanTimeout s
  | .cabEntryComplete => Sys2Proof.Machine.execCabEntryComplete s
  | .cabEntryTimeout => Sys2Proof.Machine.execCabEntryTimeout s
  | .prmTimeCompare => Sys2Proof.Machine.execPrmTimeCompare s
  | .relayTimeout => Sys2Proof.Machine.execRelayTimeout s
  | .comparison => Sys2Proof.Machine.execComparison s
  | .deferredSigningEnd => Sys2Proof.Machine.execDeferredSigningEnd s
  | .appendAfterReclaim => Sys2Proof.Machine.execAppendAfterReclaim s
  | .gaugeStateCheckpoint => Sys2Proof.Machine.execGaugeStateCheckpoint s
  | .preconditionDone => Sys2Proof.Machine.execPreconditionDone s
  | .cvReached => Sys2Proof.Machine.execCvReached s
  | .chargeTermination => Sys2Proof.Machine.execChargeTermination s
  | .topoffEnd => Sys2Proof.Machine.execTopoffEnd s
  | .recharge => Sys2Proof.Machine.execRecharge s
  | .chargeTimerExpiry => Sys2Proof.Machine.execChargeTimerExpiry s
  | .preconditionTimeout => Sys2Proof.Machine.execPreconditionTimeout s
  | .chargerRestartEval => Sys2Proof.Machine.execChargerRestartEval s
  | .keepaliveTimeout => Sys2Proof.Machine.execKeepaliveTimeout s
  | .noRest => Sys2Proof.Machine.execNoRest s
  | .gatehouseLockClose => Sys2Proof.Machine.execGatehouseLockClose s
  | .lodgeSupplyReturn => Sys2Proof.Machine.execLodgeSupplyReturn s
  | .gatehouseLockOpen => Sys2Proof.Machine.execGatehouseLockOpen s
  | .lodgeReset => Sys2Proof.Machine.execLodgeReset s
  | .trimWindow => Sys2Proof.Machine.execTrimWindow s
  | .calendarOverflow => Sys2Proof.Machine.execCalendarOverflow s
  | .holdover => Sys2Proof.Machine.execHoldover s
  | .timeSetApply => Sys2Proof.Machine.execTimeSetApply s
  | .arbitrationLoss => Sys2Proof.Machine.execArbitrationLoss s
  | .arbLostCond => Sys2Proof.Machine.execArbLostCond s
  | .accTransactionRestart => Sys2Proof.Machine.execAccTransactionRestart s
  | .accAddressNackRetry => Sys2Proof.Machine.execAccAddressNackRetry s
  | .sdaStuckLow => Sys2Proof.Machine.execSdaStuckLow s
  | .sclHeldLow => Sys2Proof.Machine.execSclHeldLow s
  | .unlockTimeout => Sys2Proof.Machine.execUnlockTimeout s
  | .unlockLockoutEnd => Sys2Proof.Machine.execUnlockLockoutEnd s
  | .wdtKeyArm => Sys2Proof.Machine.execWdtKeyArm s
  | .wdtExpiry => Sys2Proof.Machine.execWdtExpiry s
  | .hrstnRelease => Sys2Proof.Machine.execHrstnRelease s
  | .graceExpiry => Sys2Proof.Machine.execGraceExpiry s
  | .coreWatchdogExpiry => Sys2Proof.Machine.execCoreWatchdogExpiry s
  | .coreResetExecute => Sys2Proof.Machine.execCoreResetExecute s
  | .faultLogWrite => Sys2Proof.Machine.execFaultLogWrite s
  | .fwActivateReset => Sys2Proof.Machine.execFwActivateReset s
  | .trialConfirm => Sys2Proof.Machine.execTrialConfirm s
  | .rstn => Sys2Proof.Machine.execRstn s
  | .restartMainReset => Sys2Proof.Machine.execRestartMainReset s
  | .servicePrepareComplete => Sys2Proof.Machine.execServicePrepareComplete s
  | .fltnHigh => Sys2Proof.Machine.execFltnHigh s
  | .rstnRelease => Sys2Proof.Machine.execRstnRelease s
  | .lodgeSupplyMove => Sys2Proof.Machine.execLodgeSupplyMove s

end Sys2Proof.Machine
end

