-- ==== Sys2Proof/Machine/Contacts.lean ====
section
/-! DEFINITION. What the module does to the contacts of J1 as its state stands (R17, R20, R241). -/

namespace Sys2Proof.Machine

/-- What a power contact carries. -/
inductive Drive where
  | highZ
  | discharging
  | regulating
  deriving DecidableEq, Repr

/-- The module is seated, with VIN or VBAT present: otherwise the column "Unpowered" applies (R17). VIN is present from where the
module has found it, usable or not; a pack whose switch is open supplies nothing (DEDUCED, log 63). -/
def Hw.powered (h : Hw) : Bool :=
  (h.ins.state != .unseated && h.ins.state != .removed) &&
    (h.ins.mainOn || h.pwr.vinUsable || h.pwr.vinHere || (h.holdup && !h.pwr.battAbsent && h.ins.vbatSwitch != .opened))

/-- Contacts of output k, VP, VM or VH: high-impedance when unpowered and in reset (R17, R20). -/
def Hw.outDrive (h : Hw) (k : Nat) : Drive :=
  if !h.live then .highZ
  else if (h.out k).on then .regulating
  else if (h.out k).discharging then .discharging
  else .highZ

/-- A port that blocks both ways (R17): it neither pre-charges nor is closed. -/
def Hw.portBlocks (h : Hw) (p : Nat) : Bool := !h.live || !(h.out (12 + p)).on

/-- What a modulator clock contact carries. -/
inductive ClockDrive where
  | highZ
  | low
  | running
  deriving DecidableEq, Repr

/-- MCLKA of channels 1–4 (bank 0), MCLKB of channels 5–8 (bank 1): unconnected without Belvedere (R7), high-impedance unpowered
(R17); running while a channel of the bank is enabled, otherwise driven low (R241). -/
def Hw.meterClock (h : Hw) (bank : Fin 2) : ClockDrive :=
  if !h.metering || !h.powered then .highZ
  else if h.live && (List.range 4).any (fun c => (h.chan (4 * bank.val + c)).enabled) then .running
  else .low

/-- The bias of BTS is off in reset (R17). -/
def Hw.btsBias (h : Hw) : Bool := h.holdup && h.live

/-- VAON carries 3.3 V while the module is powered (R17). -/
def Hw.vaon (h : Hw) : Bool := h.powered

/-- Open-drain outputs: HRSTn and PGOOD are driven low in reset, FLTn is released (R17, R205, R206, R208). -/
def Hw.hrstDriven (h : Hw) : Bool := h.powered && (!h.live || !h.seq.hrst)
def Hw.pgoodDriven (h : Hw) : Bool := h.powered && (!h.live || !h.seq.pgood)
def Hw.fltDriven (h : Hw) : Bool := h.live && h.seq.fltDrive

end Sys2Proof.Machine
end

