-- ==== Sys2Proof/Safety.lean ====
section
/-! DEFINITION. What the claims count as safe: a step that answers, a command that completes, a packet that is carried out and
its reply, buffers in canonical form, fuses that only burn, counts of fuses in their range. -/

namespace Sys2Proof.Machine

/-- A step that ends in a next state. -/
def Answers (s : State) : Prop := ∃ t, step s = .next t

/-- A run of n steps that all answer. -/
def SafeFor : Nat → State → Prop
  | 0, _ => True
  | n + 1, s => ∃ t, step s = .next t ∧ SafeFor n t

/-- A command completes: it answers a next state with the queue as it was, whose hardware is as stated. -/
def Completes (c : Instr) (s : State) (post : Hw → Prop) : Prop :=
  ∃ t, exec c s = .next t ∧ t.pending = s.pending ∧ post t.hw

/-- A command's row reaches its checks: commands are served, the packet in process at its address is judged, without a reply, this
module's own and next in turn, and it spells the command (R404, R407, R410, R464); so does one that came over the link. -/
def Hw.reaches (h : Hw) (i : Instr) : Bool :=
  match packetOf i with
  | none => false
  | some (o, op, ps) =>
    h.serves && (match (h.mbx o).inProc with | some _ => (h.mbx o).judged && (h.mbx o).ready.isNone | none => true) &&
      !h.foreign o && h.turn o && h.spelled o op ps

/-- A command is carried out by its row: its packet, in process at its address or from the link, reaches the checks, and none of
those before the command's own refuses it (R4, R34, R413, R416, R419, R424). -/
def Hw.carries (h : Hw) (i : Instr) : Bool :=
  match packetOf i with
  | none => false
  | some (o, op, _) =>
    h.reaches i && ((h.mbx o).inProc.isSome || h.relayed o) && h.pwr.commit.isNone && !h.bootWork && h.shaped && !h.hit 1 &&
      match cmdInfo op with
      | some c => !h.unitAbsent c.unit && (h.classRefuses c.cls o).isNone && (!h.inLimp || servedInLimp op)
      | none => false

/-- The reply to the packet at an address is ready (R406): a status and data, with TAG and MODULE as received; of a packet that
came over the link, its bytes stand for the way back (R227). -/
def Replied (h t : Hw) (o : Origin) (st : Nat) (data : List Byte) : Prop :=
  let tag := (h.packet o).getD 1 0
  let md := (h.packet o).getD 2 0
  if h.relayed o then t.prm.relay.map (·.out) = some (replyBytes st tag md data)
  else (t.mbx o).ready = some (replyBytes st tag md data)

/-- A command that reads: carried out, it answers OK with the data, and the reply is all that it changes. -/
def ReadsOut (c : Origin → Instr) (data : Hw → List Byte) : Prop :=
  ∀ (s : State) (o : Origin), s.hw.carries (c o) = true → Completes (c o) s (fun t => t = s.hw.ok o (data s.hw))

/-- A command that is refused: carried out, it answers a status without data, and the reply is all that it changes. -/
def RefusedWith (c : Origin → Instr) (st : Nat) : Prop :=
  ∀ (s : State) (o : Origin), s.hw.carries (c o) = true → Completes (c o) s (fun t => t = s.hw.respond o st [])

/-- The configuration unlock of the module's own packets, or that of relayed ones (R418). -/
def Hw.unlockAt (h : Hw) (relayed : Bool) : Unlock := if relayed then h.prm.unlock else h.proto.unlock

/-- A job of a number stands in the table, ended with a status, a result code and data (R414, R415). -/
def JobEnded (h : Hw) (n status result : Nat) (data : List Byte) : Prop :=
  ∃ j ∈ h.proto.jobs, j.num = n ∧ j.state = .done ∧ j.status = status ∧ j.result = result ∧ j.data = data

/-- The mask of OPEN_SESSION names metered channels of one MODE and no reserved bit (R277). -/
def Hw.MaskFits (h : Hw) (m : Half) : Prop :=
  m ≠ 0 ∧ m.toNat < 256 ∧ (∀ c < 8, m.getLsbD c = true → (h.chan c).enabled = true) ∧
    ∀ c < 8, ∀ d < 8, m.getLsbD c = true → m.getLsbD d = true → (h.chan c).dc = (h.chan d).dc

/-- A channel of the mask belongs to a slot that is OPEN and has not taken its stop capture (R277). -/
def Hw.InOpenSlot (h : Hw) (m : Half) : Prop :=
  ∃ x ∈ h.slots, x.open? = true ∧ x.captured = false ∧ ∃ c < 8, m.getLsbD c = true ∧ x.mask.getLsbD c = true

/-- A reply's data have a length and, at each byte offset of the command reference, which counts from the header's four bytes, the
bytes of its table. -/
def LaidOut (data : List Byte) (len : Nat) (fields : List (Nat × List Byte)) : Prop :=
  data.length = len ∧ ∀ f ∈ fields, slice data (f.1 - 4) f.2.length = f.2

/-- The addressed buffers are in canonical form: the mailbox windows (R404), the staging buffer (R445), the firmware slots
(R530), the bulk engine's SRAM (R499). -/
def Hw.buffersOk (h : Hw) : Bool :=
  Cells.wf 0 h.proto.a.cmd && Cells.wf 0 h.proto.a.rep && Cells.wf 0 h.proto.v.cmd && Cells.wf 0 h.proto.v.rep &&
    Cells.wf 0xFF h.store.staging && Cells.wf 0xFF h.fw.slotA.bytes && Cells.wf 0xFF h.fw.slotB.bytes &&
    Cells.wf 0 h.bulk.sram && Cells.wf 0 h.bulk.retained

/-- Fuses are burnt and never restored (R520, R528). -/
def FusesKept (a b : Life) : Prop :=
  (a.prov = true → b.prov = true) ∧ (a.calEntered = true → b.calEntered = true) ∧ (a.retired = true → b.retired = true) ∧
    a.seals ≤ b.seals ∧ a.breaks ≤ b.breaks

/-- No more breaks than seals, at most one seal unbroken, and no more seals than the 32 SEAL fuses (R520). -/
def FusesInRange (l : Life) : Prop := l.breaks ≤ l.seals ∧ l.seals ≤ l.breaks + 1 ∧ l.seals ≤ 32

end Sys2Proof.Machine
end

