-- ==== Sys2Proof/Certificates/Slice0/Obligations.lean ====
section
/-! DEFINITION. The statements for the provers: what the commands of each family do, the checks of every packet, the invariants
that every step keeps. -/

open Sys2Proof Sys2Proof.Machine

/-! ## The queue, the checks of every packet, the invariants -/

/-- A step runs the command at the front of the queue with the queue's rest; on an empty queue the block idles for 1 µs of the
model's clock (DESIGN CHOICE, log 1). -/
def Obligations.StepTakesTheFrontCommand : Prop :=
  (∀ (s : State) (c : Instr) (rest : List Instr), s.pending = c :: rest → step s = exec c { s with pending := rest }) ∧
  (∀ s : State, s.pending = [] → step s = .next { s with hw := s.hw.advance 1 })

/-- Every command answers a next state that leaves the queue as it was, but a VIN reading above 80 V, the absolute maximum of
R536, beyond which the manual makes no statement: that the model stops there, by the fault `beyondAbsoluteMaximum`, is its own
choice (DESIGN CHOICE, log 52). -/
def Obligations.EveryCommandAnswers : Prop :=
  (∀ (c : Instr) (s : State), (∃ t, exec c s = .next t ∧ t.pending = s.pending) ∨
    (∃ mv, c = .vinUnusable mv ∧ 80000 < mv ∧ exec c s = .fault .beyondAbsoluteMaximum)) ∧
  (∀ (s : State) (mv : Nat), 80000 < mv → exec (.vinUnusable mv) s = .fault .beyondAbsoluteMaximum)

/-- R520, R523, R526, R528: no step clears a fuse, so no transition leaves RETIRED, and the seals stay at most one ahead of
the breaks and within their 32 fuses. -/
def Obligations.FusesOnlyBurn : Prop :=
  ∀ s t : State, step s = .next t → FusesInRange s.hw.life → FusesKept s.hw.life t.hw.life ∧ FusesInRange t.hw.life

/-- R404, R445, R499, R530: every step keeps the mailbox windows, the staging buffer, the firmware slots and the SRAM of the
bulk engine in canonical form: rising addresses, none listed at the value that an unwritten byte reads. -/
def Obligations.BuffersStayCanonical : Prop :=
  ∀ s t : State, step s = .next t → s.hw.buffersOk = true → t.hw.buffersOk = true

/-- R82, R180, R240, R274, R453: every step keeps 18 outputs, 6 ports, 8 phases, 4 VP rails, 8 channels, 128 slots and 64
counters. -/
def Obligations.PartsKeepTheirNumber : Prop :=
  ∀ s t : State, step s = .next t → s.hw.shaped = true → t.hw.shaped = true

/-- The three invariants hold at reset, where every output is off, HRSTn and PGOOD are low, no command waits and no event is
pending; the values of the registers behind them are the model's where the manual states none (DESIGN CHOICE, log 5). -/
def Obligations.ResetMeetsTheInvariants : Prop :=
  FusesInRange State.reset.hw.life ∧ State.reset.hw.buffersOk = true ∧ State.reset.hw.shaped = true ∧
    State.reset.pending = [] ∧ (∀ k, (State.reset.hw.out k).on = false) ∧ State.reset.hw.seq.hrst = false ∧
    State.reset.hw.seq.pgood = false ∧ State.reset.hw.evt.pend = 0 ∧ State.reset.hw.ins.mainOn = false

/-- R3: a command of an absent unit returns UNIT_ABSENT and has no other effect, whichever of the eighteen it is; RECORD_READ
and RECORD_ACK belong to no unit. -/
def Obligations.AbsentUnitsAnswer : Prop :=
  (∀ (s : State) (o : Origin) (c : Instr),
    ((∃ b, c = .metroStatus o b) ∨ (∃ b, c = .metroRead o b) ∨
      (∃ m, c = .registerRead o m) ∨ (∃ m i, c = .openSession o m i) ∨
      (∃ n i, c = .closeSession o n i) ∨ (∃ n, c = .sessionStatus o n) ∨
      (∃ g, c = .publicKeyRead o g) ∨ (∃ b r d, c = .calWrite o b r d) ∨
      (∃ b, c = .calRead o b) ∨ c = .seal o) →
    s.hw.metering = false → s.hw.reaches c = true → s.hw.pwr.commit = none → s.hw.bootWork = false →
    Completes c s (fun t => t = s.hw.respond o 0x30 [])) ∧
  (∀ (s : State) (o : Origin) (c : Instr),
    ((∃ a b d i e f, c = .chargerSet o a b d i e f) ∨ c = .chargerKeepalive o ∨
      c = .chargerStatus o ∨ c = .gaugeRead o ∨ c = .gaugeResetLearn o ∨
      (∃ p, c = .gaugeTableLoad o p) ∨ (∃ e v l u f, c = .backupSet o e v l u f) ∨
      (∃ a, c = .enterIcehouse o a)) →
    s.hw.holdup = false → s.hw.reaches c = true → s.hw.pwr.commit = none → s.hw.bootWork = false →
    Completes c s (fun t => t = s.hw.respond o 0x30 [])) ∧
  (cmdInfo 0x46).map (·.unit) = some .core ∧ (cmdInfo 0x47).map (·.unit) = some .core

/-- R413: during a last-word commit every packet taken is answered BUSY; during deferred signing every command but IDENT and
GET_STATUS is; in LIMP the twelve commands of the ROM monitor are served and every other one that passes privilege is
WRONG_STATE. -/
def Obligations.StatesOverrideTheChecks : Prop :=
  (∀ (h : Hw) (o : Origin) (p : Nat × List Byte), (h.mbx o).inProc = some p → (h.mbx o).judged = false → h.serves = true → h.turn o = true →
    h.pwr.commit.isSome = true → 4 ≤ p.2.length →
    Replied h (h.judge o) o 0x31 [] ∧ (h.judge o).outs = h.outs ∧ (h.judge o).faults = h.faults) ∧
  (∀ (h : Hw) (i : Instr) (o : Origin) (op : Nat) (ps : List Byte) (body : Hw → Hw), packetOf i = some (o, op, ps) →
    h.reaches i = true → h.pwr.commit.isSome = true → h.serve i body = h.respond o 0x31 []) ∧
  (∀ (h : Hw) (o : Origin) (p : Nat × List Byte), (h.mbx o).inProc = some p → (h.mbx o).judged = false → h.serves = true →
    h.turn o = true → h.pwr.commit = none → h.log.signPending = true → (p.2.getD 0 0).toNat ≠ 1 → (p.2.getD 0 0).toNat ≠ 2 → 4 ≤ p.2.length →
    Replied h (h.judge o) o 0x31 [] ∧ (h.judge o).outs = h.outs ∧ (h.judge o).faults = h.faults) ∧
  (∀ (h : Hw) (i : Instr) (o : Origin) (op : Nat) (ps : List Byte) (body : Hw → Hw), packetOf i = some (o, op, ps) →
    h.reaches i = true → h.pwr.commit = none → h.log.signPending = true → op ≠ 0x01 → op ≠ 0x02 →
    h.serve i body = h.respond o 0x31 []) ∧
  (∀ (h : Hw) (i : Instr) (o : Origin) (op : Nat) (ps : List Byte) (body : Hw → Hw) (c : CmdInfo),
    packetOf i = some (o, op, ps) → cmdInfo op = some c → h.reaches i = true → h.pwr.commit = none → h.bootWork = false → h.unitAbsent c.unit = false → h.classRefuses c.cls o = none →
    h.inLimp = true → op ∉ [0x01, 0x02, 0x03, 0xA2, 0xA3, 0xA4, 0x71, 0xA0, 0xA5, 0x48, 0x46, 0x83] →
    h.serve i body = h.respond o 0x33 []) ∧
  (∀ op, op ∈ [0x01, 0x02, 0x03, 0xA2, 0xA3, 0xA4, 0x71, 0xA0, 0xA5, 0x48, 0x46, 0x83] → servedInLimp op = true) ∧
  (∀ (s : State) (o : Origin), s.hw.inLimp = true → s.hw.carries (.ident o) = true →
    Completes (.ident o) s (fun t => t = s.hw.ok o s.hw.identData))

/-- R416: the four privilege classes; a failure answers its status and is captured under ACCESS_DENIED's source with the
origin's master ID, access type command and offset 0, and FAULT_READ with REARM from address V with offset 4. -/
def Obligations.PrivilegeClassesRefuse : Prop :=
  (∀ (h : Hw) (o : Origin), h.classRefuses .opened o = none ∧
    h.classRefuses .operate .A = none ∧ h.classRefuses .operate .V = some 0x20 ∧
    (h.classRefuses .configure o = if o = .A ∧ (h.unlockOf o).unlocked = true then none else some 0x20) ∧
    (h.classRefuses .metrology o = if h.life.state ≠ 2 then some 0x21
      else if o = .A ∧ h.lines.calenLow = true then none else some 0x20)) ∧
  (∀ (h : Hw) (i : Instr) (o : Origin) (op : Nat) (ps : List Byte) (body : Hw → Hw) (c : CmdInfo) (st : Nat),
    packetOf i = some (o, op, ps) → cmdInfo op = some c → h.reaches i = true → h.pwr.commit = none → h.bootWork = false → h.unitAbsent c.unit = false → h.classRefuses c.cls o = some st →
    Replied h (h.serve i body) o st [] ∧
      (h.faults.cap = none → (h.serve i body).faults.cap.map (fun e => (e.source, e.addr, e.master, e.access)) =
        some (0x31, op * 65536, masterOf o, 3))) ∧
  (∀ s : State, s.hw.carries (.faultRead .V 1) = true → s.hw.faults.cap = none →
    Completes (.faultRead .V 1) s (fun t => Replied s.hw t .V 0x20 [] ∧
      t.faults.cap.map (fun e => (e.source, e.addr, e.master, e.access)) = some (0x31, 0x81 * 65536 + 4, 2, 3))) ∧
  masterOf .A = 1 ∧ masterOf .V = 2

/-- R231: TIME_SET sent to an admitted follower returns WRONG_STATE; in STANDALONE mode and in orphan hold it is accepted. -/
def Obligations.FollowersKeepCabinetTime : Prop :=
  (∀ (s : State) (o : Origin) (v : DWord) (f : Byte), s.hw.carries (.timeSet o v f) = true → s.hw.prm.role = .follower →
    s.hw.prm.link = .active → Completes (.timeSet o v f) s (fun t => t = s.hw.respond o 0x33 [])) ∧
  (∀ (s : State) (o : Origin) (v : DWord) (f : Byte), s.hw.carries (.timeSet o v f) = true →
    (s.hw.prm.role = .standalone ∨ s.hw.prm.role = .follower ∧ s.hw.prm.link = .orphan) → s.hw.lodge.lock = false →
    timeOk v = true → f.toNat ≤ 1 → 18 ≤ s.hw.logSpace → 3 ≤ s.hw.logErased → s.hw.lodge.timeSet = none →
    Completes (.timeSet o v f) s (fun t => Replied s.hw t o 1 (be 2 t.proto.lastJob) ∧
      t.lodge.timeSet.map (·.value) = some (ticksOf v.toNat)))

/-- R406: byte 0 of a reply is the status, bytes 1 and 2 echo TAG and MODULE, byte 3 is LEN, the data follow and the CRC-16 of
all that precedes it ends the reply; a packet that the module answers changes nothing but its reply. R4, R404, R407, R409,
R424: a packet whose turn has come is judged once: a tag that did not match is BAD_CRC, also while a commit or deferred
signing answers packets BUSY; LEN above 250 is BAD_LENGTH without a CRC check, a wrong CRC is BAD_CRC and captured, then the
opcode, its length and MODULE are checked; one that passes is left to its command's row. That the opcode is judged before its
length is the model's reading (DEDUCED, log 48), and that a row whose opcode or parameters the packet does not spell does not
answer it is its choice (DESIGN CHOICE, log 2). A module that does not hold its units in number answers INTERNAL_ERROR,
captured with the opcode as address (DESIGN CHOICE, log 44: the manual names no inconsistency). -/
def Obligations.RepliesKeepTheirLayout : Prop :=
  (∀ (st : Nat) (g m : Byte) (d : List Byte), (replyBytes st g m d).length = 6 + d.length ∧
    (replyBytes st g m d).take 4 = [BitVec.ofNat 8 st, g, m, BitVec.ofNat 8 d.length] ∧
    slice (replyBytes st g m d) 4 d.length = d ∧
    (replyBytes st g m d).drop (4 + d.length) = be 2 (crc16 ((replyBytes st g m d).take (4 + d.length))).toNat) ∧
  (∀ (h : Hw) (o : Origin) (st : Nat) (d : List Byte), Replied h (h.respond o st d) o st d ∧
    (h.respond o st d).outs = h.outs ∧ (h.respond o st d).seq = h.seq ∧ (h.respond o st d).evt = h.evt ∧
    (h.respond o st d).life = h.life ∧ (h.respond o st d).log = h.log ∧ (h.respond o st d).metro = h.metro ∧
    (h.respond o st d).mbx (Origin.other o) = h.mbx (Origin.other o)) ∧
  (∀ (h : Hw) (o : Origin) (p : Nat × List Byte) (op len md : Nat) (m : Hw), (h.mbx o).inProc = some p → (h.mbx o).judged = false →
    h.serves = true → h.turn o = true → h.pwr.commit = none → h.bootWork = false → 4 ≤ p.2.length →
    op = (p.2.getD 0 0).toNat → md = (p.2.getD 2 0).toNat → len = (p.2.getD 3 0).toNat →
    m = h.modMbx o (fun x => { x with judged := true }) →
    (250 < len → h.judge o = m.respond o 0x11 []) ∧
    (len ≤ 250 → slice p.2 (4 + len) 2 ≠ be 2 (crc16 (p.2.take (4 + len))).toNat →
      Replied h (h.judge o) o 0x10 [] ∧
      (h.faults.cap = none → (h.judge o).faults.cap.map (fun e => (e.source, e.addr, e.master, e.access)) =
        some (0x41, op * 65536 + (4 + len), masterOf o, 3))) ∧
    (len ≤ 250 → slice p.2 (4 + len) 2 = be 2 (crc16 (p.2.take (4 + len))).toNat → h.hit 0x0A = false →
      (cmdInfo op = none → Replied h (h.judge o) o 0x12 [] ∧ (h.judge o).outs = h.outs) ∧
      (∀ c, cmdInfo op = some c →
        (len ≠ c.lenIn p.2 → Replied h (h.judge o) o 0x11 [] ∧ (h.judge o).outs = h.outs) ∧
        (len = c.lenIn p.2 → md ≠ 0 → (h.prm.role ≠ .lead ∨ 16 ≤ md ∨ h.prm.roster.getLsbD md = false) →
          Replied h (h.judge o) o 0x14 [] ∧ (h.judge o).outs = h.outs) ∧
        (len = c.lenIn p.2 → (md = 0 ∨ h.prm.role = .lead ∧ md < 16 ∧ h.prm.roster.getLsbD md = true ∧ h.inLimp = false) →
          ((h.judge o).mbx o).judged = true ∧ ((h.judge o).mbx o).ready = (h.mbx o).ready ∧ (h.judge o).outs = h.outs ∧
          (h.judge o).seq = h.seq ∧ (h.judge o).life = h.life)))) ∧
  (∀ (h : Hw) (o : Origin) (p : Nat × List Byte), (h.mbx o).inProc = some p → (h.mbx o).judged = false → h.serves = true →
    h.turn o = true → p.2.length < 4 →
    Replied h (h.judge o) o 0x10 [] ∧
    (h.faults.cap = none → (h.judge o).faults.cap.map (fun e => (e.source, e.addr, e.master, e.access)) =
      some (0x41, (p.2.getD 0 0).toNat * 65536 + 1, masterOf o, 3))) ∧
  (∀ (h : Hw) (i : Instr) (o : Origin) (op : Nat) (ps : List Byte) (body : Hw → Hw), packetOf i = some (o, op, ps) →
    ((h.judge o).spelled o op ps) = false → h.serve i body = h.judge o) ∧
  (∀ (h : Hw) (i : Instr) (o : Origin) (op : Nat) (ps : List Byte) (body : Hw → Hw) (c : CmdInfo),
    packetOf i = some (o, op, ps) → cmdInfo op = some c → h.reaches i = true → h.pwr.commit = none → h.bootWork = false →
    h.unitAbsent c.unit = false → h.classRefuses c.cls o = none → h.inLimp = false → h.shaped = false →
    Replied h (h.serve i body) o 0xFF [] ∧
      (h.faults.cap = none → (h.serve i body).faults.cap.map (fun e => (e.source, e.addr, e.master, e.access)) =
        some (0x33, op * 65536, masterOf o, 3)))

/-! ## Insertion -/

/-- R17, R31, R32, R37, R42, R342, R363: seating confirmed in UNSEATED or REMOVED starts WAIT_VIN, with the pack left open in
Icehouse and the arm of Icehouse gone; a reseating makes the next POR read RESEAT; UVLO with no hold-off running closes the 33
Ω path; the end of the hold-off ends it, and starts the pre-charge of a return that waits for it with attempts left. That a
module reseated in Icehouse reads ICEHOUSE is the model's choice (log 73), and so is that return waiting (log 61). R22: the
straps are sampled once between the release of a POR or RSTn and the end of the boot, and at no other time. R32, R34, R37: the
input switch closes out of INPUT_PRECHARGE into STORE_CHARGE with the main domain powered and the boot ahead; a pre-charge
that takes too long goes back to WAIT_VIN with the hold-off, at the third failure in a row to INPUT_FAULT with every switch
open; on the return to VIN (R342 step 1) the switch closes into the balance, and a pre-charge that takes too long starts the
count of R341 again. That it counts and holds off as in R32, and that after the third failure in a row the return makes no
further attempt while the module stays in READY, is the model's choice (log 61). -/
def Obligations.InsertionReachesTheStoreCharge : Prop :=
  (∀ s : State, s.hw.ins.state = .unseated ∨ s.hw.ins.state = .removed →
    Completes .seatingConfirmed s (fun t => t = { s.hw with
      ins := { s.hw.ins with state := .waitVin, presA := true, presB := true, fails := 0, holdoff := false,
                             vbatSwitch := if s.hw.pwr.icehouse then .opened else s.hw.lodgePath,
                             porCause := if s.hw.ins.state = .removed then 6 else s.hw.ins.porCause }
      pwr := { s.hw.pwr with icehouseArmed := false, vinHere := !s.hw.holdup || s.hw.pwr.battAbsent } })) ∧
  (∀ s : State, s.hw.ins.state = .waitVin → s.hw.ins.holdoff = false →
    Completes .inputPrechargeStart s (fun t =>
      t.ins.state = .inputPrecharge ∧ t.ins.path33 = true ∧ t.ins.inputSwitch = s.hw.ins.inputSwitch ∧
        t.ins.porCause = (if s.hw.pwr.icehouse then 8 else s.hw.ins.porCause) ∧ t.outs = s.hw.outs ∧ t.seq = s.hw.seq)) ∧
  (∀ s : State, Completes .prechargeHoldoffEnd s (fun t => t =
    if s.hw.pwr.onBattery = true ∧ s.hw.pwr.ret = .held ∧ s.hw.pwr.commit = none ∧ s.hw.ins.fails < 3 then
      { s.hw with ins := { s.hw.ins with holdoff := false, path33 := true }, pwr := { s.hw.pwr with ret := .precharge } }
    else { s.hw with ins := { s.hw.ins with holdoff := false } })) ∧
  (∀ (s : State) (addr : BitVec 2) (idx : BitVec 4) (lead : Bool),
    Completes (.strapSample addr idx lead) s (fun t => t =
      if s.hw.ins.mainOn = true ∧ s.hw.ins.booted = false ∧ s.hw.lines.rstLow = false ∧ s.hw.ins.strapsDone = false ∧
          (s.hw.ins.porCause ≠ 0 ∨ s.hw.rst.cause = 2) then
        { s.hw with straps := { addr := addr, idx := idx, lead := lead }, ins := { s.hw.ins with strapsDone := true } }
      else s.hw)) ∧
  (∀ s : State, s.hw.ins.state = .inputPrecharge →
    Completes .inputSwitchClose s (fun t =>
      t.ins.state = .storeCharge ∧ t.ins.inputSwitch = true ∧ t.ins.path33 = false ∧ t.ins.fails = 0 ∧
        t.ins.mainOn = true ∧ t.ins.booted = false ∧ t.ins.storeReady = false ∧ t.ins.strapsDone = false ∧
        t.ins.vbatSwitch = (if s.hw.holdup then .closed else .opened))) ∧
  (∀ s : State, s.hw.ins.state = .inputPrecharge → s.hw.ins.fails < 2 →
    Completes .inputPrechargeTimeout s (fun t => t = { s.hw with
      ins := { s.hw.ins with state := .waitVin, path33 := false, holdoff := true, fails := s.hw.ins.fails + 1 } })) ∧
  (∀ s : State, s.hw.ins.state = .inputPrecharge → 2 ≤ s.hw.ins.fails →
    Completes .inputPrechargeTimeout s (fun t =>
      t.ins.state = .inputFault ∧ t.ins.path33 = false ∧ t.ins.inputSwitch = false ∧ t.ins.vbatSwitch = .opened ∧
        t.outs = s.hw.outs)) ∧
  (∀ s : State, s.hw.ins.state = .ready → s.hw.pwr.ret = .precharge →
    Completes .inputSwitchClose s (fun t => t = { s.hw with
      ins := { s.hw.ins with inputSwitch := true, path33 := false, fails := 0 }, pwr := { s.hw.pwr with ret := .balance } }) ∧
    Completes .inputPrechargeTimeout s (fun t => t = { s.hw with
      ins := { s.hw.ins with path33 := false, holdoff := true, fails := s.hw.ins.fails + 1 }
      pwr := { s.hw.pwr with ret := .counting } })) ∧
  (∀ s : State, s.hw.ins.state = .ready → s.hw.pwr.onBattery = true → s.hw.pwr.ret = .counting → s.hw.pwr.commit = none →
    s.hw.ins.inputSwitch = false → s.hw.ins.holdoff = false → 3 ≤ s.hw.ins.fails → 0x42 ∉ s.hw.faults.forces →
    Completes .returnCountComplete s (fun t => t = { s.hw with pwr := { s.hw.pwr with vinHere := true } }))

/-- R33, R36, R37: with the main domain on, the charged store sets STORE_READY, and ends STORE_CHARGE once the boot is
complete. R34, R425, R471, R481, R513, R516, R528, R531: the boot ends once with the main domain on, RSTn high, the gatehouse
lock open and no commit running: commands are served, MICROS starts, after a POR the reset cause is the one the POR was
recorded with, but 0x0B where a trial image starts and 0x0A where no slot holds a candidate or the module is RETIRED, and a
module in STORE_CHARGE with a charged store is READY. -/
def Obligations.BootServesWithAChargedStore : Prop :=
  (∀ s : State, s.hw.ins.mainOn = true → s.hw.ins.storeReady = false →
    Completes .storeReady s (fun t =>
      t.ins.storeReady = true ∧
        (s.hw.ins.state = .storeCharge → s.hw.ins.booted = true → t.ins.state = .ready) ∧ t.life = s.hw.life)) ∧
  (∀ (s : State) (b : BootSample), s.hw.ins.mainOn = true → s.hw.ins.booted = false → s.hw.lines.rstLow = false →
    s.hw.lodge.lock = false → s.hw.pwr.commit = none → s.hw.ins.state ≠ .removing → s.hw.ins.state ≠ .removed →
    Completes (.bootComplete b) s (fun t =>
      t.ins.booted = true ∧ t.rst.bootAt = s.hw.clk ∧ t.factory = s.hw.factory ∧
        (s.hw.ins.porCause ≠ 0 → t.ins.porCause = 0) ∧
        (∀ f, s.hw.bootFw = some f → t.rst.cause =
          if f.trialRun then 0x0B else if s.hw.ins.porCause = 0 then s.hw.rst.cause else s.hw.ins.porCause) ∧
        (s.hw.bootFw = none → s.hw.inLimp = false → t.rst.cause = 0x0A) ∧
        (s.hw.ins.state = .storeCharge → s.hw.ins.storeReady = true → t.ins.state = .ready)))

/-- R33, R37, R39, R40: out of every powered state the removal turns all outputs off, opens the switches, drives HRSTn and
PGOOD low, ends STORE_READY and leaves the link; from INPUT_FAULT nothing is left to turn off. The removal is complete when no
commit runs: the main domain is off, and its output contacts are high-impedance (R17). That the presence bits clear with the
removal out of INPUT_FAULT (log 13) and that the system state reads OFF from the removal on (log 55) is the model's choice. -/
def Obligations.RemovalPowersOff : Prop :=
  (∀ s : State, s.hw.ins.state ≠ .unseated → s.hw.ins.state ≠ .removing → s.hw.ins.state ≠ .removed →
    s.hw.ins.state ≠ .inputFault →
    Completes .removalProcedure s (fun t =>
      t.ins.state = .removing ∧ t.ins.inputSwitch = false ∧ t.ins.path33 = false ∧ t.ins.vbatSwitch = .opened ∧
        t.seq.hrst = false ∧ t.seq.pgood = false ∧ t.ins.storeReady = false ∧ (∀ k, k < 18 → (t.out k).on = false) ∧
        (s.hw.ins.booted = true → s.hw.prm.role = .follower → t.prm.leaveDue = some 1))) ∧
  (∀ s : State, s.hw.ins.state = .inputFault →
    Completes .removalProcedure s (fun t => t = { s.hw with
      ins := { s.hw.ins with state := .unseated, presA := false, presB := false } })) ∧
  (∀ s : State, s.hw.ins.state = .removing → s.hw.pwr.commit = none →
    Completes .removalProcedureComplete s (fun t =>
      t.ins.state = .removed ∧ t.ins.mainOn = false ∧ t.pwr.vinUsable = false ∧ t.seq.state = .off ∧
        t.hrstDriven = false ∧ t.fltDriven = false ∧ ∀ k, k < 18 → (t.out k).on = false ∧ t.outDrive k = .highZ))

/-! ## Power path and holdup -/

/-- R37, R61, R339, R343, R515: VIN between 32 V and 62 V is no loss; below or above, VIN is unusable, an insertion goes back
to WAIT_VIN, in READY a usable pack takes over, and without one the fault VIN_LOSS latches and the last-word commit starts
with trigger 1; in STANDBY the main domain's values are committed already, and the module waits for VIN. R536 makes no
statement above the absolute maximum of 80 V: that the model stops there is its own choice (log 52). -/
def Obligations.VinLossIsJudged : Prop :=
  (∀ (s : State) (mv : Nat), 32000 ≤ mv → mv ≤ 62000 → Completes (.vinUnusable mv) s (fun t => t = s.hw)) ∧
  (∀ (s : State) (mv : Nat), mv < 32000 ∨ 62000 < mv → mv ≤ 80000 →
    Completes (.vinUnusable mv) s (fun t => t.pwr.vinUsable = false ∧
      (s.hw.ins.state = .inputPrecharge ∨ s.hw.ins.state = .storeCharge → t.ins.state = .waitVin ∧ t.ins.mainOn = false) ∧
      (s.hw.ins.state = .ready → s.hw.packUsable = true → s.hw.pwr.vinUsable = true → s.hw.pwr.onBattery = false →
        s.hw.pwr.commit = none → t.pwr.handingOver = true ∧ t.chg.state = .off) ∧
      (s.hw.ins.state = .ready → s.hw.packUsable = false → s.hw.pwr.vinUsable = true → s.hw.pwr.onBattery = false →
        s.hw.pwr.handingOver = false → s.hw.commits = true →
        s.hw.seq.state = .seqUp ∨ s.hw.seq.state = .run ∨ s.hw.seq.state = .seqDown →
        t.seq.state = .faultLatched ∧ t.seq.cause = 8 ∧ t.pwr.commit = some 1 ∧ t.chg.state = .off ∧ ∀ k, k < 18 → (t.out k).on = false) ∧
      (s.hw.ins.state = .ready → s.hw.seq.state = .standby → s.hw.packUsable = false → s.hw.pwr.vinUsable = true →
        s.hw.pwr.onBattery = false → s.hw.pwr.handingOver = false → s.hw.pwr.commit = none →
        t.ins.state = .waitVin ∧ t.ins.mainOn = false ∧ t.pwr.commit = none ∧ t.log.entries = s.hw.log.entries))) ∧
  (∀ (s : State) (mv : Nat), 80000 < mv → exec (.vinUnusable mv) s = .fault .beyondAbsoluteMaximum)

/-- R339, R340, R341, R342: the hand-over ends on battery with ON_BATTERY pending; the open input switch and an excursion
start the count of the return again; the complete count, the pre-charge and the balance of VIB lead to the ramp, and a VIN
that Folly holds unusable begins no return (R479). That an excursion in the ramp leaves VIB at a free value between 10 V and
15 V (log 59), and that the complete count waits for the hold-off and for attempts left (log 61), is the model's choice. R342
step 4, R81, R161: the return to VIN ends ON_BATTERY and BATT_OFF and starts VH1, or VH2 where that alone was enabled; the
stagger then starts VH2; a VH output that misses its window 100 ms after its own start is the SEQ_TIMEOUT fault, with the
ADDRESS that log 24 gives it (the model's choice), and one that is off or stands in its window is none. -/
def Obligations.BatteryOperationComesAndGoes : Prop :=
  (∀ s : State, s.hw.pwr.handingOver = true → s.hw.pwr.btsOpen = false → s.hw.holdup = true →
    Completes .handOver s (fun t =>
      t.pwr.onBattery = true ∧ t.pwr.handingOver = false ∧ t.pwr.ret = .counting ∧ t.evt.pend.getLsbD 32 = true)) ∧
  (∀ s : State, s.hw.pwr.onBattery = true ∨ s.hw.pwr.handingOver = true →
    Completes .inputSwitchOpenOnBattery s (fun t =>
      t.ins.inputSwitch = false ∧ t.outs = s.hw.outs ∧ t.seq = s.hw.seq ∧
        (s.hw.pwr.onBattery = true → s.hw.pwr.ret ≠ .idle → t.pwr.ret = .counting))) ∧
  (∀ s : State, s.hw.pwr.onBattery = true → s.hw.pwr.ret ≠ .idle → s.hw.pwr.ret ≠ .ramp →
    Completes .vinExcursion s (fun t => t = { s.hw with
      ins := { s.hw.ins with path33 := false }, pwr := { s.hw.pwr with ret := .counting } })) ∧
  (∀ s : State, s.hw.pwr.onBattery = true → s.hw.pwr.ret = .ramp →
    Completes .vinExcursion s (fun t => t.ins.path33 = false ∧ t.pwr.ret = .counting ∧ 10000 ≤ t.pwr.vibFrom ∧
      t.pwr.vibFrom ≤ 15000 ∧ t.pwr.vibAt = s.hw.clk ∧ t.pwr.onBattery = true ∧ t.outs = s.hw.outs ∧ t.seq = s.hw.seq)) ∧
  (∀ s : State, s.hw.pwr.onBattery = true → s.hw.pwr.ret = .counting → s.hw.pwr.commit = none →
    Completes .returnCountComplete s (fun t => t =
      if 0x42 ∈ s.hw.faults.forces then s.hw
      else if s.hw.ins.inputSwitch then { s.hw with pwr := { s.hw.pwr with vinHere := true, ret := .balance } }
      else if s.hw.ins.holdoff then { s.hw with pwr := { s.hw.pwr with vinHere := true, ret := .held } }
      else if 3 ≤ s.hw.ins.fails then { s.hw with pwr := { s.hw.pwr with vinHere := true } }
      else { s.hw with ins := { s.hw.ins with path33 := true }, pwr := { s.hw.pwr with vinHere := true, ret := .precharge } })) ∧
  (∀ s : State, s.hw.pwr.ret = .balance →
    Completes .ratioBalanceEnd s (fun t => t = { s.hw with
      pwr := { s.hw.pwr with ret := .ramp, vibFrom := s.hw.vibRef 0, vibAt := s.hw.clk } })) ∧
  (∀ s : State, s.hw.pwr.ret = .ramp → s.hw.pwr.onBattery = true → s.hw.faults.forces = [] →
    Completes .vinReturn s (fun t => t.pwr.onBattery = false ∧ t.pwr.vinUsable = true ∧ t.pwr.ret = .idle ∧
      (s.hw.restartsVh = true → (s.hw.out 10).battOff = true →
        (t.out 10).on = true ∧ t.pwr.vhWait = [some s.hw.clk, none] ∧ t.pwr.vhNext = (s.hw.out 11).battOff) ∧
      (s.hw.restartsVh = true → (s.hw.out 10).battOff = false → (s.hw.out 11).battOff = true →
        (t.out 11).on = true ∧ t.pwr.vhWait = [none, some s.hw.clk] ∧ t.pwr.vhNext = false) ∧
      ∀ k, (t.out k).battOff = false)) ∧
  (∀ s : State, s.hw.pwr.vhNext = true → (s.hw.out 11).on = false → s.hw.noVin = false → s.hw.restartsVh = true →
    s.hw.faults.forces = [] → s.hw.shaped = true →
    Completes .vhRestartStagger s (fun t => (t.out 11).on = true ∧ (t.out 11).ramping = true ∧ t.pwr.vhNext = false ∧
      (t.out 11).tgt = s.hw.nextTarget 11 ∧ t.pwr.vhWait = s.hw.pwr.vhWait.set 1 (some s.hw.clk))) ∧
  (∀ (s : State) (vh : Fin 2) (start : Nat), s.hw.pwr.vhWait.getD vh none = some start →
    (s.hw.out (10 + vh)).on = false ∨ (s.hw.out (10 + vh)).good = true →
    Completes (.vhRestartTimeout vh) s (fun t => t.seq = s.hw.seq ∧ t.evt = s.hw.evt ∧ t.pwr.vhWait.getD vh none = none)) ∧
  (∀ (s : State) (vh : Fin 2) (start : Nat), s.hw.pwr.vhWait.getD vh none = some start → (s.hw.out (10 + vh)).on = true →
    (s.hw.out (10 + vh)).good = false → s.hw.seq.state = .run → s.hw.leaving = false →
    Completes (.vhRestartTimeout vh) s (fun t =>
      t.seq.state = .faultLatched ∧ t.seq.cause = 5 ∧ t.seq.toUnmet = 1 <<< (10 + vh.val) ∧ t.seq.fltDrive = true ∧
        t.clk = max s.hw.clk (start + 100000) ∧ t.pwr.vhWait.getD vh none = none))

/-- R343, R344, R350, R366, R514, R515: the main domain powers off at the end of the commit; that of the entry to STANDBY
(trigger 4) leaves the module in STANDBY with its input path as it is, or waiting for VIN where it has no supply any more; on
battery the loss of the pack is the fault VIN_LOSS with the commit of trigger 2, in the hand-over that of a loss of VIN,
trigger 1; an open BTS makes the pack absent and stops the charger. R345, R335, R363: RESERVE_LOW and the low pack each raise
HOLDUP_LOW once an outage; UVLO with seating ends Icehouse: the pack path is closed and the next POR reads ICEHOUSE. -/
def Obligations.LossAndIcehouseEndSafely : Prop :=
  (∀ (s : State) (n : Nat), s.hw.pwr.commit = some n → n ≠ 4 → s.hw.ins.state ≠ .removing →
    Completes .lastWordCommitEnd s (fun t =>
      t.ins.state = .waitVin ∧ t.ins.mainOn = false ∧ t.pwr.commit = none ∧ t.pwr.vinUsable = false ∧
        t.ins.porCause = (if s.hw.pwr.icehouseArmed then 8 else if n = 2 ∨ s.hw.pwr.packSpent = true then 0x0C else 7))) ∧
  (∀ s : State, s.hw.pwr.commit = some 4 → s.hw.ins.state = .ready → s.hw.seq.state = .standby →
    Completes .lastWordCommitEnd s (fun t => t.ins.mainOn = false ∧ t.pwr.commit = none ∧ t.ins.booted = false ∧
      (∀ k, k < 18 → (t.out k).on = false) ∧
      (s.hw.pwr.vinUsable = true ∨ s.hw.pwr.onBattery = true ∧ s.hw.pwr.packSpent = false ∨ s.hw.pwr.handingOver = true →
        t.seq.state = .standby ∧ t.ins.state = .ready ∧ t.ins.inputSwitch = s.hw.ins.inputSwitch ∧
          t.pwr.onBattery = s.hw.pwr.onBattery ∧ t.pwr.vinUsable = s.hw.pwr.vinUsable) ∧
      (s.hw.pwr.vinUsable = false → s.hw.pwr.onBattery = false → s.hw.pwr.handingOver = false → t.ins.state = .waitVin))) ∧
  (∀ (s : State) (c : PackLoss), s.hw.pwr.onBattery = true → s.hw.pwr.handingOver = false → s.hw.commits = true → s.hw.ins.state = .ready →
    s.hw.seq.state = .run →
    Completes (.packUnusable c) s (fun t =>
      t.seq.state = .faultLatched ∧ t.seq.cause = 8 ∧ t.pwr.commit = some 2 ∧ t.packUsable = false)) ∧
  (∀ (s : State) (c : PackLoss), s.hw.pwr.handingOver = true → s.hw.commits = true → s.hw.ins.state = .ready →
    s.hw.seq.state = .run →
    Completes (.packUnusable c) s (fun t =>
      t.pwr.handingOver = false ∧ t.seq.state = .faultLatched ∧ t.seq.cause = 8 ∧ t.pwr.commit = some 1)) ∧
  (∀ s : State, s.hw.holdup = true → s.hw.pwr.btsOpen = false → s.hw.pwr.onBattery = false → s.hw.pwr.handingOver = false →
    Completes .btsOpen s (fun t =>
      t.pwr.battAbsent = true ∧ t.pwr.btsOpen = true ∧ t.chg.timerRun = false ∧
        t.chg.state = (if s.hw.pwr.vinUsable ∧ s.hw.ins.mainOn ∧ s.hw.seq.state ≠ .standby then .absent else .off) ∧
        (s.hw.pwr.battAbsent = false → t.evt.pend.getLsbD 34 = true))) ∧
  (∀ s : State, s.hw.pwr.onBattery = true → s.hw.pwr.reserveLow = false → s.hw.holdup = true →
    Completes .reserveLow s (fun t => t.pwr.reserveLow = true ∧ t.pwr.lowReserveRaised = true ∧
      (s.hw.pwr.lowReserveRaised = false → t.evt.pend.getLsbD 35 = true) ∧
      (s.hw.pwr.lowReserveRaised = true → t.evt = s.hw.evt) ∧ t.outs = s.hw.outs ∧ t.seq = s.hw.seq)) ∧
  (∀ s : State, s.hw.pwr.onBattery = true → s.hw.pwr.lowPackRaised = false → s.hw.holdup = true →
    Completes .holdupLow s (fun t => t.pwr.lowPackRaised = true ∧ t.evt.pend.getLsbD 35 = true ∧ t.outs = s.hw.outs)) ∧
  (∀ s : State, s.hw.ins.state = .waitVin → s.hw.pwr.icehouse = true →
    Completes .icehouseExit s (fun t => t = { s.hw with
      pwr := { s.hw.pwr with icehouse := false }, ins := { s.hw.ins with vbatSwitch := s.hw.lodgePath, porCause := 8 } }))

/-! ## Ports -/

/-- R17, R48, R50, R57: a board seats, its descriptor is read where the mode asks for it, and a failed read starts again; in
reset the contact changes its level only. R50, R51, R402: a read left short is captured and starts again, unless its class
reaction turns the port off; a descriptor whose bytes are wrong refuses the board with 0x11, one that declares more than I_LIM
with 0x12, no answer, the third address not acknowledged, in mode REQUIRED with 0x10; a valid one within the limits accepts
the board and stores it; 100 ms without a descriptor count as no answer. That the third NACK of a transaction is the row
DESC_READ_COMPLETE without data is the model's choice (log 16). -/
def Obligations.PortsJudgeTheirBoards : Prop :=
  (∀ (s : State) (p : Fin 6), p.val < s.hw.ports.length → (s.hw.port p).state = .empty → s.hw.live = true →
    Completes (.eppresFall p) s (fun t => (t.port p).state = .seating ∧ (t.port p).eppresLow = true ∧ t.idle.idle = false ∧
      (∀ q, q ≠ p.val → t.port q = s.hw.port q) ∧ t.outs = s.hw.outs)) ∧
  (∀ (s : State) (p : Fin 6), s.hw.live = false →
    Completes (.eppresFall p) s (fun t => t = s.hw.modPort p (fun x => { x with eppresLow := true }))) ∧
  (∀ (s : State) (p : Fin 6), (s.hw.port p).state = .seating → (s.hw.port p).eppresLow = true →
    (s.hw.port p).waiting = false → s.hw.portAllowed p = true → s.hw.portMode p ≠ .off →
    Completes (.epSeatingStable p) s (fun t => (t.port p).state = .descCheck ∧ (t.port p).reread = false ∧ t.outs = s.hw.outs)) ∧
  (∀ (s : State) (p : Fin 6), (s.hw.port p).state = .seating → (s.hw.port p).eppresLow = true →
    (s.hw.port p).waiting = false → s.hw.portAllowed p = true → s.hw.portMode p = .off → (s.hw.port p).spacing = false →
    Completes (.epSeatingStable p) s (fun t => (t.port p).state = .precharge ∧ (t.port p).accepted = true)) ∧
  (∀ (s : State) (p : Fin 6), (s.hw.port p).state = .descCheck → (s.hw.port p).reread = true →
    Completes (.descReadRetry p) s (fun t => (t.port p).state = .descCheck ∧ (t.port p).reread = false ∧ t.outs = s.hw.outs)) ∧
  (∀ (s : State) (p : Fin 6) (d : List Byte), (s.hw.port p).state = .descCheck → s.hw.reading = some p.val →
    s.hw.acc.waiting = false → d.length = 16 → s.hw.hit 0x0E = false →
    Completes (.descReadComplete p (some d)) s (fun t =>
      (descOk d = false → (t.port p).state = .refused ∧ (t.port p).reason = 0x11) ∧
      (descOk d = true → (t.port p).descValid = true ∧ (t.port p).iDecl = ube (slice d 4 2) ∧
        (t.port p).boardId = slice d 8 4 ∧
        (ilimMa (s.hw.port p).ilim < ube (slice d 4 2) → (t.port p).state = .refused ∧ (t.port p).reason = 0x12) ∧
        (ube (slice d 4 2) ≤ ilimMa (s.hw.port p).ilim → 220 < ube (slice d 6 2) →
          (t.port p).state = .refused ∧ (t.port p).reason = 0x13) ∧
        (ube (slice d 4 2) ≤ ilimMa (s.hw.port p).ilim → ube (slice d 6 2) ≤ 220 → (t.port p).accepted = true)))) ∧
  (∀ (s : State) (p : Fin 6) (d : List Byte), (s.hw.port p).state = .descCheck → s.hw.reading = some p.val →
    s.hw.acc.waiting = false → d.length ≠ 16 → s.hw.faults.cap = none →
    Completes (.descReadComplete p (some d)) s (fun t =>
      (s.hw.reaction 0x42 ≤ 1 → (t.port p).state = .descCheck ∧ (t.port p).reread = true) ∧
      t.faults.cap.map (fun c => (c.source, c.addr, c.master, c.access)) = some (0x42, s.hw.accAddr, 7, 4))) ∧
  (∀ (s : State) (p : Fin 6), (s.hw.port p).state = .descCheck → s.hw.reading = some p.val → s.hw.acc.waiting = false →
    s.hw.acc.nacks < 2 → Completes (.descReadComplete p none) s (fun t => t = s.hw)) ∧
  (∀ (s : State) (p : Fin 6), (s.hw.port p).state = .descCheck → s.hw.reading = some p.val → s.hw.acc.waiting = false →
    2 ≤ s.hw.acc.nacks → Completes (.descReadComplete p none) s (fun t =>
      (s.hw.portMode p = .required → (t.port p).state = .refused ∧ (t.port p).reason = 0x10) ∧
      (s.hw.portMode p ≠ .required → (t.port p).accepted = true))) ∧
  (∀ (s : State) (p : Fin 6), (s.hw.port p).state = .descCheck → (s.hw.port p).waiting = false →
    Completes (.descReadTimeout p) s (fun t =>
      (s.hw.portMode p = .required → (t.port p).state = .refused ∧ (t.port p).reason = 0x10) ∧
      (s.hw.portMode p ≠ .required → (t.port p).accepted = true)))

/-- R52, R53, R57: pre-charge leads to the start-up and that to ON; a start that had to wait for the 2 s begins when they end.
R52, R53, R54, R57: each protection of a port acts in its own states and latches it with its own reason; a latched port's
switch is open and EP_LATCHED is pending; no other port changes. -/
def Obligations.PortsStartUpAndLatch : Prop :=
  (∀ (s : State) (p : Fin 6), (s.hw.port p).state = .precharge →
    Completes (.epPrechargeComplete p) s (fun t => t = s.hw.modPort p (fun x => { x with state := .startup }))) ∧
  (∀ (s : State) (p : Fin 6), (s.hw.port p).waiting = true → s.hw.portAllowed p = true →
    Completes (.epPrechargeIntervalEnd p) s (fun t =>
      (t.port p).state = .precharge ∧ (t.port p).waiting = false ∧ (t.port p).spacing = true)) ∧
  (∀ (s : State) (p : Fin 6), (s.hw.port p).waiting = false →
    Completes (.epPrechargeIntervalEnd p) s (fun t => t = s.hw.modPort p (fun x => { x with spacing := false }))) ∧
  (∀ (s : State) (p : Fin 6), (s.hw.port p).state = .startup → s.hw.faults.forces = [] →
    Completes (.epStartupEnd p) s (fun t => (t.port p).state = .on ∧
      t.outs = s.hw.outs.modify (12 + p) (fun o => ({ o with ramping := false, rampEnded := true }).arm))) ∧
  (∀ (s : State) (p : Fin 6) (c : Instr) (reason : Nat),
    (c = .prechargeTimeout p ∧ reason = 4 ∧ (s.hw.port p).state = .precharge) ∨
    (c = .startupFail p ∧ reason = 3 ∧ (s.hw.port p).state = .startup) ∨
    (c = .ocSustained p ∧ reason = 2 ∧ (s.hw.port p).state = .on) ∨
    (c = .ocFast p ∧ reason = 1 ∧
      ((s.hw.port p).state = .precharge ∨ (s.hw.port p).state = .startup ∨ (s.hw.port p).state = .on)) ∨
    (c = .reverse p ∧ reason = 5 ∧
      ((s.hw.port p).state = .precharge ∨ (s.hw.port p).state = .startup ∨ (s.hw.port p).state = .on)) →
    Completes c s (fun t => (t.port p).state = .latched ∧ (t.port p).reason = reason ∧ (t.out (12 + p)).on = false ∧
      t.evt.pend.getLsbD 4 = true ∧ (∀ q, q ≠ p.val → t.port q = s.hw.port q) ∧
      (∀ k, k ≠ 12 + p.val → t.out k = s.hw.out k) ∧ t.life = s.hw.life))

/-- R48, R52, R56, R57: a board that leaves empties the port from any state and switches it off; a held port that may start
again does so through pre-charge when its descriptor was accepted, otherwise through seating; a pre-charge asked for within 2
s of the last one waits. R399–R402: a read that is asked for while the bus is not free waits; a free bus starts it. A lost
arbitration gives the transaction up to wait for its restart, without end; ARB_LOST_COND three times so, and after the third
retry the transaction fails and is captured. An address not acknowledged is sent again twice. SDA low on an idle bus is
clocked and captured, whether or not a port reads. SCL low fails a transaction, captured, and with the bus idle begins an
episode with one event, in which no transaction starts. How losses and retries are counted is the model's choice (log 16), and
so is the free value that says whether the bus was idle between two addresses when SCL was found low (log 71). -/
def Obligations.PortsEmptyAndRetryTheBus : Prop :=
  (∀ (s : State) (p : Fin 6), p.val < s.hw.ports.length → s.hw.live = true →
    Completes (.eppresRise p) s (fun t => (t.port p).state = .empty ∧ (t.port p).eppresLow = false ∧ t.idle.idle = false ∧
      (t.port p).accepted = false ∧ (t.out (12 + p)).on = false ∧ ∀ q, q ≠ p.val → t.port q = s.hw.port q)) ∧
  (∀ (s : State) (p : Fin 6), p.val < s.hw.ports.length → s.hw.live = false →
    Completes (.eppresRise p) s (fun t => (t.port p).eppresLow = false ∧ (t.port p).accepted = false ∧
      (t.port p).state = (s.hw.port p).state ∧ t.outs = s.hw.outs ∧ ∀ q, q ≠ p.val → t.port q = s.hw.port q)) ∧
  (∀ (s : State) (p : Fin 6), (s.hw.port p).state = .held → (s.hw.port p).eppresLow = true → (s.hw.port p).waiting = false →
    s.hw.portAllowed p = true → (s.hw.port p).spacing = false →
    Completes (.epHeldRestart p) s (fun t => (t.port p).state =
      if (s.hw.port p).accepted = true ∨ s.hw.portMode p = .off then .precharge else .seating)) ∧
  (∀ (s : State) (p : Fin 6), p.val < s.hw.ports.length → (s.hw.port p).state = .held → (s.hw.port p).eppresLow = true →
    (s.hw.port p).waiting = false → s.hw.portAllowed p = true → (s.hw.port p).spacing = true →
    Completes (.epHeldRestart p) s (fun t => (t.port p).state =
      (if (s.hw.port p).accepted = true ∨ s.hw.portMode p = .off then .held else .seating) ∧
      ((s.hw.port p).accepted = true ∨ s.hw.portMode p = .off → (t.port p).waiting = true) ∧
      t.outs = s.hw.outs ∧ ∀ q, q ≠ p.val → t.port q = s.hw.port q)) ∧
  (∀ (s : State) (p : Fin 6), (s.hw.port p).state = .seating → (s.hw.port p).eppresLow = true →
    (s.hw.port p).waiting = false → s.hw.portAllowed p = true → s.hw.portMode p ≠ .off → s.hw.acc.port = none →
    (∀ q, q < 6 → (s.hw.port q).state ≠ .descCheck) →
    Completes (.epSeatingStable p) s (fun t => t.reading = some p.val ∧ t.acc.waiting = !s.hw.acc.free)) ∧
  (∀ s : State, s.hw.reading ≠ none → Completes .accTransactionRestart s (fun t =>
    t = { s.hw with acc := { s.hw.acc with waiting := false, free := true, sclStuck := false } })) ∧
  (∀ s : State, s.hw.reading ≠ none → s.hw.acc.waiting = false →
    Completes .arbitrationLoss s (fun t =>
      t = { s.hw with acc := { s.hw.acc with waiting := true, free := false, condLosses := 0 } })) ∧
  (∀ s : State, s.hw.reading ≠ none → s.hw.acc.waiting = false → s.hw.acc.condLosses < 3 →
    Completes .arbLostCond s (fun t =>
      t = { s.hw with acc := { s.hw.acc with waiting := true, free := false, condLosses := s.hw.acc.condLosses + 1 } })) ∧
  (∀ (s : State) (p : Nat), s.hw.reading = some p → s.hw.acc.waiting = false → 3 ≤ s.hw.acc.condLosses →
    s.hw.faults.cap = none →
    Completes .arbLostCond s (fun t => t.evt.pend.getLsbD 14 = true ∧ (t.port p).reread = true ∧
      t.faults.cap.map (fun c => (c.source, c.master, c.access)) = some (0x42, 7, 4))) ∧
  (∀ s : State, s.hw.reading ≠ none → s.hw.acc.waiting = false → s.hw.acc.nacks < 2 →
    Completes .accAddressNackRetry s (fun t =>
      t = { s.hw with acc := { s.hw.acc with nacks := s.hw.acc.nacks + 1, condLosses := 0 } })) ∧
  (∀ s : State, s.hw.live = true → s.hw.gone = false → s.hw.faults.cap = none → Completes .sdaStuckLow s (fun t =>
    t.faults.cap.map (fun c => (c.source, c.master, c.access)) = some (0x42, 7, 4) ∧ t.acc.free = !t.acc.sclStuck ∧
      (s.hw.reaction 0x42 ≤ 1 → t.ports = s.hw.ports ∧ t.outs = s.hw.outs ∧ t.acc.port = s.hw.acc.port))) ∧
  (∀ s : State, s.hw.acc.waiting = true ∨ s.hw.reading = none → s.hw.acc.sclStuck = false → s.hw.live = true → s.hw.gone = false →
    Completes .sclHeldLow s (fun t => t.acc.sclStuck = true ∧ t.acc.free = false ∧ t.evt.pend.getLsbD 14 = true ∧
      t.faults = s.hw.faults)) ∧
  (∀ s : State, s.hw.acc.waiting = true ∨ s.hw.reading = none → s.hw.acc.sclStuck = true → s.hw.live = true → s.hw.gone = false →
    Completes .sclHeldLow s (fun t => t = s.hw)) ∧
  (∀ (s : State) (p : Nat), s.hw.reading = some p → s.hw.acc.waiting = false →
    s.hw.faults.cap = none →
    Completes .sclHeldLow s (fun t =>
      ((t.port p).reread = true ∧ t.evt.pend.getLsbD 14 = true ∧
        t.faults.cap.map (fun c => (c.source, c.master, c.access)) = some (0x42, 7, 4)) ∨
      (s.hw.acc.nacks < 2 ∧ t.acc.sclStuck = true ∧ t.acc.waiting = true ∧ t.acc.nacks = s.hw.acc.nacks + 1 ∧
        (s.hw.acc.sclStuck = false → t.evt.pend.getLsbD 14 = true) ∧ t.faults = s.hw.faults)))

/-! ## Conversion, the pool, the references -/

/-- R65–R69, R149, R169: pulse-skipping of one converter begins below its entry threshold and ends above its exit threshold,
IDLE is entered when all conditions of R67 hold together, and a wake ends it; the reference buffer follows in REF_MODE AUTO.
That REF reads LOW at once where IDLE begins within a scan is the model's choice (log 70). -/
def Obligations.LightLoadAndIdle : Prop :=
  (∀ (s : State) (c : Fin 14) (load : Nat), s.hw.maySkip c = true → load < (s.hw.skipLimits c).1 →
    Completes (.pulseSkipEntry ⟨c, load⟩) s (fun t =>
      t = { s.hw with idle := { s.hw.idle with skipping := s.hw.idle.skipping.set c true } })) ∧
  (∀ (s : State) (c : Fin 14) (load : Nat), (s.hw.skipLimits c).2 < load →
    Completes (.pulseSkipExit ⟨c, load⟩) s (fun t => t.idle.idle = false ∧ t.idle.skipping = s.hw.idle.skipping.set c false ∧
      t.outs = s.hw.outs ∧ t.seq = s.hw.seq)) ∧
  (∀ h : Hw, (∀ k, k < 4 → h.skipLimits k = (800, 1200)) ∧ (h.skipLimits 12).1 = 2000 ∧ (h.skipLimits 13).2 = 3000 ∧
    (∀ k, 4 ≤ k → k < 10 → h.skipLimits k =
      if h.throttled = true ∧ (h.cfg k).ripple = 2 then (700, 1000) else (350, 500)) ∧
    (∀ k, k = 10 ∨ k = 11 → h.skipLimits k =
      if h.throttled = true ∧ (h.cfg k).ripple = 2 then (400, 600) else (200, 300))) ∧
  (∀ s : State, s.hw.seq.state = .run → s.hw.allSkipping = true → s.hw.poolQuiet = true →
    s.hw.chg.charging = false → s.hw.nothingQueued = true → s.hw.portsSettled = true → s.hw.idle.idle = false →
    Completes .idleEntry s (fun t => t.idle = { s.hw.idle with idle := true } ∧
      (s.hw.adc.set.refFull = true → t.adc = s.hw.adc) ∧
      (s.hw.adc.set.refFull = false → s.hw.adc.ref = .full ∨ s.hw.adc.ref = .settling → s.hw.adc.fromOff = false → t.adc.ref = .low) ∧
      t.outs = s.hw.outs ∧ t.seq = s.hw.seq)) ∧
  (∀ s : State, s.hw.idle.idle = true →
    Completes .idleWake s (fun t => t.idle = { s.hw.idle with idle := false } ∧
      t.adc.ref = (if s.hw.adc.ref = .low then .settling else s.hw.adc.ref) ∧ t.outs = s.hw.outs ∧ t.seq = s.hw.seq))

/-- R71, R73, R353: in SEQ_UP, RUN and SEQ_DOWN input power above B_EFF caps a NORMAL governor, raises BUDGET_OVER and halves
the charge current, at the regular evaluation 1 ms after the last and at the comparator's wake from IDLE. The rounding of
B_EFF and the evaluation period as the model keeps it are the model's choice (log 17). R73–R75, R77: over budget a capped
governor goes to DERATING when its dwell is over or the power exceeds 1.25 × B_EFF; DERATING lowers the limit of one port, of
the class with the highest number and in it the highest port whose I_NEW lies below its limit, to I_NEW rounded down to 0.25 A
or to its floor; with no port above its floor it goes to SHEDDING in RUN, and stays in SEQ_UP and SEQ_DOWN. SHEDDING turns one
output off, ports before VH, VM and VP and the highest number of the class first, at most every 10 ms; with nothing left it is
EXHAUSTED. That a port whose limit I_NEW would not lower is passed over is the model's choice (log 60), the rounding too (log
17). R73, R76: actions are released in the reverse order. The output shed last comes back once P_IN with its power has stayed
within 0.90 × B_EFF for 1 s, the ones shed before it staying shed; then the port derated last rises by 0.25 A, 100 ms after
the last rise; then, 1 s after the power fell, the governor is NORMAL and no longer asks for CAPPED. Above 0.90 × B_EFF the
times start anew. From when the times of R76 run is the model's choice (log 17). R71, R77: outside SEQ_UP, RUN and SEQ_DOWN an
evaluation changes neither the stage nor any output. -/
def Obligations.GovernorCapsOnOverload : Prop :=
  (∀ (s : State) (g : GovSample), s.hw.eff = .seqUp ∨ s.hw.eff = .run ∨ s.hw.eff = .seqDown → s.hw.pwr.commit = none →
    s.hw.gone = false → s.hw.budget g < g.pIn → s.hw.gov.stage = .normal →
    Completes (.governorEvaluate g) s (fun t => t.gov.stage = .capped ∧ t.evt.pend.getLsbD 0 = true ∧
      t.chg.govHalf = true ∧ t.capped = true ∧ t.gov.bEff = s.hw.budget g ∧
      t.gov.lastEval = max s.hw.clk (s.hw.gov.lastEval + 1000) ∧ t.outs = s.hw.outs)) ∧
  (∀ (s : State) (g : GovSample), s.hw.idle.idle = true → s.hw.eff = .seqUp ∨ s.hw.eff = .run ∨ s.hw.eff = .seqDown →
    s.hw.pwr.commit = none → s.hw.gone = false →
    s.hw.budget g < g.pIn → s.hw.gov.stage = .normal →
    Completes (.governorComparatorWake g) s (fun t => t.gov.stage = .capped ∧ t.idle.idle = false ∧
      t.evt.pend.getLsbD 0 = true ∧ t.gov.lastEval = s.hw.gov.lastEval ∧ t.outs = s.hw.outs)) ∧
  (∀ (s : State) (g : GovSample), s.hw.eff = .seqUp ∨ s.hw.eff = .run ∨ s.hw.eff = .seqDown → s.hw.pwr.commit = none →
    s.hw.gone = false → s.hw.budget g < g.pIn → s.hw.gov.stage = .capped →
    Completes (.governorEvaluate g) s (fun t =>
      t.gov.stage = (if s.hw.gov.dwellEnd ≤ max s.hw.clk (s.hw.gov.lastEval + 1000) ∨ 5 * s.hw.budget g < 4 * g.pIn
        then .derating else .capped) ∧
      (t.gov.stage = .derating → t.chg.govHold = true ∧ t.chg.govHalf = false) ∧
      t.capped = true ∧ t.outs = s.hw.outs ∧ t.ports = s.hw.ports)) ∧
  (∀ (s : State) (g : GovSample) (p : Fin 6),
    let floor := fun (q : Nat) => (s.hw.cfg (12 + q)).floorCode
    let iNew := fun (q : Nat) =>
      max (floor q) (((g.portMa.getD q 0 * g.vin - (g.pIn - s.hw.budget g) * 1000) / g.vin) / 250 - 2)
    let falls := fun (q : Nat) => (s.hw.port q).isOff = false ∧ 1 ≤ (s.hw.cfg (12 + q)).prio ∧ (s.hw.cfg (12 + q)).prio ≤ 3 ∧
      floor q < (s.hw.port q).active ∧ iNew q < (s.hw.port q).active
    s.hw.eff = .seqUp ∨ s.hw.eff = .run ∨ s.hw.eff = .seqDown → s.hw.pwr.commit = none →
    s.hw.gone = false → s.hw.budget g < g.pIn → s.hw.gov.stage = .derating → 0 < g.vin → p.val < s.hw.ports.length → falls p →
    (∀ q, q < 6 → q ≠ p.val → falls q → (s.hw.cfg (12 + q)).prio < (s.hw.cfg (12 + p)).prio ∨
      (s.hw.cfg (12 + q)).prio = (s.hw.cfg (12 + p)).prio ∧ q < p.val) →
    Completes (.governorEvaluate g) s (fun t => (t.port p).active = iNew p ∧ t.gov.stage = .derating ∧
      t.gov.derated.head? = some p.val ∧ (∀ q, q ≠ p.val → t.port q = s.hw.port q) ∧ t.outs = s.hw.outs)) ∧
  (∀ (s : State) (g : GovSample), s.hw.eff = .seqUp ∨ s.hw.eff = .run ∨ s.hw.eff = .seqDown → s.hw.pwr.commit = none →
    s.hw.gone = false → s.hw.budget g < g.pIn → s.hw.gov.stage = .derating →
    (∀ q, q < 6 → (s.hw.port q).isOff = true ∨ (s.hw.cfg (12 + q)).prio = 0 ∨ 3 < (s.hw.cfg (12 + q)).prio ∨
      (s.hw.port q).active ≤ (s.hw.cfg (12 + q)).floorCode) →
    Completes (.governorEvaluate g) s (fun t => t.gov.stage = (if s.hw.eff = .run then .shedding else .derating) ∧
      t.ports = s.hw.ports ∧ t.outs = s.hw.outs)) ∧
  (∀ (s : State) (g : GovSample) (k : Fin 18),
    let left := fun (j : Nat) => 1 ≤ (s.hw.cfg j).prio ∧ (s.hw.cfg j).prio ≤ 3 ∧ (s.hw.out j).on = true ∧ (s.hw.out j).shed = false
    s.hw.eff = .seqUp ∨ s.hw.eff = .run ∨ s.hw.eff = .seqDown → s.hw.pwr.commit = none →
    s.hw.gone = false → s.hw.budget g < g.pIn → s.hw.gov.stage = .shedding →
    s.hw.gov.nextShed ≤ max s.hw.clk (s.hw.gov.lastEval + 1000) → k.val < s.hw.outs.length → left k →
    (∀ j, j < 18 → j ≠ k.val → left j → (s.hw.cfg j).prio < (s.hw.cfg k).prio ∨
      (s.hw.cfg j).prio = (s.hw.cfg k).prio ∧ j < k.val) →
    Completes (.governorEvaluate g) s (fun t => (t.out k).on = false ∧ (t.out k).shed = true ∧ t.evt.pend.getLsbD 1 = true ∧
      t.gov.stage = .shedding ∧ t.gov.nextShed = max s.hw.clk (s.hw.gov.lastEval + 1000) + 10000 ∧
      t.gov.shedList.head? = some { out := k, power := g.shedPower, since := none } ∧
      (∀ j, j ≠ k.val → t.out j = s.hw.out j) ∧ t.seq.state = s.hw.seq.state)) ∧
  (∀ (s : State) (g : GovSample), s.hw.eff = .seqUp ∨ s.hw.eff = .run ∨ s.hw.eff = .seqDown → s.hw.pwr.commit = none →
    s.hw.gone = false → s.hw.budget g < g.pIn → s.hw.gov.stage = .shedding →
    s.hw.gov.nextShed ≤ max s.hw.clk (s.hw.gov.lastEval + 1000) →
    (∀ j, j < 18 → (s.hw.cfg j).prio = 0 ∨ 3 < (s.hw.cfg j).prio ∨ (s.hw.out j).on = false ∨ (s.hw.out j).shed = true) →
    Completes (.governorEvaluate g) s (fun t => t.gov.stage = .exhausted ∧ t.evt.pend.getLsbD 2 = true ∧ t.outs = s.hw.outs)) ∧
  (∀ (s : State) (g : GovSample), s.hw.eff = .seqUp ∨ s.hw.eff = .run ∨ s.hw.eff = .seqDown → s.hw.pwr.commit = none →
    s.hw.gone = false → s.hw.budget g < g.pIn →
    s.hw.gov.stage = .exhausted ∨ s.hw.gov.stage = .shedding ∧ max s.hw.clk (s.hw.gov.lastEval + 1000) < s.hw.gov.nextShed →
    Completes (.governorEvaluate g) s (fun t => t.gov.stage = s.hw.gov.stage ∧ t.outs = s.hw.outs ∧ t.ports = s.hw.ports ∧
      t.evt.pend = s.hw.evt.pend)) ∧
  (∀ (s : State) (g : GovSample) (e : Shed) (es : List Shed) (since : Nat),
    s.hw.eff = .seqUp ∨ s.hw.eff = .run ∨ s.hw.eff = .seqDown → s.hw.pwr.commit = none → s.hw.gone = false →
    10 * g.pIn ≤ 9 * s.hw.budget g → s.hw.gov.shedList = e :: es → 10 * (g.pIn + e.power) ≤ 9 * s.hw.budget g →
    e.since = some since → since + 1000000 ≤ max s.hw.clk (s.hw.gov.lastEval + 1000) → e.out < 18 →
    Completes (.governorEvaluate g) s (fun t => (t.out e.out).shed = false ∧ t.gov.shedList.map (·.out) = es.map (·.out) ∧
      (e.out < 12 → s.hw.used e.out = true → (s.hw.out e.out).on = false → s.hw.noVin = false → (t.out e.out).on = true) ∧
      (12 ≤ e.out → (t.port (e.out - 12)).shed = false) ∧ t.gov.stage = s.hw.gov.stage ∧
      ∀ j, j ≠ e.out → t.out j = s.hw.out j)) ∧
  (∀ (s : State) (g : GovSample) (e : Shed) (es : List Shed),
    s.hw.eff = .seqUp ∨ s.hw.eff = .run ∨ s.hw.eff = .seqDown → s.hw.pwr.commit = none → s.hw.gone = false →
    g.pIn ≤ s.hw.budget g → s.hw.gov.shedList = e :: es → 9 * s.hw.budget g < 10 * (g.pIn + e.power) →
    Completes (.governorEvaluate g) s (fun t => t.outs = s.hw.outs ∧ t.ports = s.hw.ports ∧ t.gov.stage = s.hw.gov.stage ∧
      t.gov.shedList.head? = some { e with since := none })) ∧
  (∀ (s : State) (g : GovSample) (p : Nat) (ps : List Nat) (due : Nat),
    s.hw.eff = .seqUp ∨ s.hw.eff = .run ∨ s.hw.eff = .seqDown → s.hw.pwr.commit = none → s.hw.gone = false →
    10 * g.pIn ≤ 9 * s.hw.budget g → s.hw.gov.shedList = [] → s.hw.gov.derated = p :: ps → s.hw.gov.nextRaise = some due →
    p < s.hw.ports.length →
    Completes (.governorEvaluate g) s (fun t =>
      (t.port p).active = (if due ≤ max s.hw.clk (s.hw.gov.lastEval + 1000) then min (s.hw.port p).ilim ((s.hw.port p).active + 1)
        else (s.hw.port p).active) ∧
      t.gov.nextRaise = some (if due ≤ max s.hw.clk (s.hw.gov.lastEval + 1000)
        then max s.hw.clk (s.hw.gov.lastEval + 1000) + 100000 else due) ∧
      t.outs = s.hw.outs ∧ t.gov.stage = s.hw.gov.stage ∧ ∀ q, q ≠ p → t.port q = s.hw.port q)) ∧
  (∀ (s : State) (g : GovSample) (since : Nat),
    s.hw.eff = .seqUp ∨ s.hw.eff = .run ∨ s.hw.eff = .seqDown → s.hw.pwr.commit = none → s.hw.gone = false →
    10 * g.pIn ≤ 9 * s.hw.budget g → s.hw.gov.shedList = [] → s.hw.gov.derated = [] → s.hw.gov.lowSince = some since →
    since + 1000000 ≤ max s.hw.clk (s.hw.gov.lastEval + 1000) →
    Completes (.governorEvaluate g) s (fun t => t.gov.stage = .normal ∧ t.chg.govHalf = (if s.hw.gov.stage = .normal then s.hw.chg.govHalf else false) ∧
      t.outs = s.hw.outs ∧ t.ports = s.hw.ports)) ∧
  (∀ (s : State) (g : GovSample),
    s.hw.eff = .seqUp ∨ s.hw.eff = .run ∨ s.hw.eff = .seqDown → s.hw.pwr.commit = none → s.hw.gone = false →
    9 * s.hw.budget g < 10 * g.pIn → g.pIn ≤ s.hw.budget g →
    Completes (.governorEvaluate g) s (fun t => t.gov.stage = s.hw.gov.stage ∧ t.gov.lowSince = none ∧ t.gov.nextRaise = none ∧
      t.gov.derated = s.hw.gov.derated ∧ t.outs = s.hw.outs ∧ t.ports = s.hw.ports)) ∧
  (∀ (s : State) (g : GovSample), s.hw.eff ≠ .seqUp → s.hw.eff ≠ .run → s.hw.eff ≠ .seqDown →
    Completes (.governorEvaluate g) s (fun t => t.gov.stage = s.hw.gov.stage ∧ t.outs = s.hw.outs ∧ t.ports = s.hw.ports ∧
      t.seq = s.hw.seq))

/-- R87, R90, R91, R92, R112, R114: an add takes an own STANDBY phase first, one whose pair partner is ACTIVE on the output
before the others, then with LEND set a PARKED phase in the same order; it counts the phase and starts the new spacing, whose
end is its own event. A phase of another output is never taken. A phase in QUIET goes back to the output that it has just
left. Of several claims in one switching cycle, that of the lower priority class, then of the lower number, is served first; a
loser that finds no other phase counts LEND_DENIED. That of several phases with an ACTIVE partner the lowest is taken is the
model's choice (log 56), and that no other add counts LEND_DENIED too (log 21). R88, R97: a fall of the output voltage cancels
every shed of the output, and with BURST_ADD set takes phases until MAX_PH are ACTIVE or none is to be had. -/
def Obligations.PhasesAreAdded : Prop :=
  (∀ (s : State) (k : Fin 4) (p : Nat),
    let own := fun (q : Nat) => (s.hw.phase q).cond = .standby ∧ (s.hw.phase q).owner = k + 1
    let parked := fun (q : Nat) => (s.hw.phase q).cond = .parked
    let paired := fun (q : Nat) => (s.hw.phase (if q % 2 = 0 then q + 1 else q - 1)).cond = .active ∧
      (s.hw.phase (if q % 2 = 0 then q + 1 else q - 1)).serving = k + 1
    s.hw.shaped = true → (s.hw.out k).on = true → s.hw.pool.active k < (s.hw.cfg k).maxPh → p < 8 →
    (∀ q, q < 8 → (s.hw.phase q).cond = .quiet → (s.hw.phase q).serving ≠ k + 1) →
    (own p ∧ paired p ∧ ∀ q, q < p → own q → ¬ paired q) ∨
    (own p ∧ ∀ q, q < 8 → own q → p ≤ q ∧ ¬ paired q) ∨
    ((s.hw.cfg k).lend = true ∧ (∀ q, q < 8 → ¬ own q) ∧ parked p ∧ paired p ∧ ∀ q, q < p → parked q → ¬ paired q) ∨
    ((s.hw.cfg k).lend = true ∧ (∀ q, q < 8 → ¬ own q) ∧ parked p ∧ ∀ q, q < 8 → parked q → p ≤ q ∧ ¬ paired q) →
    Completes (.phaseAdd (1 <<< k.val)) s (fun t => (t.phase p).cond = .active ∧ (t.phase p).serving = k + 1 ∧
      (t.phase p).owner = (s.hw.phase p).owner ∧ (t.rail k).add = sat16 (s.hw.rail k).add ∧ (t.rail k).respacing = true ∧
      t.pool.active k = s.hw.pool.active k + 1 ∧ (∀ q, q ≠ p → t.phase q = s.hw.phase q))) ∧
  (∀ (s : State) (k : Fin 4) (p : Nat), s.hw.shaped = true → (s.hw.out k).on = true →
    s.hw.pool.active k < (s.hw.cfg k).maxPh → p < 8 → (s.hw.phase p).cond = .quiet → (s.hw.phase p).serving = k + 1 →
    (∀ q, q < p → (s.hw.phase q).cond = .quiet → (s.hw.phase q).serving ≠ k + 1) →
    Completes (.phaseAdd (1 <<< k.val)) s (fun t => (t.phase p).cond = .active ∧ (t.phase p).serving = k + 1 ∧
      (t.phase p).owner = (s.hw.phase p).owner ∧ (∀ m, s.hw.pool.move = some m → m.phase = p → t.pool.move = none) ∧
      (∀ q, q ≠ p → t.phase q = s.hw.phase q))) ∧
  (∀ (s : State) (k : Fin 4), s.hw.shaped = true → (s.hw.out k).on = true →
    (∀ q, q < 8 → (s.hw.phase q).cond = .quiet → (s.hw.phase q).serving ≠ k + 1) →
    (∀ q, q < 8 → (s.hw.phase q).owner = k + 1 → (s.hw.phase q).cond ≠ .standby) →
    (s.hw.cfg k).lend = false ∨ (∀ q, q < 8 → (s.hw.phase q).cond ≠ .parked) →
    Completes (.phaseAdd (1 <<< k.val)) s (fun t => (∀ q, (t.phase q).cond = (s.hw.phase q).cond) ∧
      (∀ q, (t.phase q).serving = (s.hw.phase q).serving) ∧ (t.rail k).add = (s.hw.rail k).add ∧
      (t.rail k).denied = (s.hw.rail k).denied)) ∧
  (∀ (s : State) (claims : BitVec 4) (w k : Fin 4) (p : Nat), s.hw.shaped = true → w ≠ k →
    claims = (1 : BitVec 4) <<< w.val ||| (1 : BitVec 4) <<< k.val →
    (s.hw.cfg w).prio < (s.hw.cfg k).prio ∨ (s.hw.cfg w).prio = (s.hw.cfg k).prio ∧ w < k → (s.hw.cfg k).prio < 4 →
    (∀ i : Fin 4, i = w ∨ i = k → (s.hw.out i).on = true ∧ s.hw.pool.active i < (s.hw.cfg i).maxPh ∧ (s.hw.cfg i).lend = true ∧
      ∀ q, q < 8 → (s.hw.phase q).cond ≠ .quiet ∧ ((s.hw.phase q).owner = i + 1 → (s.hw.phase q).cond ≠ .standby)) →
    p < 8 → (∀ q, q < 8 → ((s.hw.phase q).cond = .parked ↔ q = p)) →
    Completes (.phaseAdd claims) s (fun t => (t.phase p).cond = .active ∧ (t.phase p).serving = w + 1 ∧
      (t.rail k).denied = sat16 (s.hw.rail k).denied ∧ (t.rail w).denied = (s.hw.rail w).denied ∧
      t.pool.active k = s.hw.pool.active k ∧ ∀ q, q ≠ p → t.phase q = s.hw.phase q)) ∧
  (∀ (s : State) (claims : BitVec 4) (k j : Fin 4) (p : Nat), s.hw.shaped = true → claims.getLsbD k = true →
    claims.getLsbD j = true → k ≠ j →
    (∀ i : Fin 4, claims.getLsbD i = true → i ≠ k →
      (s.hw.cfg k).prio < (s.hw.cfg i).prio ∨ (s.hw.cfg k).prio = (s.hw.cfg i).prio ∧ k < i) → (s.hw.cfg k).prio < 4 →
    (s.hw.out k).on = true → s.hw.pool.active k < (s.hw.cfg k).maxPh → s.hw.pick k = some p →
    Completes (.phaseAdd claims) s (fun t => (t.phase p).cond = .active ∧ (t.phase p).serving = k + 1)) ∧
  (∀ (s : State) (k : Fin 4),
    Completes (.phaseRespacingEnd k) s (fun t => t = s.hw.modRail k (fun r => { r with respacing := false }))) ∧
  (∀ (s : State) (k : Fin 4), s.hw.shaped = true → (s.hw.out k).on = true →
    Completes (.burstAdd (1 <<< k.val)) s (fun t =>
      (∀ p, p < 8 → (t.phase p).serving = k + 1 → (t.phase p).cond ≠ .rampDown) ∧
      ((s.hw.cfg k).burst = true → (s.hw.cfg k).maxPh ≤ 6 → (s.hw.cfg k).maxPh ≤ t.pool.active k ∨ t.pick k = none)))

/-- R94, R95, R96, R98, R108, R112, R114: a shed that R98 does not suppress ramps the phase of R95 down; then it is QUIET,
then STANDBY or PARKED by its owner, which an output short of owned phases may become, and a claim that waited takes it where
its add condition still holds. A moved phase becomes STANDBY of its new owner, or PARKED with none. A cancelled shed carries
its full share again. That SHED counts a shed at the start of its ramp-down, and that a move takes the shed in progress, is
the model's choice (log 56). R100, R103: the end of the hold frees the sheds of the rail; a move that its rail still blocks
after the wait ends with result 2. -/
def Obligations.PhasesAreShedAndMoved : Prop :=
  (∀ (s : State) (k : Fin 4), s.hw.shaped = true → (s.hw.out k).on = true → s.hw.shedBlocked k = false →
    (∀ q, (s.hw.phase q).cond = .rampDown → (s.hw.phase q).serving ≠ k + 1) → s.hw.pool.move = none →
    (s.hw.cfg k).minPh < s.hw.pool.active k →
    Completes (.phaseShed k) s (fun t => ∃ p, s.hw.pool.pickShed k = some p ∧ (t.phase p).cond = .rampDown ∧
      (t.phase p).serving = k + 1 ∧ (t.rail k).shed = sat16 (s.hw.rail k).shed ∧ ∀ q, q ≠ p → t.phase q = s.hw.phase q)) ∧
  (∀ (s : State) (p : Fin 8), (s.hw.phase p).cond = .rampDown →
    Completes (.shedRampDownEnd p) s (fun t => (t.phase p).cond = .quiet ∧ (∀ q, q ≠ p.val → t.phase q = s.hw.phase q) ∧
      t.outs = s.hw.outs)) ∧
  (∀ (s : State) (p : Fin 8), s.hw.shaped = true → (s.hw.phase p).cond = .quiet → s.hw.pool.move = none →
    Completes (.quietEnd p 0) s (fun t => (t.phase p).serving = 0 ∧
      ((t.phase p).owner = (s.hw.phase p).owner ∨ (s.hw.phase p).owner = 0 ∧
        ∃ k : Fin 4, (t.phase p).owner = k + 1 ∧ (s.hw.out k).on = true ∧ s.hw.pool.owned k < (s.hw.cfg k).minPh) ∧
      (t.phase p).cond = (if (t.phase p).owner = 0 then .parked else .standby))) ∧
  (∀ (s : State) (p : Fin 8) (m : Move), s.hw.shaped = true → (s.hw.phase p).cond = .quiet → s.hw.pool.move = some m →
    m.phase = p.val → 0 < m.newOwner →
    Completes (.quietEnd p 0) s (fun t => (t.phase p).owner = m.newOwner ∧ t.pool.move = none ∧
      (t.phase p).cond = .standby)) ∧
  (∀ (s : State) (p : Fin 8) (m : Move), s.hw.shaped = true → (s.hw.phase p).cond = .quiet → s.hw.pool.move = some m →
    m.phase = p.val → m.newOwner = 0 →
    (∀ j : Fin 4, (s.hw.out j).on = true → (s.hw.cfg j).minPh ≤ s.hw.pool.owned j - (if (s.hw.phase p).owner = j + 1 then 1 else 0)) →
    Completes (.quietEnd p 0) s (fun t => (t.phase p).owner = 0 ∧ (t.phase p).serving = 0 ∧ t.pool.move = none ∧
      (t.phase p).cond = .parked ∧ ∀ q, q ≠ p.val → t.phase q = s.hw.phase q)) ∧
  (∀ (s : State) (p : Fin 8) (k : Fin 4) (holds : BitVec 4), s.hw.shaped = true → (s.hw.phase p).cond = .quiet →
    (s.hw.phase p).owner = 0 → s.hw.pool.move = none → (s.hw.phase p).claims &&& holds = 1 <<< k.val →
    (∀ j : Fin 4, (s.hw.out j).on = true → (s.hw.cfg j).minPh ≤ s.hw.pool.owned j) → (s.hw.out k).on = true →
    s.hw.pool.active k < (s.hw.cfg k).maxPh → (s.hw.cfg k).prio < 4 → (s.hw.cfg k).lend = true → s.hw.pick k = none →
    Completes (.quietEnd p holds) s (fun t => (t.phase p).cond = .active ∧ (t.phase p).serving = k + 1 ∧
      (t.phase p).owner = 0)) ∧
  (∀ (s : State) (p : Fin 8), (s.hw.phase p).cond = .rampDown →
    Completes (.shedCancel p) s (fun t => (t.phase p).cond = .active ∧ (t.phase p).serving = (s.hw.phase p).serving ∧
      t.outs = s.hw.outs)) ∧
  (∀ (s : State) (k : Fin 4), s.hw.shaped = true →
    Completes (.hintHoldEnd k) s (fun t => (t.rail k).hintHold = false ∧ t.outs = s.hw.outs ∧ t.vcl = s.hw.vcl)) ∧
  (∀ (s : State) (m : Move) (j : Job), s.hw.pool.move = some m → (s.hw.phase m.phase).cond = .active →
    j ∈ s.hw.proto.jobs → j.num = m.job → j.state = .running →
    Completes .poolMoveWaitTimeout s (fun t => t.pool.move = none ∧ t.pool.phases = s.hw.pool.phases ∧
      { j with state := .done, status := 0, result := 2, progress := 100, data := [] } ∈ t.proto.jobs))

/-- R106, R107, R111, R152, R199: a phase that its monitor finds faulty leaves service with POOL_PHASE_OOS pending; in SEQ_UP,
RUN and SEQ_DOWN an output that latches off on over-current below its window, or a VH output with an imbalance, is the
running-rail fault with its own cause, captured under its own source: every output is off and FLTn is driven. -/
def Obligations.PhaseAndConverterFaults : Prop :=
  (∀ (s : State) (p : Fin 8) (m : PhaseMonitor) (oa : Bool), s.hw.shaped = true →
    s.hw.monitored p m = true →
    Completes (.phaseOutOfService p m oa) s (fun t => (t.phase p).cond = .oos ∧ (t.phase p).oosReason = monitorCode m ∧
      t.evt.pend.getLsbD 5 = true)) ∧
  (∀ (s : State) (k : Fin 12) (mv : Nat), (s.hw.out k).on = true →
    s.hw.seq.state = .seqUp ∨ s.hw.seq.state = .run ∨ s.hw.seq.state = .seqDown → s.hw.leaving = false →
    4000 * mv < s.hw.lowerEdge k → (k.val < 4 → 0 < s.hw.pool.active k) →
    Completes (.ocLatch k mv) s (fun t => t.seq.state = .faultLatched ∧ t.seq.cause = 3 ∧ t.seq.fltDrive = true ∧
      t.seq.hrst = false ∧ t.seq.pgood = false ∧ t.evt.pend.getLsbD 19 = true ∧
      (s.hw.faults.cap = none → t.faults.cap.map (fun c => (c.source, c.addr, c.master)) = some (0x62, k.val, 0)) ∧ ∀ j : Fin 18, (t.out j).on = false)) ∧
  (∀ (s : State) (vh : Fin 2), (s.hw.out (10 + vh)).on = true →
    s.hw.seq.state = .seqUp ∨ s.hw.seq.state = .run ∨ s.hw.seq.state = .seqDown → s.hw.leaving = false →
    Completes (.imbalance vh) s (fun t => t.seq.state = .faultLatched ∧ t.seq.cause = 4 ∧ t.seq.fltDrive = true ∧
      (s.hw.faults.cap = none → t.faults.cap.map (fun c => (c.source, c.addr, c.master)) = some (0x63, 10 + vh.val, 0)) ∧
      ∀ j : Fin 18, (t.out j).on = false))

/-- R121, R126, R127, R137: a request that reads, with the right CRC and reserved bits 0, naming a rail under link control, is
answered ACK with that rail's flags and its value; it counts, clears the kept request and changes no rail. That GETV names the
class of the last ramp where the rail is off or at rest is the model's choice (log 58), and that a read clears the kept
request its reading (log 14). R121, R125–R127, R129, R132, R143: a request of any opcode is refused by the first of NAK_CRC
(wrong CRC), NAK_OP (a reserved opcode or a reserved bit), NAK_RAIL (a rail outside link control), NAK_STATE (SETV or HINT to
a rail that is off, in its enabling step, shed or latched) and NAK_RANGE (a code above 560 or outside V_MIN to V_MAX) that
applies; nothing is done, DATA is 0, and FLAGS are the rail's, or CAPPED alone for NAK_CRC, NAK_RAIL and a rail outside link
control. A truncated frame is not answered. Each is captured, counts as a violation, raises VCL_ERROR, and is no accepted
request. The access types, and that NAK_CRC raises VCL_ERROR and counts, are the model's reading (log 14); the FLAGS of a
NAK_OP outside link control are its choice (log 58). -/
def Obligations.LinkRequestsAreAnswered : Prop :=
  (∀ (s : State) (op : BitVec 4) (rail : BitVec 2) (tog : Bool) (crc : BitVec 4) (c : Instr) (data : Half) (ma10 : Int) (mv : Nat),
    s.hw.live = true → s.hw.hit 0x0B = false → (s.hw.cfg rail.toNat).vclEn = true →
    crc4 (requestBits op rail tog 0) = crc →
    (op = 0 ∧ c = .vclNop 0 rail tog 0 crc ∧ data = 0) ∨
    (op = 3 ∧ c = .getv rail tog 0 crc ∧
      data = BitVec.ofNat 16 ((s.hw.rail rail.toNat).cls * 8192 + s.hw.refNow rail.toNat)) ∨
    (op = 4 ∧ c = .geti rail tog 0 crc ma10 ∧ data = BitVec.ofInt 16 (max (-32768) (min 32767 ma10))) ∨
    (op = 5 ∧ c = .getvm rail tog 0 crc mv ∧ data = BitVec.ofNat 16 (min 65535 mv)) →
    Completes c s (fun t =>
      t.vcl = { kept := none, ok := sat16 s.hw.vcl.ok, bad := s.hw.vcl.bad,
                resp := some (vclFrame 0 (s.hw.vclFlags rail.toNat) data) } ∧
        t.outs = s.hw.outs ∧ t.pool = s.hw.pool ∧ t.evt = s.hw.evt ∧ t.seq = s.hw.seq)) ∧
  (∀ (s : State) (op : BitVec 4) (rail : BitVec 2) (tog : Bool) (payload : Half) (crc : BitVec 4) (c : Instr) (iOut ma10 : Int)
    (mv code : Nat),
    let k := rail.toNat
    let badCrc := crc4 (requestBits op rail tog payload) ≠ crc
    let reserved := 6 ≤ op.toNat ∨ (op = 0 ∨ op = 3 ∨ op = 4 ∨ op = 5) ∧ payload ≠ 0 ∨ op = 1 ∧ payload.extractLsb' 10 3 ≠ 0 ∨
      op = 2 ∧ payload.extractLsb' 0 8 ≠ 0
    let noRail := (s.hw.cfg k).vclEn = false
    let noState := (op = 1 ∨ op = 2) ∧ ((s.hw.out k).on = false ∨ (s.hw.out k).stepDone = false ∨ (s.hw.out k).shed = true ∨
      s.hw.eff = .faultLatched)
    let noRange := op = 1 ∧ (560 < (payload.extractLsb' 0 10).toNat ∨ (payload.extractLsb' 0 10).toNat < (s.hw.cfg k).vMin ∨
      (s.hw.cfg k).vMax < (payload.extractLsb' 0 10).toNat)
    let src := if code = 1 then 0x51 else 0x50
    s.hw.live = true → s.hw.hit 0x0B = false →
    (op = 0 ∨ 6 ≤ op.toNat) ∧ c = .vclNop op rail tog payload crc ∨ op = 1 ∧ c = .setv rail tog payload crc ∨
      op = 2 ∧ c = .hint rail tog payload crc iOut ∨ op = 3 ∧ c = .getv rail tog payload crc ∨
      op = 4 ∧ c = .geti rail tog payload crc ma10 ∨ op = 5 ∧ c = .getvm rail tog payload crc mv →
    badCrc ∧ code = 1 ∨ ¬ badCrc ∧ reserved ∧ code = 5 ∨ ¬ badCrc ∧ ¬ reserved ∧ noRail ∧ code = 3 ∨
      ¬ badCrc ∧ ¬ reserved ∧ ¬ noRail ∧ noState ∧ code = 4 ∨
      ¬ badCrc ∧ ¬ reserved ∧ ¬ noRail ∧ ¬ noState ∧ noRange ∧ code = 2 →
    Completes c s (fun t =>
      t.vcl.resp.map (fun r => (r.resp, r.data)) = some (BitVec.ofNat 3 code, 0) ∧ t.vcl.bad = sat16 s.hw.vcl.bad ∧
        t.vcl.ok = s.hw.vcl.ok ∧ t.evt.pend.getLsbD 7 = true ∧
        (s.hw.faults.cap = none → t.faults.cap.map (fun f => (f.source, f.addr, f.master, f.access)) =
          some (src, op.toNat * 16 + k, 3, if code = 1 then 4 else 3)) ∧
        (s.hw.reaction src ≤ 1 → t.outs = s.hw.outs ∧ t.pool = s.hw.pool ∧ t.seq = s.hw.seq ∧ t.vcl.kept = s.hw.vcl.kept ∧
          t.vcl.resp = some (vclFrame (BitVec.ofNat 3 code)
            (if code = 1 ∨ code = 3 ∨ (s.hw.cfg k).vclEn = false then (if s.hw.capped then 2 else 0) else s.hw.vclFlags k) 0)))) ∧
  (∀ (s : State) (op : BitVec 4) (rail : BitVec 2), s.hw.live = true →
    Completes (.truncated op rail) s (fun t => t.vcl.resp = none ∧ t.vcl.bad = sat16 s.hw.vcl.bad ∧
      t.vcl.ok = s.hw.vcl.ok ∧ t.evt.pend.getLsbD 7 = true ∧
      (s.hw.faults.cap = none → t.faults.cap.map (fun f => (f.source, f.addr, f.master, f.access)) =
        some (0x50, op.toNat * 16 + rail.toNat, 3, 4))))

/-- R126, R132, R133, R137: a SETV that the rail accepts is acknowledged with the class applied and the code, becomes the kept
request and moves the reference from where it stands towards the code; the same request again is answered ACK_REPEAT with the
kept data and moves nothing. R99, R100, R126, R138: an accepted HINT is acknowledged with n_H and the phases ACTIVE before it,
and starts the hold of the rail; the hold cancels its sheds. R130, R133–R135, R140, R150, R151, R157: a slew moves the
reference by one code of 2.5 mV towards its target and not in a paused cycle, settles after its end, raises the stall once; a
VM or VH reference stands while its downward ramp ends at the sink limit; a ramp ends at its target; the episode ends when the
reference rests there. That SETTLED follows any ramp, also an enabling one, is the model's choice (log 74). -/
def Obligations.LinkCommandsMoveReferences : Prop :=
  (∀ (s : State) (rail : BitVec 2) (tog : Bool) (payload : Half) (crc : BitVec 4),
    s.hw.shaped = true → s.hw.live = true → s.hw.hit 0x0B = false → (s.hw.cfg rail.toNat).vclEn = true →
    crc4 (requestBits 1 rail tog payload) = crc → payload.extractLsb' 10 3 = 0 → s.hw.vclAccepts rail.toNat = true →
    (payload.extractLsb' 0 10).toNat ≤ 560 →
    (s.hw.cfg rail.toNat).vMin ≤ (payload.extractLsb' 0 10).toNat →
    (payload.extractLsb' 0 10).toNat ≤ (s.hw.cfg rail.toNat).vMax → s.hw.vcl.kept = none →
    let cls := slewApplied (s.hw.cfg rail.toNat) (payload.extractLsb' 13 3).toNat
    let data := BitVec.ofNat 16 (cls * 8192 + (payload.extractLsb' 0 10).toNat)
    Completes (.setv rail tog payload crc) s (fun t =>
      t.vcl.resp.map (fun r => (r.resp, r.data)) = some (0, data) ∧
        t.vcl.kept = some { op := 1, rail := rail.toNat, tog := tog, payload := payload, data := data } ∧
        t.vcl.ok = sat16 s.hw.vcl.ok ∧ (t.out rail.toNat).tgt = (payload.extractLsb' 0 10).toNat ∧
        (t.out rail.toNat).ref = s.hw.refHalf rail.toNat ∧ (t.rail rail.toNat).cls = cls ∧
        (t.rail rail.toNat).settled = false ∧ ∀ j, j ≠ rail.toNat → t.out j = s.hw.out j)) ∧
  (∀ (s : State) (rail : BitVec 2) (tog : Bool) (payload : Half) (crc : BitVec 4) (x : VclKept),
    s.hw.live = true → s.hw.hit 0x0B = false → (s.hw.cfg rail.toNat).vclEn = true →
    crc4 (requestBits 1 rail tog payload) = crc → payload.extractLsb' 10 3 = 0 → s.hw.vclAccepts rail.toNat = true →
    (payload.extractLsb' 0 10).toNat ≤ 560 →
    (s.hw.cfg rail.toNat).vMin ≤ (payload.extractLsb' 0 10).toNat →
    (payload.extractLsb' 0 10).toNat ≤ (s.hw.cfg rail.toNat).vMax →
    s.hw.vcl.kept = some x → x.same 1 rail.toNat tog payload = true →
    Completes (.setv rail tog payload crc) s (fun t =>
      t.vcl.resp = some (vclFrame 6 (s.hw.vclFlags rail.toNat) x.data) ∧ t.vcl.kept = some x ∧
        t.vcl.ok = s.hw.vcl.ok ∧ t.outs = s.hw.outs ∧ t.pool = s.hw.pool)) ∧
  (∀ (s : State) (rail : BitVec 2) (tog : Bool) (payload : Half) (crc : BitVec 4) (iOut : Int),
    s.hw.shaped = true → s.hw.live = true → s.hw.hit 0x0B = false → (s.hw.cfg rail.toNat).vclEn = true →
    crc4 (requestBits 2 rail tog payload) = crc → payload.extractLsb' 0 8 = 0 → s.hw.vclAccepts rail.toNat = true →
    s.hw.vcl.kept = none →
    let n := hintCount (s.hw.cfg rail.toNat) iOut (payload.extractLsb' 8 8).toNat
    Completes (.hint rail tog payload crc iOut) s (fun t =>
      t.vcl.resp.map (fun r => (r.resp, r.data)) =
          some (0, BitVec.ofNat 16 (n * 16 + s.hw.pool.active rail.toNat)) ∧
        (t.rail rail.toNat).hintHold = true ∧ t.idle.skipping.getD rail.toNat false = false ∧ t.outs = s.hw.outs ∧
        ∀ p, p < 8 → (t.phase p).serving = rail.toNat + 1 → (t.phase p).cond ≠ .rampDown)) ∧
  (∀ (s : State) (k : Fin 12), k.val < 4 → (s.hw.rail k).slewing = true → (s.hw.out k).ref + 5 < codeHalf k (s.hw.out k).tgt →
    (s.hw.out k).on = true →
    Completes (.slewStep k false) s (fun t => (t.out k).ref = (s.hw.out k).ref + 5 ∧ t.pool = s.hw.pool)) ∧
  (∀ (s : State) (k : Fin 12), k.val < 4 → (s.hw.rail k).slewing = true → codeHalf k (s.hw.out k).tgt + 5 < (s.hw.out k).ref →
    (s.hw.out k).on = true →
    Completes (.slewStep k false) s (fun t => (t.out k).ref = (s.hw.out k).ref - 5 ∧ t.pool = s.hw.pool)) ∧
  (∀ (s : State) (k : Fin 12), k.val < 4 → Completes (.slewStep k true) s (fun t => t = s.hw)) ∧
  (∀ (s : State) (k : Fin 12), 4 ≤ k.val → (s.hw.out k).on = true → (s.hw.out k).ramping = true → (s.hw.out k).held = false →
    codeHalf k (s.hw.out k).tgt < s.hw.refHalf k →
    Completes (.slewStep k true) s (fun t => (t.out k).held = true ∧ t.refHalf k = s.hw.refHalf k ∧ t.pool = s.hw.pool ∧
      ∀ j, j ≠ k.val → t.out j = s.hw.out j)) ∧
  (∀ (s : State) (k : Fin 4), s.hw.shaped = true → (s.hw.out k).on = true → (s.hw.rail k).slewing = false →
    (s.hw.out k).rampEnded = true →
    Completes (.settled k) s (fun t => (t.rail k).settled = true ∧ t.outs = s.hw.outs)) ∧
  (∀ (s : State) (k : Fin 4), (s.hw.rail k).slewing = true → (s.hw.rail k).stallRaised = false →
    Completes (.vclSlewStall k) s (fun t => (t.rail k).stallRaised = true ∧ t.evt.pend.getLsbD 8 = true ∧
      t.outs = s.hw.outs)) ∧
  (∀ (s : State) (k : Fin 12), (s.hw.out k).episode = true →
    (k.val < 4 → (s.hw.rail k).slewing = false) → (4 ≤ k.val → (s.hw.out k).ramping = false) →
    (s.hw.out k).ref = codeHalf k (s.hw.out k).tgt →
    Completes (.slewEpisodeEnd k) s (fun t => (t.out k).episode = false ∧ (t.out k).epMax = 0 ∧ t.pool = s.hw.pool)) ∧
  (∀ (s : State) (k : Fin 12), (s.hw.out k).on = true → (k.val < 4 → (s.hw.rail k).slewing = true) →
    (4 ≤ k.val → (s.hw.out k).ramping = true ∧ (s.hw.out k).held = false) → s.hw.faults.forces = [] →
    Completes (.rampEnd k) s (fun t => (t.out k).ref = codeHalf k (s.hw.out k).tgt ∧ (t.out k).ramping = false ∧
      (t.out k).rampEnded = true ∧ ∀ j, j ≠ k.val → t.out j = s.hw.out j))

/-! ## Telemetry -/

/-- R166, R168, R178: a scan starts with the settings that waited and with the forced channels in its mask. R165, R167, R176:
at the end of a scan every channel that it converted shows its code, its value by the channel's trimmed gain and the new scan
count with VALID 1; every other channel keeps its values with VALID 0. That SCAN is SCAN_COUNT after its increment (log 18),
and that a value is rounded to its unit (log 75), is the model's choice. -/
def Obligations.ScansReplaceTheMirror : Prop :=
  (∀ s : State, s.hw.ins.mainOn = true → s.hw.ins.booted = true → s.hw.adc.scanning = false → s.hw.adc.ref = .full →
    Completes .scanStart s (fun t => t.adc.scanning = true ∧ t.adc.next = none ∧
      t.adc.set = s.hw.adc.next.getD s.hw.adc.set ∧ t.adc.mask = s.hw.scanMask t.adc.set.mask ∧
      (∀ c : Fin 64, forcedChannels.getLsbD c = true → t.adc.mask.getLsbD c = true) ∧
      (∀ k, k < 18 → (s.hw.out k).on = true → t.adc.mask.getLsbD k = true ∧ t.adc.mask.getLsbD (24 + k) = true) ∧
      t.outs = s.hw.outs ∧ t.seq = s.hw.seq)) ∧
  (∀ (s : State) (rs : List ChannelResult) (dt : Nat), s.hw.ins.mainOn = true → s.hw.adc.scanning = true →
    s.hw.adc.active ≠ [] →
    Completes (.scanComplete rs dt) s (fun t => t.adc.scanning = false ∧ t.adc.ready = true ∧
      t.adc.scanCount = s.hw.adc.scanCount + 1 ∧
      ∀ c, c < s.hw.adc.chans.length →
        (∀ x, scanned rs c = some x → s.hw.adc.mask.getLsbD c = true → c < 64 →
          (t.result c).valid = true ∧ (t.result c).code = x.code ∧ (t.result c).value = s.hw.scaled c x.code ∧
            (t.result c).scan = s.hw.adc.scanCount + 1) ∧
        (scanned rs c = none ∨ s.hw.adc.mask.getLsbD c = false →
          t.result c = { s.hw.result c with valid := false })))

/-- R163, R164: a rotation leaves the next slice to calibrate, after the scan in progress if one runs; a slice found beyond a
limit leaves service with ADC_SLICE_FAULT pending, one found good does not. R58, R170, R173, R175, R176, R326: a complete
window publishes its averages and starts anew, and one that a new T_AVG discarded (R178) does not end; the settled reference
buffer is FULL; the output energies are written to the store as a pair of copies, whose verify is still to come. -/
def Obligations.SlicesWindowsAndReference : Prop :=
  (∀ s : State, s.hw.ins.mainOn = true → s.hw.adc.sliceOos = 0 → s.hw.adc.scanning = false →
    Completes .sliceRotation s (fun t => t = { s.hw with
      adc := { s.hw.adc with rotation := (s.hw.adc.rotation + 1) % 3, rotationDue := false, calibrating := true } })) ∧
  (∀ s : State, s.hw.ins.mainOn = true → s.hw.adc.sliceOos = 0 → s.hw.adc.scanning = true →
    Completes .sliceRotation s (fun t => t = { s.hw with adc := { s.hw.adc with rotationDue := true } })) ∧
  (∀ (s : State) (sl : Fin 3), s.hw.adc.calibrating = true → (s.hw.adc.rotation + 2) % 3 = sl.val →
    Completes (.sliceCalibrationEnd sl false false) s (fun t =>
      t = { s.hw with adc := { s.hw.adc with calibrating := false } })) ∧
  (∀ (s : State) (sl : Fin 3) (g o : Bool), s.hw.adc.calibrating = true → (s.hw.adc.rotation + 2) % 3 = sl.val →
    (g || o) = true →
    Completes (.sliceCalibrationEnd sl g o) s (fun t => t.adc.sliceOos.getLsbD sl = true ∧ t.adc.calibrating = false ∧
      t.evt.pend.getLsbD 10 = true)) ∧
  (∀ s : State, s.hw.adc.restartWindow = true → Completes .averagingWindowEnd s (fun t => t = s.hw)) ∧
  (∀ s : State, s.hw.ins.mainOn = true → s.hw.adc.restartWindow = false →
    Completes .averagingWindowEnd s (fun t => t.adc.windowCount = s.hw.adc.windowCount + 1 ∧
      (∀ k, k < s.hw.adc.outs.length →
        t.adc.outs.getD k OutTelem.empty = (s.hw.adc.outs.getD k OutTelem.empty).average (s.hw.out k).on) ∧
      t.adc.chans = s.hw.adc.chans ∧ t.outs = s.hw.outs)) ∧
  (∀ s : State, s.hw.ins.mainOn = true → s.hw.adc.ref = .settling →
    Completes .refSettled s (fun t => t = { s.hw with adc := { s.hw.adc with ref := .full, fromOff := false } })) ∧
  (∀ s : State, s.hw.ins.booted = true → s.hw.pwr.commit = none → s.hw.seq.state ≠ .limp →
    Completes .outputEnergyCheckpoint s (fun t => t = s.hw.wake.pair 0x410 s.hw.counters ∧ t.outs = s.hw.outs ∧
      t.adc.outs = s.hw.adc.outs ∧ t.store.pSeq = s.hw.store.pSeq + 2 ∧
      t.store.proving.getLast?.map (fun v => (v.key, v.seq, v.copy)) = some (0x410, s.hw.store.pSeq + 2, false)))

/-! ## Sequencing and supervision -/

/-- R187–R192, R205, R207: a step whose conditions hold by its TIMEOUT completes and the next begins; the last POWER_UP step
leads to RUN with HRSTn released, the last POWER_DOWN step to OFF with t_off_min running. -/
def Obligations.SequenceStepsComplete : Prop :=
  (∀ (s : State) (low : LowSample), s.hw.seq.active = true → s.hw.stepMet low = true →
    s.hw.stepDue low ≤ s.hw.stepLimit → s.hw.faults.forces = [] → s.hw.atLast = false → s.hw.seq.dir ≠ .host →
    Completes (.seqStepComplete low) s (fun t => t.seq.step = s.hw.seq.step + 1 ∧ t.seq.doneStep = some s.hw.seq.step ∧
      t.seq.active = true ∧ t.seq.stepAt = max s.hw.clk (s.hw.stepDue low) ∧ t.seq.state = s.hw.seq.state)) ∧
  (∀ (s : State) (low : LowSample), s.hw.seq.active = true → s.hw.stepMet low = true →
    s.hw.stepDue low ≤ s.hw.stepLimit → s.hw.faults.forces = [] → s.hw.atLast = true → s.hw.seq.dir = .up →
    s.hw.seq.state = .seqUp →
    Completes (.seqStepComplete low) s (fun t => t.seq.state = .run ∧ t.seq.active = false ∧
      (s.hw.wdt.restarting = false → t.seq.hrst = true) ∧
      (t.seq.hrst = false → t.seq.hostStepsDone = true ∧ t.clk < s.hw.wdt.start + 1000 * s.hw.wdt.hrstWidth) ∧
      t.seq.job = none ∧ t.evt.pend.getLsbD 16 = true)) ∧
  (∀ (s : State) (low : LowSample), s.hw.seq.active = true → s.hw.stepMet low = true →
    s.hw.stepDue low ≤ s.hw.stepLimit → s.hw.faults.forces = [] → s.hw.atLast = true → s.hw.seq.dir = .down →
    s.hw.seq.state = .seqDown → s.hw.seq.standbyReq = none → s.hw.seq.limpExit = false → s.hw.seq.pendOn = false →
    s.hw.seq.service.job = none →
    Completes (.seqStepComplete low) s (fun t => t.seq.state = .off ∧ t.seq.active = false ∧ t.seq.offWait = true ∧
      t.seq.offStart = max s.hw.clk (s.hw.stepDue low) ∧ t.seq.pgood = false ∧ t.evt.pend.getLsbD 17 = true))

/-- R191, R55, R62, R181–R185, R199, R207: a step not met by its TIMEOUT, of POWER_UP, POWER_DOWN or the host restart, is the
fault with cause 5, captured with its direction and step, and what was unmet: in POWER_UP the outputs of WAIT_MASK that have
not been GOOD for T_STABLE, in POWER_DOWN those not below 10 %. In SEQ_UP, RUN and SEQ_DOWN a breach of an armed output, a
voltage beyond an edge of its window, is the fault with cause 1 below and 2 above, a breach of VIB in RUN with cause 6; a
breach of an output not yet armed only clears GOOD, and a port that regulates its current has no breach. At rest the edges are
the UV and OV percentages of the target, in steps of 0.5 % from 2 %. That voltages come in mV is the model's choice (log 59). -/
def Obligations.TimeoutsAndBreachesLatch : Prop :=
  (∀ (s : State) (low : LowSample), s.hw.seq.active = true → s.hw.stepMet low = false →
    s.hw.seq.state = .seqUp ∧ s.hw.seq.dir = .up ∨ s.hw.seq.state = .seqDown ∧ s.hw.seq.dir = .down ∨
      (s.hw.seq.state = .run ∨ s.hw.seq.state = .seqUp) ∧ s.hw.seq.dir = .host → s.hw.leaving = false →
    Completes (.seqTimeout low) s (fun t => t.seq.state = .faultLatched ∧ t.seq.cause = 5 ∧
      t.seq.toStep = s.hw.seq.step ∧ t.seq.toDir = some s.hw.seq.dir ∧ t.evt.pend.getLsbD 18 = true ∧
      (s.hw.seq.dir = .up → s.hw.pwr.onBattery = false → ∀ k, k < 18 → (t.seq.toUnmet.getLsbD k = true ↔
        s.hw.stepNow.waitMask.getLsbD k = true ∧ ¬ ((s.hw.out k).good = true ∧
          (s.hw.out k).goodAt + 100 * s.hw.stepNow.tStable ≤ max s.hw.clk s.hw.stepLimit))) ∧
      (s.hw.seq.dir = .down → ∀ k, k < 18 → (t.seq.toUnmet.getLsbD k = true ↔
        s.hw.stepNow.waitMask.getLsbD k = true ∧ low.stable.getLsbD k = false)) ∧
      (s.hw.faults.cap = none → t.faults.cap.map (fun c => (c.source, c.addr, c.master)) =
        some (0x70, (match s.hw.seq.dir with | .up => 0 | .down => 1 | .host => 2) * 65536 + s.hw.seq.step * 256, 0)) ∧
      ∀ j : Fin 18, (t.out j).on = false)) ∧
  (∀ (s : State) (k : Fin 12) (mv : Nat), (s.hw.out k).on = true → (s.hw.out k).sup = .armed →
    s.hw.seq.state = .seqUp ∨ s.hw.seq.state = .run ∨ s.hw.seq.state = .seqDown →
    s.hw.leaving = false → 4000 * mv < s.hw.lowerEdge k ∨ s.hw.upperEdge k < 4000 * mv →
    Completes (.windowBreach (.output k mv)) s (fun t => t.seq.state = .faultLatched ∧
      t.seq.cause = (if 4000 * mv < s.hw.lowerEdge k then 1 else 2) ∧ t.seq.fltDrive = true ∧ t.lines.fltLow = true ∧
      t.seq.hrst = false ∧ t.seq.pgood = false ∧ ∀ j : Fin 18, (t.out j).on = false)) ∧
  (∀ (s : State) (k : Fin 12) (mv : Nat), (s.hw.out k).on = true → (s.hw.out k).sup ≠ .armed →
    4000 * mv < s.hw.lowerEdge k ∨ s.hw.upperEdge k < 4000 * mv →
    Completes (.windowBreach (.output k mv)) s (fun t => (t.out k).good = false ∧ (t.out k).on = true ∧
      t.seq.state = s.hw.seq.state ∧ ∀ j, j ≠ k.val → t.out j = s.hw.out j)) ∧
  (∀ (s : State) (p : Fin 6) (mv vin : Nat), (s.hw.port p).state = .on → (s.hw.out (12 + p)).on = true →
    (s.hw.out (12 + p)).sup = .armed → s.hw.seq.state = .seqUp ∨ s.hw.seq.state = .run ∨ s.hw.seq.state = .seqDown →
    s.hw.leaving = false →
    1000 * mv < (1000 - windowTenths (s.hw.out (12 + p)).uv) * vin →
    Completes (.windowBreach (.port p mv vin false)) s (fun t => t.seq.state = .faultLatched ∧ t.seq.cause = 1 ∧
      t.seq.fltDrive = true ∧ ∀ j : Fin 18, (t.out j).on = false)) ∧
  (∀ (s : State) (p : Fin 6) (mv vin : Nat), Completes (.windowBreach (.port p mv vin true)) s (fun t => t = s.hw)) ∧
  (∀ (s : State) (mv vin : Nat), s.hw.seq.state = .run → s.hw.ins.mainOn = true → s.hw.leaving = false →
    s.hw.pwr.handingOver = false → s.hw.pwr.onBattery = false → 400 * mv < 85 * vin ∨ 110 * vin < 400 * mv →
    Completes (.windowBreach (.vib mv vin)) s (fun t => t.seq.state = .faultLatched ∧ t.seq.cause = 6 ∧
      ∀ j : Fin 18, (t.out j).on = false)) ∧
  (∀ (s : State) (k : Fin 12) (mv : Nat), (s.hw.out k).on = true → (s.hw.out k).rampEnded = true →
    (s.hw.out k).good = false → s.hw.faults.forces = [] → s.hw.insideWindow k mv = true →
    Completes (.goodSet (.output k mv)) s (fun t => (t.out k).good = true ∧ (t.out k).goodAt = s.hw.clk ∧
      ∀ j, j ≠ k.val → t.out j = s.hw.out j)) ∧
  (∀ (h : Hw) (k : Nat), (h.out k).episode = false →
    h.lowerEdge k = (1000 - (20 + 5 * (h.out k).uv)) * (2 * codeHalf k (h.out k).tgt) ∧
      h.upperEdge k = (1000 + (20 + 5 * (h.out k).ov)) * (2 * codeHalf k (h.out k).tgt))

/-- R194, R196, R207: a rising EN starts a power-up only with autostart set, and a falling EN starts POWER_DOWN out of RUN
with HRSTn and PGOOD low; the end of t_off_min with nothing latched only ends the wait. R199, R200, R201: FLTn driven low by
another module is the fault with cause REMOTE in RUN, and none in OFF; the module then does not drive the line itself; the
line reads high again only where this module does not drive it. -/
def Obligations.LinesStartAndStop : Prop :=
  (∀ s : State, s.hw.lines.en = false → s.hw.image.autostart = false → s.hw.seq.state = .off →
    s.hw.seq.limpFault = false →
    Completes .enRise s (fun t => t = { s.hw with lines := { s.hw.lines with en := true } })) ∧
  (∀ s : State, s.hw.lines.en = false → s.hw.image.autostart = true → s.hw.seq.state = .off →
    s.hw.seq.limpFault = false → s.hw.ins.booted = true → s.hw.ins.storeReady = true → s.hw.admitted = true →
    s.hw.serviceReady = false → s.hw.seq.offWait = false → s.hw.lines.fltLow = false → s.hw.pwr.commit = none →
    s.hw.rst.restart = none → s.hw.faults.forces = [] → s.hw.gone = false →
    Completes .enRise s (fun t => t.lines.en = true ∧ t.seq.state = .seqUp ∧ t.seq.active = true ∧ t.seq.dir = .up ∧
      t.seq.step = 0)) ∧
  (∀ s : State, s.hw.lines.en = true → s.hw.seq.state = .run → s.hw.seq.limpFault = false →
    Completes .enFall s (fun t => t.lines.en = false ∧ t.seq.state = .seqDown ∧ t.seq.dir = .down ∧ t.seq.step = 0 ∧
      t.seq.hrst = false ∧ t.seq.pgood = false ∧ t.seq.pendOn = false)) ∧
  (∀ s : State, s.hw.seq.offWait = true → s.hw.seq.pendOn = false → s.hw.faults.forces = [] →
    Completes .offMinElapsed s (fun t => t.seq = { s.hw.seq with offWait := false } ∧
      t.clk = max s.hw.clk (s.hw.seq.offStart + 1000 * s.hw.image.tOffMin) ∧ t.outs = s.hw.outs)) ∧
  (∀ s : State, s.hw.lines.fltLow = false → s.hw.seq.state = .run → s.hw.gone = false →
    Completes .fltnFall s (fun t => t.lines.fltLow = true ∧ t.seq.state = .faultLatched ∧ t.seq.cause = 10 ∧
      t.seq.fltDrive = false ∧ t.evt.pend.getLsbD 21 = true ∧ ∀ j : Fin 18, (t.out j).on = false)) ∧
  (∀ s : State, s.hw.lines.fltLow = false → s.hw.seq.state = .off →
    Completes .fltnFall s (fun t => t = { s.hw with lines := { s.hw.lines with fltLow := true } })) ∧
  (∀ s : State, s.hw.seq.fltDrive = false → s.hw.seq.pendOn = false → s.hw.faults.forces = [] →
    Completes .fltnHigh s (fun t => t = { s.hw with lines := { s.hw.lines with fltLow := false } }))

/-- R203, R204, R232: a retry first releases FLTn, then starts POWER_UP as a fault restart, and counts; 60 s in RUN clear the
count; the line test of CLEAR_FAULT leads to OFF when the line is high, and keeps the latch with cause REMOTE when it is not;
each request has its own reply, also where FAULT_LATCHED has been left meanwhile. R17, R457: a filtered change of an XEV input
is its new level, and raises its event only on an edge that XEV_EDGE selects; in reset the input is ignored. -/
def Obligations.RetriesClearsAndEdges : Prop :=
  (∀ s : State, s.hw.seq.state = .faultLatched → s.hw.seq.retryWait = true → s.hw.seq.retryReleased = false →
    Completes .retryDue s (fun t => t.seq = { s.hw.seq with fltDrive := false, retryReleased := true } ∧
      t.clk = max s.hw.clk (s.hw.seq.offStart + 100000 * 2 ^ s.hw.seq.retries) ∧
      (s.hw.prm.role = .lead → t.prm.clearLeft = 3))) ∧
  (∀ s : State, s.hw.seq.state = .faultLatched → s.hw.seq.retryReleased = true → s.hw.lines.en = true →
    s.hw.lines.fltLow = false → s.hw.seq.offWait = false → s.hw.thermHolds = false → s.hw.prm.clearLeft = 0 →
    s.hw.gone = false → s.hw.pwr.commit = none → s.hw.seq.service.job = none → s.hw.serviceReady = false →
    s.hw.faults.forces = [] → s.hw.seq.clearTest = [] → s.hw.prm.clearJob = none →
    Completes .retryStart s (fun t => t.seq.state = .seqUp ∧ t.seq.step = 0 ∧ t.seq.dir = .up ∧
      t.seq.retries = s.hw.seq.retries + 1 ∧ t.seq.cause = s.hw.seq.cause)) ∧
  (∀ s : State, s.hw.eff = .run →
    Completes .retryCountReset s (fun t => t = { s.hw with seq := { s.hw.seq with retries := 0 } })) ∧
  (∀ s : State, s.hw.seq.clearTest = [none] → s.hw.seq.state = .faultLatched → s.hw.seq.fltDrive = false →
    Completes (.clearFaultLineTest true) s (fun t => t.seq.state = .off ∧ t.seq.retries = 0 ∧ t.seq.fltDrive = false ∧
      t.seq.cause = s.hw.seq.cause ∧ t.seq.clearTest = [])) ∧
  (∀ (s : State) (o : Origin), s.hw.seq.clearTest = [some o] → s.hw.seq.state = .faultLatched → s.hw.seq.fltDrive = false →
    Completes (.clearFaultLineTest true) s (fun t => t.seq.state = .off ∧ Replied s.hw t o stOk [])) ∧
  (∀ (s : State) (o : Origin) (later : List (Option Origin)) (high : Bool), s.hw.seq.clearTest = some o :: later →
    s.hw.seq.state ≠ .faultLatched →
    Completes (.clearFaultLineTest high) s (fun t => t.seq = { s.hw.seq with clearTest := later } ∧ t.outs = s.hw.outs ∧
      Replied s.hw t o stOk [])) ∧
  (∀ (s : State) (o : Origin), s.hw.seq.clearTest = [some o] → s.hw.seq.state = .faultLatched → s.hw.seq.fltDrive = false →
    Completes (.clearFaultLineTest false) s (fun t => t.seq.state = .faultLatched ∧ t.seq.cause = 10 ∧
      Replied s.hw t o stWrongState [])) ∧
  (∀ (s : State) (x : Fin 4) (level : Bool), s.hw.lines.xev.getD x false ≠ level → s.hw.live = true →
    Completes (.xevEdge x level) s (fun t => t.lines.xev = s.hw.lines.xev.set x level ∧ t.outs = s.hw.outs ∧
      t.seq = s.hw.seq ∧
      (s.hw.image.xevEdge.getD x 0 = 3 ∨ s.hw.image.xevEdge.getD x 0 = (if level then 1 else 2) →
        t.evt.pend.getLsbD (56 + x) = true) ∧
      (s.hw.image.xevEdge.getD x 0 = 0 → t.evt = s.hw.evt))) ∧
  (∀ (s : State) (x : Fin 4) (level : Bool), s.hw.live = false → Completes (.xevEdge x level) s (fun t => t = s.hw))

/-! ## The Promenade -/

/-- R211, R213, R214, R215, R217, R218: what a module sends in its slot is a frame that R213 lets every receiver accept: the
lead's LEAD, or its LEAVE, with which it gives up what it ordered (R218), an admitted follower's STATUS, a joining follower's
JOIN; a module whose link does not run sends nothing. That the lead's LEAVE goes out in slot 0, where R213 lists LEAD alone,
and that its order and command end with it, is the model's reading (log 25). R214, R215, R217, R219, R220, R225: a valid LEAD
frame sets an admitted follower's cabinet fields, a STATUS frame the lead's copy of its member, a JOIN waits for the boundary,
a LEAVE takes its sender off the roster and makes a follower of a leaving lead an orphan. That a follower accepts a LEAVE in
slot 0 is the model's reading (log 25). R213, R471: a frame whose length, CRC, sender or type R213 does not accept changes
nothing of the link but the error count, whatever row brings it. -/
def Obligations.FramesKeepToTheRules : Prop :=
  (∀ (s : State) (r : Nat), s.hw.linkRuns = true → s.hw.prm.role = .lead → s.hw.prm.leadOn = true → s.hw.prm.leaveDue = some r →
    Completes .prmCycle s (fun t => frameOk t.prm.tx 0 = true ∧ frameType t.prm.tx = 4 ∧ t.prm.leadOn = false ∧
      t.prm.link = .listening ∧ t.prm.roster = 0 ∧ t.prm.order = 0 ∧ t.prm.clearLeft = 0 ∧ t.outs = s.hw.outs)) ∧
  (∀ s : State, s.hw.linkRuns = true → s.hw.prm.role = .lead → s.hw.prm.leadOn = true → s.hw.prm.leaveDue = none →
    s.hw.reaction 0x41 ≤ 1 →
    Completes .prmCycle s (fun t => frameOk t.prm.tx 0 = true ∧ frameType t.prm.tx = 1 ∧
      t.prm.cycle = s.hw.prm.cycle + 1 ∧ t.prm.joins = [] ∧ t.outs = s.hw.outs)) ∧
  (∀ s : State, s.hw.linkRuns = true → s.hw.prm.role = .follower → s.hw.prm.link = .active → s.hw.prm.leaveDue = none →
    s.hw.prm.relay = none → s.hw.straps.idx ≠ 0 →
    Completes .prmCycle s (fun t => frameOk t.prm.tx s.hw.ownIndex = true ∧ frameType t.prm.tx = 2 ∧ t.outs = s.hw.outs)) ∧
  (∀ s : State, s.hw.linkRuns = true → s.hw.prm.role = .follower → s.hw.prm.link = .joining → s.hw.prm.joinSent = false →
    s.hw.prm.joinWait = false → s.hw.straps.idx ≠ 0 →
    Completes .prmCycle s (fun t => frameOk t.prm.tx s.hw.ownIndex = true ∧ frameType t.prm.tx = 3 ∧
      t.prm.joinSent = true)) ∧
  (∀ s : State, s.hw.linkRuns = false →
    Completes .prmCycle s (fun t => t = { s.hw with prm := { s.hw.prm with tx := [] } })) ∧
  (∀ (s : State) (f : List Byte) (delay : Nat), s.hw.linkRuns = true → s.hw.prm.role = .follower → s.hw.prm.link = .active →
    s.hw.hit 0x0C = false → frameOk f 0 = true → frameType f = 1 →
    Completes (.leadFrame 0 ⟨f, delay⟩) s (fun t => t.prm.roster = BitVec.ofNat 16 (ube (slice (framePayload f) 12 2)) ∧
      t.prm.token = ube (slice (framePayload f) 11 1) ∧ t.prm.cmd = ube (slice (framePayload f) 9 1) % 4 ∧
      ((BitVec.ofNat 16 (ube (slice (framePayload f) 12 2))).getLsbD s.hw.ownIndex = true → t.prm.link = .active) ∧
      ((BitVec.ofNat 16 (ube (slice (framePayload f) 12 2))).getLsbD s.hw.ownIndex = false → t.prm.link = .listening))) ∧
  (∀ (s : State) (slot : Fin 16) (f : List Byte), s.hw.linkRuns = true → s.hw.prm.role = .lead →
    s.hw.hit 0x0C = false → frameOk f slot = true → frameType f = 2 → s.hw.prm.roster.getLsbD slot = true →
    slot.val < s.hw.prm.peers.length → s.hw.prm.relay = none →
    Completes (.statusFrame slot f) s (fun t =>
      (t.prm.peers.getD slot Peer.none).state = ube (slice (framePayload f) 0 1) ∧
        (t.prm.peers.getD slot Peer.none).done = ube (slice (framePayload f) 1 1) ∧
        (t.prm.peers.getD slot Peer.none).cause = ube (slice (framePayload f) 3 1) ∧ t.prm.roster = s.hw.prm.roster)) ∧
  (∀ (s : State) (slot : Fin 16) (f : List Byte), s.hw.linkRuns = true → s.hw.prm.role = .lead → s.hw.prm.leadOn = true →
    s.hw.hit 0x0C = false → frameOk f slot = true → frameType f = 3 → s.hw.prm.roster.getLsbD slot = false →
    slot.val ∉ s.hw.prm.joins → s.hw.prm.admitMask.getLsbD slot = true →
    Completes (.join slot f) s (fun t => t.prm.joins = s.hw.prm.joins ++ [slot.val] ∧ t.prm.roster = s.hw.prm.roster ∧
      t.outs = s.hw.outs)) ∧
  (∀ (s : State) (slot : Fin 16) (f : List Byte), s.hw.linkRuns = true → s.hw.prm.role = .lead →
    s.hw.hit 0x0C = false → frameOk f slot = true → frameType f = 4 → s.hw.prm.roster.getLsbD slot = true →
    Completes (.leave slot f) s (fun t => t.prm.roster = s.hw.prm.roster &&& ~~~ ((1 : BitVec 16) <<< slot.val) ∧
      t.evt.pend.getLsbD 62 = true)) ∧
  (∀ (s : State) (f : List Byte), s.hw.linkRuns = true → s.hw.prm.role = .follower → s.hw.prm.link = .active →
    s.hw.hit 0x0C = false → frameOk f 0 = true → frameType f = 4 →
    Completes (.leave 0 f) s (fun t => t.prm.link = .orphan ∧ t.prm.token = s.hw.prm.token ∧ t.prm.cmd = s.hw.prm.cmd ∧
      t.evt.pend.getLsbD 61 = true)) ∧
  (∀ (s : State) (slot : Fin 16) (f : List Byte) (delay : Nat) (c : Instr), s.hw.linkRuns = true → frameOk f slot = false →
    c = .leadFrame slot ⟨f, delay⟩ ∨ c = .statusFrame slot f ∨ c = .join slot f ∨ c = .leave slot f →
    Completes c s (fun t => t.prm.err = min 0xFFFFFFFF (s.hw.prm.err + 1) ∧ t.prm.roster = s.hw.prm.roster ∧
      t.prm.link = s.hw.prm.link ∧ t.prm.cmd = s.hw.prm.cmd ∧ t.prm.peers = s.hw.prm.peers))

/-- R24, R216, R217, R218, R219, R234: a valid frame of another module in the own slot, heard while listening, is the index
conflict; listening ends as the lead's first cycle, as the follower's joining, or in the conflict that silences the module; a
refused JOIN listens again; a silent follower leaves the roster; a follower without a lead, whether admitted or not, and one
silent by its straps, is an orphan, and its timeout is an off request. -/
def Obligations.LinkAdmissionAndLoss : Prop :=
  (∀ s : State, s.hw.linkRuns = true → s.hw.prm.link = .listening → s.hw.ins.booted = true → s.hw.serviceReady = false →
    Completes (.listenComplete none) s (fun t => t.prm.link = (if s.hw.prm.role = .lead then .active else .joining) ∧
      (s.hw.prm.role = .lead → t.prm.leadOn = true ∧ t.prm.cmd = 0 ∧ t.prm.roster = 1) ∧ t.outs = s.hw.outs)) ∧
  (∀ (s : State) (ty : Byte), s.hw.linkRuns = true → s.hw.prm.link = .listening → s.hw.ins.booted = true →
    Completes (.listenComplete (some ty)) s (fun t => t.prm.conflict = true ∧ t.prm.role = .silent ∧ t.prm.tx = [] ∧
      t.evt.pend.getLsbD 60 = true)) ∧
  (∀ (s : State) (slot : Fin 16) (f : List Byte) (c : Instr), s.hw.linkRuns = true → s.hw.ins.booted = true →
    s.hw.prm.link = .listening → s.hw.hit 0x0C = false → frameOk f slot = true →
    (s.hw.prm.role = .lead → slot = 0 ∧ frameType f = 1) → (s.hw.prm.role = .follower → slot.val = s.hw.ownIndex) →
    (∃ d, c = .leadFrame slot ⟨f, d⟩) ∨ c = .statusFrame slot f ∨ c = .join slot f ∨ c = .leave slot f →
    Completes c s (fun t => t.prm.conflict = true ∧ t.prm.role = .silent ∧ t.prm.tx = [] ∧ t.evt.pend.getLsbD 60 = true)) ∧
  (∀ s : State, s.hw.linkRuns = true → s.hw.prm.link = .joining → s.hw.prm.joinWait = true →
    Completes .joinRetry s (fun t => t = { s.hw with
      prm := { s.hw.prm with link := .listening, joinWait := false, joinSent := false } })) ∧
  (∀ (s : State) (i : Fin 16), s.hw.linkRuns = true → s.hw.prm.role = .lead → i.val ≠ 0 →
    s.hw.prm.roster.getLsbD i = true →
    Completes (.followerSilent i) s (fun t => t.prm.roster = s.hw.prm.roster &&& ~~~ ((1 : BitVec 16) <<< i.val) ∧
      t.evt.pend.getLsbD 62 = true)) ∧
  (∀ s : State, s.hw.linkRuns = true → s.hw.prm.role = .follower → s.hw.prm.link ≠ .orphan →
    Completes .orphanHold s (fun t => t.prm.link = .orphan ∧ t.prm.orphanAt = s.hw.clk ∧ t.prm.token = s.hw.prm.token ∧
      t.seq = s.hw.seq ∧ t.outs = s.hw.outs ∧ t.evt.pend.getLsbD 61 = true)) ∧
  (∀ s : State, s.hw.ins.mainOn = true → s.hw.prm.conflict = false → s.hw.prm.role = .silent → s.hw.prm.link = .listening →
    Completes .orphanHold s (fun t => t.prm.link = .orphan ∧ t.prm.orphanAt = s.hw.clk ∧ t.seq = s.hw.seq ∧
      t.outs = s.hw.outs ∧ t.evt.pend.getLsbD 61 = true)) ∧
  (∀ s : State, s.hw.prm.link = .orphan → s.hw.image.prm.orphanTimeout ≠ 0 → s.hw.seq.state = .run →
    Completes .orphanTimeout s (fun t => t.prm.orphanExpired = true ∧ t.seq.state = .seqDown ∧
      t.clk = max s.hw.clk (s.hw.prm.orphanAt + 1000000 * s.hw.image.prm.orphanTimeout)))

/-- R222, R223, R228, R233: a met last entry ends the cabinet list with the token level at 255; an entry that times out is the
SEQ_TIMEOUT fault; a relay without a reply is answered RELAY_TIMEOUT; the test at the end of the CLEAR cycles ends the job
with CLEARED or LINE_HELD. That a cabinet time-out leaves no output unmet (TO_UNMET 0) is the model's reading (log 26). -/
def Obligations.CabinetListRelayAndClear : Prop :=
  (∀ (s : State) (e : CabEntry), s.hw.entryNow = some e → s.hw.entryDone e = true → e.last = true →
    Completes .cabEntryComplete s (fun t => t = { s.hw with
      prm := { s.hw.prm with cabRunning := false, token := 255 } })) ∧
  (∀ (s : State) (e : CabEntry), s.hw.entryNow = some e → s.hw.entryDone e = false → s.hw.seq.state = .run →
    s.hw.leaving = false →
    Completes .cabEntryTimeout s (fun t => t.seq.state = .faultLatched ∧ t.seq.cause = 5 ∧ t.seq.toUnmet = 0 ∧
      t.evt.pend.getLsbD 18 = true)) ∧
  (∀ (s : State) (r : Relay) (n : Nat) (pkt : List Byte), s.hw.prm.role = .lead → s.hw.prm.relay = some r →
    r.sending = false → (s.hw.mbx r.origin).inProc = some (n, pkt) →
    Completes .relayTimeout s (fun t => (t.mbx r.origin).ready =
      some (replyBytes stRelayTimeout (pkt.getD 1 0) (pkt.getD 2 0) []))) ∧
  (∀ (s : State) (j : Nat) (x : Job), s.hw.prm.clearJob = some j → s.hw.prm.clearLeft = 0 →
    s.hw.seq.state = .faultLatched → s.hw.seq.fltDrive = false → x ∈ s.hw.proto.jobs → x.num = j → x.state = .running →
    Completes (.cabClearTest true) s (fun t => t.prm.clearJob = none ∧ t.seq.state = .off ∧ t.lines.fltLow = false ∧
      { x with state := .done, status := 0, result := 0, progress := 100, data := [] } ∈ t.proto.jobs)) ∧
  (∀ (s : State) (j : Nat) (x : Job) (high : Bool), s.hw.prm.clearJob = some j → s.hw.prm.clearLeft = 0 →
    s.hw.seq.state = .faultLatched → high = false ∨ s.hw.seq.fltDrive = true →
    x ∈ s.hw.proto.jobs → x.num = j → x.state = .running →
    Completes (.cabClearTest high) s (fun t => t.prm.clearJob = none ∧ t.seq.state = .faultLatched ∧
      (s.hw.seq.fltDrive = false → t.seq.cause = 10) ∧ t.lines.fltLow = true ∧
      { x with state := .done, status := 0, result := 1, progress := 100, data := [] } ∈ t.proto.jobs))

/-! ## The Lodge -/

/-- R367–R371: the lock closes with the Lodge on VBAT or VKEEP, opens on the main supply with the main domain out of reset,
and LODGE_RESET read at that moment raises its event, is captured and brings back the factory trim and band table; a Lodge
reset clears every Lodge register: the count, the status and its source, the last synchronised set, the trim, the band table
and the selected band, the window and both alarms. R372, R373, R374, R377, R378, R382: a window of 64 s applies TRIM plus the
band's value, clamped to ±511; an armed alarm fires once its time is reached; the calendar's overflow invalidates the time and
a week without a synchronised set makes it HOLDOVER, each with TIME_STATUS. -/
def Obligations.LodgeKeepsTheTime : Prop :=
  (∀ s : State, Completes .gatehouseLockClose s (fun t => t.lodge = { s.hw.lodge with
    lock := true
    supply := if s.hw.holdup = true ∧ s.hw.ins.vbatSwitch ≠ .opened ∧ 5000 < s.hw.pwr.vbat then .vbat else .vkeep } ∧
      t.outs = s.hw.outs ∧ t.seq = s.hw.seq)) ∧
  (∀ s : State, Completes .lodgeSupplyReturn s (fun t => t = { s.hw with lodge := { s.hw.lodge with supply := .main } })) ∧
  (∀ s : State, s.hw.lodge.supply = .vbat →
    Completes .lodgeSupplyMove s (fun t => t = { s.hw with lodge := { s.hw.lodge with supply := .vkeep } })) ∧
  (∀ s : State, s.hw.lodge.supply = .vkeep → s.hw.holdup = true → s.hw.ins.vbatSwitch ≠ .opened →
    Completes .lodgeSupplyMove s (fun t => t = { s.hw with lodge := { s.hw.lodge with supply := .vbat } })) ∧
  (∀ s : State, s.hw.ins.mainOn = true → s.hw.lines.rstLow = false → s.hw.lodge.supply = .main →
    Completes .gatehouseLockOpen s (fun t => t.lodge.lock = false ∧ t.lodge.checked = true ∧
      t.lodge.ticks = s.hw.lodge.ticks ∧ t.lodge.status = s.hw.lodge.status ∧
      (s.hw.lodge.checked = false → s.hw.lodge.lodgeReset = true →
        t.lodge.trim = s.hw.factory.crystalTrim ∧ t.lodge.band = s.hw.factory.bandTable ∧
          t.evt.pend.getLsbD 42 = true ∧
          (s.hw.faults.cap = none → t.faults.cap.map (fun c => (c.source, c.addr, c.master)) = some (0xD0, 0, 0))))) ∧
  (∀ s : State, Completes .lodgeReset s (fun t => t.lodge.ticks = 0 ∧ t.lodge.status = .invalid ∧ t.lodge.source = 0 ∧
    t.lodge.lastSync = 0 ∧ t.lodge.lastSyncSource = 0 ∧ t.lodge.frac = 0 ∧ t.lodge.trim = 0 ∧ t.lodge.n = 0 ∧
    t.lodge.band = List.replicate 8 0 ∧ t.lodge.bandSel = 0 ∧ t.lodge.windowAt = s.hw.clk ∧ t.lodge.alarms = [Alarm.disarmed, Alarm.disarmed] ∧
    t.lodge.lodgeReset = true ∧ t.lodge.lock = s.hw.lodge.lock ∧ t.outs = s.hw.outs ∧ t.life = s.hw.life)) ∧
  (∀ s : State, Completes .trimWindow s (fun t =>
    t.lodge.bandSel = s.hw.bandNow ∧ t.lodge.n = clampTrim (s.hw.lodge.trim + s.hw.lodge.band.getD s.hw.bandNow 0) ∧
      t.clk = max s.hw.clk (s.hw.lodge.windowAt + 64000000) ∧ t.lodge.windowAt ≤ t.clk ∧
      t.clk < t.lodge.windowAt + 64000000 ∧ (t.lodge.windowAt - s.hw.lodge.windowAt) % 64000000 = 0 ∧
      -511 ≤ t.lodge.n ∧ t.lodge.n ≤ 511 ∧ t.outs = s.hw.outs)) ∧
  (∀ (s : State) (a : Fin 2), (s.hw.lodge.alarms.getD a Alarm.disarmed).state = .armed → s.hw.ins.mainOn = true →
    Completes (.alarmFire a) s (fun t => (t.lodge.alarms.getD a Alarm.disarmed).state = .fired ∧
      (t.lodge.alarms.getD a Alarm.disarmed).skipped = false ∧ t.evt.pend.getLsbD (40 + a) = true ∧ t.outs = s.hw.outs)) ∧
  (∀ s : State, Completes .calendarOverflow s (fun t => t.lodge.status = .invalid ∧ t.evt.pend.getLsbD 43 = true ∧
    t.outs = s.hw.outs)) ∧
  (∀ s : State, s.hw.lodge.status = .setSynced →
    Completes .holdover s (fun t => t.lodge.status = .holdover ∧ t.evt.pend.getLsbD 43 = true ∧ t.outs = s.hw.outs))

/-- R230, R369, R379: a committed TIME_SET is written to an open Lodge as the given value and the ticks since its acceptance,
and is discarded with NOT_READY while the lock is closed; a follower within one tick of its lead keeps its count, from two
ticks on it steps forward or back to the lead's, from 1 s on with a TIME_SET record, without log space a record that counts as
lost, and after the erase where no entry is erased; with the lock closed it does not step. That a stepping follower takes the
lead's status with the step, and none that is INVALID, is the model's reading (log 25). -/
def Obligations.TimeIsSetAndFollowed : Prop :=
  (∀ (s : State) (j : TimeSetJob), s.hw.lodge.timeSet = some j → j.committed = true →
    s.hw.lodge.lock = false →
    Completes .timeSetApply s (fun t => t.lodge.ticks = s.hw.timeTarget j ∧ t.lodge.source = 1 ∧ t.lodge.timeSet = none ∧
      t.lodge.status = (if j.synced then .setSynced else .setLocal) ∧ t.lodge.lodgeReset = false ∧
      (j.synced = true → t.lodge.lastSync = s.hw.timeTarget j))) ∧
  (∀ s : State, s.hw.linkRuns = true → s.hw.prm.role = .follower → s.hw.prm.link = .active →
    ticksOf s.hw.prm.leadTime.toNat ≤ s.hw.prm.ownTicks + 1 → s.hw.prm.ownTicks ≤ ticksOf s.hw.prm.leadTime.toNat + 1 →
    Completes .prmTimeCompare s (fun t => t = s.hw)) ∧
  (∀ s : State, s.hw.linkRuns = true → s.hw.prm.role = .follower → s.hw.prm.link = .active → s.hw.lodge.lock = false →
    statusOf s.hw.prm.leadTime ≠ .invalid → s.hw.prm.ownTicks + 2 ≤ ticksOf s.hw.prm.leadTime.toNat →
    ticksOf s.hw.prm.leadTime.toNat < s.hw.prm.ownTicks + 1024 →
    s.hw.lodge.ticks + ticksOf s.hw.prm.leadTime.toNat < 2 ^ 49 →
    Completes .prmTimeCompare s (fun t =>
      t.lodge.ticks = s.hw.lodge.ticks + (ticksOf s.hw.prm.leadTime.toNat - s.hw.prm.ownTicks) ∧ t.lodge.source = 2 ∧
        t.lodge.status = statusOf s.hw.prm.leadTime)) ∧
  (∀ (s : State) (j : TimeSetJob), s.hw.lodge.timeSet = some j → j.committed = true → s.hw.lodge.lock = true →
    Completes .timeSetApply s (fun t => t.lodge = { s.hw.lodge with timeSet := none } ∧ t.slots = s.hw.slots ∧
      ∀ x ∈ s.hw.proto.jobs, x.num = j.job → x.state = .running →
        { x with state := .done, status := 0x32, result := 0, progress := 100, data := be 4 j.seq } ∈ t.proto.jobs)) ∧
  (∀ s : State, s.hw.linkRuns = true → s.hw.prm.role = .follower → s.hw.prm.link = .active →
    s.hw.lodge.lock = true ∨ statusOf s.hw.prm.leadTime = .invalid →
    Completes .prmTimeCompare s (fun t => t = s.hw)) ∧
  (∀ s : State, s.hw.linkRuns = true → s.hw.prm.role = .follower → s.hw.prm.link = .active → s.hw.lodge.lock = false →
    statusOf s.hw.prm.leadTime ≠ .invalid → ticksOf s.hw.prm.leadTime.toNat + 2 ≤ s.hw.prm.ownTicks →
    s.hw.prm.ownTicks < ticksOf s.hw.prm.leadTime.toNat + 1024 →
    s.hw.prm.ownTicks ≤ s.hw.lodge.ticks + ticksOf s.hw.prm.leadTime.toNat → s.hw.lodge.ticks < 2 ^ 49 →
    Completes .prmTimeCompare s (fun t =>
      t.lodge.ticks = s.hw.lodge.ticks - (s.hw.prm.ownTicks - ticksOf s.hw.prm.leadTime.toNat) ∧ t.lodge.source = 2 ∧
        t.lodge.status = statusOf s.hw.prm.leadTime ∧ t.store.queue = s.hw.store.queue)) ∧
  (∀ s : State,
    let lead := ticksOf s.hw.prm.leadTime.toNat
    let new := s.hw.lodge.ticks + lead - s.hw.prm.ownTicks
    s.hw.linkRuns = true → s.hw.prm.role = .follower → s.hw.prm.link = .active → s.hw.lodge.lock = false →
    statusOf s.hw.prm.leadTime ≠ .invalid → s.hw.prm.ownTicks + 1024 ≤ lead ∨ lead + 1024 ≤ s.hw.prm.ownTicks →
    s.hw.prm.ownTicks ≤ s.hw.lodge.ticks + lead → new < 2 ^ 49 → s.hw.inLimp = false →
    (18 ≤ s.hw.logSpace → 3 ≤ s.hw.logErased →
      Completes .prmTimeCompare s (fun t => t.lodge.ticks = new ∧ t.lodge.source = 2 ∧
        t.lodge.status = statusOf s.hw.prm.leadTime ∧
        t.store.queue = s.hw.store.queue ++
          [logWrite (s.hw.timeRecord s.hw.now (timeValue new (statusOf s.hw.prm.leadTime) 2)) true 0 .none])) ∧
    (s.hw.logSpace < 18 →
      Completes .prmTimeCompare s (fun t => t.lodge.ticks = new ∧ t.lodge.source = 2 ∧
        t.lodge.status = statusOf s.hw.prm.leadTime ∧ t.recordsLost = s.hw.recordsLost + 1 ∧
        t.store.queue = s.hw.store.queue)) ∧
    (18 ≤ s.hw.logSpace → s.hw.logErased < 3 →
      Completes .prmTimeCompare s (fun t => t.lodge.ticks = s.hw.lodge.ticks ∧ t.lodge.status = s.hw.lodge.status ∧
        (∃ d, t.lodge.leadStep = some { value := timeValue new (statusOf s.hw.prm.leadTime) 0, delay := d, since := s.hw.clk }) ∧
        t.store = s.hw.store)))

/-! ## Metrology and the store -/

/-- R250–R253, R259: a block runs every enabled channel's two paths over the bits up to its boundary and adds its energy to
their totals, on both paths apart; a sample that straddles a boundary is split between the two blocks; a held channel's
totalizers stay; the tenth block of an interval makes its comparison due; the boundary after the last copy of a CAL_WRITE
loads its blocks, clears DIVERGE and ends its job. That bits which no command carried are free values (logs 27, 64), and how a
straddling sample is split and each result rounded (log 64), is the model's choice. -/
def Obligations.BlocksAccumulate : Prop :=
  (∀ (s : State) (cs : List (List ModBits)), s.hw.metroRuns = true →
    (∀ j, s.hw.metro.calJob = some j → j.written = false) → s.hw.shaped = true →
    Completes (.blockEnd cs) s (fun t => t.metro.block = s.hw.metro.block + 1 ∧
      t.clk = max s.hw.clk (s.hw.metro.blockStart + 100000) ∧ t.metro.blockStart = s.hw.metro.blockStart + 100000 ∧
      (∀ c : Fin 8,
        let t0 := 40 * (s.hw.metro.blockStart - s.hw.metro.start)
        let t1 := 40 * (s.hw.metro.blockStart + 100000 - s.hw.metro.start)
        let x := (s.hw.chan c).block s.hw.factory.meter t0 t1
          (blockBits (cs.getD c []) s.hw.free c ((s.hw.chan c).needs t0 t1))
        (t.chan c).imp = x.imp ∧ (t.chan c).exp = x.exp ∧ (t.chan c).cImp = x.cImp ∧ (t.chan c).cExp = x.cExp ∧
          (t.chan c).valsP = x.valsP ∧ (t.chan c).valsC = x.valsC) ∧
      (∀ c : Fin 8, (s.hw.chan c).held = true → (t.chan c).imp = (s.hw.chan c).imp ∧ (t.chan c).exp = (s.hw.chan c).exp) ∧
      (s.hw.metro.ivBlocks + 1 = 10 → t.metro.ivBlocks = 0 ∧ t.metro.compareDue = true) ∧
      (s.hw.metro.ivBlocks + 1 ≠ 10 → t.metro.ivBlocks = s.hw.metro.ivBlocks + 1) ∧
      t.outs = s.hw.outs ∧ t.life = s.hw.life)) ∧
  (∀ (s : State) (cs : List (List ModBits)) (j : CalJob), s.hw.metroRuns = true → s.hw.metro.calJob = some j →
    j.written = true → j.chan < 8 → (∀ x ∈ s.hw.slots, x.openJob ≠ some j.job) → s.hw.shaped = true →
    s.hw.faults.inject = List.replicate 15 (0, false) →
    Completes (.blockEnd cs) s (fun t => t.metro.block = s.hw.metro.block + 1 ∧ t.metro.calJob = none ∧
      (t.chan j.chan).diverge = false ∧
      (∀ x ∈ s.hw.proto.jobs, x.num = j.job → x.state = .running →
        { x with state := .done, status := 0, result := if (t.chan j.chan).check = 0 then 0 else 1, progress := 100
                 data := be 1 (t.chan j.chan).check } ∈ t.proto.jobs) ∧
      (∀ c : Fin 8, (s.hw.chan c).held = true → (t.chan c).imp = (s.hw.chan c).imp ∧ (t.chan c).exp = (s.hw.chan c).exp) ∧
      (s.hw.reaction 0x91 ≤ 1 → t.outs = s.hw.outs))) ∧
  (∀ (x : Chan) (rom : MeterRom) (t0 t1 : Nat) (bs : List ModBits), x.enabled = true → x.held = false → x.resume = false →
    belowCreep x.calP (x.run rom t0 t1 bs).2.1 = false →
    (x.block rom t0 t1 bs).imp = x.imp + (pathEnergy x.calP (x.run rom t0 t1 bs).2.1).toNat ∧
      (x.block rom t0 t1 bs).exp = x.exp + (-(pathEnergy x.calP (x.run rom t0 t1 bs).2.1)).toNat) ∧
  (∀ (x : Sample) (w t0 t1 t2 : Int), t0 ≤ t1 → t1 ≤ t2 → x.share w t0 t1 + x.share w t1 t2 = x.share w t0 t2)

/-- R259–R261, R264: an agreeing interval ends a run of disagreements; a disagreeing one raises METRO_DISAGREE, and the third
in a row holds the channel with cause DIVERGE; an interval without a complete measurement is not compared. That every later
disagreement of the run holds it again, too, is the model's reading (log 27). R243, R262, R263, R265, R281, R319: a stuck
bitstream holds its channel with cause INPUT and asks every session on it to close; the end of the cause, alone, resumes the
totalizers at the next block; 15 min of change without a base make a new base. -/
def Obligations.CrossCheckAndHolds : Prop :=
  (∀ s : State, s.hw.metroRuns = true → s.hw.metro.compareDue = true → s.hw.faults.inject = List.replicate 15 (0, false) →
    Completes .comparison s (fun t => t.metro.compareDue = false ∧ t.clk = max s.hw.clk (s.hw.metro.ivEnd + 5000) ∧
      ∀ c : Fin 8,
        ((s.hw.chan c).lSkip = true → t.chan c = s.hw.chan c) ∧
        ((s.hw.chan c).lSkip = false →
          (agrees (s.hw.chan c).lIP (s.hw.chan c).lIC && agrees (s.hw.chan c).lEP (s.hw.chan c).lEC) = true →
          (t.chan c).compared = (s.hw.chan c).compared + 1 ∧ (t.chan c).disRun = 0 ∧ (t.chan c).disagree = false ∧
            (t.chan c).held = (s.hw.chan c).held) ∧
        ((s.hw.chan c).lSkip = false →
          (agrees (s.hw.chan c).lIP (s.hw.chan c).lIC && agrees (s.hw.chan c).lEP (s.hw.chan c).lEC) = false →
          (t.chan c).compared = (s.hw.chan c).compared + 1 ∧ (t.chan c).disagreed = (s.hw.chan c).disagreed + 1 ∧
            (t.chan c).disRun = (s.hw.chan c).disRun + 1 ∧
            (t.chan c).diverge = ((s.hw.chan c).diverge || decide (3 ≤ (s.hw.chan c).disRun + 1)) ∧
            t.evt.pend.getLsbD 24 = true))) ∧
  (∀ (s : State) (c : Fin 8), s.hw.metroRuns = true → (s.hw.chan c).enabled = true → (s.hw.chan c).inputHold = false →
    Completes (.stuckBitstream c) s (fun t => (t.chan c).inputHold = true ∧ (t.chan c).held = true ∧
      (t.chan c).imp = (s.hw.chan c).imp ∧ (t.chan c).exp = (s.hw.chan c).exp ∧
      (∀ j : Fin 8, j ≠ c → t.chan j = s.hw.chan j) ∧
      ((s.hw.chan c).held = false → t.evt.pend.getLsbD 25 = true ∧
        ∀ n : Fin 128, (s.hw.slot n).open? = true → (s.hw.slot n).closePending = false →
          (s.hw.slot n).mask.getLsbD c = true → (t.slot n).closePending = true ∧ (t.slot n).reason = 5))) ∧
  (∀ (s : State) (c : Fin 8), s.hw.metroRuns = true → (s.hw.chan c).enabled = true → (s.hw.chan c).inputHold = true →
    Completes (.stuckBitstream c) s (fun t => t = s.hw)) ∧
  (∀ (s : State) (c : Fin 8), s.hw.metroRuns = true → s.hw.stuckForced c = false → (s.hw.chan c).inputHold = true →
    Completes (.inputCauseClear c) s (fun t => (t.chan c).inputHold = false ∧
      (t.chan c).diverge = (s.hw.chan c).diverge ∧ (t.chan c).calHold = (s.hw.chan c).calHold ∧
      ((s.hw.chan c).diverge = false → (s.hw.chan c).calHold = false →
        (t.chan c).held = false ∧ (t.chan c).resume = true ∧ t.evt.pend.getLsbD 26 = true) ∧
      (∀ j : Fin 8, j ≠ c → t.chan j = s.hw.chan j) ∧ t.outs = s.hw.outs ∧ t.slots = s.hw.slots)) ∧
  (∀ (s : State) (c : Fin 8) (d : Bool), s.hw.metroRuns = true →
    (s.hw.chan c).total (b2n d) ≠ s.hw.store.ckptAt.getD (2 * c.val + b2n d) 0 →
    Completes (.checkpointBase c d) s (fun t => t = s.hw.wake.newBase (2 * c.val + b2n d) ((s.hw.chan c).total (b2n d)) ∧
      t.store.ckptAt = s.hw.store.ckptAt.set (2 * c.val + b2n d) ((s.hw.chan c).total (b2n d)) ∧
      t.store.pSeq = s.hw.store.pSeq + 2 ∧ t.metro = s.hw.metro ∧
      t.store.proving.getLast?.map (fun v => (v.key, v.seq)) = some (0x310 + (2 * c.val + b2n d), s.hw.store.pSeq + 2)))

/-- R276, R283, R285, R295, R300, R313: the record of a captured slot takes the next sequence number, signed, and the slot is
CLOSED; after a failed verify the slot stays OPEN, keeps the number that it took, and nothing more is committed; a record in
wait takes its number when an entry is erased, a SESSION_CLOSE record first, whose own row ends it, another one as the write
that the store has in hand; deferred signing leaves no unsigned record that passes its CRC and no CLOSED_PF slot. That a
SESSION_CLOSE record is served first and other records wait for the store is the model's reading (log 40). -/
def Obligations.RecordsReachTheLog : Prop :=
  (∀ (s : State) (n : Fin 128), (s.hw.slot n).open? = true → (s.hw.slot n).captured = true → s.hw.pwr.commit = none →
    s.hw.slotTurn n = true → s.hw.log.waiting.any (waitsFor n) = false → 0 < s.hw.log.erased → s.hw.metering = true →
    s.hw.life.breaking = none → s.hw.seq.service.job = none → s.hw.hit 0x0F = false →
    let seq := s.hw.log.number (s.hw.slot n).seq
    Completes (.recordAppended n true) s (fun t => (t.slot n).st = .closed ∧ (t.slot n).seq = seq ∧ seq ≤ t.log.lastSeq ∧
      t.evt.pend.getLsbD 27 = true ∧
      (∃ e ∈ t.log.entries, e.seq = seq ∧ e.pos = s.hw.log.wpos ∧ e.committed = true ∧ e.signed = true) ∧
      (s.hw.log.waiting = [] → t.log.lastSeq = max s.hw.log.lastSeq seq ∧ t.log.erased = s.hw.log.erased - 1 ∧
        t.log.entries.length = s.hw.log.entries.length + 1) ∧ t.outs = s.hw.outs ∧ t.life = s.hw.life)) ∧
  (∀ (s : State) (n : Fin 128), (s.hw.slot n).open? = true → (s.hw.slot n).captured = true → s.hw.pwr.commit = none →
    s.hw.slotTurn n = true → s.hw.log.waiting.any (waitsFor n) = false → 0 < s.hw.log.erased → s.hw.hit 0x0F = false →
    Completes (.recordAppended n false) s (fun t => (t.slot n).open? = true ∧ (t.slot n).captured = true ∧
      (t.slot n).seq = s.hw.log.number (s.hw.slot n).seq ∧ t.log.lastSeq = s.hw.log.lastSeq ∧
      t.log.entries.filter (·.committed) = s.hw.log.entries.filter (·.committed))) ∧
  (∀ (s : State) (w : WaitRec) (ws : List WaitRec),
    s.hw.log.waiting = w :: ws → 0 < s.hw.log.erased → s.hw.pwr.commit = none → s.hw.sessionsDue = false →
    (∀ x ∈ w :: ws, slice x.draft 0 1 ≠ [1]) → w.purpose = .none →
    Completes .appendAfterReclaim s (fun t => t.log.waiting = ws ∧
      t.store.queue = { logWrite w.draft w.signed (s.hw.log.number w.seq) .none with phase := 1 } :: s.hw.store.queue ∧
      t.log.erased = s.hw.log.erased - 1 ∧ t.log.lastSeq = s.hw.log.lastSeq ∧
      t.log.nextSeq = max s.hw.log.nextSeq (s.hw.log.number w.seq) ∧ t.slots = s.hw.slots ∧ t.outs = s.hw.outs)) ∧
  (∀ (s : State) (w : WaitRec) (n : Fin 128),
    s.hw.log.waiting.find? (fun x => slice x.draft 0 1 == [1]) = some w → 0 < s.hw.log.erased → s.hw.pwr.commit = none →
    ube (slice w.draft 8 2) = n → s.hw.shaped = true →
    Completes .appendAfterReclaim s (fun t => t.log.waiting = s.hw.log.waiting.erase w ∧
      (t.slot n).seq = s.hw.log.number w.seq ∧ (t.slot n).st = (s.hw.slot n).st ∧ t.store = s.hw.store ∧
      (∀ m : Fin 128, m ≠ n → t.slot m = s.hw.slot m) ∧ t.outs = s.hw.outs)) ∧
  (∀ s : State, s.hw.log.signPending = true → s.hw.ins.mainOn = true → s.hw.pwr.commit = none → s.hw.life.breaking = none →
    s.hw.life.breakDue = none →
    Completes .deferredSigningEnd s (fun t => t.log.entries = s.hw.log.entries.map LogEntry.sign ∧
      t.log.signPending = false ∧ (∀ n : Nat, (t.slot n).st ≠ .closedPf) ∧
      (∀ e ∈ t.log.entries, e.committed = true → e.signed = true ∨ e.damaged = true) ∧ t.life = s.hw.life))

/-- R302, R304, R311, R312, R313, R315, R330, R522: a program operation of a parameter write moves it on, its first COMMIT
puts the first copy, its second the other copy; a configuration image becomes current with its final record; the SEAL fuse
burns when the statement is in the log; what a row programmed or erased in one step is verified first, oldest first; a failed
verify retires the sector (R305); a reclaim erase gives sixteen erased entries; compaction copies what is live and starts the
erase of a ring's oldest sector, which ends when the copies are verified. Every end of an operation is a safe point for a core
reset that waits (R464). That with a spare the program is repeated there, and that rows make short programs in one step, is
the model's choice (log 29). R326, R466, R468, R469: the scrub reports each error that it finds; an uncorrectable one in a
totalizer word holds its channel with cause CAL, one in a gauge word sets U to 10 %. -/
def Obligations.FlashAndScrub : Prop :=
  (∀ (s : State) (w : StoreWrite) (ws : List StoreWrite), s.hw.ins.mainOn = true → s.hw.pwr.commit = none →
    s.hw.fw.programming = false → s.hw.store.proving = [] → s.hw.store.queue = w :: ws → w.isLog = false → (w.phase = 0 ∨ w.phase = 2) → (∀ n img, w.purpose ≠ .image n img) →
    s.hw.hit 0x0F = false →
    Completes (.flashProgramComplete true) s (fun t => t = { s.hw with
      rst := { s.hw.rst with safe := true }
      store := { s.hw.store with queue := { w with phase := w.phase + 1 } :: ws } })) ∧
  (∀ (s : State) (w : StoreWrite) (ws : List StoreWrite), s.hw.ins.mainOn = true → s.hw.pwr.commit = none →
    s.hw.fw.programming = false → s.hw.store.proving = [] → s.hw.store.queue = w :: ws → w.isLog = false → w.phase = 1 → (∀ n img, w.purpose ≠ .image n img) →
    s.hw.hit 0x0F = false →
    Completes (.flashProgramComplete true) s (fun t =>
      let k := ({ s.hw with rst := { s.hw.rst with safe := true } } : Hw).keep w.half (mkRec w.key w.seq false w.payload)
      t = { k with store := { k.store with queue := { w with phase := 2 } :: ws } } ∧ t.store.pSeq = s.hw.store.pSeq ∧
      t.outs = s.hw.outs)) ∧
  (∀ (s : State) (w : StoreWrite) (ws : List StoreWrite) (n : Nat), s.hw.ins.mainOn = true → s.hw.pwr.commit = none →
    s.hw.fw.programming = false → s.hw.store.proving = [] → s.hw.store.queue = w :: ws → w.isLog = false → w.phase = 3 → w.purpose = .job n → s.hw.hit 0x0F = false →
    Completes (.flashProgramComplete true) s (fun t =>
      t.store = { (({ s.hw with rst := { s.hw.rst with safe := true } } : Hw).keep (!w.half)
          (mkRec w.key (w.seq + 1) true w.payload)).store with queue := ws } ∧
        (∀ j ∈ s.hw.proto.jobs, j.num = n → j.state = .running →
          { j with state := .done, status := 0, result := 0, progress := 100, data := [] } ∈ t.proto.jobs) ∧
        t.outs = s.hw.outs ∧ t.life = s.hw.life)) ∧
  (∀ (s : State) (w : StoreWrite) (ws : List StoreWrite) (n : Nat) (img : Image), s.hw.ins.mainOn = true →
    s.hw.pwr.commit = none → s.hw.fw.programming = false → s.hw.store.proving = [] → s.hw.store.queue = w :: ws → w.isLog = false → w.phase = 1 → w.purpose = .image n img →
    s.hw.hit 0x0F = false →
    Completes (.flashProgramComplete true) s (fun t => t.store.image = some img ∧ t.store.queue = ws ∧ t.image = s.hw.image ∧
      (∀ j ∈ s.hw.proto.jobs, j.num = n → j.state = .running →
        { j with state := .done, status := 0, result := 0, progress := 100, data := be 4 img.configId.toNat } ∈ t.proto.jobs) ∧
      t.outs = s.hw.outs)) ∧
  (∀ (s : State) (w : StoreWrite) (ws : List StoreWrite) (n : Nat), s.hw.ins.mainOn = true → s.hw.pwr.commit = none →
    s.hw.fw.programming = false → s.hw.store.proving = [] → s.hw.store.queue = w :: ws → w.isLog = true → w.phase = 2 → w.purpose = .sealing n → s.hw.hit 0x0F = false →
    s.hw.life.state = 2 → s.hw.life.seals < 32 → FusesInRange s.hw.life →
    Completes (.flashProgramComplete true) s (fun t => t.life.seals = s.hw.life.seals + 1 ∧ t.life.state = 3 ∧
      t.life.lastTransition = s.hw.now ∧ FusesInRange t.life ∧
      (∀ j ∈ s.hw.proto.jobs, j.num = n → j.state = .running →
        { j with state := .done, status := 0, result := 0, progress := 100
                 data := be 4 s.hw.life.keyGen ++ be 4 w.seq } ∈ t.proto.jobs))) ∧
  (∀ (s : State) (w : StoreWrite) (ws : List StoreWrite), s.hw.ins.mainOn = true → s.hw.pwr.commit = none →
    s.hw.fw.programming = false → s.hw.store.proving = [] → s.hw.store.queue = w :: ws → w.isLog = false → 0 < s.hw.store.spare → s.hw.hit 0x0F = false →
    Completes (.flashProgramComplete false) s (fun t => t.store.queue = { w with phase := w.phase / 2 * 2 } :: ws ∧
      t.store.retiredSecs = s.hw.store.retiredSecs + 1 ∧ t.store.spare = s.hw.store.spare - 1 ∧
      t.evt.pend.getLsbD 51 = true)) ∧
  (∀ (s : State) (e : EraseOp), s.hw.ins.mainOn = true → s.hw.pwr.commit = none → s.hw.life.retireLeft = 0 →
    s.hw.log.reclaiming = false → s.hw.store.erase = some e → e.ring = .config →
    (∀ v ∈ s.hw.store.proving, v.copy = true → v.ring ≠ .config) →
    Completes (.flashEraseComplete true) s (fun t => t.store.erase = none ∧ t.store.config = s.hw.store.config.eraseOldest ∧
      t.log = s.hw.log ∧ t.outs = s.hw.outs)) ∧
  (∀ (s : State) (v : Bool), s.hw.ins.mainOn = true → s.hw.pwr.commit = none → s.hw.life.retireLeft = 0 →
    s.hw.log.reclaiming = true → s.hw.lodge.leadStep = none → s.hw.log.worn.contains s.hw.log.oldest = false →
    Completes (.flashEraseComplete v) s (fun t => (v = true → t.log.erased = s.hw.log.erased + 16 ∧
        t.log.gen = s.hw.log.gen + 1 ∧ t.log.lastSeq = s.hw.log.lastSeq ∧
        t.log.entries = s.hw.log.entries.filter (fun e => 16 ≤ s.hw.log.age e.pos)) ∧
      (v = false → t.store.retiredSecs = s.hw.store.retiredSecs + 1 ∧
        t.evt.pend.getLsbD (if 0 < s.hw.store.spare then 51 else 52) = true) ∧ t.outs = s.hw.outs)) ∧
  (∀ (s : State) (v : Bool) (e : EraseOp), s.hw.ins.mainOn = true → s.hw.pwr.commit = none → s.hw.life.retireLeft = 0 →
    s.hw.log.reclaiming = false → s.hw.store.erase = some e → (∃ x ∈ s.hw.store.proving, x.copy = true ∧ x.ring = e.ring) →
    Completes (.flashEraseComplete v) s (fun t => t = { s.hw with rst := { s.hw.rst with safe := true } })) ∧
  (∀ (s : State) (e : Erased) (es : List Erased), s.hw.ins.mainOn = true → s.hw.pwr.commit = none → s.hw.life.retireLeft = 0 →
    s.hw.log.reclaiming = false → s.hw.store.erase = none → s.hw.store.erased = e :: es →
    Completes (.flashEraseComplete true) s (fun t => t = { s.hw with
      rst := { s.hw.rst with safe := true }, store := { s.hw.store with erased := es } }) ∧
    Completes (.flashEraseComplete false) s (fun t => t.store.erased.take es.length = es ∧
      t.store.retiredSecs = s.hw.store.retiredSecs + 1 ∧ t.store.spare = s.hw.store.spare - 1 ∧
      t.evt.pend.getLsbD (if 0 < s.hw.store.spare then 51 else 52) = true ∧ t.outs = s.hw.outs)) ∧
  (∀ (s : State) (v : Verify) (vs : List Verify), s.hw.ins.mainOn = true → s.hw.pwr.commit = none → s.hw.fw.programming = false →
    s.hw.store.proving = v :: vs → s.hw.hit 0x0F = false →
    Completes (.flashProgramComplete true) s (fun t => t = { s.hw with
      rst := { s.hw.rst with safe := true }, store := { s.hw.store with proving := vs } })) ∧
  (∀ (s : State) (v : Verify) (vs : List Verify), s.hw.ins.mainOn = true → s.hw.pwr.commit = none → s.hw.fw.programming = false →
    s.hw.store.proving = v :: vs → v.ring ≠ .sessionLog → s.hw.faults.inject = List.replicate 15 (0, false) →
    Completes (.flashProgramComplete false) s (fun t => t.store.retiredSecs = s.hw.store.retiredSecs + 1 ∧
      t.store.spare = s.hw.store.spare - 1 ∧
      (0 < s.hw.store.spare → t.store.proving.head? = some v ∧ t.evt.pend.getLsbD 51 = true) ∧
      (s.hw.store.spare = 0 → t.evt.pend.getLsbD 52 = true ∧
        (s.hw.faults.cap = none → t.faults.cap.map (fun c => (c.source, c.addr, c.master)) = some (0xA3, v.key, 0))))) ∧
  (∀ (s : State) (n : Nat), s.hw.ins.mainOn = true → s.hw.pwr.commit = none → s.hw.life.retireLeft = n + 2 →
    Completes (.flashEraseComplete true) s (fun t => t.life.retireLeft = n + 1 ∧ t.life.retired = s.hw.life.retired ∧
      t.store = s.hw.store)) ∧
  (∀ (s : State) (r : Ring), s.hw.ins.booted = true → s.hw.pwr.commit = none → s.hw.inLimp = false →
    s.hw.store.erase = none → s.hw.log.reclaiming = false → s.hw.life.retireLeft = 0 → r ≠ .sessionLog →
    s.hw.compactDue r = true → s.hw.faults.inject = List.replicate 15 (0, false) →
    Completes (.idleCompaction r) s (fun t => t.store.erase = some { ring := r, retire := false } ∧ t.log = s.hw.log ∧
      t.outs = s.hw.outs)) ∧
  (∀ s : State, s.hw.ins.mainOn = true → s.hw.ins.booted = true → s.hw.faults.inject = List.replicate 15 (0, false) →
    Completes (.sramScrub []) s (fun t => t = s.hw.wake)) ∧
  (∀ (s : State) (a : Nat) (c : Fin 8) (d : Bool), s.hw.ins.mainOn = true → s.hw.ins.booted = true →
    s.hw.faults.inject = List.replicate 15 (0, false) → s.hw.metering = true → s.hw.shaped = true →
    Completes (.sramScrub [{ retained := true, offset := a, uncorrectable := true, word := .totalizer c d }]) s
      (fun t => (t.chan c).calHold = true ∧ (t.chan c).held = true ∧ t.faults.cap.isSome = true ∧
        (s.hw.faults.cap = none → t.faults.cap.map (·.source) = some 0x13) ∧ ∀ j : Fin 8, j ≠ c → t.chan j = s.hw.chan j)) ∧
  (∀ (s : State) (a : Nat), s.hw.ins.mainOn = true → s.hw.ins.booted = true →
    s.hw.faults.inject = List.replicate 15 (0, false) →
    Completes (.sramScrub [{ retained := true, offset := a, uncorrectable := true, word := .gauge }]) s
      (fun t => t.gauge.u = 100000000 ∧ t.metro = s.hw.metro)) ∧
  (∀ (s : State) (a : Nat) (w : SramWord), s.hw.ins.mainOn = true → s.hw.ins.booted = true →
    s.hw.faults.inject = List.replicate 15 (0, false) →
    Completes (.sramScrub [{ retained := true, offset := a, uncorrectable := false, word := w }]) s
      (fun t => t.metro = s.hw.metro ∧ t.gauge = s.hw.gauge ∧ t.outs = s.hw.outs ∧ t.faults.cap.isSome = true))

/-! ## The charger and the gauge -/

/-- R348, R354: the charger goes from PRECONDITION to CC, from CC to CV, by termination and top-off to DONE, which anchors a
working gauge at 100 % with U at 1 %, and from DONE by recharge to CC with its timer anew. R348, R349, R353: 10 h of charge
timer, and the precondition time, are faults of the charger with reasons 1 and 2; a pack temperature in a band without
charging pauses it, one above 100 °C is the fault with reason 3, which the model takes at a band change too (log 33, its
choice). -/
def Obligations.ChargeRunsItsCourse : Prop :=
  (∀ s : State, s.hw.chg.state = .precondition → s.hw.chg.govHold = false → s.hw.ins.mainOn = true →
    Completes .preconditionDone s (fun t => t = { s.hw with
      chg := { s.hw.chg with state := .cc, timerRun := true } })) ∧
  (∀ s : State, s.hw.chg.state = .cc → s.hw.chg.govHold = false → s.hw.ins.mainOn = true →
    Completes .cvReached s (fun t => t = { s.hw with
      chg := { s.hw.chg with state := .cv, timerRun := true } })) ∧
  (∀ s : State, s.hw.chg.state = .cv → s.hw.chg.govHold = false → s.hw.ins.mainOn = true → s.hw.chg.set.tTopoff ≠ 0 →
    Completes .chargeTermination s (fun t => t = { s.hw with
      chg := { s.hw.chg with state := .topoff, timerRun := false } })) ∧
  (∀ s : State, s.hw.chg.state = .cv → s.hw.chg.govHold = false → s.hw.ins.mainOn = true → s.hw.chg.set.tTopoff = 0 →
    s.hw.holdup = true →
    Completes .chargeTermination s (fun t => t.chg.state = .done ∧ t.chg.timerRun = false ∧ t.iSet = 0 ∧
      t.evt.pend.getLsbD 36 = true ∧ (s.hw.gauges = true → t.gauge.soc = 1000000000 ∧ t.gauge.u = 10000000) ∧ t.outs = s.hw.outs)) ∧
  (∀ s : State, s.hw.chg.state = .topoff → s.hw.chg.govHold = false → s.hw.ins.mainOn = true → s.hw.holdup = true →
    Completes .topoffEnd s (fun t => t.chg.state = .done ∧ t.iSet = 0 ∧ t.evt.pend.getLsbD 36 = true ∧
      (s.hw.gauges = true → t.gauge.soc = 1000000000 ∧ t.gauge.u = 10000000) ∧ t.outs = s.hw.outs)) ∧
  (∀ s : State, s.hw.chg.state = .done → s.hw.chg.govHold = false → s.hw.ins.mainOn = true →
    Completes .recharge s (fun t => t = { s.hw with
      chg := { s.hw.chg with state := .cc, timerRun := true, timer := 0, fault := 0 } })) ∧
  (∀ s : State, s.hw.chg.timerRun = true → s.hw.chg.govHold = false → s.hw.ins.mainOn = true → s.hw.holdup = true →
    Completes .chargeTimerExpiry s (fun t => t.chg.state = .fault ∧ t.chg.fault = 1 ∧ t.chg.timerRun = false ∧ t.iSet = 0 ∧
      t.clk = s.hw.clk + (36000000000 - s.hw.chg.timer) ∧ t.evt.pend.getLsbD 37 = true ∧ t.outs = s.hw.outs)) ∧
  (∀ s : State, s.hw.chg.state = .precondition → s.hw.chg.govHold = false → s.hw.ins.mainOn = true → s.hw.holdup = true →
    Completes .preconditionTimeout s (fun t => t.chg.state = .fault ∧ t.chg.fault = 2 ∧ t.iSet = 0 ∧
      t.evt.pend.getLsbD 37 = true ∧ t.outs = s.hw.outs)) ∧
  (∀ (s : State) (temp : Int), s.hw.holdup = true → s.hw.ins.mainOn = true → s.hw.pwr.battAbsent = false → temp ≤ 10000 →
    (s.hw.chg.state = .precondition ∨ s.hw.chg.state = .cc ∨ s.hw.chg.state = .cv ∨ s.hw.chg.state = .topoff ∨
      s.hw.chg.state = .done) →
    Completes (.chargerBandChange temp) s (fun t => t.pwr.packTemp = temp ∧ t.chg.band = packBand temp s.hw.chg.band ∧
      t.chg.state = (if noCharge (packBand temp s.hw.chg.band) = true then .tempPause else s.hw.chg.state) ∧
      t.chg.timer = s.hw.chg.timer ∧ t.outs = s.hw.outs)) ∧
  (∀ (s : State) (temp : Int), s.hw.holdup = true → s.hw.ins.mainOn = true → s.hw.pwr.battAbsent = false → 10000 < temp →
    (s.hw.chg.state = .precondition ∨ s.hw.chg.state = .cc ∨ s.hw.chg.state = .cv ∨ s.hw.chg.state = .topoff ∨
      s.hw.chg.state = .done ∨ s.hw.chg.state = .tempPause) →
    Completes (.chargerBandChange temp) s (fun t => t.chg.state = .fault ∧ t.chg.fault = 3 ∧ t.evt.pend.getLsbD 37 = true)) ∧
  (∀ (was : Nat) (t : Int), t < 0 → packBand t was = 0) ∧
  (∀ (was : Nat) (t : Int), 1200 ≤ t → t ≤ 4300 → packBand t was = 2) ∧
  (∀ (was : Nat) (t : Int), 5500 < t → packBand t was = 4)

/-- R342, R348, R350, R351: 1 s after the enabling conditions returned the charger evaluates; a probe that fails makes the
pack absent with BATT_ABSENT, one that passes finds it again. That the flag of absence decides what a probe looks for is the
model's choice (log 33). R352: without host contact the safe defaults apply: I_CHG at most 500 mA, CV_REDUCE at least 50 mV,
and CHARGER_SAFE. -/
def Obligations.ChargerRestartsAndProbes : Prop :=
  (∀ s : State, s.hw.chg.restartDue = true → s.hw.chgEnabled = true → s.hw.pwr.battAbsent = true →
    Completes .chargerRestartEval s (fun t => t.chg.state = .absent ∧ t.chg.restartDue = false ∧ t.iSet = 0)) ∧
  (∀ s : State, s.hw.chg.restartDue = true → s.hw.chgEnabled = true → s.hw.pwr.battAbsent = false →
    s.hw.pwr.packTemp ≤ 10000 → noCharge (packBand s.hw.pwr.packTemp s.hw.chg.band) = true →
    Completes .chargerRestartEval s (fun t => t.chg.state = .tempPause ∧ t.chg.restartDue = false ∧ t.iSet = 0)) ∧
  (∀ s : State, s.hw.chg.restartDue = true → s.hw.chgEnabled = true → s.hw.pwr.battAbsent = false →
    s.hw.pwr.packTemp ≤ 10000 → noCharge (packBand s.hw.pwr.packTemp s.hw.chg.band) = false →
    s.hw.cellMv < s.hw.image.chem.vPre →
    Completes .chargerRestartEval s (fun t => t.chg.state = .precondition ∧ t.chg.timerRun = true ∧
      t.chg.restartDue = false)) ∧
  (∀ (s : State) (p : ProbeSample), s.hw.holdup = true → s.hw.ins.mainOn = true → s.hw.pwr.vinUsable = true →
    s.hw.pwr.onBattery = false → s.hw.pwr.handingOver = false → s.hw.gone = false → s.hw.seq.state ≠ .standby →
    s.hw.pwr.battAbsent = false →
    (p.vbat ≤ s.hw.image.cells * 1500 ∨ 1000 < p.drop ∨ p.temp = none) →
    Completes (.packProbe p) s (fun t => t.pwr.battAbsent = true ∧ t.pwr.btsOpen = p.temp.isNone ∧ t.chg.state = .absent ∧
      t.iSet = 0 ∧ t.evt.pend.getLsbD 34 = true ∧ t.outs = s.hw.outs)) ∧
  (∀ (s : State) (p : ProbeSample) (t : Int), s.hw.holdup = true → s.hw.ins.mainOn = true → s.hw.pwr.vinUsable = true →
    s.hw.pwr.onBattery = false → s.hw.pwr.handingOver = false → s.hw.gone = false → s.hw.seq.state ≠ .standby →
    s.hw.pwr.battAbsent = true →
    s.hw.image.cells * 1500 < p.vbat → p.drop ≤ 1000 → p.temp = some t → t ≤ 10000 →
    Completes (.packProbe p) s (fun u => u.pwr.battAbsent = false ∧ u.pwr.btsOpen = false ∧ u.pwr.vbat = p.vbat ∧
      u.gauge.foundWait = true ∧ u.evt.pend.getLsbD 34 = true ∧ u.outs = s.hw.outs)) ∧
  (∀ s : State, s.hw.holdup = true → s.hw.ins.mainOn = true → s.hw.ins.booted = true → s.hw.chg.safeDefaults = false →
    Completes .keepaliveTimeout s (fun t => t.chg.safeDefaults = true ∧ t.chg.set.iChg = min s.hw.image.charge.iChg 500 ∧
      t.chg.set.iChg ≤ 500 ∧ 50 ≤ t.chg.set.cvReduce ∧ t.clk = max s.hw.clk s.hw.keepaliveDue ∧
      t.evt.pend.getLsbD 38 = true ∧ t.outs = s.hw.outs))

/-- R326, R354–R359: counted charge moves SOC in the opposite direction, and widens U; a rest point on a slope anchors SOC
with U at 1 %, where the table loaded last comes in force and a stretch on which its voltage stands still anchors nothing
(R355, R358); without one for long, NO_REST is set and raised; a pack found again has U at 10 %; a checkpoint writes the gauge
state as a pair, once each half has room. How the counted charge is rounded and that the tables are open constants (log 32),
and the layout of the gauge state's bytes (log 12), is the model's choice. -/
def Obligations.GaugeCountsAndAnchors : Prop :=
  (∀ (s : State) (g : GaugeSample), s.hw.gauges = true → s.hw.gauge.fcc ≠ 0 → g.step = none →
    Completes (.gaugeUpdate g) s (fun t =>
      t.gauge.soc = min 1000000000 ((s.hw.gauge.soc : Int) - g.dq * 1000000 / s.hw.gauge.fcc).toNat ∧
        s.hw.gauge.u ≤ t.gauge.u ∧ t.gauge.dqRef = s.hw.gauge.dqRef + g.dq ∧ t.gauge.fcc = s.hw.gauge.fcc ∧
        s.hw.gauge.cycles ≤ t.gauge.cycles ∧ t.outs = s.hw.outs ∧ t.chg = s.hw.chg)) ∧
  (∀ (s : State) (v : Nat), s.hw.gauges = true → s.hw.gauge.custom = none →
    Completes (.restPoint v) s (fun t => (20 ≤ Config.ocvSlope s.hw.image.chem v →
        t.gauge.soc = min 1000000000 (Config.ocvSoc s.hw.image.chem v) ∧ t.gauge.u = 10000000 ∧ t.gauge.noRest = false ∧
          t.gauge.dqRef = 0) ∧
      (Config.ocvSlope s.hw.image.chem v < 20 → t.gauge.soc = s.hw.gauge.soc ∧ t.gauge.u = s.hw.gauge.u ∧
        t.gauge.fcc = s.hw.gauge.fcc) ∧ t.outs = s.hw.outs)) ∧
  (∀ (s : State) (v : Nat), s.hw.gauges = true →
    Completes (.restPoint v) s (fun t => t.gauge.active = s.hw.gauge.custom ∧ t.gauge.custom = s.hw.gauge.custom ∧
      (∀ ps, s.hw.gauge.custom = some ps → flatAt v ps ≠ none → t.gauge.soc = s.hw.gauge.soc ∧ t.gauge.u = s.hw.gauge.u))) ∧
  (∀ s : State, s.hw.gauges = true → s.hw.gauge.noRest = false →
    Completes .noRest s (fun t => t.gauge.noRest = true ∧ t.gauge.soc = s.hw.gauge.soc ∧ t.evt.pend.getLsbD 39 = true ∧
      t.outs = s.hw.outs)) ∧
  (∀ (s : State) (v : Nat), s.hw.gauges = true → s.hw.gauge.foundWait = true → s.hw.gauge.active = none →
    Completes (.packFoundOcv v) s (fun t => t.gauge.soc = min 1000000000 (Config.ocvSoc s.hw.image.chem v) ∧
      t.gauge.u = 100000000 ∧ t.gauge.foundWait = false ∧ t.outs = s.hw.outs)) ∧
  (∀ s : State, s.hw.holdup = true → s.hw.ins.booted = true → s.hw.pwr.commit = none → s.hw.inLimp = false →
    s.hw.halfShort = false → s.hw.gauge.learnedDue = false →
    Completes .gaugeStateCheckpoint s (fun t => t.store =
        (({ s.hw with gauge := { s.hw.gauge with stateDue := true } } : Hw).wake.pair 0x401 (s.hw.gauge.bytes s.hw.clk)).store ∧
      t.store.pSeq = s.hw.store.pSeq + 2 ∧
      t.store.proving.getLast?.map (fun v => (v.key, v.seq)) = some (0x401, s.hw.store.pSeq + 2) ∧
      t.gauge.stateDue = false ∧ t.outs = s.hw.outs)) ∧
  (∀ s : State, s.hw.holdup = true → s.hw.ins.booted = true → s.hw.pwr.commit = none → s.hw.inLimp = false →
    s.hw.halfShort = true →
    Completes .gaugeStateCheckpoint s (fun t => t.store = s.hw.store ∧ t.gauge.stateDue = true))

/-! ## The host bus, the mailboxes, the event registers, the watchdogs -/

/-- R23, R388–R390, R396, R458: a write at one of the two addresses that the straps select is carried out at its commit or not
at all. Accepted, it acknowledges, leaves the pointer behind its bytes within their page, and puts each byte of the command
mailbox at its place; with one byte refused (checkBytes, R387, R551) it is NACKed, or was acknowledged to its end where a high
byte is judged there, changes neither the pointer nor a register and is captured with that byte's pointer under REG_DENIED, or
WDT_DENIED at address V in the watchdog registers; with the bus interface down nothing is acknowledged, and in STANDBY the
address has woken the module. At any other address it does nothing. R8, R452, R453, R454: at address A a byte written to
EVT_PEND becomes the eight pending bits of its place, a source that is reserved or of an absent unit staying 0; a byte written
to EVT_MASK becomes its eight mask bits, a reserved source alone staying 0 (that bits of absent units are stored as written is
the model's reading, log 36); the core's own pending register is untouched, whatever is written; address V may not write
either. -/
def Obligations.BusWritesReachTheirBytes : Prop :=
  (∀ (s : State) (adr : BitVec 7) (ptr : Half) (data : List Byte) (c : Instr),
    (c = .hostBusWrite adr ptr data ∨ c = .evtPendWrite adr ptr data) → s.hw.straps.origin adr = none →
    Completes c s (fun t => t = s.hw)) ∧
  (∀ (s : State) (adr : BitVec 7) (o : Origin) (ptr : Half) (data : List Byte) (v : WdtView) (c : Instr),
    (c = .hostBusWrite adr ptr data ∨ c = .evtPendWrite adr ptr data) → s.hw.straps.origin adr = some o →
    s.hw.busUp = true → checkBytes o s.hw.wdtOpen ptr.toNat 0 data { w := s.hw.wdt, high := none } = .ok v →
    Completes c s (fun t => (t.mbx o).acked = true ∧
      (t.mbx o).ptr = (if data = [] then ptr.toNat else pageAddr ptr.toNat data.length) ∧
      (t.mbx o).rep = (s.hw.mbx o).rep ∧ (t.mbx o).stretching = false)) ∧
  (∀ (s : State) (adr : BitVec 7) (o : Origin) (ptr : Half) (data : List Byte) (a : Nat) (nack : Bool) (c : Instr),
    (c = .hostBusWrite adr ptr data ∨ c = .evtPendWrite adr ptr data) → s.hw.straps.origin adr = some o →
    s.hw.busUp = true → checkBytes o s.hw.wdtOpen ptr.toNat 0 data { w := s.hw.wdt, high := none } = .error (a, nack) →
    Completes c s (fun t => (t.mbx o).acked = !nack ∧
      (t.mbx o).ptr = (if (s.hw.mbx o).ptrReset = true then 0 else (s.hw.mbx o).ptr) ∧ (t.mbx o).cmd = (s.hw.mbx o).cmd ∧
      (t.mbx o).inProc = (s.hw.mbx o).inProc ∧ (t.mbx o).queued = (s.hw.mbx o).queued ∧ t.wdt = s.hw.wdt ∧
      t.evt.mask = s.hw.evt.mask ∧ (s.hw.reaction (violation o a) ≤ 1 → t.outs = s.hw.outs) ∧
      (s.hw.faults.cap = none → t.faults.cap.map (fun c => (c.source, c.addr, c.master)) =
        some (if o = .V ∧ 0x100 ≤ a ∧ a < 0x110 then 0x32 else 0x30, a, masterOf o)))) ∧
  (∀ (s : State) (adr : BitVec 7) (o : Origin) (ptr : Half) (data : List Byte) (c : Instr),
    (c = .hostBusWrite adr ptr data ∨ c = .evtPendWrite adr ptr data) → s.hw.straps.origin adr = some o →
    s.hw.busUp = false →
    Completes c s (fun t => (t.mbx o).acked = false ∧ (t.mbx o).cmd = (s.hw.mbx o).cmd ∧ t.evt.mask = s.hw.evt.mask ∧
      (s.hw.wakes = false → t.evt = s.hw.evt ∧ t.wdt = s.hw.wdt ∧ t.ins = s.hw.ins ∧ t.outs = s.hw.outs) ∧
      (s.hw.wakes = true → t.ins.mainOn = true ∧ t.ins.booted = false ∧ t.seq.state = .off ∧ t.rst.cause = 9))) ∧
  (∀ (s : State) (adr : BitVec 7) (o : Origin) (ptr : Half) (data : List Byte), s.hw.straps.origin adr = some o →
    s.hw.busUp = true → s.hw.buffersOk = true → 0x1000 ≤ ptr.toNat → ptr.toNat < 0x1100 → data.length ≤ 64 →
    Completes (.hostBusWrite adr ptr data) s (fun t => (t.mbx o).acked = true ∧
      (∀ i b, data[i]? = some b → Cells.get 0 (t.mbx o).cmd (pageAddr ptr.toNat i - 0x1000) = b) ∧
      (∀ a, (∀ i, i < data.length → a ≠ pageAddr ptr.toNat i - 0x1000) →
        Cells.get 0 (t.mbx o).cmd a = Cells.get 0 (s.hw.mbx o).cmd a) ∧
      t.evt.pend = s.hw.evt.pend ∧ t.wdt = s.hw.wdt ∧ t.outs = s.hw.outs)) ∧
  (∀ (s : State) (adr : BitVec 7) (o : Origin) (ptr : Half) (b : Byte) (bs : List Byte), s.hw.straps.origin adr = some o →
    s.hw.busUp = true → writable o (pageAddr ptr.toNat 0) = false →
    (pageAddr ptr.toNat 0 < 0x100 ∨ 0x110 ≤ pageAddr ptr.toNat 0 ∨ o = .V) →
    Completes (.hostBusWrite adr ptr (b :: bs)) s (fun t => (t.mbx o).acked = false ∧ (t.mbx o).cmd = (s.hw.mbx o).cmd ∧
      t.wdt = s.hw.wdt ∧ t.evt.mask = s.hw.evt.mask)) ∧
  (∀ (p : Straps) (adr : BitVec 7), p.origin adr =
    (if adr = 0x58 + 2 * p.addr.setWidth 7 then some .A else if adr = 0x59 + 2 * p.addr.setWidth 7 then some .V else none)) ∧
  (∀ (s : State) (adr : BitVec 7) (i : Fin 8) (b : Byte), s.hw.straps.origin adr = some .A → s.hw.busUp = true →
    Completes (.evtPendWrite adr (BitVec.ofNat 16 (0x80 + i.val)) [b]) s (fun t =>
      (∀ j : Fin 8, t.evt.pend.getLsbD (8 * (7 - i.val) + j.val) =
        (b.getLsbD j.val && !s.hw.mute (8 * (7 - i.val) + j.val))) ∧
      (∀ k : Fin 64, k.val / 8 ≠ 7 - i.val → t.evt.pend.getLsbD k = s.hw.evt.pend.getLsbD k) ∧
      t.evt.core = s.hw.evt.core ∧ t.evt.mask = s.hw.evt.mask ∧ t.evt.cnt = s.hw.evt.cnt ∧ t.outs = s.hw.outs)) ∧
  (∀ (s : State) (adr : BitVec 7) (i : Fin 8) (b : Byte), s.hw.straps.origin adr = some .A → s.hw.busUp = true →
    Completes (.hostBusWrite adr (BitVec.ofNat 16 (0x88 + i.val)) [b]) s (fun t =>
      (∀ j : Fin 8, t.evt.mask.getLsbD (8 * (7 - i.val) + j.val) =
        (b.getLsbD j.val && !reservedEvents.getLsbD (8 * (7 - i.val) + j.val))) ∧
      (∀ k : Fin 64, k.val / 8 ≠ 7 - i.val → t.evt.mask.getLsbD k = s.hw.evt.mask.getLsbD k) ∧
      t.evt.core = s.hw.evt.core ∧ t.evt.pend = s.hw.evt.pend ∧ t.evt.cnt = s.hw.evt.cnt ∧ t.outs = s.hw.outs)) ∧
  (∀ (s : State) (adr : BitVec 7) (data : List Byte), s.hw.straps.origin adr = some .A → s.hw.busUp = true →
    data.length = 8 →
    Completes (.evtPendWrite adr 0x80 data) s (fun t => (t.mbx .A).acked = true ∧ t.evt.core = s.hw.evt.core ∧
      t.evt.mask = s.hw.evt.mask ∧
      (∀ i j : Fin 8, t.evt.pend.getLsbD (8 * (7 - i.val) + j.val) =
        ((data.getD i.val 0).getLsbD j.val && !s.hw.mute (8 * (7 - i.val) + j.val))))) ∧
  (∀ (s : State) (adr : BitVec 7) (i : Fin 16) (b : Byte), s.hw.straps.origin adr = some .V → s.hw.busUp = true →
    Completes (.evtPendWrite adr (BitVec.ofNat 16 (0x80 + i.val)) [b]) s (fun t => (t.mbx .V).acked = false ∧
      t.evt.mask = s.hw.evt.mask ∧
      (s.hw.faults.cap = none → t.faults.cap.map (fun c => (c.source, c.addr, c.master)) =
        some (0x30, 0x80 + i.val, 2))))

/-- R23, R391, R392, R396: a read delivers the bytes of its pointer and the ones after it, moves the pointer past them, and
takes no reply and clears no event by itself (that the reply is taken by the row REPLY_TAKEN is the model's choice, log 51); a
bus interface that is down does not acknowledge and delivers 0xFF; a read at an address that is not the module's does nothing.
R17, R394, R395, R396: each protocol error discards its transaction and is captured under BUS_PROTO with the pointer of that
moment, and with the bus interface down nothing is heard of it; a match of one of the module's addresses in IDLE stretches SCL
and wakes the fast clock, in STANDBY it starts the boot, elsewhere it does nothing; the end of the stretch without a wake is a
NACK, or a read of 0xFF. -/
def Obligations.BusReadsAndErrors : Prop :=
  (∀ (s : State) (adr : BitVec 7) (p : Option Half) (n : Nat), s.hw.straps.origin adr = none →
    Completes (.readSnapshot adr p n) s (fun t => t = s.hw)) ∧
  (∀ (s : State) (adr : BitVec 7) (o : Origin) (p : Half) (n : Nat), s.hw.straps.origin adr = some o → s.hw.busUp = true →
    Completes (.readSnapshot adr (some p) n) s (fun t => (t.mbx o).acked = true ∧
      (t.mbx o).readBytes = (List.range n).map (fun i => (s.hw.start o).readByte o ((p.toNat + i) % 65536)) ∧
      (t.mbx o).ptr = (p.toNat + n) % 65536 ∧ (t.mbx o).taken = (s.hw.mbx o).taken ∧ t.evt = s.hw.evt ∧
      t.outs = s.hw.outs ∧ t.life = s.hw.life)) ∧
  (∀ (s : State) (adr : BitVec 7) (o : Origin) (n : Nat), s.hw.straps.origin adr = some o → s.hw.busUp = true →
    Completes (.readSnapshot adr none n) s (fun t =>
      (t.mbx o).ptr = ((if (s.hw.mbx o).ptrReset then 0 else (s.hw.mbx o).ptr) + n) % 65536 ∧
      (t.mbx o).readBytes.length = n ∧ (t.mbx o).acked = true ∧ t.evt = s.hw.evt ∧ t.outs = s.hw.outs)) ∧
  (∀ (s : State) (adr : BitVec 7) (o : Origin) (p : Option Half) (n : Nat), s.hw.straps.origin adr = some o →
    s.hw.busUp = false →
    Completes (.readSnapshot adr p n) s (fun t => (t.mbx o).acked = false ∧
      (t.mbx o).readBytes = List.replicate n 0xFF ∧ (s.hw.wakes = false → t.evt = s.hw.evt ∧ t.ins = s.hw.ins) ∧
      (s.hw.wakes = true → t.ins.mainOn = true ∧ t.seq.state = .off ∧ t.rst.cause = 9))) ∧
  (∀ (h : Hw) (o : Origin) (p : Nat), 0x50 ≤ p → p < 0x80 → h.readByte o p = 0) ∧
  (∀ (h : Hw) (o : Origin) (p : Nat), 0x2800 ≤ p → h.readByte o p = 0) ∧
  (∀ (h : Hw) (p : Nat), 0x100 ≤ p → p < 0x110 → h.readByte .V p = 0) ∧
  (∀ (s : State) (o : Origin) (p : Half) (c : Instr),
    (c = .repeatedStartInAck o p ∨ c = .startInsideByte o p ∨ c = .stopInsideByte o p ∨ c = .stalledTransaction o p) →
    s.hw.busUp = true →
    Completes c s (fun t => (t.mbx o).acked = false ∧ (t.mbx o).cmd = (s.hw.mbx o).cmd ∧
      (t.mbx o).inProc = (s.hw.mbx o).inProc ∧ t.evt.mask = s.hw.evt.mask ∧ t.wdt = s.hw.wdt ∧ t.life = s.hw.life ∧
      (s.hw.faults.cap = none → t.faults.cap.map (fun c => (c.source, c.addr, c.master)) =
        some (0x40, p.toNat, masterOf o)))) ∧
  (∀ (s : State) (o : Origin), s.hw.busUp = true → (s.hw.mbx o).ptrReset = false →
    Completes (.onePointerByte o) s (fun t => (t.mbx o).acked = false ∧ (t.mbx o).ptr = (s.hw.mbx o).ptr ∧
      (t.mbx o).cmd = (s.hw.mbx o).cmd ∧ t.wdt = s.hw.wdt ∧
      (s.hw.faults.cap = none → t.faults.cap.map (fun c => (c.source, c.addr, c.master)) =
        some (0x40, (s.hw.mbx o).ptr, masterOf o)))) ∧
  (∀ (s : State) (o : Origin) (p : Half) (c : Instr),
    (c = .repeatedStartInAck o p ∨ c = .startInsideByte o p ∨ c = .stopInsideByte o p ∨ c = .stalledTransaction o p ∨
      c = .onePointerByte o) → s.hw.busUp = false → Completes c s (fun t => t = s.hw)) ∧
  (∀ (s : State) (adr : BitVec 7) (o : Origin), s.hw.straps.origin adr = some o → s.hw.wakes = true →
    Completes (.addressMatchWake adr) s (fun t => t.ins.mainOn = true ∧ t.ins.booted = false ∧ t.seq.state = .off ∧
      t.rst.cause = 9 ∧ (t.mbx o).stretching = true)) ∧
  (∀ (s : State) (adr : BitVec 7) (o : Origin), s.hw.straps.origin adr = some o → s.hw.idle.idle = true →
    s.hw.busUp = true →
    Completes (.addressMatchWake adr) s (fun t => t.idle.idle = false ∧ (t.mbx o).stretching = true ∧ t.seq = s.hw.seq ∧
      t.outs = s.hw.outs)) ∧
  (∀ (s : State) (adr : BitVec 7), s.hw.straps.origin adr = none →
    Completes (.addressMatchWake adr) s (fun t => t = s.hw)) ∧
  (∀ (s : State) (o : Origin), (s.hw.mbx o).stretching = true →
    Completes (.wakeTimeout o) s (fun t => (t.mbx o).stretching = false ∧ (t.mbx o).acked = false ∧
      (∃ n, (t.mbx o).readBytes = List.replicate n 0xFF) ∧
      (t.mbx o).cmd = (s.hw.mbx o).cmd ∧ t.outs = s.hw.outs))

/-- R406, R409–R412, R507: a submission takes the packet at an idle address in process, queues it behind another, sets OVERRUN
with both taken, and ignores a tag already there; a tag that does not match is answered BAD_CRC and is no accepted submission
(that the answer takes a place of its address as a packet's does is the model's choice, log 48); a reply is placed, byte for
byte, once the one before is taken, unless parity errors end its transfer, and taking it leaves room for the next. -/
def Obligations.SubmissionsAndReplies : Prop :=
  (∀ (s : State) (o : Origin) (g : Byte), s.hw.busUp = true → (s.hw.mbx o).inProc = none → (s.hw.mbx o).queued = none →
    (s.hw.mbx o).tagMatches g = true → s.hw.hit 0x0F = false →
    Completes (.cmdSubmit o g) s (fun t =>
      (t.mbx o).inProc = some (s.hw.proto.submissions, Cells.read 0 (s.hw.mbx o).cmd 0 256) ∧ (t.mbx o).queued = none ∧
        (t.mbx o).lastTag = g ∧ (t.mbx o).coreReset = false ∧ (t.mbx o).overrun = false ∧ t.proto.submissions = s.hw.proto.submissions + 1 ∧
        ((s.hw.mbx o).replyState = .idle → (t.mbx o).replyState = .busy))) ∧
  (∀ (s : State) (o : Origin) (g : Byte), s.hw.busUp = true → (s.hw.mbx o).inProc = none → (s.hw.mbx o).queued = none →
    (s.hw.mbx o).tagMatches g = false → s.hw.serves = true → s.hw.bootWork = false → s.hw.pwr.commit = none →
    (s.hw.mbx (Origin.other o)).inProc = none → s.hw.reaction 0x41 ≤ 1 →
    Completes (.cmdSubmit o g) s (fun t =>
      (∃ md, (t.mbx o).ready = some (replyBytes stBadCrc g md [])) ∧ (t.mbx o).lastTag = (s.hw.mbx o).lastTag ∧
        (t.mbx o).overrun = (s.hw.mbx o).overrun ∧ (t.mbx o).coreReset = (s.hw.mbx o).coreReset ∧
        (t.mbx o).replyState = (s.hw.mbx o).replyState ∧ t.outs = s.hw.outs)) ∧
  (∀ (s : State) (o : Origin) (g : Byte) (p : Nat × List Byte), s.hw.busUp = true → (s.hw.mbx o).inProc = some p →
    (s.hw.mbx o).queued = none → p.2.getD 1 0 ≠ g → (s.hw.mbx o).tagMatches g = true → s.hw.hit 0x0F = false →
    Completes (.cmdSubmit o g) s (fun t => (t.mbx o).inProc = some p ∧
      (t.mbx o).queued = some (s.hw.proto.submissions, (s.hw.mbx o).entry g) ∧ (t.mbx o).lastTag = g ∧
      t.outs = s.hw.outs)) ∧
  (∀ (s : State) (o : Origin) (g : Byte) (p q : Nat × List Byte), s.hw.busUp = true → (s.hw.mbx o).inProc = some p →
    (s.hw.mbx o).queued = some q → p.2.getD 1 0 ≠ g → q.2.getD 1 0 ≠ g →
    Completes (.cmdSubmit o g) s (fun t => (t.mbx o).overrun = true ∧ (t.mbx o).inProc = some p ∧
      (t.mbx o).queued = some q ∧ (t.mbx o).lastTag = (s.hw.mbx o).lastTag)) ∧
  (∀ (s : State) (o : Origin) (g : Byte) (p : Nat × List Byte), s.hw.busUp = true → (s.hw.mbx o).inProc = some p →
    p.2.getD 1 0 = g →
    Completes (.cmdSubmit o g) s (fun t => (t.mbx o).inProc = some p ∧ (t.mbx o).queued = (s.hw.mbx o).queued ∧
      (t.mbx o).overrun = (s.hw.mbx o).overrun)) ∧
  (∀ (s : State) (o : Origin) (r : List Byte), s.hw.ins.booted = true → s.hw.gone = false → s.hw.rst.coreReq = none →
    (s.hw.mbx o).taken = true → (s.hw.mbx o).ready = some r → (s.hw.mbx o).judged = true → (s.hw.mbx o).queued = none →
    (s.hw.mbx o).standbyReply = false →
    Completes (.replyPlaced o) s (fun t => (t.mbx o).inProc = none ∧ (t.mbx o).ready = none ∧
      ((s.hw.transfer 1 r.length).2 = true → Cells.read 0 (t.mbx o).rep 0 r.length = r ∧
        (t.mbx o).replyState = .ready ∧ (t.mbx o).replyTag = r.getD 1 0 ∧ (t.mbx o).taken = false) ∧
      ((s.hw.transfer 1 r.length).2 = false → (t.mbx o).rep = (s.hw.mbx o).rep ∧ (t.mbx o).taken = true))) ∧
  (∀ (s : State) (o : Origin), s.hw.busUp = true → (s.hw.mbx o).taken = false → (s.hw.mbx o).replyState = .ready →
    Completes (.replyTaken o) s (fun t => (t.mbx o).taken = true ∧ (t.mbx o).replyState = .ready ∧
      (t.mbx o).rep = (s.hw.mbx o).rep ∧ (t.mbx o).inProc = (s.hw.mbx o).inProc))

/-- R458–R463, R551: WDT_CTRL sets ENABLE, LOCK and WINDOW and starts the count, or stops it and clears WARN; the key is
armed, then served in the open window, which starts a period and clears WARN; a first expiry warns, a second restarts the
host; HRSTn is released with a grace period. That the second expiry clears WARN is the model's reading (log 49). R417, R418:
the unlock ends 15 min after its last command, the lockout 60 s after the last wrong answer. -/
def Obligations.WatchdogAndUnlockTimers : Prop :=
  (∀ (s : State) (c : Byte), s.hw.busUp = true → s.hw.wdt.enable = false → s.hw.wdt.lock = false → c.getLsbD 0 = true →
    c.toNat / 4 % 4 = s.hw.wdt.window → s.hw.wdt.window ≠ 0 →
    Completes (.wdtEnable c) s (fun t => t.wdt.enable = true ∧ t.wdt.lock = c.getLsbD 1 ∧
      t.wdt.start = (if s.hw.seq.hrst = true then s.hw.clk else s.hw.wdt.start) ∧
      t.wdt.grace = false ∧ (t.mbx .A).acked = true ∧ t.outs = s.hw.outs ∧ t.seq = s.hw.seq)) ∧
  (∀ (s : State) (c : Byte), s.hw.busUp = true → s.hw.wdt.enable = true → s.hw.wdt.lock = false → c.getLsbD 0 = false →
    c.toNat / 4 % 4 ≠ 0 →
    Completes (.wdtDisable c) s (fun t => t.wdt.enable = false ∧ t.wdt.warn = false ∧ t.wdt.grace = false ∧
      t.wdt.window = c.toNat / 4 % 4 ∧ (t.mbx .A).acked = true ∧ t.outs = s.hw.outs)) ∧
  (∀ (s : State) (c : Byte), s.hw.busUp = true → s.hw.wdt.enable = true → s.hw.wdt.lock = true → c.getLsbD 0 = false →
    Completes (.wdtDisable c) s (fun t => t.wdt = s.hw.wdt ∧ (t.mbx .A).acked = false)) ∧
  (∀ (s : State) (adr : BitVec 7) (a : Fin 16) (b : Byte), s.hw.straps.origin adr = some .V → s.hw.busUp = true →
    Completes (.hostBusWrite adr (BitVec.ofNat 16 (0x100 + a.val)) [b]) s (fun t => t.wdt = s.hw.wdt ∧
      (t.mbx .V).acked = false ∧
      (s.hw.faults.cap = none → t.faults.cap.map (fun c => (c.source, c.addr)) = some (0x32, 0x100 + a.val)))) ∧
  (∀ s : State, s.hw.busUp = true →
    Completes .wdtKeyArm s (fun t => t.wdt = { s.hw.wdt with keyArmed := true } ∧ t.outs = s.hw.outs)) ∧
  (∀ s : State, s.hw.busUp = true → s.hw.wdt.keyArmed = true → s.hw.wdtOpen = true →
    Completes (.wdtService 0x5A) s (fun t => t.wdt.start = s.hw.clk ∧ t.wdt.keyArmed = false ∧ t.wdt.warn = false ∧
      t.wdt.grace = false ∧ t.wdt.enable = true ∧ t.seq = s.hw.seq ∧ t.outs = s.hw.outs)) ∧
  (∀ (s : State) (v : Byte), s.hw.busUp = true → v ≠ 0xA5 → v ≠ 0x5A → s.hw.wdtCounts = true → s.hw.wdt.warn = false →
    Completes (.wdtService v) s (fun t => t.wdt.warn = true ∧ t.wdt.keyArmed = false ∧ t.wdt.start = s.hw.clk ∧
      t.wdt.earlyCount = min 255 (s.hw.wdt.earlyCount + 1) ∧ t.evt.pend.getLsbD 46 = true ∧
      t.evt.pend.getLsbD 44 = true ∧ t.seq = s.hw.seq)) ∧
  (∀ s : State, s.hw.wdtCounts = true → s.hw.wdt.grace = false → s.hw.wdt.warn = false →
    Completes .wdtExpiry s (fun t => t.wdt.warn = true ∧ t.wdt.keyArmed = s.hw.wdt.keyArmed ∧ t.clk = max s.hw.clk (s.hw.wdt.start + 1000 * s.hw.wdt.period) ∧
      t.wdt.start = t.clk ∧ t.evt.pend.getLsbD 44 = true ∧ t.seq = s.hw.seq)) ∧
  (∀ s : State, s.hw.wdtCounts = true → s.hw.wdt.grace = true → s.hw.wdt.warn = false →
    Completes .graceExpiry s (fun t => t.wdt.warn = true ∧ t.wdt.grace = false ∧
      t.clk = max s.hw.clk (s.hw.wdt.start + 1000000 * s.hw.wdt.graceS) ∧ t.evt.pend.getLsbD 44 = true)) ∧
  (∀ s : State, s.hw.wdtCounts = true → s.hw.wdt.grace = false → s.hw.wdt.warn = true → s.hw.seq.state = .run →
    Completes .wdtExpiry s (fun t => t.seq.hrst = false ∧ t.wdt.restarting = true ∧ t.wdt.warn = false ∧
      t.wdt.restartCount = min 255 (s.hw.wdt.restartCount + 1) ∧ t.evt.pend.getLsbD 45 = true)) ∧
  (∀ s : State, s.hw.seq.hostStepsDone = true → s.hw.seq.state = .run → s.hw.seq.hrst = false →
    Completes .hrstnRelease s (fun t => t.seq.hrst = true ∧ t.seq.hostStepsDone = false ∧ t.wdt.warn = false ∧
      t.wdt.grace = s.hw.wdt.enable ∧ t.wdt.restarting = false ∧
      t.clk = max s.hw.clk (s.hw.wdt.start + 1000 * s.hw.wdt.hrstWidth) ∧ t.outs = s.hw.outs)) ∧
  (∀ s : State, s.hw.proto.unlock.unlocked = true → s.hw.prm.unlock.unlocked = false →
    Completes .unlockTimeout s (fun t => t.proto.unlock.unlocked = false ∧
      t.clk = max s.hw.clk (s.hw.proto.unlock.lastAt + 900000000) ∧ t.outs = s.hw.outs ∧ t.life = s.hw.life)) ∧
  (∀ s : State, s.hw.proto.unlock.locked = true → s.hw.prm.unlock.locked = false →
    Completes .unlockLockoutEnd s (fun t => t.proto.unlock.locked = false ∧ t.proto.unlock.wrong = 0 ∧
      t.clk = max s.hw.clk (s.hw.proto.unlock.lockedAt + 60000000) ∧ t.outs = s.hw.outs ∧ t.life = s.hw.life))

/-! ## Resets, the life cycle, the engines -/

/-- R17, R511, R512, R516, R517: RSTn from a running main domain closes the sessions with reason FAULT and asks for the
restart; the reset then starts the boot with every output off and high-impedance, HRSTn and PGOOD low and FLTn released, the
bus not answering, no job and no event pending, and keeps totals, life cycle and log; in the boot after a POR the reference is
off and the straps are to be sampled again (R22, R169); in STANDBY RSTn resets at once, and the enabled wake sources start the
boot with RESET_CAUSE 0x09. What RSTn does within the boot of a POR (log 66), and that a seal break in wait is sampled anew by
the boot (log 41), is the model's reading. -/
def Obligations.RestartsResetTheMainDomain : Prop :=
  (∀ s : State, s.hw.lines.rstLow = false → s.hw.ins.mainOn = true → s.hw.ins.booted = true → s.hw.pwr.commit = none →
    s.hw.gone = false → s.hw.rst.restart ≠ some .rstn →
    Completes .rstn s (fun t => t.lines.rstLow = true ∧ t.rst.restart = some .rstn ∧ t.ins.booted = true ∧
      (∀ n : Fin 128, (s.hw.slot n).open? = true → (s.hw.slot n).closePending = false →
        (t.slot n).closePending = true ∧ (t.slot n).reason = 4) ∧
      (s.hw.seq.state = .run → t.seq.state = .seqDown) ∧ t.life = s.hw.life)) ∧
  (∀ s : State, s.hw.lines.rstLow = false → s.hw.seq.state = .standby → s.hw.pwr.commit = none →
    s.hw.ins.mainOn = false → s.hw.leaving = false →
    Completes .rstn s (fun t => t.lines.rstLow = true ∧ t.ins.mainOn = true ∧ t.ins.booted = false ∧ t.rst.cause = 2 ∧
      t.seq.state = .off)) ∧
  (∀ s : State, s.hw.lines.rstLow = false → s.hw.wakes = false → s.hw.ins.mainOn = true → s.hw.ins.booted = false →
    s.hw.ins.porCause ≠ 0 → s.hw.pwr.commit = none → s.hw.gone = false →
    Completes .rstn s (fun t => t.lines.rstLow = true ∧ t.ins = { s.hw.ins with strapsDone := false } ∧ t.adc.ref = .off ∧
      t.rst = s.hw.rst ∧ t.life = s.hw.life)) ∧
  (∀ s : State, Completes .rstnRelease s (fun t => t.lines = { s.hw.lines with rstLow := false } ∧ t.ins = s.hw.ins ∧
    t.outs = s.hw.outs ∧ t.seq = s.hw.seq ∧
    (s.hw.ins.mainOn = true → s.hw.adc.ref = .off → t.adc.ref = .settling) ∧
    (s.hw.ins.mainOn = false ∨ s.hw.adc.ref ≠ .off → t.adc = s.hw.adc ∧ t.metro = s.hw.metro))) ∧
  (∀ (s : State) (k : RestartKind), s.hw.rst.restart = some k → s.hw.nRes = 0 → s.hw.seq.state = .off →
    s.hw.life.breaking = none → s.hw.pwr.commit = none → s.hw.gone = false →
    Completes .restartMainReset s (fun t => t.ins.mainOn = true ∧ t.ins.booted = false ∧
      t.rst.cause = (if k = .rstn then 2 else 3) ∧ t.rst.restart = none ∧ t.seq.state = .off ∧ t.seq.hrst = false ∧
      (∀ j, (t.out j).on = false ∧ t.outDrive j = .highZ) ∧ t.hrstDriven = t.powered ∧ t.pgoodDriven = t.powered ∧
      t.fltDriven = false ∧ (∀ b, t.meterClock b = (if t.metering && t.powered then .low else .highZ)) ∧ t.busUp = false ∧ t.proto.jobs = [] ∧ t.evt.pend = 0 ∧ t.evt.mask = Hw.reset.evt.mask ∧
      (∀ c, (t.chan c).imp = (s.hw.chan c).imp ∧ (t.chan c).exp = (s.hw.chan c).exp) ∧
      t.life = { s.hw.life with breakDue := none } ∧
      (s.hw.store.queue = [] → s.hw.log.reclaiming = false → t.log.entries = s.hw.log.entries) ∧
      t.lodge.ticks = s.hw.lodge.ticks)) ∧
  (∀ (s : State) (w : WakeSource), s.hw.seq.state = .standby → s.hw.pwr.commit = none → s.hw.ins.mainOn = false →
    s.hw.leaving = false →
    (w = .address ∨ (w = .en ∧ s.hw.seq.wake.getLsbD 0 = true) ∨ (w = .alarm ∧ s.hw.seq.wake.getLsbD 1 = true)) →
    Completes (.standbyWake w) s (fun t => t.ins.mainOn = true ∧ t.ins.booted = false ∧ t.seq.state = .off ∧
      t.rst.cause = 9 ∧ t.life = { s.hw.life with breakDue := none } ∧ t.log = s.hw.log)) ∧
  (∀ (s : State) (w : WakeSource), s.hw.seq.state = .standby → s.hw.pwr.commit = none → s.hw.ins.mainOn = false →
    s.hw.leaving = false →
    ((w = .en ∧ s.hw.seq.wake.getLsbD 0 = false) ∨ (w = .alarm ∧ s.hw.seq.wake.getLsbD 1 = false)) →
    Completes (.standbyWake w) s (fun t => t = s.hw))

/-- R418, R420, R464, R473, R481, R518: a core watchdog expiry asks for a core reset; the reset waits for the end of the
program or erase in progress, and clears the mailboxes with CORE_RESET, the unlock and the staging buffer, and the outputs,
the sequencer, the Lodge, the life cycle and the writes of the store go on; the third within 60 s leads to LIMP. That the
reset is carried out in one step is the model's choice (log 19). R43, R44, R472: the oldest error in wait becomes the newest
log entry; SERVICE_PREPARE ends with SERVICE_READY and no on request latched once its writes are verified, from FAULT_LATCHED
by way of OFF; that this holds for a latch with cause POLICY too is the model's reading (log 72). -/
def Obligations.CoreResetsLeaveTheHardware : Prop :=
  (∀ s : State, s.hw.ins.mainOn = true → s.hw.ins.booted = true → s.hw.pwr.commit = none → s.hw.rst.coreReq = none →
    Completes .coreWatchdogExpiry s (fun t => t = { s.hw with rst := { s.hw.rst with coreReq := some 5, safe := false } })) ∧
  (∀ (s : State) (q : Nat) (f : Fw), s.hw.rst.coreReq = some q → s.hw.ins.mainOn = true → s.hw.ins.booted = true →
    s.hw.pwr.commit = none → s.hw.inLimp = false → s.hw.fw.activatePending = false → s.hw.fw.start = some f → s.hw.life.retired = false →
    s.hw.flashBusy = false ∨ s.hw.rst.safe = true → s.hw.fw.programming = false → s.hw.bulk.holds 14 = false →
    s.hw.lodge.lodgeReset = false →
    (s.hw.rst.history.filter (fun i => s.hw.clk ≤ i + 60000000)).length < 2 →
    Completes .coreResetExecute s (fun t => t.rst.coreReq = none ∧ t.rst.cause = (if f.trialRun = true then 0x0B else q) ∧
      t.proto.a.coreReset = true ∧ t.proto.v.coreReset = true ∧ t.proto.a.inProc = none ∧ t.proto.v.inProc = none ∧
      t.proto.unlock.unlocked = false ∧ t.store = { s.hw.store with staging := [] } ∧
      (∀ j ∈ t.proto.jobs, j.byCore = true → j.state ≠ .running) ∧ t.outs = s.hw.outs ∧ t.seq.state = s.hw.seq.state ∧
      t.lodge.ticks = s.hw.lodge.ticks ∧ t.lodge.status = s.hw.lodge.status ∧ t.bulk.sram = [] ∧
      t.life = { s.hw.life with retireBoot := decide (0 < s.hw.life.retireLeft) } ∧ (q = 5 → t.evt.pend.getLsbD 47 = true))) ∧
  (∀ (s : State) (q : Nat), s.hw.rst.coreReq = some q → s.hw.ins.mainOn = true → s.hw.ins.booted = true →
    s.hw.pwr.commit = none → s.hw.inLimp = false → s.hw.fw.activatePending = false →
    s.hw.flashBusy = false ∨ s.hw.rst.safe = true → s.hw.fw.programming = false →
    2 ≤ (s.hw.rst.history.filter (fun i => s.hw.clk ≤ i + 60000000)).length →
    Completes .coreResetExecute s (fun t => t.inLimp = true ∧ t.rst.cause = 0x0A ∧ t.gov.vinW = 150 ∧
      t.life.breaks = s.hw.life.breaks ∧ t.life.seals = s.hw.life.seals)) ∧
  (∀ (s : State) (q : Nat), s.hw.rst.coreReq = some q →
    s.hw.flashBusy = true ∧ s.hw.rst.safe = false ∨ s.hw.fw.programming = true →
    Completes .coreResetExecute s (fun t => t = s.hw)) ∧
  (∀ s : State, s.hw.rst.fwReset = true → s.hw.pwr.commit = none → s.hw.rst.coreReq = none →
    Completes .fwActivateReset s (fun t => t = { s.hw with
      rst := { s.hw.rst with fwReset := false, coreReq := some 0x0B, safe := false } })) ∧
  (∀ s : State, s.hw.fw.trialRun = true → s.hw.ins.booted = true → s.hw.inLimp = false → s.hw.rst.coreReq = none →
    Completes .trialConfirm s (fun t => (t.fw.slot t.fw.runB).confirm = true ∧ t.fw.trialRun = false ∧
      t.fw.runB = s.hw.fw.runB ∧ t.fw.rollback = max s.hw.fw.rollback (s.hw.fw.slot s.hw.fw.runB).secVersion ∧
      t.outs = s.hw.outs ∧ t.life = s.hw.life)) ∧
  (∀ (s : State) (e : FaultEntry) (es : List FaultEntry), s.hw.ins.booted = true → s.hw.inLimp = false →
    s.hw.pwr.commit = none → s.hw.faults.queue = e :: es →
    Completes .faultLogWrite s (fun t => t.faults.queue = es ∧ t.faults.lastEntry = s.hw.faults.lastEntry + 1 ∧
      t.faults.log.getLast? = some { e with num := s.hw.faults.lastEntry + 1 } ∧ t.faults.cap = s.hw.faults.cap ∧
      t.outs = s.hw.outs ∧ t.life = s.hw.life)) ∧
  (∀ (s : State) (j : Nat), s.hw.seq.service.job = some j → s.hw.seq.service.downAsked = true →
    s.hw.seq.service.lastWordDone = true → s.hw.prm.leaveDue = none → s.hw.pwr.commit = none →
    (s.hw.seq.state = .off ∨ s.hw.seq.state = .faultLatched) → (∀ v ∈ s.hw.store.proving, v.job ≠ some j) →
    Completes .servicePrepareComplete s (fun t => t.serviceReady = true ∧ t.seq.service.job = none ∧
      t.seq.pendOn = false ∧ t.seq.state = .off ∧ t.life = s.hw.life ∧
      ∀ x ∈ s.hw.proto.jobs, x.num = j → x.state = .running → ∃ y ∈ t.proto.jobs, y.num = j ∧ y.state = .done)) ∧
  (∀ (s : State) (j : Nat) (v : Verify), s.hw.seq.service.job = some j → v ∈ s.hw.store.proving → v.job = some j →
    s.hw.seq.service.downAsked = true → s.hw.seq.service.lastWordDone = true →
    Completes .servicePrepareComplete s (fun t => t = s.hw))

/-- R27, R286, R288, R418, R457, R519, R523, R534: CALENn changes its level only, outside SEALED, where its fall ends a SEAL
in progress; with the main domain held it is not seen; a falling edge in SEALED programs a break, leaves SEALED, ends the
unlock and asks every session to close with reason SEAL_BREAK; with none open the SEAL_BREAK record goes to the log, and once
it is there the key is wiped; before the boot is complete, or with records still to be signed, the break of the first sample
waits. That waiting, and that the capture of the error goes with the wipe, is the model's reading (log 41). -/
def Obligations.SealBreakLeavesSealed : Prop :=
  (∀ s : State, s.hw.unheld = false → ∀ c : CalenSample, Completes (.sealBreak c) s (fun t => t = s.hw)) ∧
  (∀ s : State, s.hw.unheld = true → s.hw.pwr.commit = none →
    Completes (.sealBreak .rises) s (fun t => t = { s.hw with lines := { s.hw.lines with calenLow := false } })) ∧
  (∀ s : State, s.hw.unheld = true → s.hw.pwr.commit = none → s.hw.sealed = false → s.hw.sealing = false →
    Completes (.sealBreak .falls) s (fun t => t = { s.hw with lines := { s.hw.lines with calenLow := true } })) ∧
  (∀ s : State, s.hw.unheld = true → s.hw.pwr.commit = none → s.hw.sealed = false → s.hw.sealing = true →
    s.hw.lines.calenLow = false →
    Completes (.sealBreak .falls) s (fun t => t.lines.calenLow = true ∧ t.sealing = false ∧ t.life.keySlot = none ∧
      (∀ j ∈ t.proto.jobs, j.op = 0x4B → j.state ≠ .running) ∧ t.life.seals = s.hw.life.seals)) ∧
  (∀ (s : State) (w : StoreWrite) (b : BreakSt), s.hw.ins.mainOn = true → s.hw.pwr.commit = none → s.hw.store.queue = [w] →
    w.isLog = true → w.phase = 2 → w.purpose = .breaking → s.hw.life.breaking = some b → s.hw.hit 0x0F = false →
    s.hw.store.proving = [] → s.hw.fw.programming = false →
    Completes (.flashProgramComplete true) s (fun t => t.life.breaking = none ∧ t.life.keySlot = none ∧
      t.life.breaks = s.hw.life.breaks ∧ t.life.lastTransition = s.hw.life.lastTransition ∧ t.faults.cap = none ∧
      t.bulk.retained = [] ∧ t.proto.unlock.unlocked = false)) ∧
  (∀ (s : State) (c : CalenSample), s.hw.unheld = true → s.hw.pwr.commit = none → s.hw.sealed = true →
    s.hw.ins.booted = true → FusesInRange s.hw.life →
    (c = .falls ∧ s.hw.lines.calenLow = false ∨ c = .lowAtFirstSample ∧ s.hw.log.signPending = false) →
    Completes (.sealBreak c) s (fun t => t.life.breaks = s.hw.life.breaks + 1 ∧
      t.life.state = (if s.hw.life.calEntered = true then 2 else 1) ∧ t.life.lastTransition = s.hw.now ∧
      t.lines.calenLow = true ∧ FusesInRange t.life ∧ t.proto.unlock.unlocked = false ∧
      t.life.breaking.isSome = true ∧ t.life.keySlot = s.hw.life.keySlot ∧
      (s.hw.nRes = 0 → s.hw.log.signPending = false →
        ∃ w, t.store.queue = s.hw.store.queue ++ [w] ∧ w.isLog = true ∧ w.purpose = .breaking))) ∧
  (∀ s : State, s.hw.unheld = true → s.hw.pwr.commit = none → s.hw.sealed = true →
    s.hw.ins.booted = false ∨ s.hw.log.signPending = true →
    Completes (.sealBreak .lowAtFirstSample) s (fun t => t = { s.hw with
      lines := { s.hw.lines with calenLow := true }, life := { s.hw.life with breakDue := some 2 } })) ∧
  (∀ s : State, s.hw.unheld = true → s.hw.pwr.commit = none → s.hw.sealed = true → s.hw.lines.calenLow = false →
    s.hw.ins.booted = false → s.hw.life.breakDue = none →
    Completes (.sealBreak .falls) s (fun t => t = { s.hw with
      lines := { s.hw.lines with calenLow := true }, life := { s.hw.life with breakDue := some 1 } })) ∧
  (∀ s : State, s.hw.unheld = true → s.hw.pwr.commit = none → s.hw.sealed = true → s.hw.lines.calenLow = false →
    s.hw.ins.booted = true → s.hw.reaction 0xC0 ≤ 1 →
    Completes (.sealBreak .falls) s (fun t => ∀ n : Fin 128, (s.hw.slot n).open? = true →
      (s.hw.slot n).closePending = false → (t.slot n).closePending = true ∧ (t.slot n).reason = 6))

/-- R487–R494: an update gives the nodes the values that losses and heat flow predict, corrected by the sensors, and the
throttling stage follows the hottest with its hysteresis, no output going off below 135 °C; from 135 °C on in RUN it is the
fault with cause THERMAL; under a latch with every output off no node has a loss, and the heat-sink estimate stands. The order
and the rounding of an update (log 38) and the form of the losses (log 69) are the model's choice. R498–R507: the read engine
brings the next burst of the channel whose turn it is into the buffer, within that channel's share; the write engine takes a
burst out to its place, or fills, or compares and keeps the offset of the first mismatch; a descriptor ends when all its bytes
are done; a first parity error starts it again, a second is captured as uncorrectable (source 0x15); with no channel to serve,
or in IDLE with no request (R503), nothing moves; a seventeenth descriptor waits; a channel that a commit pauses ends the
burst in progress and no other (R502). The turn and place of each burst within the row are the model's choice (log 68). -/
def Obligations.ThermalAndBulkEngines : Prop :=
  (∀ (s : State) (a : UnscannedAmps), s.hw.ins.mainOn = true → s.hw.ins.booted = true →
    ({ s.hw.therm with nodes := s.hw.corrected (s.hw.predicted a) } : Thermal).hottest < degrees 135 → s.hw.faults.forces = [] →
    Completes (.thermalModelUpdate a) s (fun t => t.therm.nodes = s.hw.corrected (s.hw.predicted a) ∧
      t.therm.stage = ({ s.hw.therm with nodes := s.hw.corrected (s.hw.predicted a) } : Thermal).nextStage ∧
      (degrees 122 ≤ t.therm.hottest → t.therm.stage = 2) ∧ (t.therm.hottest ≤ degrees 115 → t.therm.stage < 2) ∧
      (degrees 110 ≤ t.therm.hottest → t.therm.warn = true) ∧ (t.therm.hottest ≤ degrees 107 → t.therm.warn = false) ∧
      (t.therm.stage ≠ s.hw.therm.stage → t.evt.pend.getLsbD 13 = true) ∧
      (degrees 108 ≤ t.therm.hottest → t.therm.fast = true) ∧
      (∀ j, (t.out j).on = (s.hw.out j).on) ∧ t.seq = s.hw.seq)) ∧
  (∀ (s : State) (a : UnscannedAmps), s.hw.ins.mainOn = true → s.hw.ins.booted = true → s.hw.seq.state = .run → s.hw.leaving = false →
    s.hw.therm.trip = none →
    degrees 135 ≤ ({ s.hw.therm with nodes := s.hw.corrected (s.hw.predicted a) } : Thermal).hottest →
    Completes (.thermalModelUpdate a) s (fun t => t.seq.state = .faultLatched ∧ t.seq.cause = 7 ∧ t.therm.hold = true ∧
      t.seq.hrst = false ∧ ∀ j : Fin 18, (t.out j).on = false)) ∧
  (∀ (h : Hw) (a : UnscannedAmps) (n : Nat), h.seq.state = .faultLatched → (∀ x ∈ h.outs, x.on = false) →
    h.loss a n = 0 ∧ (h.corrected (h.predicted a)).getD 15 0 = h.therm.nodes.getD 15 0) ∧
  (∀ (s : State) (rq : BitVec 16) (c : Nat) (d : Desc) (rest : List Desc), s.hw.ins.mainOn = true → s.hw.idle.idle = false → s.hw.bulk.diag = none →
    bulkTurn s.hw.bulk.last (s.hw.empties rq) = none → bulkTurn s.hw.bulk.lastRead (s.hw.asks rq) = some c → s.hw.bulk.ring c = d :: rest →
    Completes (.bulkBurst [] rq false) s (fun t =>
      t.bulk.ring c = { d with got := d.got + min (burstOf c) (d.post.len - d.got) } :: rest ∧
        (∀ e, e ≠ c → t.bulk.ring e = s.hw.bulk.ring e) ∧
        t.bulk.buffer.map (fun x => (x.chan, x.bytes)) = s.hw.bulk.buffer.map (fun x => (x.chan, x.bytes)) ++
          [(c, s.hw.readAt d.post.src d.got (min (burstOf c) (d.post.len - d.got)))] ∧
        t.bulk.held c ≤ bufferShare ∧ (c ≠ 4 → c ≠ 5 → c ≠ 6 → t.bulk.lastRead = c) ∧ t.bulk.sram = s.hw.bulk.sram ∧ t.outs = s.hw.outs ∧ t.faults = s.hw.faults)) ∧
  (∀ (s : State) (rq : BitVec 16) (c : Nat) (d : Desc) (rest : List Desc) (x : Burst), s.hw.ins.mainOn = true → s.hw.idle.idle = false → s.hw.bulk.diag = none →
    bulkTurn s.hw.bulk.last (s.hw.empties rq) = some c → s.hw.bulk.ring c = d :: rest → d.post.mode = 0 → s.hw.hit 0x0F = false →
    s.hw.bulk.buffer.find? (fun x => x.chan = c) = some x → d.put + x.bytes.length < d.post.len →
    Completes (.bulkBurst [] rq false) s (fun t => (c ≠ 4 → c ≠ 5 → c ≠ 6 → t.bulk.last = c) ∧
      t.bulk.sram = (s.hw.writeAt c d.post.dst d.put x.bytes).bulk.sram ∧
        t.bulk.retained = (s.hw.writeAt c d.post.dst d.put x.bytes).bulk.retained ∧
        t.proto = (s.hw.writeAt c d.post.dst d.put x.bytes).proto ∧
        (t.bulk.ring c).map (·.put) = (d.put + x.bytes.length) :: rest.map (·.put) ∧
        (∀ e, e ≠ c → (t.bulk.ring e).map (·.put) = (s.hw.bulk.ring e).map (·.put)) ∧
        t.outs = s.hw.outs ∧ t.faults = s.hw.faults)) ∧
  (∀ (s : State) (rq : BitVec 16) (c : Nat) (d : Desc) (rest : List Desc), s.hw.ins.mainOn = true → s.hw.idle.idle = false → s.hw.bulk.diag = none →
    bulkTurn s.hw.bulk.last (s.hw.empties rq) = some c → s.hw.bulk.ring c = d :: rest → d.post.mode = 1 →
    Completes (.bulkBurst [] rq false) s (fun t =>
      t.bulk.sram = (s.hw.writeAt c d.post.dst d.put
        (fillBytes d.post.fill d.put (min (burstOf c) (d.post.len - d.put)))).bulk.sram ∧
      (d.put + burstOf c < d.post.len →
        (t.bulk.ring c).map (·.put) = (d.put + burstOf c) :: rest.map (·.put)) ∧
      (d.post.len ≤ d.put + burstOf c → s.hw.bulk.waiting = [] →
        (t.bulk.ring c).map (·.put) = rest.map (·.put)) ∧
      (d.retried = none → t.faults = s.hw.faults ∧ t.outs = s.hw.outs))) ∧
  (∀ (s : State) (rq : BitVec 16) (c : Nat) (d : Desc) (rest : List Desc) (x : Burst) (i : Nat),
    s.hw.ins.mainOn = true → s.hw.idle.idle = false → s.hw.bulk.diag = none →
    bulkTurn s.hw.bulk.last (s.hw.empties rq) = some c → s.hw.bulk.ring c = d :: rest →
    d.post.mode = 2 → s.hw.hit 0x0F = false → s.hw.bulk.buffer.find? (fun x => x.chan = c) = some x → c < 16 →
    s.hw.bulk.found.length = 16 → i < x.bytes.length → x.bytes.getD i 0 ≠ x.other.getD i 0 →
    (∀ k, k < i → x.bytes.getD k 0 = x.other.getD k 0) →
    Completes (.bulkBurst [] rq false) s (fun t => t.bulk.found.getD c 0 = d.put + i ∧ t.bulk.sram = s.hw.bulk.sram ∧
      (s.hw.bulk.waiting = [] → (t.bulk.ring c).map (·.put) = rest.map (·.put)))) ∧
  (∀ (s : State) (rq : BitVec 16) (c : Nat) (d : Desc) (rest : List Desc) (x : Burst), s.hw.ins.mainOn = true → s.hw.idle.idle = false → s.hw.bulk.diag = none →
    bulkTurn s.hw.bulk.last (s.hw.empties rq) = some c → s.hw.bulk.ring c = d :: rest → d.post.mode ≠ 1 →
    s.hw.bulk.buffer.find? (fun x => x.chan = c) = some x →
    Completes (.bulkBurst [] rq true) s (fun t => t.bulk.sram = s.hw.bulk.sram ∧
      (d.retried = none → t.faults.cap = s.hw.faults.cap ∧
        (t.bulk.ring c).map (fun e => (e.put, e.retried.isSome)) =
          (0, true) :: rest.map (fun e => (e.put, e.retried.isSome))) ∧
      (d.retried.isSome = true → c = 9 → s.hw.faults.cap = none →
        t.faults.cap.map (fun f => (f.source, f.addr / 65536)) = some (0x15, c)))) ∧
  (∀ (s : State) (rq : BitVec 16), s.hw.ins.mainOn = true → s.hw.idle.idle = false → s.hw.bulk.diag = none →
    bulkTurn s.hw.bulk.last (s.hw.empties rq) = none →
    bulkTurn s.hw.bulk.lastRead (s.hw.asks rq) = none →
    Completes (.bulkBurst [] rq false) s (fun t => t.bulk = s.hw.bulk ∧ t.outs = s.hw.outs)) ∧
  (∀ (s : State) (rq : BitVec 16) (e : Bool), s.hw.idle.idle = true → rq &&& 0xFFF3 = 0 →
    Completes (.bulkBurst [] rq e) s (fun t => t = s.hw)) ∧
  (∀ (h : Hw) (rq : BitVec 16) (c : Nat), (h.pwr.commit.isSome = true ∨ h.leaving = true) →
    c = 8 ∨ c = 9 ∨ c = 12 ∨ c = 13 ∨ c = 14 ∨ c = 15 →
    h.asks rq c = false ∧ (c ∉ h.bulk.finishing → h.empties rq c = false)) ∧
  (∀ (b : Bulk) (p : BulkPost), 1 ≤ p.len → p.len ≤ 65536 → 16 ≤ (b.ring p.chan).length →
    b.post p = { b with waiting := b.waiting ++ [p] }) ∧
  (∀ (b : Bulk) (p : BulkPost), 1 ≤ p.len → p.len ≤ 65536 → (b.ring p.chan).length < 16 → b.rings.length = 16 →
    (b.post p).ring p.chan = b.ring p.chan ++ [{ post := p, got := 0, put := 0, retried := none }])

/-! ## The commands of the mailboxes -/

/-- R256, R268, R271, R280, R294, R383, R415, R426–R448: the reading commands answer OK with their data and change nothing.
R415, R426, R429–R432, R436, R440, R445, R446, R448: the layouts of the reading commands' replies, each field at the byte that
its table gives, with the reply's LEN. The current of a phase is free (log 18), and the output of a rail that is off reports
its target. R4, R424, R428–R448: a parameter outside its range is answered BAD_PARAM, and nothing else changes. -/
def Obligations.ReadCommandsOnlyReply : Prop :=
  ReadsOut .nop (fun _ => []) ∧ ReadsOut .ident Hw.identData ∧ ReadsOut .getStatus Hw.lowRegs ∧
  (∀ n : Half, ReadsOut (fun o => .jobStatus o n) (fun h => h.jobData n.toNat)) ∧
  (∀ k : Byte, k.toNat ≤ 11 → ReadsOut (fun o => .railGet o k) (fun h => h.railData k.toNat)) ∧
  (∀ p : Byte, p ≠ 0 → p.toNat ≤ 6 → ReadsOut (fun o => .portStatus o p) (fun h => h.portData (p.toNat - 1))) ∧
  ReadsOut .seqStatus Hw.seqData ∧
  (∀ b : Byte, b.toNat < 18 → ReadsOut (fun o => .telemRead o b) (fun h => [b, 0, 0, 0] ++ h.outBlock b.toNat)) ∧
  ReadsOut (fun o => .telemRead o 0x40) (fun h => [0x40, 0, 0, 0] ++ h.supplyBlock) ∧
  ReadsOut (fun o => .telemRead o 0x41) (fun h => [0x41, 0, 0, 0] ++ h.adcBlock) ∧
  (∀ (s : State) (o : Origin) (f n : Byte), s.hw.carries (.adcRead o f n) = true → s.hw.adc.ready = true → 1 ≤ n.toNat →
    n.toNat ≤ 16 → f.toNat + n.toNat ≤ 64 → f.toNat ≤ 63 →
    Completes (.adcRead o f n) s (fun t => t = s.hw.ok o
      ([f, n] ++ (List.range n.toNat).flatMap (fun i => s.hw.adcChan (f.toNat + i))))) ∧
  (∀ (s : State) (o : Origin) (f n : Byte), s.hw.carries (.adcRead o f n) = true → s.hw.adc.ready = false →
    Completes (.adcRead o f n) s (fun t => t = s.hw.respond o stNotReady [])) ∧
  ReadsOut .energyRead Hw.counters ∧
  (∀ c : Byte, chanOk c = true → ReadsOut (fun o => .metroRead o c) (fun h =>
    let v := (h.chan (c.toNat - 1)).valsP
    [c, 0] ++ be 4 h.metro.lastBlock ++ be 4 v.volt ++ beInt 4 v.amp ++ beInt 4 v.power ++ be 4 v.freq)) ∧
  (∀ m : Half, m ≠ 0 → m.toNat < 256 → ReadsOut (fun o => .registerRead o m) (fun h =>
    be 4 h.metro.lastBlock ++ be 8 h.metro.blockTime.toNat ++ ((List.range 8).filter (fun c => m.getLsbD c)).flatMap (fun c =>
      be 8 ((h.chan c).imp / 2 ^ 32) ++ be 8 ((h.chan c).exp / 2 ^ 32)))) ∧
  (∀ n : Byte, n.toNat ≤ 127 → ReadsOut (fun o => .sessionStatus o n) (fun h => h.slotData n.toNat)) ∧
  (∀ (s : State) (o : Origin) (g : Word) (k : Nat × List Byte), s.hw.carries (.publicKeyRead o g) = true →
    s.hw.life.pubKeys.find? (fun k => k.1 = if g = 0 then s.hw.life.keyGen else g.toNat) = some k →
    Completes (.publicKeyRead o g) s (fun t => t = s.hw.ok o
      (be 4 (if g = 0 then s.hw.life.keyGen else g.toNat) ++ fit 64 0 k.2))) ∧
  (∀ c : Byte, chanOk c = true → ReadsOut (fun o => .calRead o c) (fun h =>
    [c] ++ be 1 (h.chan (c.toNat - 1)).check ++ zeros 2 ++ fit 48 0 (h.chan (c.toNat - 1)).calP)) ∧
  ReadsOut .chargerStatus Hw.chargerData ∧ ReadsOut .gaugeRead Hw.gaugeData ∧
  ReadsOut .alarmStatus (fun h =>
    (h.lodge.alarms.getD 0 Alarm.disarmed).data ++ (h.lodge.alarms.getD 1 Alarm.disarmed).data) ∧
  ReadsOut .storeStatus Hw.storeData ∧ ReadsOut .lifecycleGet Hw.lifeData ∧
  (∀ (s : State) (o : Origin) (a : Half) (n : Byte), s.hw.carries (.identityCertRead o a n) = true → 1 ≤ n.toNat → n.toNat ≤ 240 →
    a.toNat < s.hw.factory.cert.length →
    Completes (.identityCertRead o a n) s (fun t => t = s.hw.ok o
      (be 2 s.hw.factory.cert.length ++ be 2 a.toNat ++ slice s.hw.factory.cert a.toNat n.toNat))) ∧
  ReadsOut .promStatus Hw.promData ∧
  (∀ f n : Byte, 1 ≤ n.toNat → n.toNat ≤ 8 → f.toNat ≤ 15 → f.toNat + n.toNat ≤ 16 →
    ReadsOut (fun o => .promRoster o f n) (fun h =>
      [f, n] ++ (List.range n.toNat).flatMap (fun i => h.peerData (f.toNat + i)))) ∧
  (∀ h : Hw, LaidOut h.identData 42 [(4, h.lowRegs.take 8), (12, be 4 h.caps), (16, be 8 h.factory.serial.toNat),
    (24, be 4 (h.fw.slot h.fw.runB).version.toNat),
    (28, be 4 (if h.fw.stagedValid then (h.fw.slot (!h.fw.runB)).version.toNat else 0)), (32, be 4 h.factory.bootRom.toNat),
    (36, be 4 h.romVersion), (40, be 1 h.straps.code), (41, [0]), (42, be 4 h.image.configId.toNat)]) ∧
  (∀ (h : Hw) (n : Nat) (j : Job), h.proto.jobs.find? (fun j => j.num = n) = some j →
    LaidOut (h.jobData n) (8 + min 32 j.data.length) [(4, be 2 n), (6, [j.op]),
      (7, [match j.state with | .running => 0 | .done => 1 | .abandoned => 2]), (8, be 1 j.status), (9, be 1 j.result),
      (10, be 1 j.progress), (11, [0]), (12, j.data.take 32)]) ∧
  (∀ (h : Hw) (n : Nat), h.proto.jobs.find? (fun j => j.num = n) = none →
    LaidOut (h.jobData n) 8 [(4, be 2 n), (6, [0]), (7, [3]), (8, [0, 0, 0, 0])]) ∧
  (∀ (h : Hw) (k : Nat), LaidOut (h.railData k) 20 [(4, be 1 k), (6, be 2 (h.target k)), (8, be 2 (h.cfg k).vSet),
    (10, be 2 (if (h.out k).on then h.refNow k else h.target k)), (14, be 1 (h.cfg k).prio), (16, be 1 (h.out k).uv),
    (17, be 1 (h.out k).ov), (18, be 1 (h.out k).filt), (20, be 2 h.vcl.ok), (22, be 2 h.vcl.bad)]) ∧
  (∀ (h : Hw) (k : Nat), k < 4 → (h.out k).on = true →
    LaidOut (h.railData k) 20 [(5, [if (h.rail k).slewing then 1 else 2]),
      (12, be 1 (1 + 2 * b2n (h.rail k).slewing + 4 * b2n (h.rail k).settled + 8 * b2n (h.cfg k).vclEn +
        16 * b2n (h.rail k).hintHold + 32 * b2n h.capped + 64 * b2n (h.override k))),
      (13, be 1 ((match (h.out k).sup with | .unsupervised => 0 | .enabling => 1 | .armed => 2) + 4 * b2n (h.out k).good)),
      (15, [match (h.cfg k).safe with | .offDischarge => 0 | .offFloat => 1 | .hold => 2]), (19, [0])]) ∧
  (∀ (h : Hw) (k : Nat), 4 ≤ k → k ≤ 11 → LaidOut (h.railData k) 20 [(12, be 1 (h.railstat k)), (19, be 1 (h.cfg k).ripple)]) ∧
  (∀ (h : Hw) (k : Nat), (h.out k).on = false → LaidOut (h.railData k) 20 [(5,
    [if (h.out k).shed then 3 else if (h.out k).battOff then 4 else if (h.out k).faultOff then 5 else 0])]) ∧
  (∀ (h : Hw) (p : Nat), p < 8 → h.poolData.length = 104 ∧ slice h.poolData (6 * p) 2 =
    be 1 (h.phase p).code ++ be 1 (if (h.phase p).cond = .oos then (h.phase p).oosReason else 0)) ∧
  (∀ (h : Hw) (k : Nat), k < 4 → slice h.poolData (48 + 14 * k) 14 = be 1 (h.cfg k).minPh ++ be 1 (h.cfg k).maxPh ++
    be 1 (h.pool.active k) ++ be 1 (h.pool.lent k) ++ be 1 (b2n (h.rail k).degraded) ++ [0] ++ be 2 (h.rail k).add ++
    be 2 (h.rail k).shed ++ be 2 (h.rail k).cancel ++ be 2 (h.rail k).denied) ∧
  (∀ (h : Hw) (p : Nat), LaidOut (h.portData p) 34 [(4, be 1 (p + 1)), (5, be 1 (h.port p).state.code), (6, be 1 (h.port p).reason),
    (7, be 1 (b2n (h.port p).enabled + 2 * b2n ((h.port p).shed || (h.out (12 + p)).shed) +
      4 * b2n ((h.port p).active != (h.port p).ilim) + 8 * b2n (h.port p).descValid)),
    (8, [match h.portMode p with | .off => 0 | .preferred => 1 | .required => 2]), (9, be 1 (h.port p).ilim), (10, be 1 (h.port p).active),
    (11, be 1 (h.cfg (12 + p)).prio), (12, be 2 (h.port p).iDecl), (14, be 2 (h.port p).cDecl), (16, fit 4 0 (h.port p).boardId),
    (20, be 2 (h.adc.outs.getD (12 + p) OutTelem.empty).vAvg), (22, beInt 4 (h.adc.outs.getD (12 + p) OutTelem.empty).iAvg),
    (26, beInt 4 (h.adc.outs.getD (12 + p) OutTelem.empty).pAvg), (30, be 8 (h.adc.outs.getD (12 + p) OutTelem.empty).energy)]) ∧
  (∀ h : Hw, LaidOut h.seqData 24 [(4, slice h.lowRegs 0x2A 2), (6, slice h.lowRegs 0x2C 3), (9, slice h.lowRegs 0x2F 1),
    (10, be 2 (if h.seq.offWait then (h.seq.offStart + 1000 * h.image.tOffMin - h.clk + 999) / 1000 else 0)),
    (12, be 2 (h.seq.job.getD 0)), (14, be 1 h.seq.toStep),
    (15, [match h.seq.toDir with | some .up => 0 | some .down => 1 | some .host => 2 | none => 0xFF]),
    (16, be 3 h.seq.toUnmet.toNat), (19, [0]), (20, be 8 h.seq.toTime.toNat)]) ∧
  (∀ (h : Hw) (n : Nat), (h.slot n).st = .free →
    LaidOut (h.slotData n) 74 [(4, be 1 n), (5, zeros 65), (70, be 4 h.recordsLost), (74, zeros 4)]) ∧
  (∀ (h : Hw) (n : Nat), (h.slot n).st ≠ .free → LaidOut (h.slotData n) 74 [(4, be 1 n),
    (5, [match (h.slot n).st with | .free => 0 | .opened => 1 | .closed => 2 | .closedPf => 3]),
    (6, be 1 (b2n (h.slot n).startPending + 2 * b2n (h.slot n).closePending)), (7, be 1 (h.slot n).reason),
    (8, be 2 (h.slot n).mask.toNat), (10, fit 16 0 (h.slot n).sid), (26, be 8 (h.slot n).tStart.toNat),
    (34, be 8 (h.slot n).impStart), (42, be 8 (h.slot n).expStart), (50, be 4 (if (h.slot n).open? then 0 else (h.slot n).seq)),
    (70, be 4 h.recordsLost), (74, be 4 (h.slot n).metro.toNat)]) ∧
  (∀ (h : Hw) (n : Nat), (h.slot n).open? = true → (h.slot n).captured = false → (h.slot n).startPending = false →
    LaidOut (h.slotData n) 74 [(54, be 8 (h.regSum (h.slot n).mask (·.imp) - (h.slot n).impStart)),
      (62, be 8 (h.regSum (h.slot n).mask (·.exp) - (h.slot n).expStart))]) ∧
  (∀ h : Hw, LaidOut h.chargerData 20 [(4, be 1 h.chg.state.code), (5, be 1 h.chg.fault), (6, be 1 h.chg.band),
    (7, be 1 (b2n h.chg.safeDefaults + 2 * b2n h.pwr.battAbsent + 4 * b2n h.chg.govHold)), (8, be 2 h.pwr.vbat),
    (10, beInt 4 (h.result 42).value), (14, be 2 h.cvEff), (16, be 2 h.iSet), (18, be 2 (min 65535 (h.chg.timer / 60000000))),
    (20, be 2 (min 65535 ((h.keepaliveDue - h.clk) / 1000000))), (22, beInt 2 h.pwr.packTemp)]) ∧
  (∀ h : Hw, LaidOut h.gaugeData 20 [(4, be 2 (min 10000 (h.gauge.soc / 100000))), (6, be 2 (min 65535 (h.gauge.u / 100000))),
    (8, be 2 (h.gauge.fcc * h.gauge.soc / 1000000000)), (10, be 2 h.gauge.fcc), (12, be 2 h.image.designCap),
    (14, be 2 (min 65535 h.gauge.cycles)), (16, be 2 (h.resOf h.gauge.resBand)), (18, be 2 h.timeToEmpty),
    (20, be 2 (min 65535 ((h.clk - h.gauge.refAt) / 3600000000))),
    (22, [if h.gauge.active.isSome then 2 else match h.image.chem with | .liIon => 0 | .lfp => 1]),
    (23, be 1 (b2n h.gauge.noRest + 2 * b2n h.gauge.learning))]) ∧
  (∀ h : Hw, 0 ≤ (h.result 42).value → slice h.gaugeData 14 2 = [0xFF, 0xFF]) ∧
  (∀ h : Hw, LaidOut h.storeData 40 [(4, be 2 (h.store.config.free / 1024)), (6, be 2 (h.store.half0.free / 1024)),
    (8, be 2 (h.store.half1.free / 1024)), (10, be 2 (h.store.fault.free / 1024)), (12, be 4 h.log.erased),
    (16, be 4 (h.log.free h.ackSeq)), (20, be 4 (h.eraseCounts.foldl min (h.eraseCounts.headD 0))), (24, be 4 (h.eraseCounts.foldl max 0)),
    (28, be 2 h.store.estimated), (30, be 2 h.store.retiredSecs), (32, be 2 h.store.spare), (34, be 2 h.store.conflicts),
    (36, be 2 h.store.restored.toNat), (38, be 4 h.recordsLost), (42, zeros 2)]) ∧
  (∀ h : Hw, LaidOut h.lifeData 18 [(4, be 1 h.life.state), (5, [0]), (6, be 4 h.life.breaks), (10, be 4 h.life.keyGen),
    (14, be 8 h.life.lastTransition.toNat)]) ∧
  (∀ h : Hw, LaidOut h.promData 20 [(4, be 2 h.promReg), (6, be 2 h.prm.roster.toNat), (8, be 1 h.cabReg), (9, [0]),
    (10, be 4 h.prm.err), (14, be 4 h.prm.cycle), (18, be 2 h.image.prm.orphanTimeout), (20, be 2 h.prm.admitMask.toNat),
    (22, be 1 (b2n h.prm.autoJoinRun)), (23, [0])]) ∧
  (∀ (h : Hw) (i : Nat) (p : Peer), h.prm.role = .lead → h.prm.peers[i]? = some p →
    (h.peerData i).length = 20 ∧ h.peerData i = be 1 (b2n (h.prm.roster.getLsbD i)) ++ be 1 p.state ++ be 1 p.flags ++ be 1 p.cause ++
      be 8 p.serial.toNat ++ be 4 p.frames ++ be 4 p.pIn) ∧
  (∀ k : Byte, 11 < k.toNat → RefusedWith (fun o => .railGet o k) stBadParam) ∧
  (∀ p : Byte, p = 0 ∨ 6 < p.toNat → RefusedWith (fun o => .portStatus o p) stBadParam) ∧
  (∀ b : Byte, 18 ≤ b.toNat → b ≠ 0x40 → b ≠ 0x41 → RefusedWith (fun o => .telemRead o b) stBadParam) ∧
  (∀ k : Byte, 17 < k.toNat → RefusedWith (fun o => .telemPeaks o k) stBadParam) ∧
  (∀ c : Byte, chanOk c = false → RefusedWith (fun o => .metroRead o c) stBadParam) ∧
  (∀ c : Byte, chanOk c = false → RefusedWith (fun o => .metroStatus o c) stBadParam) ∧
  (∀ m : Half, m = 0 ∨ 256 ≤ m.toNat → RefusedWith (fun o => .registerRead o m) stBadParam) ∧
  (∀ n : Byte, 127 < n.toNat → RefusedWith (fun o => .sessionStatus o n) stBadParam) ∧
  (∀ c : Byte, chanOk c = false → RefusedWith (fun o => .calRead o c) stBadParam) ∧
  (∀ k : Half, hostKey k = false → RefusedWith (fun o => .storeRead o k) stBadParam) ∧
  (∀ f n : Byte, 15 < f.toNat ∨ n.toNat < 1 ∨ 8 < n.toNat ∨ 16 < f.toNat + n.toNat →
    RefusedWith (fun o => .promRoster o f n) stBadParam) ∧
  (∀ (v b : Half) (t : Byte), v.toNat < 10 ∨ 1500 < v.toNat ∨ b.toNat < 5 ∨ 60 < b.toNat ∨ t.toNat < 1 ∨ 100 < t.toNat →
    RefusedWith (fun o => .budgetSet o v b t) stBadParam) ∧
  (∀ (s : State) (o : Origin) (n : Word), s.hw.carries (.recordAck o n) = true → s.hw.log.lastSeq < n.toNat →
    Completes (.recordAck o n) s (fun t => t = s.hw.respond o stBadParam [])) ∧
  (∀ k : Byte, k ≠ 0xC4 → RefusedWith (fun o => .coreReset o k) stBadParam) ∧
  (∀ k : Byte, k ≠ 0xE7 → RefusedWith (fun o => .moduleRestart o k) stBadParam)

/-- R174, R270, R296, R316, R380, R416, R430, R443, R444, R472: the reading commands with an effect of their own: METRO_STATUS
clears the bits it reports, TELEM_PEAKS arms the clear, FAULT_READ with REARM empties the capture, and each replies OK. -/
def Obligations.ReadCommandsWithEffects : Prop :=
  (∀ (s : State) (o : Origin), s.hw.carries (.poolStatus o) = true →
    Completes (.poolStatus o) s (fun t => Replied s.hw t o 0 s.hw.poolData ∧ t.pool = s.hw.pool ∧ t.outs = s.hw.outs)) ∧
  (∀ (s : State) (o : Origin), s.hw.carries (.timeGet o) = true →
    Completes (.timeGet o) s (fun t => Replied s.hw t o 0 s.hw.draw.timeData ∧ t.lodge = s.hw.lodge ∧ t.outs = s.hw.outs)) ∧
  (∀ (s : State) (o : Origin) (c : Byte), s.hw.carries (.metroStatus o c) = true → chanOk c = true →
    Completes (.metroStatus o c) s (fun t => Replied s.hw t o 0 (s.hw.metroData (c.toNat - 1)) ∧
      t.chan (c.toNat - 1) = { s.hw.chan (c.toNat - 1) with disagreeSeen := false, creep := false, overrange := false } ∧
      (∀ j, j ≠ c.toNat - 1 → t.chan j = s.hw.chan j) ∧ t.outs = s.hw.outs)) ∧
  (∀ (s : State) (o : Origin) (k : Byte), s.hw.carries (.telemPeaks o k) = true → k.toNat ≤ 17 → k.toNat < s.hw.adc.outs.length →
    Completes (.telemPeaks o k) s (fun t => Replied s.hw t o 0 (s.hw.peakData k.toNat) ∧
      (t.adc.outs.getD k.toNat OutTelem.empty).clearDue = true ∧ t.outs = s.hw.outs)) ∧
  (∀ (s : State) (o : Origin) (n : Word) (e : LogEntry), s.hw.carries (.recordRead o n) = true → n ≠ 0 →
    s.hw.log.find n.toNat = some e → s.hw.faults.inject = List.replicate 15 (0, false) →
    Completes (.recordRead o n) s (fun t => t = s.hw.ok o (s.hw.entryData e))) ∧
  (∀ (s : State) (o : Origin) (n : Byte) (w : Word), s.hw.carries (.faultLogRead o w n) = true → 1 ≤ n.toNat → n.toNat ≤ 7 →
    w.toNat ≤ s.hw.faults.lastEntry → s.hw.faults.inject = List.replicate 15 (0, false) →
    s.hw.faults.served w.toNat n.toNat = [] →
    Completes (.faultLogRead o w n) s (fun t => t = s.hw.ok o (be 4 w.toNat ++ [0, 0, 0, 0]))) ∧
  (∀ (s : State) (o : Origin) (n : Byte) (w : Word) (e : FaultEntry) (es : List FaultEntry), s.hw.carries (.faultLogRead o w n) = true →
    1 ≤ n.toNat → n.toNat ≤ 7 → w.toNat ≤ s.hw.faults.lastEntry → s.hw.faults.inject = List.replicate 15 (0, false) →
    s.hw.faults.served w.toNat n.toNat = e :: es →
    Completes (.faultLogRead o w n) s (fun t => t = s.hw.ok o
      (be 4 e.num ++ be 1 (es.length + 1) ++ zeros 3 ++ (e :: es).flatMap FaultEntry.bytes))) ∧
  (∀ (s : State) (o : Origin), s.hw.carries (.faultRead o 0) = true →
    Completes (.faultRead o 0) s (fun t => t = s.hw.ok o s.hw.faultData)) ∧
  (∀ s : State, s.hw.carries (.faultRead .A 1) = true →
    Completes (.faultRead .A 1) s (fun t => Replied s.hw t .A 0 s.hw.faultData ∧ t.faults.cap = none ∧ t.faults.later = 0 ∧
      t.faults.log = s.hw.faults.log ∧ t.outs = s.hw.outs)) ∧
  (∀ s : State, s.hw.carries (.faultRead .V 1) = true →
    Completes (.faultRead .V 1) s (fun t => Replied s.hw t .V 0x20 [])) ∧
  (∀ (s : State) (o : Origin) (r n : Byte) (a : Word), s.hw.carries (.bulkRead o r 0 a n) = true → (r = 4 ∨ r = 5) → 1 ≤ n.toNat →
    n.toNat ≤ 240 → a.toNat + n.toNat ≤ regionSectors r.toNat * 4096 → s.hw.meetsErase r.toNat a.toNat n.toNat = false →
    s.hw.faults.inject = List.replicate 15 (0, false) →
    Completes (.bulkRead o r 0 a n) s (fun t => t = s.hw.ok o
      (be 4 a.toNat ++ be 1 n.toNat ++ zeros 3 ++ s.hw.flashBytes r.toNat a.toNat n.toNat))) ∧
  (∀ (s : State) (o : Origin) (k : Half), s.hw.carries (.storeRead o k) = true → hostKey k = true →
    s.hw.faults.inject = List.replicate 15 (0, false) → s.hw.store.look k.toNat = .absent →
    Completes (.storeRead o k) s (fun t => t = s.hw.ok o (be 2 k.toNat ++ [0, 0]))) ∧
  (∀ (s : State) (o : Origin) (k : Half) (r : Rec), s.hw.carries (.storeRead o k) = true → hostKey k = true →
    s.hw.faults.inject = List.replicate 15 (0, false) → s.hw.store.look k.toNat = .value r →
    Completes (.storeRead o k) s (fun t => t = s.hw.ok o (be 2 k.toNat ++ be 1 r.payload.length ++ [0] ++ r.payload)))

/-- R43, R361, R417, R427, R464, R511, R514: the system commands: CORE_RESET and MODULE_RESTART ask for their reset without a
reply; CONFIG_UNLOCK of any MODE is LOCKED in the lockout and gives a challenge outside it, the right answer unlocks, a wrong
one is denied and the third locks; SERVICE_PREPARE closes the sessions; ENTER_STANDBY and ENTER_ICEHOUSE leave their requests. -/
def Obligations.SystemCommandsAct : Prop :=
  (∀ (s : State) (o : Origin), s.hw.carries (.coreReset o 0xC4) = true →
    Completes (.coreReset o 0xC4) s (fun t => t = { s.hw with rst := { s.hw.rst with coreReq := some 4, safe := false } })) ∧
  (∀ (s : State) (o : Origin), s.hw.carries (.moduleRestart o 0xE7) = true → s.hw.gone = false → s.hw.rst.restart ≠ some .rstn →
    Completes (.moduleRestart o 0xE7) s (fun t => t.rst.restart = some .moduleRestart ∧
      (t.mbx o).ready = (s.hw.mbx o).ready ∧ (s.hw.seq.state = .run → t.seq.state = .seqDown) ∧
      ∀ n : Fin 128, (s.hw.slot n).open? = true → (s.hw.slot n).closePending = false →
        (t.slot n).closePending = true ∧ (t.slot n).reason = 4)) ∧
  (∀ (s : State) (o : Origin), s.hw.carries (.configUnlock o 0) = true → (s.hw.unlockOf o).locked = false →
    Completes (.configUnlock o 0) s (fun t => Replied s.hw t o 0 (challenge s.hw.free) ∧
      (t.unlockAt (s.hw.relayed o)).challenge = some (challenge s.hw.free) ∧
      (t.unlockAt (s.hw.relayed o)).unlocked = (s.hw.unlockOf o).unlocked)) ∧
  (∀ (s : State) (o : Origin) (m : Byte), s.hw.carries (.configUnlock o m) = true → (s.hw.unlockOf o).locked = true →
    Completes (.configUnlock o m) s (fun t => t = s.hw.respond o stLocked [])) ∧
  (∀ (s : State) (o : Origin), s.hw.carries (.configUnlock o 1) = true → (s.hw.unlockOf o).locked = false →
    Completes (.configUnlock o 1) s (fun t => Replied s.hw t o 0 [] ∧ (t.unlockAt (s.hw.relayed o)).unlocked = false)) ∧
  (∀ (s : State) (o : Origin) (c : List Byte), s.hw.carries (.configUnlockResponse o (s.hw.unlockMac c)) = true → (s.hw.unlockOf o).challenge = some c →
    s.hw.clk ≤ (s.hw.unlockOf o).issuedAt + 30000000 →
    Completes (.configUnlockResponse o (s.hw.unlockMac c)) s (fun t => Replied s.hw t o 0 [] ∧
      (t.unlockAt (s.hw.relayed o)).unlocked = true ∧ (t.unlockAt (s.hw.relayed o)).wrong = 0 ∧
      (t.unlockAt (s.hw.relayed o)).challenge = none)) ∧
  (∀ (s : State) (o : Origin) (c m : List Byte), s.hw.carries (.configUnlockResponse o m) = true → (s.hw.unlockOf o).challenge = some c →
    s.hw.clk ≤ (s.hw.unlockOf o).issuedAt + 30000000 → m ≠ s.hw.unlockMac c →
    Completes (.configUnlockResponse o m) s (fun t => Replied s.hw t o 0x20 [] ∧
      (t.unlockAt (s.hw.relayed o)).unlocked = (s.hw.unlockOf o).unlocked ∧
      (t.unlockAt (s.hw.relayed o)).challenge = none ∧
      ((s.hw.unlockOf o).wrong = 2 → (t.unlockAt (s.hw.relayed o)).locked = true))) ∧
  (∀ (s : State) (o : Origin), s.hw.carries (.servicePrepare o) = true → s.hw.serviceReady = true →
    Completes (.servicePrepare o) s (fun t => t = s.hw.ok o [])) ∧
  (∀ (s : State) (o : Origin), s.hw.carries (.servicePrepare o) = true → s.hw.serviceReady = false → s.hw.seq.service.job = none →
    Completes (.servicePrepare o) s (fun t => Replied s.hw t o 1 (be 2 t.proto.lastJob) ∧
      t.seq.service.job = some t.proto.lastJob ∧
      ∀ n : Fin 128, (s.hw.slot n).open? = true → (s.hw.slot n).closePending = false →
        (t.slot n).closePending = true ∧ (t.slot n).reason = 3)) ∧
  (∀ (s : State) (o : Origin) (w : Byte), s.hw.carries (.enterStandby o w) = true → s.hw.nRes = 0 → w.toNat < 4 →
    (s.hw.seq.state = .off ∨ s.hw.seq.state = .run) →
    Completes (.enterStandby o w) s (fun t => Replied s.hw t o 0 [] ∧ t.seq.standbyReq = some w ∧
      t.seq.state = (if s.hw.seq.state = .run then .seqDown else .off))) ∧
  (∀ (s : State) (o : Origin), s.hw.carries (.enterIcehouse o 1) = true → s.hw.pwr.vinUsable = true → s.hw.pwr.onBattery = false →
    s.hw.nRes = 0 →
    Completes (.enterIcehouse o 1) s (fun t => Replied s.hw t o 0 [] ∧ t.pwr.icehouseArmed = true ∧ t.outs = s.hw.outs)) ∧
  (∀ (s : State) (o : Origin), s.hw.carries (.enterIcehouse o 0) = true →
    Completes (.enterIcehouse o 0) s (fun t => Replied s.hw t o 0 [] ∧ t.pwr.icehouseArmed = false))

/-- R35, R101, R155, R156, R194, R198, R204, R220, R233, R423, R428: the power commands: POWER_UP and POWER_DOWN start their
sequences with a job, refused by latch, reserve store and state in that order; RAIL_SET answers by the state before its
values; outputs, supervision, pool, ports and budgets take their settings. That CLEAR_FAULT at a lead outside FAULT_LATCHED is
carried to the followers with a job and answered PENDING, where R204 says OK, is the model's reading (log 26). -/
def Obligations.PowerCommandsAct : Prop :=
  (∀ (s : State) (o : Origin), s.hw.carries (.powerUp o) = true → s.hw.seq.state = .faultLatched →
    Completes (.powerUp o) s (fun t => t = s.hw.respond o stFaultLatched [])) ∧
  (∀ (s : State) (o : Origin), s.hw.carries (.powerUp o) = true → s.hw.seq.state ≠ .faultLatched → s.hw.ins.storeReady = false →
    Completes (.powerUp o) s (fun t => t = s.hw.respond o stNotReady [])) ∧
  (∀ (s : State) (o : Origin), s.hw.carries (.powerUp o) = true → s.hw.seq.state = .off → s.hw.ins.storeReady = true →
    s.hw.lines.en = true → s.hw.serviceReady = false → s.hw.admitted = true → s.hw.faults.forces = [] → s.hw.gone = false →
    Completes (.powerUp o) s (fun t => Replied s.hw t o 1 (be 2 t.proto.lastJob) ∧
      (s.hw.seq.offWait = false → s.hw.lines.fltLow = false → s.hw.rst.restart = none →
        t.seq.state = .seqUp ∧ t.seq.dir = .up ∧ t.seq.step = 0 ∧ t.seq.job = some t.proto.lastJob) ∧
      (s.hw.seq.offWait = true → t.seq.state = .off ∧ t.seq.pendOn = true ∧ t.seq.onJob = some t.proto.lastJob))) ∧
  (∀ (s : State) (o : Origin), s.hw.carries (.powerUp o) = true → s.hw.seq.state = .run → s.hw.ins.storeReady = true →
    s.hw.lines.en = true → s.hw.serviceReady = false → s.hw.admitted = true →
    Completes (.powerUp o) s (fun t => t = s.hw.ok o [])) ∧
  (∀ (s : State) (o : Origin), s.hw.carries (.powerDown o) = true → s.hw.seq.state = .run →
    Completes (.powerDown o) s (fun t => Replied s.hw t o 1 (be 2 t.proto.lastJob) ∧ t.seq.state = .seqDown ∧
      t.seq.dir = .down ∧ t.seq.step = 0 ∧ t.seq.hrst = false ∧ t.seq.pgood = false ∧ t.seq.job = some t.proto.lastJob)) ∧
  (∀ (s : State) (o : Origin), s.hw.carries (.powerDown o) = true → s.hw.seq.state = .off →
    Completes (.powerDown o) s (fun t => Replied s.hw t o 0 [] ∧ t.seq.state = .off ∧ t.seq.pendOn = false ∧
      t.outs = s.hw.outs)) ∧
  (∀ (s : State) (o : Origin), s.hw.carries (.clearFault o) = true → s.hw.prm.role ≠ .lead → s.hw.seq.state ≠ .faultLatched →
    Completes (.clearFault o) s (fun t => t = s.hw.ok o [])) ∧
  (∀ (s : State) (o : Origin), s.hw.carries (.clearFault o) = true → s.hw.prm.role ≠ .lead → s.hw.seq.state = .faultLatched →
    s.hw.thermHolds = false →
    Completes (.clearFault o) s (fun t => t = { s.hw with
      seq := { s.hw.seq with fltDrive := false, clearTest := s.hw.seq.clearTest ++ [some o] } })) ∧
  (∀ (s : State) (o : Origin), s.hw.carries (.clearFault o) = true → s.hw.seq.state = .faultLatched → s.hw.thermHolds = true →
    Completes (.clearFault o) s (fun t => t = s.hw.respond o stWrongState [])) ∧
  (∀ (s : State) (o : Origin), s.hw.carries (.clearFault o) = true → s.hw.prm.role = .lead → s.hw.seq.state ≠ .faultLatched →
    s.hw.prm.clearJob = none →
    Completes (.clearFault o) s (fun t => Replied s.hw t o 1 (be 2 t.proto.lastJob) ∧ t.prm.clearLeft = 3 ∧
      t.prm.clearJob = some t.proto.lastJob ∧ t.outs = s.hw.outs)) ∧
  (∀ (s : State) (o : Origin), s.hw.carries (.clearFault o) = true → s.hw.prm.role = .lead → s.hw.seq.state = .faultLatched →
    s.hw.thermHolds = false → s.hw.prm.clearJob = none →
    Completes (.clearFault o) s (fun t => Replied s.hw t o 1 (be 2 t.proto.lastJob) ∧ t.prm.clearLeft = 3 ∧
      t.seq.fltDrive = false ∧ t.seq.state = .faultLatched ∧ t.outs = s.hw.outs)) ∧
  (∀ (s : State) (o : Origin) (k : Byte) (v : Half), s.hw.carries (.railSet o k v) = true → s.hw.shaped = true → k.toNat ≤ 11 →
    s.hw.used k.toNat = true → s.hw.codeOk k.toNat v.toNat = true → s.hw.seq.state ≠ .seqDown →
    s.hw.seq.state ≠ .faultLatched →
    Completes (.railSet o k v) s (fun t => Replied s.hw t o 0 [] ∧ (t.out k.toNat).hostTarget = some v.toNat ∧
      (t.out k.toNat).tgt = v.toNat ∧ (t.out k.toNat).on = (s.hw.out k.toNat).on ∧
      ((s.hw.out k.toNat).on = false → t.refNow k.toNat = v.toNat) ∧
      (∀ j, j ≠ k.toNat → t.out j = s.hw.out j) ∧ t.seq = s.hw.seq)) ∧
  (∀ (s : State) (o : Origin) (k : Byte) (v : Half), s.hw.carries (.railSet o k v) = true → s.hw.seq.state = .seqDown →
    Completes (.railSet o k v) s (fun t => t = s.hw.respond o stWrongState [])) ∧
  (∀ (s : State) (o : Origin) (k : Byte) (v : Half), s.hw.carries (.railSet o k v) = true → s.hw.seq.state = .faultLatched →
    Completes (.railSet o k v) s (fun t => t = s.hw.respond o stFaultLatched [])) ∧
  (∀ (s : State) (o : Origin) (k : Byte), s.hw.carries (.railEnable o k 0) = true → s.hw.shaped = true → 4 ≤ k.toNat → k.toNat ≤ 11 →
    (s.hw.cfg k.toNat).hostSw = true → s.hw.seq.state = .run → s.hw.faults.forces = [] →
    Completes (.railEnable o k 0) s (fun t => Replied s.hw t o 0 [] ∧ (t.out k.toNat).on = false ∧
      (t.out k.toNat).enabled = false ∧ (t.out k.toNat).hostState = some false ∧
      ∀ j, j ≠ k.toNat → t.out j = s.hw.out j)) ∧
  (∀ (s : State) (o : Origin) (k : Byte), s.hw.carries (.railEnable o k 1) = true → s.hw.shaped = true → 4 ≤ k.toNat → k.toNat ≤ 9 →
    (s.hw.cfg k.toNat).hostSw = true → s.hw.seq.state = .run → s.hw.faults.forces = [] → (s.hw.out k.toNat).shed = false →
    Completes (.railEnable o k 1) s (fun t => Replied s.hw t o 0 [] ∧ (t.out k.toNat).on = true ∧
      (t.out k.toNat).enabled = true ∧ (t.out k.toNat).hostState = some true ∧
      ∀ j, j ≠ k.toNat → t.out j = s.hw.out j)) ∧
  (∀ (s : State) (o : Origin) (k u v f : Byte), s.hw.carries (.supervisorSet o k u v f) = true → s.hw.shaped = true → k.toNat ≤ 17 →
    u.toNat ≤ 36 → v.toNat ≤ 36 → f.toNat ≤ 10 →
    Completes (.supervisorSet o k u v f) s (fun t => Replied s.hw t o 0 [] ∧
      t.out k.toNat = { s.hw.out k.toNat with uv := u.toNat, ov := v.toNat, filt := f.toNat } ∧
      (∀ j, j ≠ k.toNat → t.out j = s.hw.out j) ∧ t.seq = s.hw.seq)) ∧
  (∀ (s : State) (o : Origin) (p w : Byte), s.hw.carries (.poolAssign o p w) = true → 1 ≤ p.toNat → p.toNat ≤ 8 → w.toNat ≤ 4 →
    (s.hw.phase (p.toNat - 1)).owner = w.toNat →
    Completes (.poolAssign o p w) s (fun t => t = s.hw.ok o [])) ∧
  (∀ (s : State) (o : Origin) (p w : Byte), s.hw.carries (.poolAssign o p w) = true → s.hw.shaped = true → 1 ≤ p.toNat →
    p.toNat ≤ 8 → w.toNat ≤ 4 → (s.hw.phase (p.toNat - 1)).owner ≠ w.toNat →
    s.hw.assignRefused (p.toNat - 1) w.toNat = none → (s.hw.phase (p.toNat - 1)).cond = .standby →
    Completes (.poolAssign o p w) s (fun t => Replied s.hw t o 1 (be 2 t.proto.lastJob) ∧
      t.pool.move = some { phase := p.toNat - 1, newOwner := w.toNat, job := t.proto.lastJob } ∧
      (t.phase (p.toNat - 1)).cond = .quiet ∧ t.outs = s.hw.outs)) ∧
  (∀ (s : State) (o : Origin) (p i : Byte), s.hw.carries (.portSet o p 0 i) = true → s.hw.shaped = true →
    s.hw.seq.state ≠ .faultLatched → s.hw.serviceReady = false → 1 ≤ p.toNat → p.toNat ≤ 6 → (i.toNat ≤ 16 ∨ i = 0xFF) →
    Completes (.portSet o p 0 i) s (fun t => Replied s.hw t o 0 [] ∧ (t.port (p.toNat - 1)).enabled = false ∧
      (t.out (12 + (p.toNat - 1))).on = false ∧ (i.toNat ≤ 16 → (t.port (p.toNat - 1)).ilim = i.toNat) ∧
      ∀ q, q ≠ p.toNat - 1 → t.port q = s.hw.port q)) ∧
  (∀ (s : State) (o : Origin) (p i : Byte), s.hw.carries (.portSet o p 1 i) = true → s.hw.shaped = true →
    s.hw.seq.state ≠ .faultLatched → s.hw.serviceReady = false → 1 ≤ p.toNat → p.toNat ≤ 6 → (i.toNat ≤ 16 ∨ i = 0xFF) →
    Completes (.portSet o p 1 i) s (fun t => Replied s.hw t o 0 [] ∧ (t.port (p.toNat - 1)).enabled = true ∧
      (t.out (12 + (p.toNat - 1))).enabled = true ∧ ∀ q, q ≠ p.toNat - 1 → t.port q = s.hw.port q)) ∧
  (∀ (s : State) (o : Origin) (v b : Half) (c : Byte), s.hw.carries (.budgetSet o v b c) = true → 10 ≤ v.toNat → v.toNat ≤ 1500 →
    5 ≤ b.toNat → b.toNat ≤ 60 → 1 ≤ c.toNat → c.toNat ≤ 100 →
    Completes (.budgetSet o v b c) s (fun t => Replied s.hw t o 0 [] ∧
      t.gov = { s.hw.gov with vinW := v.toNat, batW := b.toNat, tCap := c.toNat } ∧ t.outs = s.hw.outs))

/-- R178, R244, R266, R277, R278, R281, R282, R297, R438, R522: scan settings wait for the next scan; OPEN_SESSION takes the
lowest free slot, refused in the order of the rows of R277 (the row BUSY of a commit and of deferred signing is that of
StatesOverrideTheChecks), last with BUSY below three erased entries (R313); CLOSE_SESSION fixes reason 1; RECORD_ACK frees
closed slots; CAL_WRITE queues both copies; SEAL makes a new key and queues its statement, before which no fuse burns. -/
def Obligations.MeteringCommandsAct : Prop :=
  (∀ (s : State) (o : Origin) (m : DWord) (i r : Byte) (a : Half), s.hw.carries (.adcScanSet o m i r a) = true → 1 ≤ i.toNat → i.toNat ≤ 50 →
    r.toNat ≤ 1 → 1 ≤ a.toNat → a.toNat ≤ 10000 →
    Completes (.adcScanSet o m i r a) s (fun t => Replied s.hw t o 0 [] ∧
      t.adc = { s.hw.adc with next := some { mask := m, interval := i.toNat, refFull := r = 1, tAvg := a.toNat }
                              restartWindow := t.adc.restartWindow } ∧
      (t.adc.restartWindow = true ↔
        s.hw.adc.restartWindow = true ∨ a.toNat ≠ (s.hw.adc.next.getD s.hw.adc.set).tAvg) ∧
      t.outs = s.hw.outs)) ∧
  (∀ (s : State) (o : Origin) (m : Half) (sid : List Byte), s.hw.carries (.openSession o m sid) = true → sid.length = 16 →
    s.hw.openRefused m = none →
    Completes (.openSession o m sid) s (fun t => Replied s.hw t o 1 (be 2 t.proto.lastJob ++ be 1 s.hw.freeSlot) ∧
      (s.hw.slot s.hw.freeSlot).st = .free ∧ (t.slot s.hw.freeSlot).open? = true ∧
      (t.slot s.hw.freeSlot).startPending = true ∧ (t.slot s.hw.freeSlot).sid = sid ∧
      (t.slot s.hw.freeSlot).openJob = some t.proto.lastJob ∧ (∀ n, n ≠ s.hw.freeSlot → t.slot n = s.hw.slot n) ∧
      t.outs = s.hw.outs)) ∧
  (∀ (s : State) (o : Origin) (m : Half) (sid : List Byte), s.hw.carries (.openSession o m sid) = true → sid.length = 16 →
    s.hw.sealed = false →
    Completes (.openSession o m sid) s (fun t => t = s.hw.respond o stWrongLife [])) ∧
  (∀ (s : State) (o : Origin) (m : Half) (sid : List Byte), s.hw.carries (.openSession o m sid) = true → sid.length = 16 →
    s.hw.sealed = true → s.hw.ins.storeReady = false →
    Completes (.openSession o m sid) s (fun t => t = s.hw.respond o stNotReady [])) ∧
  (∀ (s : State) (o : Origin) (m : Half) (sid : List Byte), s.hw.carries (.openSession o m sid) = true → sid.length = 16 →
    s.hw.sealed = true → s.hw.ins.storeReady = true →
    (s.hw.serviceReady = true ∨ s.hw.seq.state = .standby ∨ s.hw.inLimp = true) →
    Completes (.openSession o m sid) s (fun t => t = s.hw.respond o stWrongState [])) ∧
  (∀ (s : State) (o : Origin) (m : Half) (sid : List Byte), s.hw.carries (.openSession o m sid) = true → sid.length = 16 →
    s.hw.sealed = true → s.hw.ins.storeReady = true → s.hw.serviceReady = false → s.hw.seq.state ≠ .standby → s.hw.inLimp = false →
    s.hw.seq.state = .faultLatched →
    Completes (.openSession o m sid) s (fun t => t = s.hw.respond o stFaultLatched [])) ∧
  (∀ (s : State) (o : Origin) (m : Half) (sid : List Byte), s.hw.carries (.openSession o m sid) = true → sid.length = 16 →
    s.hw.sealed = true → s.hw.ins.storeReady = true → s.hw.serviceReady = false → s.hw.seq.state ≠ .standby → s.hw.inLimp = false →
    s.hw.seq.state ≠ .faultLatched → ¬s.hw.MaskFits m →
    Completes (.openSession o m sid) s (fun t => t = s.hw.respond o stBadParam [])) ∧
  (∀ (s : State) (o : Origin) (m : Half) (sid : List Byte), s.hw.carries (.openSession o m sid) = true → sid.length = 16 →
    s.hw.sealed = true → s.hw.ins.storeReady = true → s.hw.serviceReady = false → s.hw.seq.state ≠ .standby → s.hw.inLimp = false →
    s.hw.seq.state ≠ .faultLatched → s.hw.MaskFits m → (∃ c < 8, m.getLsbD c = true ∧ (s.hw.chan c).held = true) →
    Completes (.openSession o m sid) s (fun t => t = s.hw.respond o stMetroHold [])) ∧
  (∀ (s : State) (o : Origin) (m : Half) (sid : List Byte), s.hw.carries (.openSession o m sid) = true → sid.length = 16 →
    s.hw.sealed = true → s.hw.ins.storeReady = true → s.hw.serviceReady = false → s.hw.seq.state ≠ .standby → s.hw.inLimp = false →
    s.hw.seq.state ≠ .faultLatched → s.hw.MaskFits m → (∀ c < 8, m.getLsbD c = true → (s.hw.chan c).held = false) →
    s.hw.InOpenSlot m →
    Completes (.openSession o m sid) s (fun t => t = s.hw.respond o stWrongState [])) ∧
  (∀ (s : State) (o : Origin) (m : Half) (sid : List Byte), s.hw.carries (.openSession o m sid) = true → sid.length = 16 →
    s.hw.sealed = true → s.hw.ins.storeReady = true → s.hw.serviceReady = false → s.hw.seq.state ≠ .standby → s.hw.inLimp = false →
    s.hw.seq.state ≠ .faultLatched → s.hw.MaskFits m → (∀ c < 8, m.getLsbD c = true → (s.hw.chan c).held = false) →
    ¬s.hw.InOpenSlot m →
    s.hw.lodge.status = .invalid → s.hw.image.allowUnsync = false →
    Completes (.openSession o m sid) s (fun t => t = s.hw.respond o stTimeInvalid [])) ∧
  (∀ (s : State) (o : Origin) (m : Half) (sid : List Byte), s.hw.carries (.openSession o m sid) = true → sid.length = 16 →
    s.hw.sealed = true → s.hw.ins.storeReady = true → s.hw.serviceReady = false → s.hw.seq.state ≠ .standby → s.hw.inLimp = false →
    s.hw.seq.state ≠ .faultLatched → s.hw.MaskFits m → (∀ c < 8, m.getLsbD c = true → (s.hw.chan c).held = false) →
    ¬s.hw.InOpenSlot m →
    (s.hw.lodge.status = .invalid → s.hw.image.allowUnsync = true) → (∀ x ∈ s.hw.slots, x.st ≠ .free) →
    Completes (.openSession o m sid) s (fun t => t = s.hw.respond o stNoSlot [])) ∧
  (∀ (s : State) (o : Origin) (m : Half) (sid : List Byte), s.hw.carries (.openSession o m sid) = true → sid.length = 16 →
    s.hw.sealed = true → s.hw.ins.storeReady = true → s.hw.serviceReady = false → s.hw.seq.state ≠ .standby → s.hw.inLimp = false →
    s.hw.seq.state ≠ .faultLatched → s.hw.MaskFits m → (∀ c < 8, m.getLsbD c = true → (s.hw.chan c).held = false) →
    ¬s.hw.InOpenSlot m →
    (s.hw.lodge.status = .invalid → s.hw.image.allowUnsync = true) → (∃ x ∈ s.hw.slots, x.st = .free) → s.hw.logSpace < 34 →
    Completes (.openSession o m sid) s (fun t => t = s.hw.respond o stLogFull [])) ∧
  (∀ (s : State) (o : Origin) (m : Half) (sid : List Byte), s.hw.carries (.openSession o m sid) = true → sid.length = 16 →
    s.hw.sealed = true → s.hw.ins.storeReady = true → s.hw.serviceReady = false → s.hw.seq.state ≠ .standby → s.hw.inLimp = false →
    s.hw.seq.state ≠ .faultLatched → s.hw.MaskFits m → (∀ c < 8, m.getLsbD c = true → (s.hw.chan c).held = false) →
    ¬s.hw.InOpenSlot m →
    (s.hw.lodge.status = .invalid → s.hw.image.allowUnsync = true) → (∃ x ∈ s.hw.slots, x.st = .free) → 34 ≤ s.hw.logSpace → s.hw.logErased < 3 →
    Completes (.openSession o m sid) s (fun t => t = s.hw.respond o stBusy [])) ∧
  (∀ (s : State) (o : Origin) (m : Half) (sid : List Byte), s.hw.carries (.openSession o m sid) = true → sid.length = 16 →
    s.hw.sealed = true → s.hw.ins.storeReady = true → s.hw.serviceReady = false → s.hw.seq.state ≠ .standby → s.hw.inLimp = false →
    s.hw.seq.state ≠ .faultLatched → s.hw.MaskFits m → (∀ c < 8, m.getLsbD c = true → (s.hw.chan c).held = false) →
    ¬s.hw.InOpenSlot m →
    (s.hw.lodge.status = .invalid → s.hw.image.allowUnsync = true) → (∃ x ∈ s.hw.slots, x.st = .free) → 34 ≤ s.hw.logSpace → 3 ≤ s.hw.logErased →
    Completes (.openSession o m sid) s (fun t =>
      Replied s.hw t o 1 (be 2 t.proto.lastJob ++ be 1 s.hw.freeSlot) ∧ (t.slot s.hw.freeSlot).open? = true)) ∧
  (∀ (s : State) (o : Origin) (n : Byte) (sid : List Byte), s.hw.carries (.closeSession o n sid) = true → n.toNat ≤ 127 →
    (s.hw.slot n.toNat).open? = true → (s.hw.slot n.toNat).sid = sid → (s.hw.slot n.toNat).closeJob = none →
    (s.hw.slot n.toNat).closePending = false →
    Completes (.closeSession o n sid) s (fun t => Replied s.hw t o 1 (be 2 t.proto.lastJob) ∧
      (t.slot n.toNat).closePending = true ∧ (t.slot n.toNat).reason = 1 ∧
      (t.slot n.toNat).closeJob = some t.proto.lastJob ∧ (∀ j, j ≠ n.toNat → t.slot j = s.hw.slot j) ∧
      t.outs = s.hw.outs)) ∧
  (∀ (s : State) (o : Origin) (n : Word), s.hw.carries (.recordAck o n) = true → n.toNat ≤ s.hw.log.lastSeq →
    s.hw.ackSeq < n.toNat →
    Completes (.recordAck o n) s (fun t => Replied s.hw t o 0 [] ∧ t.ackSeq = n.toNat ∧
      (∀ j : Nat, (s.hw.slot j).st = .closed → (s.hw.slot j).seq ≤ n.toNat → (t.slot j).st = .free) ∧
      (∀ j : Nat, (s.hw.slot j).st ≠ .closed → t.slot j = s.hw.slot j) ∧ t.log.entries = s.hw.log.entries)) ∧
  (∀ (s : State) (o : Origin) (n : Word), s.hw.carries (.recordAck o n) = true → n.toNat ≤ s.hw.log.lastSeq →
    n.toNat ≤ s.hw.ackSeq →
    Completes (.recordAck o n) s (fun t => t = s.hw.ok o [])) ∧
  (∀ (s : State) (o : Origin) (c : Byte) (b : List Byte), s.hw.carries (.calWrite o c 0 b) = true → b.length = 48 → chanOk c = true →
    calCrcOk b = true → calInRange b = true →
    s.hw.slots.any (fun x => x.open? && x.mask.getLsbD (c.toNat - 1)) = false → s.hw.metro.calJob = none →
    s.hw.logRefuses 18 = none →
    Completes (.calWrite o c 0 b) s (fun t => Replied s.hw t o 1 (be 2 t.proto.lastJob) ∧
      t.metro.calJob = some { chan := c.toNat - 1, job := t.proto.lastJob, written := false } ∧
      t.store.queue.map (fun w => (w.key, w.isLog)) = s.hw.store.queue.map (fun w => (w.key, w.isLog)) ++
        [(0x100 + (c.toNat - 1), false), (0x108 + (c.toNat - 1), false), (0xE001, true)] ∧
      (∀ j, t.chan j = s.hw.chan j) ∧ t.outs = s.hw.outs)) ∧
  (∀ (s : State) (o : Origin), s.hw.carries (.seal o) = true → s.hw.sealRefused = none → FusesInRange s.hw.life →
    Completes (.seal o) s (fun t => Replied s.hw t o 1 (be 2 t.proto.lastJob) ∧ t.life.seals = s.hw.life.seals ∧
      t.life.state = s.hw.life.state ∧ t.life.keyGen = s.hw.life.keyGen + 1 ∧
      t.life.keySlot = some (s.hw.life.keyGen + 1) ∧ t.life.pubKeys = s.hw.life.pubKeys ++ [(t.life.keyGen, publicKey t.life.keyGen)] ∧
      (∃ w, t.store.queue.getLast? = some w ∧ w.isLog = true ∧ w.purpose = .sealing t.proto.lastJob) ∧ FusesInRange t.life)) ∧
  (∀ (s : State) (o : Origin) (st : Nat), s.hw.carries (.seal o) = true → s.hw.sealRefused = some st →
    Completes (.seal o) s (fun t => Replied s.hw t o st [] ∧ t.life = s.hw.life))

/-- R338, R346, R352, R358, R359, R374, R379, R381: the battery and time commands: settings in range take effect, host contact
ends the safe defaults; a TIME_SET waits for its record; the trim and an armed alarm are stored. BUSY for a table load while
another waits, and in timeRefused for a TIME_SET that waits, is the model's choice (log 34). R302, R315, R324, R331, R442,
R445, R450, R466: EVENT_COUNTERS_CLEAR clears the counters of its mask, FAULT_POLICY_SET a class's reaction; STORE_WRITE
queues its pair, or is BUSY with a half short; CONFIG_WRITE fills the staging buffer and CONFIG_COMMIT queues a checked image
and changes nothing else. -/
def Obligations.BatteryTimeAndStoreCommandsAct : Prop :=
  (∀ (s : State) (o : Origin) (a b c : Byte) (i : Half) (d e : Byte) (q : ChargeCfg), s.hw.carries (.chargerSet o a b c i d e) = true →
    chargerParams a b c i d e = some q →
    Completes (.chargerSet o a b c i d e) s (fun t => Replied s.hw t o 0 [] ∧ t.chg.set = q ∧ t.chg.safeDefaults = false ∧
      t.chg.contactAt = s.hw.clk ∧ q.iChg = 100 + 50 * b.toNat ∧ q.cvReduce = 10 * c.toNat ∧ t.outs = s.hw.outs)) ∧
  (∀ (a b c d e : Byte) (i : Half), chargerParams a b c i d e = none →
    RefusedWith (fun o => .chargerSet o a b c i d e) stBadParam) ∧
  (∀ (s : State) (o : Origin), s.hw.carries (.chargerKeepalive o) = true →
    Completes (.chargerKeepalive o) s (fun t => Replied s.hw t o 0 [] ∧
      t.chg = { s.hw.chg with contactAt := s.hw.clk } ∧ t.outs = s.hw.outs)) ∧
  (∀ (s : State) (o : Origin), s.hw.carries (.gaugeResetLearn o) = true →
    Completes (.gaugeResetLearn o) s (fun t => Replied s.hw t o 0 [] ∧ t.gauge.fcc = s.hw.image.designCap ∧
      t.gauge.cycles = 0 ∧ t.gauge.res = [] ∧ t.gauge.learning = true ∧ t.gauge.soc = s.hw.gauge.soc ∧
      t.gauge.custom = s.hw.gauge.custom)) ∧
  (∀ (s : State) (o : Origin) (ps : List (Half × Half)), s.hw.carries (.gaugeTableLoad o ps) = true → ps.length = 32 →
    s.hw.gauge.tableJob = none → tableOk (ps.map (fun p => (p.1.toNat, p.2.toNat))) = true →
    Completes (.gaugeTableLoad o ps) s (fun t => Replied s.hw t o 1 (be 2 t.proto.lastJob) ∧
      t.gauge.custom = some (ps.map (fun p => (p.1.toNat, p.2.toNat))) ∧ t.gauge.active = s.hw.gauge.active ∧
      (t.gauge.tableJob = some t.proto.lastJob ∨ ∃ w ∈ t.store.queue, w.key = 0x400 ∧ w.purpose = .table t.proto.lastJob) ∧
      t.evt.pend.getLsbD 39 = true ∧ t.outs = s.hw.outs)) ∧
  (∀ (s : State) (o : Origin) (ps : List (Half × Half)), s.hw.carries (.gaugeTableLoad o ps) = true → ps.length = 32 →
    s.hw.gauge.tableJob.isSome = true →
    Completes (.gaugeTableLoad o ps) s (fun t => t = s.hw.respond o stBusy [])) ∧
  (∀ (s : State) (o : Origin) (e : Byte) (v : Half) (l u c : Byte) (q : BackupCfg), s.hw.carries (.backupSet o e v l u c) = true →
    backupParams s.hw.image.chem e v l u c = some q →
    Completes (.backupSet o e v l u c) s (fun t => Replied s.hw t o 0 [] ∧ t.pwr = { s.hw.pwr with backup := q } ∧
      q.vCut = v.toNat ∧ t.outs = s.hw.outs)) ∧
  (∀ (s : State) (o : Origin) (v : DWord) (f : Byte), s.hw.carries (.timeSet o v f) = true → s.hw.timeRefused v f = none →
    Completes (.timeSet o v f) s (fun t => Replied s.hw t o 1 (be 2 t.proto.lastJob) ∧
      t.lodge.timeSet = some (TimeSetJob.mk (ticksOf v.toNat) s.hw.clk (f = 1) t.proto.lastJob false 0) ∧
      { t.lodge with timeSet := s.hw.lodge.timeSet } = s.hw.lodge ∧ t.outs = s.hw.outs)) ∧
  (∀ (s : State) (o : Origin) (v : DWord) (f : Byte) (st : Nat), s.hw.carries (.timeSet o v f) = true →
    s.hw.timeRefused v f = some st →
    Completes (.timeSet o v f) s (fun t => t = s.hw.respond o st [])) ∧
  (∀ (s : State) (o : Origin) (w : Half) (b : List Byte), s.hw.carries (.trimSet o w b) = true → b.length = 8 →
    s.hw.lodge.lock = false → trimOk (sint 16 w.toNat) = true →
    Completes (.trimSet o w b) s (fun t => Replied s.hw t o 0 [] ∧ t.lodge = { s.hw.lodge with
      trim := sint 16 w.toNat, band := b.map (fun (x : Byte) => sint 8 x.toNat) } ∧ t.outs = s.hw.outs)) ∧
  (∀ (s : State) (o : Origin) (a f : Byte) (v : DWord), s.hw.carries (.alarmSet o a 1 f 0 v) = true → s.hw.lodge.status ≠ .invalid →
    s.hw.lodge.lock = false → (a = 1 ∨ a = 2) → f.toNat ≤ 1 → timeOk v = true → s.hw.lodge.ticks < ticksOf v.toNat →
    s.hw.lodge.alarms.length = 2 →
    Completes (.alarmSet o a 1 f 0 v) s (fun t => Replied s.hw t o 0 [] ∧
      (t.lodge.alarms.getD (a.toNat - 1) Alarm.disarmed).state = .armed ∧
      (t.lodge.alarms.getD (a.toNat - 1) Alarm.disarmed).time = ticksOf v.toNat ∧ t.lodge.ticks = s.hw.lodge.ticks)) ∧
  (∀ (s : State) (o : Origin) (a f r : Byte) (v : DWord), s.hw.carries (.alarmSet o a 0 f r v) = true → s.hw.lodge.status ≠ .invalid →
    s.hw.lodge.lock = false → (a = 1 ∨ a = 2) →
    Completes (.alarmSet o a 0 f r v) s (fun t => Replied s.hw t o 0 [] ∧
      (t.lodge.alarms.getD (a.toNat - 1) Alarm.disarmed).state = .disarmed)) ∧
  (∀ (s : State) (o : Origin) (m : DWord), s.hw.carries (.eventCountersClear o m) = true →
    Completes (.eventCountersClear o m) s (fun t => Replied s.hw t o 0 [] ∧
      (∀ i, m.getLsbD i = true → t.evt.cnt.getD i 0 = 0) ∧
      (∀ i, m.getLsbD i = false → t.evt.cnt.getD i 0 = s.hw.evt.cnt.getD i 0) ∧ t.evt.pend = s.hw.evt.pend ∧
      t.evt.mask = s.hw.evt.mask ∧ t.outs = s.hw.outs)) ∧
  (∀ (s : State) (o : Origin) (c r : Byte), s.hw.carries (.faultPolicySet o c r) = true → 1 ≤ c.toNat → c.toNat ≤ 13 →
    reactionOk c.toNat r.toNat = true →
    Completes (.faultPolicySet o c r) s (fun t => Replied s.hw t o 0 [] ∧
      t.faults = { s.hw.faults with policies := s.hw.faults.policies.set (c.toNat - 1) r.toNat } ∧ t.outs = s.hw.outs)) ∧
  (∀ (s : State) (o : Origin) (k : Half) (n : Byte) (p : List Byte), s.hw.carries (.storeWrite o k n 0 p) = true → p.length = n.toNat →
    hostKey k = true → n.toNat ≤ 240 → s.hw.halfShort = false →
    Completes (.storeWrite o k n 0 p) s (fun t => Replied s.hw t o 1 (be 2 t.proto.lastJob) ∧
      t.store.queue = s.hw.store.queue ++ [StoreWrite.mk k.toNat p false false 0 (s.hw.store.pSeq + 1) s.hw.store.nextHalf
        (.job t.proto.lastJob)] ∧
      t.store.half0 = s.hw.store.half0 ∧ t.store.half1 = s.hw.store.half1 ∧ t.outs = s.hw.outs)) ∧
  (∀ (s : State) (o : Origin) (k : Half) (n : Byte) (p : List Byte), s.hw.carries (.storeWrite o k n 0 p) = true → p.length = n.toNat →
    hostKey k = true → n.toNat ≤ 240 → s.hw.halfShort = true →
    Completes (.storeWrite o k n 0 p) s (fun t => t = s.hw.respond o stBusy [])) ∧
  (∀ (s : State) (o : Origin) (a : Word) (n : Byte) (d : List Byte), s.hw.carries (.configWrite o a n 0 d) = true → d.length = n.toNat →
    1 ≤ n.toNat → n.toNat ≤ 240 → a.toNat + n.toNat ≤ 32768 → s.hw.buffersOk = true →
    Completes (.configWrite o a n 0 d) s (fun t => Replied s.hw t o 0 [] ∧
      Cells.read 0xFF t.store.staging a.toNat n.toNat = d ∧
      (∀ i, i < a.toNat ∨ a.toNat + n.toNat ≤ i → Cells.get 0xFF t.store.staging i = Cells.get 0xFF s.hw.store.staging i) ∧
      t.store.image = s.hw.store.image ∧ t.outs = s.hw.outs)) ∧
  (∀ (s : State) (o : Origin) (n crc : Word), s.hw.carries (.configCommit o n crc) = true → 64 ≤ n.toNat → n.toNat ≤ 32768 →
    crc32 (Cells.read 0xFF s.hw.store.staging 0 n.toNat) = crc →
    Completes (.configCommit o n crc) s (fun t => t.image = s.hw.image ∧ t.outs = s.hw.outs ∧
      (∀ i, stagedImage (Cells.read 0xFF s.hw.store.staging 0 n.toNat) = some i →
        Replied s.hw t o 1 (be 2 t.proto.lastJob) ∧ t.store.image = s.hw.store.image ∧ t.store.staging = [] ∧
          t.store.queue.dropLast = s.hw.store.queue ∧
          t.store.queue.getLast?.map (·.purpose) = some (.image t.proto.lastJob { i with configId := crc })) ∧
      (stagedImage (Cells.read 0xFF s.hw.store.staging 0 n.toNat) = none → t.store = s.hw.store ∧
          Replied s.hw t o 0x13 (be 4 (Config.badOffset (Cells.read 0xFF s.hw.store.staging 0 n.toNat)))))) ∧
  (∀ (s : State) (o : Origin) (n crc : Word), s.hw.carries (.configCommit o n crc) = true → 64 ≤ n.toNat → n.toNat ≤ 32768 →
    crc32 (Cells.read 0xFF s.hw.store.staging 0 n.toNat) ≠ crc →
    Completes (.configCommit o n crc) s (fun t => Replied s.hw t o 0x13 (be 4 0xFFFFFFFF) ∧ t.store = s.hw.store))

/-- R446, R447, R521, R526, R528, R530, R531: LIFECYCLE_ADVANCE enters CALIBRATION from PROVISIONED with CALENn low; staging
erases the slot that does not run and then appends; verification and activation follow their conditions, and ACTIVATE_PENDING
comes with the end of the programming; RETIRE burns its fuse and begins the erase. That the erase of OFFSET 0 takes no time is
the model's choice (log 68). R235, R449, R450, R477–R480, R505: the admission mask is set outside a follower; Folly arms a
checker or holds a detector, except in SEALED those of the meter; DIAG_COMPARE checks its sectors one by one and ends its job
at the first mismatch or the last sector; DIAG_SELFTEST ends its job with a result. That Folly arms when the reply is placed
(log 37), BUSY for a second DIAG_COMPARE and the free result of a self-test (log 43) are the model's choices; so is that the
jobs of SEAL and RETIRE outlive the wipe of R519 and every other job is gone (log 41). -/
def Obligations.LifeAndDiagnosticCommandsAct : Prop :=
  (∀ (s : State) (o : Origin), s.hw.carries (.lifecycleAdvance o 2) = true → s.hw.life.state = 1 → s.hw.metering = true →
    s.hw.lines.calenLow = true →
    Completes (.lifecycleAdvance o 2) s (fun t => Replied s.hw t o 0 [] ∧ t.life.calEntered = true ∧ t.life.state = 2 ∧
      t.life.seals = s.hw.life.seals ∧ t.life.lastTransition = s.hw.now ∧ t.faults.cap = none)) ∧
  (∀ (s : State) (o : Origin), s.hw.carries (.lifecycleAdvance o 2) = true → s.hw.life.state = 1 → s.hw.metering = true →
    s.hw.lines.calenLow = false →
    Completes (.lifecycleAdvance o 2) s (fun t => Replied s.hw t o 0x20 [] ∧ t.life = s.hw.life)) ∧
  (∀ (s : State) (o : Origin), s.hw.carries (.lifecycleAdvance o 3) = true → s.hw.life.state = 1 → s.hw.metering = false →
    s.hw.life.seals < 32 → FusesInRange s.hw.life →
    Completes (.lifecycleAdvance o 3) s (fun t => Replied s.hw t o 0 [] ∧ t.life.state = 3 ∧
      t.life.seals = s.hw.life.seals + 1 ∧ FusesInRange t.life)) ∧
  (∀ (s : State) (o : Origin) (n : Byte) (d : List Byte), s.hw.carries (.fwStage o 0 n 0 d) = true → d.length = n.toNat → n ≠ 0 →
    n.toNat ≤ 240 → s.hw.life.retired = false → s.hw.hit 0x0F = false →
    Completes (.fwStage o 0 n 0 d) s (fun t => Replied s.hw t o 1 (be 2 t.proto.lastJob) ∧
      JobEnded t t.proto.lastJob 0 0 (be 4 n.toNat) ∧ (t.fw.slot (!s.hw.fw.runB)).staged = n.toNat ∧
      (t.fw.slot (!s.hw.fw.runB)).activation = FwSlot.erased.activation ∧
      t.fw.slot s.hw.fw.runB = s.hw.fw.slot s.hw.fw.runB ∧ t.fw.stagedValid = false ∧ t.outs = s.hw.outs)) ∧
  (∀ (s : State) (o : Origin) (a : Word) (n : Byte) (d : List Byte), s.hw.carries (.fwStage o a n 0 d) = true → d.length = n.toNat →
    n ≠ 0 → n.toNat ≤ 240 → s.hw.life.retired = false → a ≠ 0 → a.toNat = (s.hw.fw.slot (!s.hw.fw.runB)).staged →
    a.toNat + n.toNat ≤ 2097152 → s.hw.hit 0x0F = false →
    Completes (.fwStage o a n 0 d) s (fun t => Replied s.hw t o 0 [] ∧
      (t.fw.slot (!s.hw.fw.runB)).staged = a.toNat + n.toNat ∧
      t.fw.slot s.hw.fw.runB = s.hw.fw.slot s.hw.fw.runB ∧ t.fw.stagedValid = s.hw.fw.stagedValid)) ∧
  (∀ (s : State) (o : Origin) (a : Word) (n : Byte) (d : List Byte), s.hw.carries (.fwStage o a n 0 d) = true → d.length = n.toNat →
    s.hw.life.retired = true →
    Completes (.fwStage o a n 0 d) s (fun t => t = s.hw.respond o stWrongLife [])) ∧
  (∀ (s : State) (o : Origin) (n : Word), s.hw.carries (.fwVerify o n) = true → (s.hw.fw.slot (!s.hw.fw.runB)).staged ≠ 0 →
    s.hw.faults.inject = List.replicate 15 (0, false) →
    Completes (.fwVerify o n) s (fun t => Replied s.hw t o 1 (be 2 t.proto.lastJob) ∧
      (t.fw.stagedValid = true ↔
        ((s.hw.fw.slot (!s.hw.fw.runB)).parsed s.hw.factory.fwKey).verdict n.toNat s.hw.fw.rollback = 0) ∧
      t.fw.slot s.hw.fw.runB = s.hw.fw.slot s.hw.fw.runB ∧ t.fw.rollback = s.hw.fw.rollback)) ∧
  (∀ (s : State) (o : Origin) (f : Byte), s.hw.carries (.fwActivate o f) = true → s.hw.fw.stagedValid = true → f.toNat ≤ 1 →
    Completes (.fwActivate o f) s (fun t => Replied s.hw t o 0 [] ∧ t.fw.programming = true ∧
      (t.fw.slot (!s.hw.fw.runB)).activation = (s.hw.fw.slot s.hw.fw.runB).activation + 1 ∧
      t.rst.fwReset = (f == 1 || s.hw.inLimp) ∧ t.fw.runB = s.hw.fw.runB)) ∧
  (∀ (s : State) (ok : Bool), s.hw.fw.programming = true → s.hw.ins.mainOn = true → s.hw.pwr.commit = none →
    Completes (.flashProgramComplete ok) s (fun t => t.fw.programming = false ∧ t.fw.activatePending = ok ∧
      (ok = true → (t.fw.slot (!s.hw.fw.runB)).activationN = ~~~(s.hw.fw.slot (!s.hw.fw.runB)).activation) ∧
      t.fw.runB = s.hw.fw.runB ∧ t.outs = s.hw.outs)) ∧
  (∀ (s : State) (o : Origin) (f : Byte), s.hw.carries (.fwActivate o f) = true → s.hw.fw.stagedValid = false →
    Completes (.fwActivate o f) s (fun t => t = s.hw.respond o stWrongState [])) ∧
  (∀ (s : State) (o : Origin) (f : Byte), s.hw.carries (.retire o f) = true → s.hw.retireRefused f = none →
    Completes (.retire o f) s (fun t => Replied s.hw t o 1 (be 2 t.proto.lastJob) ∧ t.life.retired = true ∧
      t.life.state = 4 ∧ t.life.keySlot = none ∧ t.life.retireJob = some t.proto.lastJob ∧ 0 < t.life.retireLeft ∧
      t.life.seals = s.hw.life.seals ∧ t.life.breaks = s.hw.life.breaks ∧ t.proto.unlock.unlocked = false)) ∧
  (∀ (s : State) (o : Origin) (f : Byte) (st : Nat), s.hw.carries (.retire o f) = true → s.hw.retireRefused f = some st →
    Completes (.retire o f) s (fun t => Replied s.hw t o st [] ∧ t.life = s.hw.life)) ∧
  (∀ (s : State) (o : Origin) (m : Half) (p : Byte), s.hw.carries (.promAdmitPolicy o m p) = true → s.hw.prm.role ≠ .follower →
    m.getLsbD 0 = false → p.toNat ≤ 1 →
    Completes (.promAdmitPolicy o m p) s (fun t => Replied s.hw t o 0 [] ∧ t.prm.admitMask = m ∧
      t.prm.autoJoinRun = decide (p = 1) ∧ t.prm.roster = s.hw.prm.roster ∧ t.outs = s.hw.outs)) ∧
  (∀ (s : State) (o : Origin) (m : Half) (p : Byte), s.hw.carries (.promAdmitPolicy o m p) = true → s.hw.prm.role = .follower →
    Completes (.promAdmitPolicy o m p) s (fun t => t = s.hw.respond o stWrongState [])) ∧
  (∀ (s : State) (o : Origin) (c n : Byte), s.hw.carries (.follyInject o c n) = true → 1 ≤ c.toNat % 128 → c.toNat % 128 ≤ 15 →
    (c.getLsbD 7 = true → c.toNat % 128 ≤ 7) → n ≠ 0 → (s.hw.sealed && sealedChecker (c.toNat % 128)) = false →
    Completes (.follyInject o c n) s (fun t => Replied s.hw t o 0 [] ∧ t.faults.inject = s.hw.faults.inject ∧
      t.faults.arming = s.hw.faults.arming ++
        [{ relayed := s.hw.relayed o, checker := c.toNat % 128, count := n.toNat, hard := c.getLsbD 7 }] ∧
      t.faults.cap = s.hw.faults.cap ∧ t.outs = s.hw.outs)) ∧
  (∀ (s : State) (o : Origin) (c : Byte), s.hw.carries (.follyForce o c 0) = true → forceSource c.toNat = true →
    (s.hw.sealed = false ∨ c.toNat < 0x50) →
    Completes (.follyForce o c 0) s (fun t => Replied s.hw t o 0 [] ∧ c.toNat ∉ t.faults.forces ∧
      (∀ n, n ≠ c.toNat → (n ∈ t.faults.forces ↔ n ∈ s.hw.faults.forces)) ∧ t.outs = s.hw.outs)) ∧
  (∀ (s : State) (o : Origin), s.hw.carries (.follyForce o 0x42 1) = true → s.hw.ins.state ≠ .ready →
    Completes (.follyForce o 0x42 1) s (fun t => Replied s.hw t o 0 [] ∧ 0x42 ∈ t.faults.forces ∧ t.outs = s.hw.outs)) ∧
  (∀ (s : State) (o : Origin), s.hw.carries (.follyForce o 0x40 1) = true → s.hw.seq.state = .run → s.hw.gone = false →
    s.hw.faults.forces = [] →
    Completes (.follyForce o 0x40 1) s (fun t => Replied s.hw t o 0 [] ∧ t.faults.forces = [0x40] ∧
      t.seq.state = .faultLatched ∧ t.seq.cause = 6)) ∧
  (∀ (s : State) (o : Origin) (r : Byte) (q : Word) (n : Half), s.hw.carries (.diagCompare o 0 r q n) = true → 1 ≤ r.toNat → r.toNat ≤ 5 →
    1 ≤ n.toNat → n.toNat ≤ 4096 → q.toNat + n.toNat ≤ regionSectors r.toNat → s.hw.bulk.diag = none →
    Completes (.diagCompare o 0 r q n) s (fun t => Replied s.hw t o 1 (be 2 t.proto.lastJob) ∧
      t.bulk.diag = some { job := t.proto.lastJob, copies := false, region := r.toNat, next := q.toNat,
                           left := n.toNat, count := n.toNat } ∧
      t.store = s.hw.store ∧ t.log = s.hw.log ∧ t.outs = s.hw.outs)) ∧
  (∀ (s : State) (o : Origin) (m r : Byte) (q : Word) (n : Half), s.hw.carries (.diagCompare o m r q n) = true →
    s.hw.bulk.diag.isSome = true →
    Completes (.diagCompare o m r q n) s (fun t => t = s.hw.respond o stBusy [])) ∧
  (∀ (h : Hw) (d : Diag), h.bulk.diag = some d → d.copies = false → h.ins.booted = true → h.flashBusy = false →
    h.pwr.commit = none → h.life.retireLeft = 0 → h.faults.inject = List.replicate 15 (0, false) →
    (∀ a, h.notErased d.region d.next = some a →
      h.diagSector.bulk.diag = none ∧ ((∃ j ∈ h.proto.jobs, j.num = d.job ∧ j.state = .running) → JobEnded h.diagSector d.job 0 1 (be 4 a))) ∧
    (h.notErased d.region d.next = none → 1 < d.left →
      h.diagSector.bulk.diag = some { d with next := d.next + 1, left := d.left - 1 }) ∧
    (h.notErased d.region d.next = none → d.left ≤ 1 →
      h.diagSector.bulk.diag = none ∧ ((∃ j ∈ h.proto.jobs, j.num = d.job ∧ j.state = .running) → JobEnded h.diagSector d.job 0 0 (be 4 0xFFFFFFFF)))) ∧
  (∀ (s : State) (o : Origin) (x : Byte), s.hw.carries (.diagSelftest o x) = true → 1 ≤ x.toNat → x.toNat ≤ 8 →
    s.hw.phaseInUse (x.toNat - 1) = false →
    Completes (.diagSelftest o x) s (fun t => Replied s.hw t o 1 (be 2 t.proto.lastJob) ∧
      (∃ r, JobEnded t t.proto.lastJob 0 (if r = 0 then 0 else 1) (be 1 r)) ∧ t.outs = s.hw.outs)) ∧
  (∀ (s : State) (o : Origin) (x : Byte), s.hw.carries (.diagSelftest o x) = true → 1 ≤ x.toNat → x.toNat ≤ 8 →
    s.hw.phaseInUse (x.toNat - 1) = true →
    Completes (.diagSelftest o x) s (fun t => t = s.hw.respond o stWrongState []))
end

