-- ==== Sys2Proof/Laws/Cells.lean ====
section
/-! SUPPORT. The laws of the addressed buffers: a byte read after a write, bytes read after a run of writes, and that every
write keeps the canonical form. -/

namespace Sys2Proof.Machine

/-- No entry of a buffer lies below an address. -/
def Cells.above (a : Nat) (m : Cells) : Prop := ∀ x ∈ m, a < x.1

theorem Cells.wf_cons (d : Byte) (k : Nat) (v : Byte) (r : Cells) (h : Cells.wf d ((k, v) :: r) = true) :
    v ≠ d ∧ Cells.above k r ∧ Cells.wf d r = true := by
  induction r generalizing k v with
  | nil => simp [Cells.wf, Cells.above] at h ⊢; exact h
  | cons x r ih =>
    obtain ⟨k', v'⟩ := x
    rw [Cells.wf] at h
    simp only [Bool.and_eq_true, bne_iff_ne, ne_eq, decide_eq_true_eq] at h
    obtain ⟨⟨hv, hlt⟩, hr⟩ := h
    refine ⟨hv, ?_, hr⟩
    have := (ih k' v' hr).2.1
    intro y hy
    rcases List.mem_cons.mp hy with rfl | hy
    · exact hlt
    · exact Nat.lt_trans hlt (this y hy)

theorem Cells.wf_of (d : Byte) (k : Nat) (v : Byte) (r : Cells) (hv : v ≠ d) (ha : Cells.above k r)
    (hr : Cells.wf d r = true) : Cells.wf d ((k, v) :: r) = true := by
  cases r with
  | nil => simp [Cells.wf, hv]
  | cons x r =>
    have := ha x (List.mem_cons_self ..)
    rw [Cells.wf]
    simp [hv, hr, this]

theorem Cells.put_above (d : Byte) (m : Cells) (a k : Nat) (b : Byte) (hm : Cells.above k m) (hk : k < a) :
    Cells.above k (Cells.put d m a b) := by
  induction m with
  | nil => unfold Cells.put; split <;> simp [Cells.above, hk]
  | cons x r ih =>
    obtain ⟨k', v'⟩ := x
    have h1 : k < k' := hm _ (List.mem_cons_self ..)
    have h2 : Cells.above k r := fun y hy => hm y (List.mem_cons_of_mem _ hy)
    unfold Cells.put
    intro y hy
    split at hy
    · split at hy
      · exact h2 y hy
      · rcases List.mem_cons.mp hy with rfl | hy
        · exact h1
        · exact h2 y hy
    · split at hy
      · split at hy
        · exact hm y hy
        · rcases List.mem_cons.mp hy with rfl | hy
          · exact hk
          · exact hm y hy
      · rcases List.mem_cons.mp hy with rfl | hy
        · exact h1
        · exact ih h2 y hy

/-- Writing one byte keeps the canonical form. -/
theorem Cells.wf_put (d : Byte) (m : Cells) (a : Nat) (b : Byte) (hm : Cells.wf d m = true) :
    Cells.wf d (Cells.put d m a b) = true := by
  induction m with
  | nil =>
    unfold Cells.put
    split
    · rfl
    · next h => simp [Cells.wf, h]
  | cons x r ih =>
    obtain ⟨k, v⟩ := x
    obtain ⟨hv, ha, hr⟩ := Cells.wf_cons d k v r hm
    unfold Cells.put
    split
    · split
      · exact hr
      · next hb => exact Cells.wf_of d k b r hb ha hr
    · split
      · split
        · exact hm
        · next hlt hb =>
          refine Cells.wf_of d a b _ hb (fun y hy => ?_) hm
          rcases List.mem_cons.mp hy with rfl | hy
          · exact hlt
          · exact Nat.lt_trans hlt (ha y hy)
      · next hne hlt => exact Cells.wf_of d k v _ hv (Cells.put_above d r a k b ha (by omega)) (ih hr)

/-- Writing a run of bytes keeps the canonical form. -/
theorem Cells.wf_putAll (d : Byte) (m : Cells) (a : Nat) (bs : List Byte) (hm : Cells.wf d m = true) :
    Cells.wf d (Cells.putAll d m a bs) = true := by
  induction bs generalizing m a with
  | nil => exact hm
  | cons b bs ih => exact ih _ _ (Cells.wf_put d m a b hm)

theorem Cells.get_above (d : Byte) (m : Cells) (a k : Nat) (hm : Cells.above k m) (h : a ≤ k) : Cells.get d m a = d := by
  induction m with
  | nil => rfl
  | cons x r ih =>
    obtain ⟨k', v'⟩ := x
    have h1 : k < k' := hm _ (List.mem_cons_self ..)
    rw [Cells.get, if_neg (by omega)]
    exact ih (fun y hy => hm y (List.mem_cons_of_mem _ hy))

/-- A byte reads as it was written. -/
theorem Cells.get_put (d : Byte) (m : Cells) (a : Nat) (b : Byte) (hm : Cells.wf d m = true) :
    Cells.get d (Cells.put d m a b) a = b := by
  induction m with
  | nil =>
    unfold Cells.put
    split
    · next h => simp [Cells.get, h]
    · simp [Cells.get]
  | cons x r ih =>
    obtain ⟨k, v⟩ := x
    obtain ⟨hv, ha, hr⟩ := Cells.wf_cons d k v r hm
    unfold Cells.put
    split
    · next hk =>
      split
      · next hb => rw [hb]; exact Cells.get_above d r a k ha (by omega)
      · rw [Cells.get, if_pos hk]
    · next hk =>
      split
      · next hlt =>
        split
        · next hb =>
          rw [hb, Cells.get, if_neg hk]
          exact Cells.get_above d r a k ha (by omega)
        · rw [Cells.get, if_pos rfl]
      · rw [Cells.get, if_neg hk]
        exact ih hr

/-- A write leaves every other byte alone. -/
theorem Cells.get_put_other (d : Byte) (m : Cells) (a c : Nat) (b : Byte) (h : c ≠ a) (hm : Cells.wf d m = true) :
    Cells.get d (Cells.put d m a b) c = Cells.get d m c := by
  induction m with
  | nil =>
    unfold Cells.put
    split
    · rfl
    · simp [Cells.get, Ne.symm h]
  | cons x r ih =>
    obtain ⟨k, v⟩ := x
    obtain ⟨hv, ha, hr⟩ := Cells.wf_cons d k v r hm
    unfold Cells.put
    split
    · next hk =>
      have hne : k ≠ c := by omega
      split
      · rw [Cells.get, if_neg hne]
      · rw [Cells.get, if_neg hne, Cells.get, if_neg hne]
    · split
      · split
        · rfl
        · rw [Cells.get, if_neg (Ne.symm h)]
      · by_cases hc : k = c
        · rw [Cells.get, if_pos hc, Cells.get, if_pos hc]
        · rw [Cells.get, if_neg hc, Cells.get, if_neg hc]
          exact ih hr

/-- A run of writes leaves every byte outside it alone. -/
theorem Cells.get_putAll_other (d : Byte) (m : Cells) (a c : Nat) (bs : List Byte) (h : c < a ∨ a + bs.length ≤ c)
    (hm : Cells.wf d m = true) : Cells.get d (Cells.putAll d m a bs) c = Cells.get d m c := by
  induction bs generalizing m a with
  | nil => rfl
  | cons b bs ih =>
    simp only [List.length_cons] at h
    rw [Cells.putAll, ih _ _ (by omega) (Cells.wf_put d m a b hm), Cells.get_put_other d m a c b (by omega) hm]

/-- Bytes written in a run read back as written. -/
theorem Cells.read_putAll (d : Byte) (m : Cells) (a : Nat) (bs : List Byte) (hm : Cells.wf d m = true) :
    Cells.read d (Cells.putAll d m a bs) a bs.length = bs := by
  induction bs generalizing m a with
  | nil => rfl
  | cons b bs ih =>
    rw [Cells.putAll, List.length_cons, Cells.read, ih _ _ (Cells.wf_put d m a b hm),
      Cells.get_putAll_other d _ _ _ _ (by omega) (Cells.wf_put d m a b hm), Cells.get_put d m a b hm]

@[simp] theorem Cells.read_length (d : Byte) (m : Cells) (a n : Nat) : (Cells.read d m a n).length = n := by
  induction n generalizing a with
  | zero => rfl
  | succ n ih => rw [Cells.read, List.length_cons, ih]

/-- Reading n bytes gives at index i the byte at address a + i. -/
theorem Cells.read_get (d : Byte) (m : Cells) (a n i : Nat) (h : i < n) :
    (Cells.read d m a n)[i]? = some (Cells.get d m (a + i)) := by
  induction n generalizing a i with
  | zero => omega
  | succ n ih =>
    cases i with
    | zero => rfl
    | succ i =>
      rw [Cells.read, List.getElem?_cons_succ, ih (a + 1) i (by omega)]
      congr 2
      omega

end Sys2Proof.Machine
end

