-- ==== Sys2Proof/Laws/State.lean ====
section
/-! SUPPORT. The small lemmas of State: what each named update leaves of each field, and what reading an entry gives after one
entry was changed. -/

namespace Sys2Proof.Machine

/-! ## A meaning leaves the queue -/

@[simp] theorem State.upd_eq (s : State) (f : Hw → Hw) : s.upd f = .next { s with hw := f s.hw } := rfl

/-! ## modOut -/

@[simp] theorem Hw.modOut_clk (h : Hw) (k : Nat) (f : Output → Output) : (h.modOut k f).clk = h.clk := rfl
@[simp] theorem Hw.modOut_free (h : Hw) (k : Nat) (f : Output → Output) : (h.modOut k f).free = h.free := rfl
@[simp] theorem Hw.modOut_factory (h : Hw) (k : Nat) (f : Output → Output) : (h.modOut k f).factory = h.factory := rfl
@[simp] theorem Hw.modOut_image (h : Hw) (k : Nat) (f : Output → Output) : (h.modOut k f).image = h.image := rfl
@[simp] theorem Hw.modOut_ins (h : Hw) (k : Nat) (f : Output → Output) : (h.modOut k f).ins = h.ins := rfl
@[simp] theorem Hw.modOut_straps (h : Hw) (k : Nat) (f : Output → Output) : (h.modOut k f).straps = h.straps := rfl
@[simp] theorem Hw.modOut_lines (h : Hw) (k : Nat) (f : Output → Output) : (h.modOut k f).lines = h.lines := rfl
@[simp] theorem Hw.modOut_rst (h : Hw) (k : Nat) (f : Output → Output) : (h.modOut k f).rst = h.rst := rfl
@[simp] theorem Hw.modOut_pwr (h : Hw) (k : Nat) (f : Output → Output) : (h.modOut k f).pwr = h.pwr := rfl
@[simp] theorem Hw.modOut_idle (h : Hw) (k : Nat) (f : Output → Output) : (h.modOut k f).idle = h.idle := rfl
@[simp] theorem Hw.modOut_gov (h : Hw) (k : Nat) (f : Output → Output) : (h.modOut k f).gov = h.gov := rfl
@[simp] theorem Hw.modOut_pool (h : Hw) (k : Nat) (f : Output → Output) : (h.modOut k f).pool = h.pool := rfl
@[simp] theorem Hw.modOut_vcl (h : Hw) (k : Nat) (f : Output → Output) : (h.modOut k f).vcl = h.vcl := rfl
@[simp] theorem Hw.modOut_ports (h : Hw) (k : Nat) (f : Output → Output) : (h.modOut k f).ports = h.ports := rfl
@[simp] theorem Hw.modOut_acc (h : Hw) (k : Nat) (f : Output → Output) : (h.modOut k f).acc = h.acc := rfl
@[simp] theorem Hw.modOut_adc (h : Hw) (k : Nat) (f : Output → Output) : (h.modOut k f).adc = h.adc := rfl
@[simp] theorem Hw.modOut_seq (h : Hw) (k : Nat) (f : Output → Output) : (h.modOut k f).seq = h.seq := rfl
@[simp] theorem Hw.modOut_prm (h : Hw) (k : Nat) (f : Output → Output) : (h.modOut k f).prm = h.prm := rfl
@[simp] theorem Hw.modOut_metro (h : Hw) (k : Nat) (f : Output → Output) : (h.modOut k f).metro = h.metro := rfl
@[simp] theorem Hw.modOut_slots (h : Hw) (k : Nat) (f : Output → Output) : (h.modOut k f).slots = h.slots := rfl
@[simp] theorem Hw.modOut_log (h : Hw) (k : Nat) (f : Output → Output) : (h.modOut k f).log = h.log := rfl
@[simp] theorem Hw.modOut_store (h : Hw) (k : Nat) (f : Output → Output) : (h.modOut k f).store = h.store := rfl
@[simp] theorem Hw.modOut_ackSeq (h : Hw) (k : Nat) (f : Output → Output) : (h.modOut k f).ackSeq = h.ackSeq := rfl
@[simp] theorem Hw.modOut_recordsLost (h : Hw) (k : Nat) (f : Output → Output) : (h.modOut k f).recordsLost = h.recordsLost := rfl
@[simp] theorem Hw.modOut_proto (h : Hw) (k : Nat) (f : Output → Output) : (h.modOut k f).proto = h.proto := rfl
@[simp] theorem Hw.modOut_evt (h : Hw) (k : Nat) (f : Output → Output) : (h.modOut k f).evt = h.evt := rfl
@[simp] theorem Hw.modOut_wdt (h : Hw) (k : Nat) (f : Output → Output) : (h.modOut k f).wdt = h.wdt := rfl
@[simp] theorem Hw.modOut_faults (h : Hw) (k : Nat) (f : Output → Output) : (h.modOut k f).faults = h.faults := rfl
@[simp] theorem Hw.modOut_chg (h : Hw) (k : Nat) (f : Output → Output) : (h.modOut k f).chg = h.chg := rfl
@[simp] theorem Hw.modOut_gauge (h : Hw) (k : Nat) (f : Output → Output) : (h.modOut k f).gauge = h.gauge := rfl
@[simp] theorem Hw.modOut_lodge (h : Hw) (k : Nat) (f : Output → Output) : (h.modOut k f).lodge = h.lodge := rfl
@[simp] theorem Hw.modOut_therm (h : Hw) (k : Nat) (f : Output → Output) : (h.modOut k f).therm = h.therm := rfl
@[simp] theorem Hw.modOut_bulk (h : Hw) (k : Nat) (f : Output → Output) : (h.modOut k f).bulk = h.bulk := rfl
@[simp] theorem Hw.modOut_life (h : Hw) (k : Nat) (f : Output → Output) : (h.modOut k f).life = h.life := rfl
@[simp] theorem Hw.modOut_fw (h : Hw) (k : Nat) (f : Output → Output) : (h.modOut k f).fw = h.fw := rfl

/-! ## modPort -/

@[simp] theorem Hw.modPort_clk (h : Hw) (k : Nat) (f : Port → Port) : (h.modPort k f).clk = h.clk := rfl
@[simp] theorem Hw.modPort_free (h : Hw) (k : Nat) (f : Port → Port) : (h.modPort k f).free = h.free := rfl
@[simp] theorem Hw.modPort_factory (h : Hw) (k : Nat) (f : Port → Port) : (h.modPort k f).factory = h.factory := rfl
@[simp] theorem Hw.modPort_image (h : Hw) (k : Nat) (f : Port → Port) : (h.modPort k f).image = h.image := rfl
@[simp] theorem Hw.modPort_ins (h : Hw) (k : Nat) (f : Port → Port) : (h.modPort k f).ins = h.ins := rfl
@[simp] theorem Hw.modPort_straps (h : Hw) (k : Nat) (f : Port → Port) : (h.modPort k f).straps = h.straps := rfl
@[simp] theorem Hw.modPort_lines (h : Hw) (k : Nat) (f : Port → Port) : (h.modPort k f).lines = h.lines := rfl
@[simp] theorem Hw.modPort_rst (h : Hw) (k : Nat) (f : Port → Port) : (h.modPort k f).rst = h.rst := rfl
@[simp] theorem Hw.modPort_pwr (h : Hw) (k : Nat) (f : Port → Port) : (h.modPort k f).pwr = h.pwr := rfl
@[simp] theorem Hw.modPort_idle (h : Hw) (k : Nat) (f : Port → Port) : (h.modPort k f).idle = h.idle := rfl
@[simp] theorem Hw.modPort_gov (h : Hw) (k : Nat) (f : Port → Port) : (h.modPort k f).gov = h.gov := rfl
@[simp] theorem Hw.modPort_outs (h : Hw) (k : Nat) (f : Port → Port) : (h.modPort k f).outs = h.outs := rfl
@[simp] theorem Hw.modPort_pool (h : Hw) (k : Nat) (f : Port → Port) : (h.modPort k f).pool = h.pool := rfl
@[simp] theorem Hw.modPort_vcl (h : Hw) (k : Nat) (f : Port → Port) : (h.modPort k f).vcl = h.vcl := rfl
@[simp] theorem Hw.modPort_acc (h : Hw) (k : Nat) (f : Port → Port) : (h.modPort k f).acc = h.acc := rfl
@[simp] theorem Hw.modPort_adc (h : Hw) (k : Nat) (f : Port → Port) : (h.modPort k f).adc = h.adc := rfl
@[simp] theorem Hw.modPort_seq (h : Hw) (k : Nat) (f : Port → Port) : (h.modPort k f).seq = h.seq := rfl
@[simp] theorem Hw.modPort_prm (h : Hw) (k : Nat) (f : Port → Port) : (h.modPort k f).prm = h.prm := rfl
@[simp] theorem Hw.modPort_metro (h : Hw) (k : Nat) (f : Port → Port) : (h.modPort k f).metro = h.metro := rfl
@[simp] theorem Hw.modPort_slots (h : Hw) (k : Nat) (f : Port → Port) : (h.modPort k f).slots = h.slots := rfl
@[simp] theorem Hw.modPort_log (h : Hw) (k : Nat) (f : Port → Port) : (h.modPort k f).log = h.log := rfl
@[simp] theorem Hw.modPort_store (h : Hw) (k : Nat) (f : Port → Port) : (h.modPort k f).store = h.store := rfl
@[simp] theorem Hw.modPort_ackSeq (h : Hw) (k : Nat) (f : Port → Port) : (h.modPort k f).ackSeq = h.ackSeq := rfl
@[simp] theorem Hw.modPort_recordsLost (h : Hw) (k : Nat) (f : Port → Port) : (h.modPort k f).recordsLost = h.recordsLost := rfl
@[simp] theorem Hw.modPort_proto (h : Hw) (k : Nat) (f : Port → Port) : (h.modPort k f).proto = h.proto := rfl
@[simp] theorem Hw.modPort_evt (h : Hw) (k : Nat) (f : Port → Port) : (h.modPort k f).evt = h.evt := rfl
@[simp] theorem Hw.modPort_wdt (h : Hw) (k : Nat) (f : Port → Port) : (h.modPort k f).wdt = h.wdt := rfl
@[simp] theorem Hw.modPort_faults (h : Hw) (k : Nat) (f : Port → Port) : (h.modPort k f).faults = h.faults := rfl
@[simp] theorem Hw.modPort_chg (h : Hw) (k : Nat) (f : Port → Port) : (h.modPort k f).chg = h.chg := rfl
@[simp] theorem Hw.modPort_gauge (h : Hw) (k : Nat) (f : Port → Port) : (h.modPort k f).gauge = h.gauge := rfl
@[simp] theorem Hw.modPort_lodge (h : Hw) (k : Nat) (f : Port → Port) : (h.modPort k f).lodge = h.lodge := rfl
@[simp] theorem Hw.modPort_therm (h : Hw) (k : Nat) (f : Port → Port) : (h.modPort k f).therm = h.therm := rfl
@[simp] theorem Hw.modPort_bulk (h : Hw) (k : Nat) (f : Port → Port) : (h.modPort k f).bulk = h.bulk := rfl
@[simp] theorem Hw.modPort_life (h : Hw) (k : Nat) (f : Port → Port) : (h.modPort k f).life = h.life := rfl
@[simp] theorem Hw.modPort_fw (h : Hw) (k : Nat) (f : Port → Port) : (h.modPort k f).fw = h.fw := rfl

/-! ## modChan -/

@[simp] theorem Hw.modChan_clk (h : Hw) (k : Nat) (f : Chan → Chan) : (h.modChan k f).clk = h.clk := rfl
@[simp] theorem Hw.modChan_free (h : Hw) (k : Nat) (f : Chan → Chan) : (h.modChan k f).free = h.free := rfl
@[simp] theorem Hw.modChan_factory (h : Hw) (k : Nat) (f : Chan → Chan) : (h.modChan k f).factory = h.factory := rfl
@[simp] theorem Hw.modChan_image (h : Hw) (k : Nat) (f : Chan → Chan) : (h.modChan k f).image = h.image := rfl
@[simp] theorem Hw.modChan_ins (h : Hw) (k : Nat) (f : Chan → Chan) : (h.modChan k f).ins = h.ins := rfl
@[simp] theorem Hw.modChan_straps (h : Hw) (k : Nat) (f : Chan → Chan) : (h.modChan k f).straps = h.straps := rfl
@[simp] theorem Hw.modChan_lines (h : Hw) (k : Nat) (f : Chan → Chan) : (h.modChan k f).lines = h.lines := rfl
@[simp] theorem Hw.modChan_rst (h : Hw) (k : Nat) (f : Chan → Chan) : (h.modChan k f).rst = h.rst := rfl
@[simp] theorem Hw.modChan_pwr (h : Hw) (k : Nat) (f : Chan → Chan) : (h.modChan k f).pwr = h.pwr := rfl
@[simp] theorem Hw.modChan_idle (h : Hw) (k : Nat) (f : Chan → Chan) : (h.modChan k f).idle = h.idle := rfl
@[simp] theorem Hw.modChan_gov (h : Hw) (k : Nat) (f : Chan → Chan) : (h.modChan k f).gov = h.gov := rfl
@[simp] theorem Hw.modChan_outs (h : Hw) (k : Nat) (f : Chan → Chan) : (h.modChan k f).outs = h.outs := rfl
@[simp] theorem Hw.modChan_pool (h : Hw) (k : Nat) (f : Chan → Chan) : (h.modChan k f).pool = h.pool := rfl
@[simp] theorem Hw.modChan_vcl (h : Hw) (k : Nat) (f : Chan → Chan) : (h.modChan k f).vcl = h.vcl := rfl
@[simp] theorem Hw.modChan_ports (h : Hw) (k : Nat) (f : Chan → Chan) : (h.modChan k f).ports = h.ports := rfl
@[simp] theorem Hw.modChan_acc (h : Hw) (k : Nat) (f : Chan → Chan) : (h.modChan k f).acc = h.acc := rfl
@[simp] theorem Hw.modChan_adc (h : Hw) (k : Nat) (f : Chan → Chan) : (h.modChan k f).adc = h.adc := rfl
@[simp] theorem Hw.modChan_seq (h : Hw) (k : Nat) (f : Chan → Chan) : (h.modChan k f).seq = h.seq := rfl
@[simp] theorem Hw.modChan_prm (h : Hw) (k : Nat) (f : Chan → Chan) : (h.modChan k f).prm = h.prm := rfl
@[simp] theorem Hw.modChan_slots (h : Hw) (k : Nat) (f : Chan → Chan) : (h.modChan k f).slots = h.slots := rfl
@[simp] theorem Hw.modChan_log (h : Hw) (k : Nat) (f : Chan → Chan) : (h.modChan k f).log = h.log := rfl
@[simp] theorem Hw.modChan_store (h : Hw) (k : Nat) (f : Chan → Chan) : (h.modChan k f).store = h.store := rfl
@[simp] theorem Hw.modChan_ackSeq (h : Hw) (k : Nat) (f : Chan → Chan) : (h.modChan k f).ackSeq = h.ackSeq := rfl
@[simp] theorem Hw.modChan_recordsLost (h : Hw) (k : Nat) (f : Chan → Chan) : (h.modChan k f).recordsLost = h.recordsLost := rfl
@[simp] theorem Hw.modChan_proto (h : Hw) (k : Nat) (f : Chan → Chan) : (h.modChan k f).proto = h.proto := rfl
@[simp] theorem Hw.modChan_evt (h : Hw) (k : Nat) (f : Chan → Chan) : (h.modChan k f).evt = h.evt := rfl
@[simp] theorem Hw.modChan_wdt (h : Hw) (k : Nat) (f : Chan → Chan) : (h.modChan k f).wdt = h.wdt := rfl
@[simp] theorem Hw.modChan_faults (h : Hw) (k : Nat) (f : Chan → Chan) : (h.modChan k f).faults = h.faults := rfl
@[simp] theorem Hw.modChan_chg (h : Hw) (k : Nat) (f : Chan → Chan) : (h.modChan k f).chg = h.chg := rfl
@[simp] theorem Hw.modChan_gauge (h : Hw) (k : Nat) (f : Chan → Chan) : (h.modChan k f).gauge = h.gauge := rfl
@[simp] theorem Hw.modChan_lodge (h : Hw) (k : Nat) (f : Chan → Chan) : (h.modChan k f).lodge = h.lodge := rfl
@[simp] theorem Hw.modChan_therm (h : Hw) (k : Nat) (f : Chan → Chan) : (h.modChan k f).therm = h.therm := rfl
@[simp] theorem Hw.modChan_bulk (h : Hw) (k : Nat) (f : Chan → Chan) : (h.modChan k f).bulk = h.bulk := rfl
@[simp] theorem Hw.modChan_life (h : Hw) (k : Nat) (f : Chan → Chan) : (h.modChan k f).life = h.life := rfl
@[simp] theorem Hw.modChan_fw (h : Hw) (k : Nat) (f : Chan → Chan) : (h.modChan k f).fw = h.fw := rfl

/-! ## modSlot -/

@[simp] theorem Hw.modSlot_clk (h : Hw) (k : Nat) (f : Slot → Slot) : (h.modSlot k f).clk = h.clk := rfl
@[simp] theorem Hw.modSlot_free (h : Hw) (k : Nat) (f : Slot → Slot) : (h.modSlot k f).free = h.free := rfl
@[simp] theorem Hw.modSlot_factory (h : Hw) (k : Nat) (f : Slot → Slot) : (h.modSlot k f).factory = h.factory := rfl
@[simp] theorem Hw.modSlot_image (h : Hw) (k : Nat) (f : Slot → Slot) : (h.modSlot k f).image = h.image := rfl
@[simp] theorem Hw.modSlot_ins (h : Hw) (k : Nat) (f : Slot → Slot) : (h.modSlot k f).ins = h.ins := rfl
@[simp] theorem Hw.modSlot_straps (h : Hw) (k : Nat) (f : Slot → Slot) : (h.modSlot k f).straps = h.straps := rfl
@[simp] theorem Hw.modSlot_lines (h : Hw) (k : Nat) (f : Slot → Slot) : (h.modSlot k f).lines = h.lines := rfl
@[simp] theorem Hw.modSlot_rst (h : Hw) (k : Nat) (f : Slot → Slot) : (h.modSlot k f).rst = h.rst := rfl
@[simp] theorem Hw.modSlot_pwr (h : Hw) (k : Nat) (f : Slot → Slot) : (h.modSlot k f).pwr = h.pwr := rfl
@[simp] theorem Hw.modSlot_idle (h : Hw) (k : Nat) (f : Slot → Slot) : (h.modSlot k f).idle = h.idle := rfl
@[simp] theorem Hw.modSlot_gov (h : Hw) (k : Nat) (f : Slot → Slot) : (h.modSlot k f).gov = h.gov := rfl
@[simp] theorem Hw.modSlot_outs (h : Hw) (k : Nat) (f : Slot → Slot) : (h.modSlot k f).outs = h.outs := rfl
@[simp] theorem Hw.modSlot_pool (h : Hw) (k : Nat) (f : Slot → Slot) : (h.modSlot k f).pool = h.pool := rfl
@[simp] theorem Hw.modSlot_vcl (h : Hw) (k : Nat) (f : Slot → Slot) : (h.modSlot k f).vcl = h.vcl := rfl
@[simp] theorem Hw.modSlot_ports (h : Hw) (k : Nat) (f : Slot → Slot) : (h.modSlot k f).ports = h.ports := rfl
@[simp] theorem Hw.modSlot_acc (h : Hw) (k : Nat) (f : Slot → Slot) : (h.modSlot k f).acc = h.acc := rfl
@[simp] theorem Hw.modSlot_adc (h : Hw) (k : Nat) (f : Slot → Slot) : (h.modSlot k f).adc = h.adc := rfl
@[simp] theorem Hw.modSlot_seq (h : Hw) (k : Nat) (f : Slot → Slot) : (h.modSlot k f).seq = h.seq := rfl
@[simp] theorem Hw.modSlot_prm (h : Hw) (k : Nat) (f : Slot → Slot) : (h.modSlot k f).prm = h.prm := rfl
@[simp] theorem Hw.modSlot_metro (h : Hw) (k : Nat) (f : Slot → Slot) : (h.modSlot k f).metro = h.metro := rfl
@[simp] theorem Hw.modSlot_log (h : Hw) (k : Nat) (f : Slot → Slot) : (h.modSlot k f).log = h.log := rfl
@[simp] theorem Hw.modSlot_store (h : Hw) (k : Nat) (f : Slot → Slot) : (h.modSlot k f).store = h.store := rfl
@[simp] theorem Hw.modSlot_ackSeq (h : Hw) (k : Nat) (f : Slot → Slot) : (h.modSlot k f).ackSeq = h.ackSeq := rfl
@[simp] theorem Hw.modSlot_recordsLost (h : Hw) (k : Nat) (f : Slot → Slot) : (h.modSlot k f).recordsLost = h.recordsLost := rfl
@[simp] theorem Hw.modSlot_proto (h : Hw) (k : Nat) (f : Slot → Slot) : (h.modSlot k f).proto = h.proto := rfl
@[simp] theorem Hw.modSlot_evt (h : Hw) (k : Nat) (f : Slot → Slot) : (h.modSlot k f).evt = h.evt := rfl
@[simp] theorem Hw.modSlot_wdt (h : Hw) (k : Nat) (f : Slot → Slot) : (h.modSlot k f).wdt = h.wdt := rfl
@[simp] theorem Hw.modSlot_faults (h : Hw) (k : Nat) (f : Slot → Slot) : (h.modSlot k f).faults = h.faults := rfl
@[simp] theorem Hw.modSlot_chg (h : Hw) (k : Nat) (f : Slot → Slot) : (h.modSlot k f).chg = h.chg := rfl
@[simp] theorem Hw.modSlot_gauge (h : Hw) (k : Nat) (f : Slot → Slot) : (h.modSlot k f).gauge = h.gauge := rfl
@[simp] theorem Hw.modSlot_lodge (h : Hw) (k : Nat) (f : Slot → Slot) : (h.modSlot k f).lodge = h.lodge := rfl
@[simp] theorem Hw.modSlot_therm (h : Hw) (k : Nat) (f : Slot → Slot) : (h.modSlot k f).therm = h.therm := rfl
@[simp] theorem Hw.modSlot_bulk (h : Hw) (k : Nat) (f : Slot → Slot) : (h.modSlot k f).bulk = h.bulk := rfl
@[simp] theorem Hw.modSlot_life (h : Hw) (k : Nat) (f : Slot → Slot) : (h.modSlot k f).life = h.life := rfl
@[simp] theorem Hw.modSlot_fw (h : Hw) (k : Nat) (f : Slot → Slot) : (h.modSlot k f).fw = h.fw := rfl

/-! ## modRail -/

@[simp] theorem Hw.modRail_clk (h : Hw) (k : Nat) (f : VpRail → VpRail) : (h.modRail k f).clk = h.clk := rfl
@[simp] theorem Hw.modRail_free (h : Hw) (k : Nat) (f : VpRail → VpRail) : (h.modRail k f).free = h.free := rfl
@[simp] theorem Hw.modRail_factory (h : Hw) (k : Nat) (f : VpRail → VpRail) : (h.modRail k f).factory = h.factory := rfl
@[simp] theorem Hw.modRail_image (h : Hw) (k : Nat) (f : VpRail → VpRail) : (h.modRail k f).image = h.image := rfl
@[simp] theorem Hw.modRail_ins (h : Hw) (k : Nat) (f : VpRail → VpRail) : (h.modRail k f).ins = h.ins := rfl
@[simp] theorem Hw.modRail_straps (h : Hw) (k : Nat) (f : VpRail → VpRail) : (h.modRail k f).straps = h.straps := rfl
@[simp] theorem Hw.modRail_lines (h : Hw) (k : Nat) (f : VpRail → VpRail) : (h.modRail k f).lines = h.lines := rfl
@[simp] theorem Hw.modRail_rst (h : Hw) (k : Nat) (f : VpRail → VpRail) : (h.modRail k f).rst = h.rst := rfl
@[simp] theorem Hw.modRail_pwr (h : Hw) (k : Nat) (f : VpRail → VpRail) : (h.modRail k f).pwr = h.pwr := rfl
@[simp] theorem Hw.modRail_idle (h : Hw) (k : Nat) (f : VpRail → VpRail) : (h.modRail k f).idle = h.idle := rfl
@[simp] theorem Hw.modRail_gov (h : Hw) (k : Nat) (f : VpRail → VpRail) : (h.modRail k f).gov = h.gov := rfl
@[simp] theorem Hw.modRail_outs (h : Hw) (k : Nat) (f : VpRail → VpRail) : (h.modRail k f).outs = h.outs := rfl
@[simp] theorem Hw.modRail_vcl (h : Hw) (k : Nat) (f : VpRail → VpRail) : (h.modRail k f).vcl = h.vcl := rfl
@[simp] theorem Hw.modRail_ports (h : Hw) (k : Nat) (f : VpRail → VpRail) : (h.modRail k f).ports = h.ports := rfl
@[simp] theorem Hw.modRail_acc (h : Hw) (k : Nat) (f : VpRail → VpRail) : (h.modRail k f).acc = h.acc := rfl
@[simp] theorem Hw.modRail_adc (h : Hw) (k : Nat) (f : VpRail → VpRail) : (h.modRail k f).adc = h.adc := rfl
@[simp] theorem Hw.modRail_seq (h : Hw) (k : Nat) (f : VpRail → VpRail) : (h.modRail k f).seq = h.seq := rfl
@[simp] theorem Hw.modRail_prm (h : Hw) (k : Nat) (f : VpRail → VpRail) : (h.modRail k f).prm = h.prm := rfl
@[simp] theorem Hw.modRail_metro (h : Hw) (k : Nat) (f : VpRail → VpRail) : (h.modRail k f).metro = h.metro := rfl
@[simp] theorem Hw.modRail_slots (h : Hw) (k : Nat) (f : VpRail → VpRail) : (h.modRail k f).slots = h.slots := rfl
@[simp] theorem Hw.modRail_log (h : Hw) (k : Nat) (f : VpRail → VpRail) : (h.modRail k f).log = h.log := rfl
@[simp] theorem Hw.modRail_store (h : Hw) (k : Nat) (f : VpRail → VpRail) : (h.modRail k f).store = h.store := rfl
@[simp] theorem Hw.modRail_ackSeq (h : Hw) (k : Nat) (f : VpRail → VpRail) : (h.modRail k f).ackSeq = h.ackSeq := rfl
@[simp] theorem Hw.modRail_recordsLost (h : Hw) (k : Nat) (f : VpRail → VpRail) : (h.modRail k f).recordsLost = h.recordsLost := rfl
@[simp] theorem Hw.modRail_proto (h : Hw) (k : Nat) (f : VpRail → VpRail) : (h.modRail k f).proto = h.proto := rfl
@[simp] theorem Hw.modRail_evt (h : Hw) (k : Nat) (f : VpRail → VpRail) : (h.modRail k f).evt = h.evt := rfl
@[simp] theorem Hw.modRail_wdt (h : Hw) (k : Nat) (f : VpRail → VpRail) : (h.modRail k f).wdt = h.wdt := rfl
@[simp] theorem Hw.modRail_faults (h : Hw) (k : Nat) (f : VpRail → VpRail) : (h.modRail k f).faults = h.faults := rfl
@[simp] theorem Hw.modRail_chg (h : Hw) (k : Nat) (f : VpRail → VpRail) : (h.modRail k f).chg = h.chg := rfl
@[simp] theorem Hw.modRail_gauge (h : Hw) (k : Nat) (f : VpRail → VpRail) : (h.modRail k f).gauge = h.gauge := rfl
@[simp] theorem Hw.modRail_lodge (h : Hw) (k : Nat) (f : VpRail → VpRail) : (h.modRail k f).lodge = h.lodge := rfl
@[simp] theorem Hw.modRail_therm (h : Hw) (k : Nat) (f : VpRail → VpRail) : (h.modRail k f).therm = h.therm := rfl
@[simp] theorem Hw.modRail_bulk (h : Hw) (k : Nat) (f : VpRail → VpRail) : (h.modRail k f).bulk = h.bulk := rfl
@[simp] theorem Hw.modRail_life (h : Hw) (k : Nat) (f : VpRail → VpRail) : (h.modRail k f).life = h.life := rfl
@[simp] theorem Hw.modRail_fw (h : Hw) (k : Nat) (f : VpRail → VpRail) : (h.modRail k f).fw = h.fw := rfl

/-! ## modPhase -/

@[simp] theorem Hw.modPhase_clk (h : Hw) (k : Nat) (f : Phase → Phase) : (h.modPhase k f).clk = h.clk := rfl
@[simp] theorem Hw.modPhase_free (h : Hw) (k : Nat) (f : Phase → Phase) : (h.modPhase k f).free = h.free := rfl
@[simp] theorem Hw.modPhase_factory (h : Hw) (k : Nat) (f : Phase → Phase) : (h.modPhase k f).factory = h.factory := rfl
@[simp] theorem Hw.modPhase_image (h : Hw) (k : Nat) (f : Phase → Phase) : (h.modPhase k f).image = h.image := rfl
@[simp] theorem Hw.modPhase_ins (h : Hw) (k : Nat) (f : Phase → Phase) : (h.modPhase k f).ins = h.ins := rfl
@[simp] theorem Hw.modPhase_straps (h : Hw) (k : Nat) (f : Phase → Phase) : (h.modPhase k f).straps = h.straps := rfl
@[simp] theorem Hw.modPhase_lines (h : Hw) (k : Nat) (f : Phase → Phase) : (h.modPhase k f).lines = h.lines := rfl
@[simp] theorem Hw.modPhase_rst (h : Hw) (k : Nat) (f : Phase → Phase) : (h.modPhase k f).rst = h.rst := rfl
@[simp] theorem Hw.modPhase_pwr (h : Hw) (k : Nat) (f : Phase → Phase) : (h.modPhase k f).pwr = h.pwr := rfl
@[simp] theorem Hw.modPhase_idle (h : Hw) (k : Nat) (f : Phase → Phase) : (h.modPhase k f).idle = h.idle := rfl
@[simp] theorem Hw.modPhase_gov (h : Hw) (k : Nat) (f : Phase → Phase) : (h.modPhase k f).gov = h.gov := rfl
@[simp] theorem Hw.modPhase_outs (h : Hw) (k : Nat) (f : Phase → Phase) : (h.modPhase k f).outs = h.outs := rfl
@[simp] theorem Hw.modPhase_vcl (h : Hw) (k : Nat) (f : Phase → Phase) : (h.modPhase k f).vcl = h.vcl := rfl
@[simp] theorem Hw.modPhase_ports (h : Hw) (k : Nat) (f : Phase → Phase) : (h.modPhase k f).ports = h.ports := rfl
@[simp] theorem Hw.modPhase_acc (h : Hw) (k : Nat) (f : Phase → Phase) : (h.modPhase k f).acc = h.acc := rfl
@[simp] theorem Hw.modPhase_adc (h : Hw) (k : Nat) (f : Phase → Phase) : (h.modPhase k f).adc = h.adc := rfl
@[simp] theorem Hw.modPhase_seq (h : Hw) (k : Nat) (f : Phase → Phase) : (h.modPhase k f).seq = h.seq := rfl
@[simp] theorem Hw.modPhase_prm (h : Hw) (k : Nat) (f : Phase → Phase) : (h.modPhase k f).prm = h.prm := rfl
@[simp] theorem Hw.modPhase_metro (h : Hw) (k : Nat) (f : Phase → Phase) : (h.modPhase k f).metro = h.metro := rfl
@[simp] theorem Hw.modPhase_slots (h : Hw) (k : Nat) (f : Phase → Phase) : (h.modPhase k f).slots = h.slots := rfl
@[simp] theorem Hw.modPhase_log (h : Hw) (k : Nat) (f : Phase → Phase) : (h.modPhase k f).log = h.log := rfl
@[simp] theorem Hw.modPhase_store (h : Hw) (k : Nat) (f : Phase → Phase) : (h.modPhase k f).store = h.store := rfl
@[simp] theorem Hw.modPhase_ackSeq (h : Hw) (k : Nat) (f : Phase → Phase) : (h.modPhase k f).ackSeq = h.ackSeq := rfl
@[simp] theorem Hw.modPhase_recordsLost (h : Hw) (k : Nat) (f : Phase → Phase) : (h.modPhase k f).recordsLost = h.recordsLost := rfl
@[simp] theorem Hw.modPhase_proto (h : Hw) (k : Nat) (f : Phase → Phase) : (h.modPhase k f).proto = h.proto := rfl
@[simp] theorem Hw.modPhase_evt (h : Hw) (k : Nat) (f : Phase → Phase) : (h.modPhase k f).evt = h.evt := rfl
@[simp] theorem Hw.modPhase_wdt (h : Hw) (k : Nat) (f : Phase → Phase) : (h.modPhase k f).wdt = h.wdt := rfl
@[simp] theorem Hw.modPhase_faults (h : Hw) (k : Nat) (f : Phase → Phase) : (h.modPhase k f).faults = h.faults := rfl
@[simp] theorem Hw.modPhase_chg (h : Hw) (k : Nat) (f : Phase → Phase) : (h.modPhase k f).chg = h.chg := rfl
@[simp] theorem Hw.modPhase_gauge (h : Hw) (k : Nat) (f : Phase → Phase) : (h.modPhase k f).gauge = h.gauge := rfl
@[simp] theorem Hw.modPhase_lodge (h : Hw) (k : Nat) (f : Phase → Phase) : (h.modPhase k f).lodge = h.lodge := rfl
@[simp] theorem Hw.modPhase_therm (h : Hw) (k : Nat) (f : Phase → Phase) : (h.modPhase k f).therm = h.therm := rfl
@[simp] theorem Hw.modPhase_bulk (h : Hw) (k : Nat) (f : Phase → Phase) : (h.modPhase k f).bulk = h.bulk := rfl
@[simp] theorem Hw.modPhase_life (h : Hw) (k : Nat) (f : Phase → Phase) : (h.modPhase k f).life = h.life := rfl
@[simp] theorem Hw.modPhase_fw (h : Hw) (k : Nat) (f : Phase → Phase) : (h.modPhase k f).fw = h.fw := rfl

/-! ## draw -/

@[simp] theorem Hw.draw_clk (h : Hw) : (h.draw).clk = h.clk := rfl
@[simp] theorem Hw.draw_factory (h : Hw) : (h.draw).factory = h.factory := rfl
@[simp] theorem Hw.draw_image (h : Hw) : (h.draw).image = h.image := rfl
@[simp] theorem Hw.draw_ins (h : Hw) : (h.draw).ins = h.ins := rfl
@[simp] theorem Hw.draw_straps (h : Hw) : (h.draw).straps = h.straps := rfl
@[simp] theorem Hw.draw_lines (h : Hw) : (h.draw).lines = h.lines := rfl
@[simp] theorem Hw.draw_rst (h : Hw) : (h.draw).rst = h.rst := rfl
@[simp] theorem Hw.draw_pwr (h : Hw) : (h.draw).pwr = h.pwr := rfl
@[simp] theorem Hw.draw_idle (h : Hw) : (h.draw).idle = h.idle := rfl
@[simp] theorem Hw.draw_gov (h : Hw) : (h.draw).gov = h.gov := rfl
@[simp] theorem Hw.draw_outs (h : Hw) : (h.draw).outs = h.outs := rfl
@[simp] theorem Hw.draw_pool (h : Hw) : (h.draw).pool = h.pool := rfl
@[simp] theorem Hw.draw_vcl (h : Hw) : (h.draw).vcl = h.vcl := rfl
@[simp] theorem Hw.draw_ports (h : Hw) : (h.draw).ports = h.ports := rfl
@[simp] theorem Hw.draw_acc (h : Hw) : (h.draw).acc = h.acc := rfl
@[simp] theorem Hw.draw_adc (h : Hw) : (h.draw).adc = h.adc := rfl
@[simp] theorem Hw.draw_seq (h : Hw) : (h.draw).seq = h.seq := rfl
@[simp] theorem Hw.draw_prm (h : Hw) : (h.draw).prm = h.prm := rfl
@[simp] theorem Hw.draw_metro (h : Hw) : (h.draw).metro = h.metro := rfl
@[simp] theorem Hw.draw_slots (h : Hw) : (h.draw).slots = h.slots := rfl
@[simp] theorem Hw.draw_log (h : Hw) : (h.draw).log = h.log := rfl
@[simp] theorem Hw.draw_store (h : Hw) : (h.draw).store = h.store := rfl
@[simp] theorem Hw.draw_ackSeq (h : Hw) : (h.draw).ackSeq = h.ackSeq := rfl
@[simp] theorem Hw.draw_recordsLost (h : Hw) : (h.draw).recordsLost = h.recordsLost := rfl
@[simp] theorem Hw.draw_proto (h : Hw) : (h.draw).proto = h.proto := rfl
@[simp] theorem Hw.draw_evt (h : Hw) : (h.draw).evt = h.evt := rfl
@[simp] theorem Hw.draw_wdt (h : Hw) : (h.draw).wdt = h.wdt := rfl
@[simp] theorem Hw.draw_faults (h : Hw) : (h.draw).faults = h.faults := rfl
@[simp] theorem Hw.draw_chg (h : Hw) : (h.draw).chg = h.chg := rfl
@[simp] theorem Hw.draw_gauge (h : Hw) : (h.draw).gauge = h.gauge := rfl
@[simp] theorem Hw.draw_lodge (h : Hw) : (h.draw).lodge = h.lodge := rfl
@[simp] theorem Hw.draw_therm (h : Hw) : (h.draw).therm = h.therm := rfl
@[simp] theorem Hw.draw_bulk (h : Hw) : (h.draw).bulk = h.bulk := rfl
@[simp] theorem Hw.draw_life (h : Hw) : (h.draw).life = h.life := rfl
@[simp] theorem Hw.draw_fw (h : Hw) : (h.draw).fw = h.fw := rfl

/-! ## modMbx changes proto alone -/

@[simp] theorem Hw.modMbx_clk (h : Hw) (o : Origin) (f : Mailbox → Mailbox) : (h.modMbx o f).clk = h.clk := by
  cases o <;> rfl
@[simp] theorem Hw.modMbx_free (h : Hw) (o : Origin) (f : Mailbox → Mailbox) : (h.modMbx o f).free = h.free := by
  cases o <;> rfl
@[simp] theorem Hw.modMbx_factory (h : Hw) (o : Origin) (f : Mailbox → Mailbox) : (h.modMbx o f).factory = h.factory := by
  cases o <;> rfl
@[simp] theorem Hw.modMbx_image (h : Hw) (o : Origin) (f : Mailbox → Mailbox) : (h.modMbx o f).image = h.image := by
  cases o <;> rfl
@[simp] theorem Hw.modMbx_ins (h : Hw) (o : Origin) (f : Mailbox → Mailbox) : (h.modMbx o f).ins = h.ins := by
  cases o <;> rfl
@[simp] theorem Hw.modMbx_straps (h : Hw) (o : Origin) (f : Mailbox → Mailbox) : (h.modMbx o f).straps = h.straps := by
  cases o <;> rfl
@[simp] theorem Hw.modMbx_lines (h : Hw) (o : Origin) (f : Mailbox → Mailbox) : (h.modMbx o f).lines = h.lines := by
  cases o <;> rfl
@[simp] theorem Hw.modMbx_rst (h : Hw) (o : Origin) (f : Mailbox → Mailbox) : (h.modMbx o f).rst = h.rst := by
  cases o <;> rfl
@[simp] theorem Hw.modMbx_pwr (h : Hw) (o : Origin) (f : Mailbox → Mailbox) : (h.modMbx o f).pwr = h.pwr := by
  cases o <;> rfl
@[simp] theorem Hw.modMbx_idle (h : Hw) (o : Origin) (f : Mailbox → Mailbox) : (h.modMbx o f).idle = h.idle := by
  cases o <;> rfl
@[simp] theorem Hw.modMbx_gov (h : Hw) (o : Origin) (f : Mailbox → Mailbox) : (h.modMbx o f).gov = h.gov := by
  cases o <;> rfl
@[simp] theorem Hw.modMbx_outs (h : Hw) (o : Origin) (f : Mailbox → Mailbox) : (h.modMbx o f).outs = h.outs := by
  cases o <;> rfl
@[simp] theorem Hw.modMbx_pool (h : Hw) (o : Origin) (f : Mailbox → Mailbox) : (h.modMbx o f).pool = h.pool := by
  cases o <;> rfl
@[simp] theorem Hw.modMbx_vcl (h : Hw) (o : Origin) (f : Mailbox → Mailbox) : (h.modMbx o f).vcl = h.vcl := by
  cases o <;> rfl
@[simp] theorem Hw.modMbx_ports (h : Hw) (o : Origin) (f : Mailbox → Mailbox) : (h.modMbx o f).ports = h.ports := by
  cases o <;> rfl
@[simp] theorem Hw.modMbx_acc (h : Hw) (o : Origin) (f : Mailbox → Mailbox) : (h.modMbx o f).acc = h.acc := by
  cases o <;> rfl
@[simp] theorem Hw.modMbx_adc (h : Hw) (o : Origin) (f : Mailbox → Mailbox) : (h.modMbx o f).adc = h.adc := by
  cases o <;> rfl
@[simp] theorem Hw.modMbx_seq (h : Hw) (o : Origin) (f : Mailbox → Mailbox) : (h.modMbx o f).seq = h.seq := by
  cases o <;> rfl
@[simp] theorem Hw.modMbx_prm (h : Hw) (o : Origin) (f : Mailbox → Mailbox) : (h.modMbx o f).prm = h.prm := by
  cases o <;> rfl
@[simp] theorem Hw.modMbx_metro (h : Hw) (o : Origin) (f : Mailbox → Mailbox) : (h.modMbx o f).metro = h.metro := by
  cases o <;> rfl
@[simp] theorem Hw.modMbx_slots (h : Hw) (o : Origin) (f : Mailbox → Mailbox) : (h.modMbx o f).slots = h.slots := by
  cases o <;> rfl
@[simp] theorem Hw.modMbx_log (h : Hw) (o : Origin) (f : Mailbox → Mailbox) : (h.modMbx o f).log = h.log := by
  cases o <;> rfl
@[simp] theorem Hw.modMbx_store (h : Hw) (o : Origin) (f : Mailbox → Mailbox) : (h.modMbx o f).store = h.store := by
  cases o <;> rfl
@[simp] theorem Hw.modMbx_ackSeq (h : Hw) (o : Origin) (f : Mailbox → Mailbox) : (h.modMbx o f).ackSeq = h.ackSeq := by
  cases o <;> rfl
@[simp] theorem Hw.modMbx_recordsLost (h : Hw) (o : Origin) (f : Mailbox → Mailbox) : (h.modMbx o f).recordsLost = h.recordsLost := by
  cases o <;> rfl
@[simp] theorem Hw.modMbx_evt (h : Hw) (o : Origin) (f : Mailbox → Mailbox) : (h.modMbx o f).evt = h.evt := by
  cases o <;> rfl
@[simp] theorem Hw.modMbx_wdt (h : Hw) (o : Origin) (f : Mailbox → Mailbox) : (h.modMbx o f).wdt = h.wdt := by
  cases o <;> rfl
@[simp] theorem Hw.modMbx_faults (h : Hw) (o : Origin) (f : Mailbox → Mailbox) : (h.modMbx o f).faults = h.faults := by
  cases o <;> rfl
@[simp] theorem Hw.modMbx_chg (h : Hw) (o : Origin) (f : Mailbox → Mailbox) : (h.modMbx o f).chg = h.chg := by
  cases o <;> rfl
@[simp] theorem Hw.modMbx_gauge (h : Hw) (o : Origin) (f : Mailbox → Mailbox) : (h.modMbx o f).gauge = h.gauge := by
  cases o <;> rfl
@[simp] theorem Hw.modMbx_lodge (h : Hw) (o : Origin) (f : Mailbox → Mailbox) : (h.modMbx o f).lodge = h.lodge := by
  cases o <;> rfl
@[simp] theorem Hw.modMbx_therm (h : Hw) (o : Origin) (f : Mailbox → Mailbox) : (h.modMbx o f).therm = h.therm := by
  cases o <;> rfl
@[simp] theorem Hw.modMbx_bulk (h : Hw) (o : Origin) (f : Mailbox → Mailbox) : (h.modMbx o f).bulk = h.bulk := by
  cases o <;> rfl
@[simp] theorem Hw.modMbx_life (h : Hw) (o : Origin) (f : Mailbox → Mailbox) : (h.modMbx o f).life = h.life := by
  cases o <;> rfl
@[simp] theorem Hw.modMbx_fw (h : Hw) (o : Origin) (f : Mailbox → Mailbox) : (h.modMbx o f).fw = h.fw := by
  cases o <;> rfl

@[simp] theorem Hw.modMbx_mbx_same (h : Hw) (o : Origin) (f : Mailbox → Mailbox) : (h.modMbx o f).mbx o = f (h.mbx o) := by
  cases o <;> rfl

@[simp] theorem Hw.modMbx_mbx_other (h : Hw) (o : Origin) (f : Mailbox → Mailbox) :
    (h.modMbx o f).mbx (Origin.other o) = h.mbx (Origin.other o) := by
  cases o <;> rfl

/-! ## One entry of a list changes -/

theorem getD_modify {α : Type} (l : List α) (i j : Nat) (f : α → α) (d : α) :
    (l.modify i f).getD j d = if i = j ∧ j < l.length then f (l.getD j d) else l.getD j d := by
  by_cases hj : j < l.length
  · by_cases hi : i = j <;> simp [List.getD, hi, hj]
  · simp [List.getD, hj]

theorem Hw.out_modOut (h : Hw) (k j : Nat) (f : Output → Output) :
    (h.modOut k f).out j = if k = j ∧ j < h.outs.length then f (h.out j) else h.out j := getD_modify _ _ _ _ _

theorem Hw.port_modPort (h : Hw) (k j : Nat) (f : Port → Port) :
    (h.modPort k f).port j = if k = j ∧ j < h.ports.length then f (h.port j) else h.port j := getD_modify _ _ _ _ _

theorem Hw.slot_modSlot (h : Hw) (k j : Nat) (f : Slot → Slot) :
    (h.modSlot k f).slot j = if k = j ∧ j < h.slots.length then f (h.slot j) else h.slot j := getD_modify _ _ _ _ _

theorem Hw.chan_modChan (h : Hw) (k j : Nat) (f : Chan → Chan) :
    (h.modChan k f).chan j = if k = j ∧ j < h.metro.chans.length then f (h.chan j) else h.chan j := getD_modify _ _ _ _ _

theorem Hw.rail_modRail (h : Hw) (k j : Nat) (f : VpRail → VpRail) :
    (h.modRail k f).rail j = if k = j ∧ j < h.pool.rails.length then f (h.rail j) else h.rail j := getD_modify _ _ _ _ _

theorem Hw.phase_modPhase (h : Hw) (k j : Nat) (f : Phase → Phase) :
    (h.modPhase k f).phase j = if k = j ∧ j < h.pool.phases.length then f (h.phase j) else h.phase j := getD_modify _ _ _ _ _

/-! ## An entry that is not the default one lies in the list -/

theorem lt_of_getD_ne {α : Type} {l : List α} {i : Nat} {d : α} (h : l.getD i d ≠ d) : i < l.length := by
  by_contra hc
  exact h (by simp [List.getD, List.getElem?_eq_none (Nat.le_of_not_lt hc)])

theorem Hw.port_lt (h : Hw) {p : Nat} (hp : (h.port p).state ≠ .empty) : p < h.ports.length :=
  lt_of_getD_ne (d := Port.empty) (fun e => hp (by unfold Hw.port; rw [e]; rfl))

theorem Hw.out_lt (h : Hw) {k : Nat} (hk : (h.out k).on = true) : k < h.outs.length :=
  lt_of_getD_ne (d := Output.off) (fun e => by unfold Hw.out at hk; rw [e] at hk; exact absurd hk (by decide))

end Sys2Proof.Machine
end

