-- ==== Sys2Proof/Laws/Reply.lean ====
section
/-! SUPPORT. What serving a packet and answering it do: the command's own body where the packet is carried out, the reply and
nothing else of the hardware. -/

namespace Sys2Proof.Machine

/-! ## Serving -/

theorem Hw.sramCheck_quiet (h : Hw) (hq : h.hit 1 = false) : h.sramCheck = h := by
  unfold Hw.sramCheck
  rw [hq]
  rfl

/-- A packet that is judged is not judged again, nor is one that came over the link. -/
theorem Hw.judge_done (h : Hw) (o : Origin)
    (hp : (match (h.mbx o).inProc with | some _ => (h.mbx o).judged && (h.mbx o).ready.isNone | none => true) = true) :
    h.judge o = h := by
  unfold Hw.judge
  cases hi : (h.mbx o).inProc with
  | none => simp only [hi]
  | some p =>
    simp only [hi, Bool.and_eq_true] at hp
    simp [hi, hp.1]

/-- A command whose row reaches its checks meets R413 first, then its unit, its privilege, LIMP, then its body. -/
theorem Hw.serve_reached (h : Hw) (i : Instr) (o : Origin) (op : Nat) (ps : List Byte) (body : Hw → Hw) (c : CmdInfo)
    (hp : packetOf i = some (o, op, ps)) (hc : cmdInfo op = some c) (hs : h.reaches i = true) :
    h.serve i body =
      if h.pwr.commit.isSome then h.respond o stBusy []
      else if h.bootWork && op ≠ 1 && op ≠ 2 then h.respond o stBusy []
      else if h.unitAbsent c.unit then h.respond o stAbsent []
      else match h.classRefuses c.cls o with
      | some st => h.deny o op 0 st
      | none =>
        if h.inLimp && !servedInLimp op then h.respond o stWrongState []
        else if !h.shaped then h.internalError o op
        else if h.sramCheck.rst.coreReq.isSome then h.sramCheck
        else (body h.sramCheck).contact o (h.relayed o) c.cls := by
  unfold Hw.reaches at hs
  rw [hp] at hs
  simp only [Bool.and_eq_true, Bool.not_eq_true'] at hs
  obtain ⟨⟨⟨⟨hserves, hpkt⟩, hf⟩, ht⟩, hsp⟩ := hs
  have hready : ((h.mbx o).inProc.isSome && (h.mbx o).ready.isSome) = false := by
    cases hi : (h.mbx o).inProc with
    | none => rfl
    | some p =>
      simp only [hi, Bool.and_eq_true] at hpkt
      rw [← Option.not_isNone (h.mbx o).ready, hpkt.2]
      rfl
  have hj : h.judge o = h := Hw.judge_done h o hpkt
  unfold Hw.serve
  rw [hp]
  simp only [hj, hc, hserves, hready, hf, ht, hsp, Bool.not_true, Bool.or_false, Bool.false_eq_true, if_false] <;> rfl

/-- A packet that is carried out runs its command's body, then the contact of R418. -/
theorem Hw.serve_carried (h : Hw) (i : Instr) (o : Origin) (op : Nat) (ps : List Byte) (body : Hw → Hw) (c : CmdInfo)
    (hp : packetOf i = some (o, op, ps)) (hc : cmdInfo op = some c) (hs : h.carries i = true) :
    h.serve i body = (body h).contact o (h.relayed o) c.cls := by
  unfold Hw.carries at hs
  rw [hp] at hs
  simp only [hc, Bool.and_eq_true, Bool.or_eq_true, Bool.not_eq_true'] at hs
  obtain ⟨⟨⟨⟨⟨⟨hreach, _⟩, hcommit⟩, hboot⟩, hshape⟩, hhit⟩, ⟨hunit, hcls⟩, hlimp⟩ := hs
  have hcore : h.rst.coreReq.isSome = false := by
    unfold Hw.reaches at hreach
    rw [hp] at hreach
    simp only [Bool.and_eq_true, Hw.serves] at hreach
    rw [← Option.not_isNone, hreach.1.1.1.1.1.1.2]
    rfl
  have hcommit' : h.pwr.commit.isSome = false := by rw [← Option.not_isNone, hcommit]; rfl
  have hlimp' : (h.inLimp && !servedInLimp op) = false := by
    rcases hlimp with h1 | h1 <;> simp [h1]
  have hcls' : h.classRefuses c.cls o = none := Option.isNone_iff_eq_none.mp hcls
  rw [Hw.serve_reached h i o op ps body c hp hc hreach]
  simp only [hcommit', hboot, hshape, hunit, hcls', hlimp', Bool.not_true, Bool.false_and, Bool.false_eq_true, if_false,
    Hw.sramCheck_quiet h hhit, hcore]

/-- The contact of R418 restarts the 15 min of an unlock and touches nothing else. -/
theorem Hw.contact_of_not_configure (h : Hw) (o : Origin) (rel : Bool) (c : CmdClass) (hc : c ≠ .configure) :
    h.contact o rel c = h := by
  unfold Hw.contact
  cases c <;> simp_all

/-- A carried command of another class than CONFIGURE is its body. -/
theorem Hw.serve_body (h : Hw) (i : Instr) (o : Origin) (op : Nat) (ps : List Byte) (body : Hw → Hw) (c : CmdInfo)
    (hp : packetOf i = some (o, op, ps)) (hc : cmdInfo op = some c) (hcl : c.cls ≠ .configure) (hs : h.carries i = true) :
    h.serve i body = body h := by
  rw [Hw.serve_carried h i o op ps body c hp hc hs, Hw.contact_of_not_configure _ _ _ _ hcl]

/-! ## Replies -/

theorem Hw.respond_prm (h : Hw) (o : Origin) (st : Nat) (data : List Byte) (hr : h.relayed o = false) :
    (h.respond o st data).prm = h.prm := by
  unfold Hw.respond
  simp only [hr, Bool.false_eq_true, if_false]
  cases o <;> rfl

/-- A reply to a packet of an address itself lies ready there with the packet's TAG and MODULE. -/
theorem Hw.respond_ready (h : Hw) (o : Origin) (st : Nat) (data : List Byte) (hr : h.relayed o = false) :
    ((h.respond o st data).mbx o).ready =
      some (replyBytes st ((h.packet o).getD 1 0) ((h.packet o).getD 2 0) data) := by
  unfold Hw.respond
  simp only [hr, Bool.false_eq_true, if_false]
  cases o <;> rfl

/-- A reply to a relayed packet becomes the bytes that go back over the link. -/
theorem Hw.respond_out (h : Hw) (o : Origin) (st : Nat) (data : List Byte) (hr : h.relayed o = true) :
    (h.respond o st data).prm.relay.map (·.out) =
      some (replyBytes st ((h.packet o).getD 1 0) ((h.packet o).getD 2 0) data) := by
  have : ∃ r, h.prm.relay = some r := by
    unfold Hw.relayed at hr
    cases h1 : h.prm.relay with
    | none => simp [h1] at hr
    | some r => exact ⟨r, rfl⟩
  obtain ⟨r, h1⟩ := this
  unfold Hw.respond
  simp [hr, h1]

/-- What Safety calls a reply is what respond makes. -/
theorem Hw.respond_replied (h : Hw) (o : Origin) (st : Nat) (data : List Byte) : Replied h (h.respond o st data) o st data := by
  unfold Replied
  cases hr : h.relayed o with
  | false => simpa [hr] using Hw.respond_ready h o st data hr
  | true => simpa [hr] using Hw.respond_out h o st data hr

@[simp] theorem Hw.respond_clk (h : Hw) (o : Origin) (st : Nat) (data : List Byte) : (h.respond o st data).clk = h.clk := by
  unfold Hw.respond; split <;> first | rfl | (cases o <;> rfl)

@[simp] theorem Hw.respond_free (h : Hw) (o : Origin) (st : Nat) (data : List Byte) : (h.respond o st data).free = h.free := by
  unfold Hw.respond; split <;> first | rfl | (cases o <;> rfl)

@[simp] theorem Hw.respond_factory (h : Hw) (o : Origin) (st : Nat) (data : List Byte) : (h.respond o st data).factory = h.factory := by
  unfold Hw.respond; split <;> first | rfl | (cases o <;> rfl)

@[simp] theorem Hw.respond_image (h : Hw) (o : Origin) (st : Nat) (data : List Byte) : (h.respond o st data).image = h.image := by
  unfold Hw.respond; split <;> first | rfl | (cases o <;> rfl)

@[simp] theorem Hw.respond_ins (h : Hw) (o : Origin) (st : Nat) (data : List Byte) : (h.respond o st data).ins = h.ins := by
  unfold Hw.respond; split <;> first | rfl | (cases o <;> rfl)

@[simp] theorem Hw.respond_straps (h : Hw) (o : Origin) (st : Nat) (data : List Byte) : (h.respond o st data).straps = h.straps := by
  unfold Hw.respond; split <;> first | rfl | (cases o <;> rfl)

@[simp] theorem Hw.respond_lines (h : Hw) (o : Origin) (st : Nat) (data : List Byte) : (h.respond o st data).lines = h.lines := by
  unfold Hw.respond; split <;> first | rfl | (cases o <;> rfl)

@[simp] theorem Hw.respond_rst (h : Hw) (o : Origin) (st : Nat) (data : List Byte) : (h.respond o st data).rst = h.rst := by
  unfold Hw.respond; split <;> first | rfl | (cases o <;> rfl)

@[simp] theorem Hw.respond_pwr (h : Hw) (o : Origin) (st : Nat) (data : List Byte) : (h.respond o st data).pwr = h.pwr := by
  unfold Hw.respond; split <;> first | rfl | (cases o <;> rfl)

@[simp] theorem Hw.respond_idle (h : Hw) (o : Origin) (st : Nat) (data : List Byte) : (h.respond o st data).idle = h.idle := by
  unfold Hw.respond; split <;> first | rfl | (cases o <;> rfl)

@[simp] theorem Hw.respond_gov (h : Hw) (o : Origin) (st : Nat) (data : List Byte) : (h.respond o st data).gov = h.gov := by
  unfold Hw.respond; split <;> first | rfl | (cases o <;> rfl)

@[simp] theorem Hw.respond_outs (h : Hw) (o : Origin) (st : Nat) (data : List Byte) : (h.respond o st data).outs = h.outs := by
  unfold Hw.respond; split <;> first | rfl | (cases o <;> rfl)

@[simp] theorem Hw.respond_pool (h : Hw) (o : Origin) (st : Nat) (data : List Byte) : (h.respond o st data).pool = h.pool := by
  unfold Hw.respond; split <;> first | rfl | (cases o <;> rfl)

@[simp] theorem Hw.respond_vcl (h : Hw) (o : Origin) (st : Nat) (data : List Byte) : (h.respond o st data).vcl = h.vcl := by
  unfold Hw.respond; split <;> first | rfl | (cases o <;> rfl)

@[simp] theorem Hw.respond_ports (h : Hw) (o : Origin) (st : Nat) (data : List Byte) : (h.respond o st data).ports = h.ports := by
  unfold Hw.respond; split <;> first | rfl | (cases o <;> rfl)

@[simp] theorem Hw.respond_acc (h : Hw) (o : Origin) (st : Nat) (data : List Byte) : (h.respond o st data).acc = h.acc := by
  unfold Hw.respond; split <;> first | rfl | (cases o <;> rfl)

@[simp] theorem Hw.respond_adc (h : Hw) (o : Origin) (st : Nat) (data : List Byte) : (h.respond o st data).adc = h.adc := by
  unfold Hw.respond; split <;> first | rfl | (cases o <;> rfl)

@[simp] theorem Hw.respond_seq (h : Hw) (o : Origin) (st : Nat) (data : List Byte) : (h.respond o st data).seq = h.seq := by
  unfold Hw.respond; split <;> first | rfl | (cases o <;> rfl)

@[simp] theorem Hw.respond_metro (h : Hw) (o : Origin) (st : Nat) (data : List Byte) : (h.respond o st data).metro = h.metro := by
  unfold Hw.respond; split <;> first | rfl | (cases o <;> rfl)

@[simp] theorem Hw.respond_slots (h : Hw) (o : Origin) (st : Nat) (data : List Byte) : (h.respond o st data).slots = h.slots := by
  unfold Hw.respond; split <;> first | rfl | (cases o <;> rfl)

@[simp] theorem Hw.respond_log (h : Hw) (o : Origin) (st : Nat) (data : List Byte) : (h.respond o st data).log = h.log := by
  unfold Hw.respond; split <;> first | rfl | (cases o <;> rfl)

@[simp] theorem Hw.respond_store (h : Hw) (o : Origin) (st : Nat) (data : List Byte) : (h.respond o st data).store = h.store := by
  unfold Hw.respond; split <;> first | rfl | (cases o <;> rfl)

@[simp] theorem Hw.respond_ackSeq (h : Hw) (o : Origin) (st : Nat) (data : List Byte) : (h.respond o st data).ackSeq = h.ackSeq := by
  unfold Hw.respond; split <;> first | rfl | (cases o <;> rfl)

@[simp] theorem Hw.respond_recordsLost (h : Hw) (o : Origin) (st : Nat) (data : List Byte) : (h.respond o st data).recordsLost = h.recordsLost := by
  unfold Hw.respond; split <;> first | rfl | (cases o <;> rfl)

@[simp] theorem Hw.respond_evt (h : Hw) (o : Origin) (st : Nat) (data : List Byte) : (h.respond o st data).evt = h.evt := by
  unfold Hw.respond; split <;> first | rfl | (cases o <;> rfl)

@[simp] theorem Hw.respond_wdt (h : Hw) (o : Origin) (st : Nat) (data : List Byte) : (h.respond o st data).wdt = h.wdt := by
  unfold Hw.respond; split <;> first | rfl | (cases o <;> rfl)

@[simp] theorem Hw.respond_faults (h : Hw) (o : Origin) (st : Nat) (data : List Byte) : (h.respond o st data).faults = h.faults := by
  unfold Hw.respond; split <;> first | rfl | (cases o <;> rfl)

@[simp] theorem Hw.respond_chg (h : Hw) (o : Origin) (st : Nat) (data : List Byte) : (h.respond o st data).chg = h.chg := by
  unfold Hw.respond; split <;> first | rfl | (cases o <;> rfl)

@[simp] theorem Hw.respond_gauge (h : Hw) (o : Origin) (st : Nat) (data : List Byte) : (h.respond o st data).gauge = h.gauge := by
  unfold Hw.respond; split <;> first | rfl | (cases o <;> rfl)

@[simp] theorem Hw.respond_lodge (h : Hw) (o : Origin) (st : Nat) (data : List Byte) : (h.respond o st data).lodge = h.lodge := by
  unfold Hw.respond; split <;> first | rfl | (cases o <;> rfl)

@[simp] theorem Hw.respond_therm (h : Hw) (o : Origin) (st : Nat) (data : List Byte) : (h.respond o st data).therm = h.therm := by
  unfold Hw.respond; split <;> first | rfl | (cases o <;> rfl)

@[simp] theorem Hw.respond_bulk (h : Hw) (o : Origin) (st : Nat) (data : List Byte) : (h.respond o st data).bulk = h.bulk := by
  unfold Hw.respond; split <;> first | rfl | (cases o <;> rfl)

@[simp] theorem Hw.respond_life (h : Hw) (o : Origin) (st : Nat) (data : List Byte) : (h.respond o st data).life = h.life := by
  unfold Hw.respond; split <;> first | rfl | (cases o <;> rfl)

@[simp] theorem Hw.respond_fw (h : Hw) (o : Origin) (st : Nat) (data : List Byte) : (h.respond o st data).fw = h.fw := by
  unfold Hw.respond; split <;> first | rfl | (cases o <;> rfl)

@[simp] theorem be_length (n v : Nat) : (be n v).length = n := by
  induction n generalizing v with
  | zero => rfl
  | succ n ih => simp [be, ih]

/-- A reply occupies six bytes and its data (R406). -/
theorem replyBytes_length (st : Nat) (tag md : Byte) (data : List Byte) :
    (replyBytes st tag md data).length = 6 + data.length := by
  unfold replyBytes
  simp
  omega

end Sys2Proof.Machine
end

