-- ==== Sys2Proof/Laws/Firmware.lean ====
section
/-! SUPPORT. Every shared operation that is not about them leaves the firmware slots and their bookkeeping (R529–R532) as they are: one frame lemma
an operation. -/

namespace Sys2Proof.Machine
theorem foldl_fw {α : Type} (f : Hw → α → Hw) (l : List α) (h : Hw) {v} (hh : h.fw = v) (H : ∀ h x, h.fw = v → (f h x).fw = v) : (l.foldl f h).fw = v := by
  induction l generalizing h with
  | nil => exact hh
  | cons x r ih => exact ih _ (H _ _ hh)
theorem foldlp_fw {α β : Type} (f : Hw × β → α → Hw × β) (l : List α) (h : Hw × β) {v} (hh : h.1.fw = v) (H : ∀ h x, h.1.fw = v → (f h x).1.fw = v) : (l.foldl f h).1.fw = v := by
  induction l generalizing h with
  | nil => exact hh
  | cons x r ih => exact ih _ (H _ _ hh)
theorem foldl_fw' {α : Type} (f : Hw → α → Hw) (l : List α) (h : Hw) (H : ∀ h x, (f h x).fw = h.fw) : (l.foldl f h).fw = h.fw :=
  foldl_fw f l h rfl (fun h x e => (H h x).trans e)
theorem ite_fw {c : Prop} [Decidable c] {a b : Hw} {v} (ha : a.fw = v) (hb : b.fw = v) : (if c then a else b).fw = v := by
  split <;> assumption
theorem step_fw {x y : Hw} {v} (hx : x.fw = v) (hy : x.fw = v → y.fw = v) : y.fw = v := hy hx
theorem stepp_fw {β : Type} {x : Hw × β} {y : Hw} {v} (hx : x.1.fw = v) (hy : x.1.fw = v → y.fw = v) : y.fw = v := hy hx
theorem stepf_fw {x : Hw → Hw} {y : Hw} {v} (hx : ∀ h : Hw, (x h).fw = h.fw) (hy : (∀ h : Hw, (x h).fw = h.fw) → y.fw = v) : y.fw = v := hy hx
theorem Hw.derate_fw (h h' : Hw) (g : GovSample) (b : Nat) (e : h.derate g b = some h') : h'.fw = h.fw := by
  unfold Hw.derate at e
  simp only at e
  split at e
  · cases e
  · split at e <;> (cases e; rfl)

@[simp] theorem Hw.turnRef_fw (h : Hw) (a1 : Nat) : (Hw.turnRef h a1).fw = h.fw := by
  unfold Hw.turnRef
  simp

@[simp] theorem Hw.advance_fw (h : Hw) (a1 : Nat) : (Hw.advance h a1).fw = h.fw := by
  unfold Hw.advance
  with_reducible rfl

@[simp] theorem Hw.reach_fw (h : Hw) (a1 : Nat) : (Hw.reach h a1).fw = h.fw := by
  unfold Hw.reach
  simp

@[simp] theorem Hw.wake_fw (h : Hw) : (Hw.wake h).fw = h.fw := by
  unfold Hw.wake
  split <;> simp

@[simp] theorem Hw.raise_fw (h : Hw) (a1 : Nat) : (Hw.raise h a1).fw = h.fw := by
  unfold Hw.raise
  split <;> simp

@[simp] theorem Hw.raiseIf_fw (h : Hw) (a1 : Bool) (a2 : Nat) : (Hw.raiseIf h a1 a2).fw = h.fw := by
  unfold Hw.raiseIf
  split <;> simp

@[simp] theorem Hw.newJob_fw (h : Hw) (a1 : Byte) (a2 : Bool) : (Hw.newJob h a1 a2).fw = h.fw := by
  unfold Hw.newJob
  with_reducible rfl

@[simp] theorem Hw.modJob_fw (h : Hw) (a1 : Nat) (a2 : Job → Job) : (Hw.modJob h a1 a2).fw = h.fw := by
  unfold Hw.modJob
  with_reducible rfl

@[simp] theorem Hw.endJob_fw (h : Hw) (a1 : Nat) (a2 : Nat) (a3 : Nat) (a4 : List Byte) : (Hw.endJob h a1 a2 a3 a4).fw = h.fw := by
  unfold Hw.endJob
  simp

@[simp] theorem Hw.endJob?_fw (h : Hw) (a1 : Option Nat) (a2 : Nat) (a3 : Nat) (a4 : List Byte) : (Hw.endJob? h a1 a2 a3 a4).fw = h.fw := by
  unfold Hw.endJob?
  split <;> simp

@[simp] theorem Hw.dropJob_fw (h : Hw) (a1 : Nat) : (Hw.dropJob h a1).fw = h.fw := by
  unfold Hw.dropJob
  simp

@[simp] theorem Hw.dropJob?_fw (h : Hw) (a1 : Option Nat) : (Hw.dropJob? h a1).fw = h.fw := by
  unfold Hw.dropJob?
  split <;> simp

@[simp] theorem Hw.closeAll_fw (h : Hw) (a1 : Nat) (a2 : BitVec 16) : (Hw.closeAll h a1 a2).fw = h.fw := by
  unfold Hw.closeAll
  with_reducible rfl

@[simp] theorem Hw.startRead_fw (h : Hw) : (Hw.startRead h).fw = h.fw := by
  unfold Hw.startRead
  split <;> simp

@[simp] theorem Hw.freeBus_fw (h : Hw) (a1 : Nat) : (Hw.freeBus h a1).fw = h.fw := by
  unfold Hw.freeBus
  split <;> simp

@[simp] theorem Hw.unskip_fw (h : Hw) (a1 : Nat) : (Hw.unskip h a1).fw = h.fw := by
  unfold Hw.unskip
  with_reducible rfl

@[simp] theorem Hw.endVhWait_fw (h : Hw) (a1 : Nat) : (Hw.endVhWait h a1).fw = h.fw := by
  unfold Hw.endVhWait
  with_reducible rfl

@[simp] theorem Hw.turnOff_fw (h : Hw) (a1 : OffCause) (a2 : Nat) : (Hw.turnOff h a1 a2).fw = h.fw := by
  unfold Hw.turnOff
  simp [apply_ite Hw.fw]

@[simp] theorem Hw.turnOffAll_fw (h : Hw) (a1 : OffCause) : (Hw.turnOffAll h a1).fw = h.fw := by
  unfold Hw.turnOffAll
  simp [foldl_fw', apply_ite Hw.fw]

@[simp] theorem Hw.endMove_fw (h : Hw) (a1 : Nat) : (Hw.endMove h a1).fw = h.fw := by
  unfold Hw.endMove
  split <;> simp

@[simp] theorem Hw.govEnd_fw (h : Hw) : (Hw.govEnd h).fw = h.fw := by
  unfold Hw.govEnd
  with_reducible rfl

@[simp] theorem Hw.evalPgood_fw (h : Hw) : (Hw.evalPgood h).fw = h.fw := by
  unfold Hw.evalPgood
  simp

@[simp] theorem Hw.pgoodLow_fw (h : Hw) : (Hw.pgoodLow h).fw = h.fw := by
  unfold Hw.pgoodLow
  simp

@[simp] theorem Hw.capture_fw (h : Hw) (a1 : Capture) : (Hw.capture h a1).fw = h.fw := by
  unfold Hw.capture
  (repeat' split) <;> simp

@[simp] theorem Hw.warn_fw (h : Hw) (a1 : Nat) (a2 : Nat) : (Hw.warn h a1 a2).fw = h.fw := by
  unfold Hw.warn
  simp [apply_ite Hw.fw]

@[simp] theorem Hw.collect_fw (h : Hw) (a1 : Nat) (a2 : Nat) (a3 : Nat) (a4 : Nat) (a5 : List Byte) : (Hw.collect h a1 a2 a3 a4 a5).fw = h.fw := by
  unfold Hw.collect
  simp

@[simp] theorem Hw.askCoreReset_fw (h : Hw) (a1 : Nat) : (Hw.askCoreReset h a1).fw = h.fw := by
  unfold Hw.askCoreReset
  split <;> simp

@[simp] theorem Hw.imageSettings_fw (h : Hw) : (Hw.imageSettings h).fw = h.fw := by
  unfold Hw.imageSettings
  with_reducible rfl

@[simp] theorem Hw.enterLatched_fw (h : Hw) (a1 : Nat) : (Hw.enterLatched h a1).fw = h.fw := by
  unfold Hw.enterLatched
  simp [apply_ite Hw.fw]

@[simp] theorem Hw.planRetry_fw (h : Hw) : (Hw.planRetry h).fw = h.fw := by
  unfold Hw.planRetry
  simp [apply_ite Hw.fw]

@[simp] theorem Hw.hrstFalls_fw (h : Hw) : (Hw.hrstFalls h).fw = h.fw := by
  unfold Hw.hrstFalls
  simp [apply_ite Hw.fw]

@[simp] theorem Hw.markOff_fw (h : Hw) (a1 : OffCause) : (Hw.markOff h a1).fw = h.fw := by
  unfold Hw.markOff
  with_reducible rfl

@[simp] theorem Hw.safeState_fw (h : Hw) : (Hw.safeState h).fw = h.fw := by
  unfold Hw.safeState
  simp [apply_ite Hw.fw]

@[simp] theorem Hw.react_fw (h : Hw) (a1 : Nat) : (Hw.react h a1).fw = h.fw := by
  unfold Hw.react
  simp [apply_ite Hw.fw]

@[simp] theorem Hw.report_fw (h : Hw) (a1 : Nat) (a2 : Nat) (a3 : Nat) (a4 : Nat) (a5 : List Byte) : (Hw.report h a1 a2 a3 a4 a5).fw = h.fw := by
  unfold Hw.report
  simp

@[simp] theorem Hw.railOff_fw (h : Hw) (a1 : Nat) : (Hw.railOff h a1).fw = h.fw := by
  unfold Hw.railOff
  simp [apply_ite Hw.fw]

@[simp] theorem Hw.railFault_fw (h : Hw) (a1 : Nat) (a2 : Nat) (a3 : Nat) (a4 : List Byte) (a5 : Bool) : (Hw.railFault h a1 a2 a3 a4 a5).fw = h.fw := by
  unfold Hw.railFault
  simp [apply_ite Hw.fw]

@[simp] theorem Hw.railFaults_fw (h : Hw) (a1 : List RailErr) : (Hw.railFaults h a1).fw = h.fw := by
  unfold Hw.railFaults
  (repeat' first
    | with_reducible assumption
    | with_reducible rfl
    | (with_reducible refine ite_fw ?_ ?_)
    | (with_reducible simp only [*]; done)
    | (simp; done)
    | (simp; with_reducible assumption)
    | (with_reducible refine foldl_fw _ _ _ ?_ (fun _ _ _ => ?_))
    | (with_reducible refine foldlp_fw _ _ _ ?_ (fun _ _ _ => ?_))
    | (extract_lets +onlyGivenNames x; first
        | (with_reducible refine stepf_fw (x := x) ?_ (fun e => ?_) <;> [subst x; clear_value x])
        | (with_reducible refine step_fw (x := x) ?_ (fun e => ?_) <;> [subst x; clear_value x])
        | (with_reducible refine stepp_fw (x := x) ?_ (fun e => ?_) <;> [subst x; clear_value x])
        | clear_value x
        | subst x)
    | intro _
    | (with_reducible simp only [*]; with_reducible assumption)
    | (simp [H]; done)
    | (simp [H]; with_reducible assumption)
    | split
    | (simp [foldl_fw', apply_ite Hw.fw]; done)
    | (simp [foldl_fw', apply_ite Hw.fw]; with_reducible assumption))

@[simp] theorem Hw.chgOff_fw (h : Hw) : (Hw.chgOff h).fw = h.fw := by
  unfold Hw.chgOff
  with_reducible rfl

@[simp] theorem Hw.reclaim_fw (h : Hw) : (Hw.reclaim h).fw = h.fw := by
  unfold Hw.reclaim
  split <;> simp

@[simp] theorem Hw.lowSince_fw (h : Hw) (a1 : Int) : (Hw.lowSince h a1).fw = h.fw := by
  unfold Hw.lowSince
  simp

@[simp] theorem Hw.wait_fw (h : Hw) (a1 : List Byte) (a2 : Bool) (a3 : Nat) (a4 : Purpose) : (Hw.wait h a1 a2 a3 a4).fw = h.fw := by
  unfold Hw.wait
  with_reducible rfl

@[simp] theorem Hw.enqueueLog_fw (h : Hw) (a1 : List Byte) (a2 : Purpose) : (Hw.enqueueLog h a1 a2).fw = h.fw := by
  unfold Hw.enqueueLog
  with_reducible rfl

@[simp] theorem Hw.enqueue_fw (h : Hw) (a1 : Nat) (a2 : List Byte) (a3 : Purpose) : (Hw.enqueue h a1 a2 a3).fw = h.fw := by
  unfold Hw.enqueue
  with_reducible rfl

@[simp] theorem Hw.loseRecord_fw (h : Hw) : (Hw.loseRecord h).fw = h.fw := by
  unfold Hw.loseRecord
  with_reducible rfl

@[simp] theorem Hw.take_fw (h : Hw) (a1 : Nat) : (Hw.take h a1).fw = h.fw := by
  unfold Hw.take
  with_reducible rfl

@[simp] theorem Hw.transfer_fw (h : Hw) (a1 : Nat) (a2 : Nat) : (Hw.transfer h a1 a2).1.fw = h.fw := by
  unfold Hw.transfer
  (repeat' first
    | with_reducible assumption
    | with_reducible rfl
    | (with_reducible refine ite_fw ?_ ?_)
    | (with_reducible simp only [*]; done)
    | (simp; done)
    | (simp; with_reducible assumption)
    | (with_reducible refine foldl_fw _ _ _ ?_ (fun _ _ _ => ?_))
    | (with_reducible refine foldlp_fw _ _ _ ?_ (fun _ _ _ => ?_))
    | (extract_lets +onlyGivenNames x; first
        | (with_reducible refine stepf_fw (x := x) ?_ (fun e => ?_) <;> [subst x; clear_value x])
        | (with_reducible refine step_fw (x := x) ?_ (fun e => ?_) <;> [subst x; clear_value x])
        | (with_reducible refine stepp_fw (x := x) ?_ (fun e => ?_) <;> [subst x; clear_value x])
        | clear_value x
        | subst x)
    | intro _
    | (with_reducible simp only [*]; with_reducible assumption)
    | (simp [H]; done)
    | (simp [H]; with_reducible assumption)
    | split
    | (simp [foldl_fw', apply_ite Hw.fw]; done)
    | (simp [foldl_fw', apply_ite Hw.fw]; with_reducible assumption))

@[simp] theorem Hw.flashCheck_fw (h : Hw) (a1 : Nat) (a2 : Nat) (a3 : Nat) : (Hw.flashCheck h a1 a2 a3).1.fw = h.fw := by
  unfold Hw.flashCheck
  split <;> simp

@[simp] theorem Hw.regionCheck_fw (h : Hw) (a1 : Nat) (a2 : Nat) : (Hw.regionCheck h a1 a2).1.fw = h.fw := by
  unfold Hw.regionCheck
  split <;> simp

@[simp] theorem Hw.lastPair_fw (h : Hw) (a1 : Nat) (a2 : List Byte) : (Hw.lastPair h a1 a2).fw = h.fw := by
  unfold Hw.lastPair
  with_reducible rfl

@[simp] theorem Hw.prove_fw (h : Hw) (a1 : Ring) (a2 : Rec) (a3 : Bool) (a4 : Option Nat) : (Hw.prove h a1 a2 a3 a4).fw = h.fw := by
  unfold Hw.prove
  with_reducible rfl

@[simp] theorem Hw.place_fw (h : Hw) (a1 : Ring) (a2 : Rec) : (Hw.place h a1 a2).fw = h.fw := by
  unfold Hw.place
  with_reducible rfl

@[simp] theorem Hw.copyChecks_fw (h : Hw) (a1 : Ring) : (Hw.copyChecks h a1).1.fw = h.fw := by
  unfold Hw.copyChecks
  (repeat' first
    | with_reducible assumption
    | with_reducible rfl
    | (with_reducible refine ite_fw ?_ ?_)
    | (with_reducible simp only [*]; done)
    | (simp; done)
    | (simp; with_reducible assumption)
    | (with_reducible refine foldl_fw _ _ _ ?_ (fun _ _ _ => ?_))
    | (with_reducible refine foldlp_fw _ _ _ ?_ (fun _ _ _ => ?_))
    | (extract_lets +onlyGivenNames x; first
        | (with_reducible refine stepf_fw (x := x) ?_ (fun e => ?_) <;> [subst x; clear_value x])
        | (with_reducible refine step_fw (x := x) ?_ (fun e => ?_) <;> [subst x; clear_value x])
        | (with_reducible refine stepp_fw (x := x) ?_ (fun e => ?_) <;> [subst x; clear_value x])
        | clear_value x
        | subst x)
    | intro _
    | (with_reducible simp only [*]; with_reducible assumption)
    | (simp [H]; done)
    | (simp [H]; with_reducible assumption)
    | split
    | (simp [foldl_fw', apply_ite Hw.fw]; done)
    | (simp [foldl_fw', apply_ite Hw.fw]; with_reducible assumption))

@[simp] theorem Hw.copyOldest_fw (h : Hw) (a1 : Ring) : (Hw.copyOldest h a1).fw = h.fw := by
  unfold Hw.copyOldest
  simp [foldl_fw', apply_ite Hw.fw]

@[simp] theorem Hw.forgetFaults_fw (h : Hw) (a1 : Ring) : (Hw.forgetFaults h a1).fw = h.fw := by
  unfold Hw.forgetFaults
  split <;> simp

@[simp] theorem Hw.eraseNow_fw (h : Hw) (a1 : Ring) : (Hw.eraseNow h a1).fw = h.fw := by
  unfold Hw.eraseNow
  simp

@[simp] theorem Hw.compactNow_fw (h : Hw) (a1 : Ring) : (Hw.compactNow h a1).fw = h.fw := by
  unfold Hw.compactNow
  split <;> simp

@[simp] theorem Hw.makeRoom_fw (a0 : Nat) (a1 : Nat) (a2 : Ring) (h : Hw) : (Hw.makeRoom a0 a1 a2 h).fw = h.fw := by
  induction a0 generalizing h with
  | zero => rfl
  | succ n ih =>
    unfold Hw.makeRoom
    split
    · rw [ih]; simp
    · rfl

@[simp] theorem Hw.keep_fw (h : Hw) (a1 : Bool) (a2 : Rec) : (Hw.keep h a1 a2).fw = h.fw := by
  unfold Hw.keep
  simp

@[simp] theorem Hw.pairWith_fw (h : Hw) (a1 : Nat) (a2 : List Byte) (a3 : Word) (a4 : Option Nat) : (Hw.pairWith h a1 a2 a3 a4).fw = h.fw := by
  unfold Hw.pairWith
  simp

@[simp] theorem Hw.pairFor_fw (h : Hw) (a1 : Nat) (a2 : List Byte) (a3 : Option Nat) : (Hw.pairFor h a1 a2 a3).fw = h.fw := by
  unfold Hw.pairFor
  simp

@[simp] theorem Hw.pair_fw (h : Hw) (a1 : Nat) (a2 : List Byte) : (Hw.pair h a1 a2).fw = h.fw := by
  unfold Hw.pair
  simp

@[simp] theorem Hw.retireSector_fw (h : Hw) (a1 : Nat) (a2 : Nat) : (Hw.retireSector h a1 a2).fw = h.fw := by
  unfold Hw.retireSector
  simp

@[simp] theorem Hw.newBase_fw (h : Hw) (a1 : Nat) (a2 : Nat) : (Hw.newBase h a1 a2).fw = h.fw := by
  unfold Hw.newBase
  simp

@[simp] theorem Hw.clearBits_fw (h : Hw) (a1 : Nat) (a2 : Nat) (a3 : Nat) : (Hw.clearBits h a1 a2 a3).fw = h.fw := by
  unfold Hw.clearBits
  with_reducible rfl

@[simp] theorem Hw.clearTo_fw (h : Hw) (a1 : Nat) (a2 : Nat) (a3 : Nat) (a4 : Nat) : (Hw.clearTo h a1 a2 a3 a4).fw = h.fw := by
  unfold Hw.clearTo
  split <;> simp

@[simp] theorem Hw.checkpoint_fw (h : Hw) (a1 : Nat) (a2 : Nat) : (Hw.checkpoint h a1 a2).fw = h.fw := by
  unfold Hw.checkpoint
  (repeat' first
    | with_reducible assumption
    | with_reducible rfl
    | (with_reducible refine ite_fw ?_ ?_)
    | (with_reducible simp only [*]; done)
    | (simp; done)
    | (simp; with_reducible assumption)
    | (with_reducible refine foldl_fw _ _ _ ?_ (fun _ _ _ => ?_))
    | (with_reducible refine foldlp_fw _ _ _ ?_ (fun _ _ _ => ?_))
    | (extract_lets +onlyGivenNames x; first
        | (with_reducible refine stepf_fw (x := x) ?_ (fun e => ?_) <;> [subst x; clear_value x])
        | (with_reducible refine step_fw (x := x) ?_ (fun e => ?_) <;> [subst x; clear_value x])
        | (with_reducible refine stepp_fw (x := x) ?_ (fun e => ?_) <;> [subst x; clear_value x])
        | clear_value x
        | subst x)
    | intro _
    | (with_reducible simp only [*]; with_reducible assumption)
    | (simp [H]; done)
    | (simp [H]; with_reducible assumption)
    | split
    | (simp [foldl_fw', apply_ite Hw.fw]; done)
    | (simp [foldl_fw', apply_ite Hw.fw]; with_reducible assumption))

@[simp] theorem Hw.addConfig_fw (h : Hw) (a1 : Rec) : (Hw.addConfig h a1).fw = h.fw := by
  unfold Hw.addConfig
  split <;> simp

@[simp] theorem Hw.recordImage_fw (h : Hw) (a1 : List Byte) : (Hw.recordImage h a1).fw = h.fw := by
  unfold Hw.recordImage
  simp [foldl_fw', apply_ite Hw.fw]

@[simp] theorem Hw.putImage_fw (h : Hw) (a1 : List Byte) (a2 : Image) (a3 : Bool) : (Hw.putImage h a1 a2 a3).fw = h.fw := by
  unfold Hw.putImage
  split <;> simp

@[simp] theorem Hw.roomForFaults_fw (h : Hw) : (Hw.roomForFaults h).fw = h.fw := by
  unfold Hw.roomForFaults
  (repeat' split) <;> simp

@[simp] theorem Hw.writeFault_fw (h : Hw) : (Hw.writeFault h).fw = h.fw := by
  unfold Hw.writeFault
  split <;> simp

@[simp] theorem Hw.writeFaults_fw (h : Hw) : (Hw.writeFaults h).fw = h.fw := by
  unfold Hw.writeFaults
  simp [foldl_fw', apply_ite Hw.fw]

@[simp] theorem Hw.commitFaults_fw (h : Hw) : (Hw.commitFaults h).fw = h.fw := by
  unfold Hw.commitFaults
  with_reducible rfl

@[simp] theorem Hw.faultRecord_fw (h : Hw) (a1 : Option Nat) : (Hw.faultRecord h a1).fw = h.fw := by
  unfold Hw.faultRecord
  simp

@[simp] theorem Hw.amendFaults_fw (h : Hw) : (Hw.amendFaults h).fw = h.fw := by
  unfold Hw.amendFaults
  with_reducible rfl

@[simp] theorem Hw.endBlock_fw (h : Hw) (a1 : List (List ModBits)) (a2 : Nat) : (Hw.endBlock h a1 a2).fw = h.fw := by
  unfold Hw.endBlock
  simp

@[simp] theorem Hw.gather_fw (h : Hw) : (Hw.gather h).fw = h.fw := by
  unfold Hw.gather
  with_reducible rfl

@[simp] theorem Hw.enterHold_fw (h : Hw) (a1 : Nat) (a2 : Nat) (a3 : Bool) : (Hw.enterHold h a1 a2 a3).fw = h.fw := by
  unfold Hw.enterHold
  simp [apply_ite Hw.fw]

@[simp] theorem Hw.clearCause_fw (h : Hw) (a1 : Nat) (a2 : Nat) : (Hw.clearCause h a1 a2).fw = h.fw := by
  unfold Hw.clearCause
  simp [apply_ite Hw.fw]

@[simp] theorem Hw.loadBlocks_fw (h : Hw) (a1 : Nat) (a2 : Found) (a3 : Found) (a4 : Bool) : (Hw.loadBlocks h a1 a2 a3 a4).fw = h.fw := by
  unfold Hw.loadBlocks
  simp [apply_ite Hw.fw]

@[simp] theorem Hw.loadCal_fw (h : Hw) (a1 : Nat) (a2 : Bool) : (Hw.loadCal h a1 a2).fw = h.fw := by
  unfold Hw.loadCal
  simp

@[simp] theorem Hw.readRecord_fw (h : Hw) (a1 : Nat) (a2 : Nat) (a3 : Nat) (a4 : Nat) : (Hw.readRecord h a1 a2 a3 a4).1.fw = h.fw := by
  unfold Hw.readRecord
  (repeat' first
    | with_reducible assumption
    | with_reducible rfl
    | (with_reducible refine ite_fw ?_ ?_)
    | (with_reducible simp only [*]; done)
    | (simp; done)
    | (simp; with_reducible assumption)
    | (with_reducible refine foldl_fw _ _ _ ?_ (fun _ _ _ => ?_))
    | (with_reducible refine foldlp_fw _ _ _ ?_ (fun _ _ _ => ?_))
    | (extract_lets +onlyGivenNames x; first
        | (with_reducible refine stepf_fw (x := x) ?_ (fun e => ?_) <;> [subst x; clear_value x])
        | (with_reducible refine step_fw (x := x) ?_ (fun e => ?_) <;> [subst x; clear_value x])
        | (with_reducible refine stepp_fw (x := x) ?_ (fun e => ?_) <;> [subst x; clear_value x])
        | clear_value x
        | subst x)
    | intro _
    | (with_reducible simp only [*]; with_reducible assumption)
    | (simp [H]; done)
    | (simp [H]; with_reducible assumption)
    | split
    | (simp [foldl_fw', apply_ite Hw.fw]; done)
    | (simp [foldl_fw', apply_ite Hw.fw]; with_reducible assumption))

@[simp] theorem Hw.passRecs_fw (h : Hw) (a1 : Nat) (a2 : Nat) (a3 : Nat) (a4 : List Rec) : (Hw.passRecs h a1 a2 a3 a4).1.fw = h.fw := by
  unfold Hw.passRecs
  (repeat' first
    | with_reducible assumption
    | with_reducible rfl
    | (with_reducible refine ite_fw ?_ ?_)
    | (with_reducible simp only [*]; done)
    | (simp; done)
    | (simp; with_reducible assumption)
    | (with_reducible refine foldl_fw _ _ _ ?_ (fun _ _ _ => ?_))
    | (with_reducible refine foldlp_fw _ _ _ ?_ (fun _ _ _ => ?_))
    | (extract_lets +onlyGivenNames x; first
        | (with_reducible refine stepf_fw (x := x) ?_ (fun e => ?_) <;> [subst x; clear_value x])
        | (with_reducible refine step_fw (x := x) ?_ (fun e => ?_) <;> [subst x; clear_value x])
        | (with_reducible refine stepp_fw (x := x) ?_ (fun e => ?_) <;> [subst x; clear_value x])
        | clear_value x
        | subst x)
    | intro _
    | (with_reducible simp only [*]; with_reducible assumption)
    | (simp [H]; done)
    | (simp [H]; with_reducible assumption)
    | split
    | (simp [foldl_fw', apply_ite Hw.fw]; done)
    | (simp [foldl_fw', apply_ite Hw.fw]; with_reducible assumption))

@[simp] theorem Hw.readKey_fw (h : Hw) (a1 : Nat) (a2 : Nat) : (Hw.readKey h a1 a2).1.fw = h.fw := by
  unfold Hw.readKey
  simp

@[simp] theorem Hw.gaugeWrites_fw (h : Hw) : (Hw.gaugeWrites h).fw = h.fw := by
  unfold Hw.gaugeWrites
  (repeat' split) <;> simp [apply_ite Hw.fw]

@[simp] theorem Hw.freeze_fw (h : Hw) : (Hw.freeze h).fw = h.fw := by
  unfold Hw.freeze
  split <;> simp

@[simp] theorem Hw.putSlot_fw (h : Hw) (a1 : Nat) (a2 : Bool) (a3 : SlotState) : (Hw.putSlot h a1 a2 a3).fw = h.fw := by
  unfold Hw.putSlot
  simp

@[simp] theorem Hw.finishAppend_fw (h : Hw) : (Hw.finishAppend h).fw = h.fw := by
  unfold Hw.finishAppend
  (repeat' split) <;> simp [apply_ite Hw.fw]

@[simp] theorem Hw.closePf_fw (h : Hw) (a1 : Nat) (a2 : Nat) : (Hw.closePf h a1 a2).fw = h.fw := by
  unfold Hw.closePf
  simp [apply_ite Hw.fw]

@[simp] theorem Hw.timeCommitted_fw (h : Hw) (a1 : Purpose) (a2 : Nat) : (Hw.timeCommitted h a1 a2).fw = h.fw := by
  unfold Hw.timeCommitted
  split <;> simp

@[simp] theorem Hw.beginLog_fw (h : Hw) (a1 : StoreWrite) : (Hw.beginLog h a1).1.fw = h.fw := by
  unfold Hw.beginLog
  simp

@[simp] theorem Hw.cutLog_fw (h : Hw) (a1 : StoreWrite) : (Hw.cutLog h a1).fw = h.fw := by
  unfold Hw.cutLog
  simp [apply_ite Hw.fw]

@[simp] theorem Hw.cutCopy_fw (h : Hw) (a1 : StoreWrite) (a2 : Bool) : (Hw.cutCopy h a1 a2).fw = h.fw := by
  unfold Hw.cutCopy
  split <;> simp

@[simp] theorem Hw.dropWrites_fw (h : Hw) (a1 : List StoreWrite) : (Hw.dropWrites h a1).fw = h.fw := by
  unfold Hw.dropWrites
  (repeat' first
    | with_reducible assumption
    | with_reducible rfl
    | (with_reducible refine ite_fw ?_ ?_)
    | (with_reducible simp only [*]; done)
    | (simp; done)
    | (simp; with_reducible assumption)
    | (with_reducible refine foldl_fw _ _ _ ?_ (fun _ _ _ => ?_))
    | (with_reducible refine foldlp_fw _ _ _ ?_ (fun _ _ _ => ?_))
    | (extract_lets +onlyGivenNames x; first
        | (with_reducible refine stepf_fw (x := x) ?_ (fun e => ?_) <;> [subst x; clear_value x])
        | (with_reducible refine step_fw (x := x) ?_ (fun e => ?_) <;> [subst x; clear_value x])
        | (with_reducible refine stepp_fw (x := x) ?_ (fun e => ?_) <;> [subst x; clear_value x])
        | clear_value x
        | subst x)
    | intro _
    | (with_reducible simp only [*]; with_reducible assumption)
    | (simp [H]; done)
    | (simp [H]; with_reducible assumption)
    | split
    | (simp [foldl_fw', apply_ite Hw.fw]; done)
    | (simp [foldl_fw', apply_ite Hw.fw]; with_reducible assumption))

@[simp] theorem Hw.cutWrites_fw (h : Hw) : (Hw.cutWrites h).fw = h.fw := by
  unfold Hw.cutWrites
  (repeat' split) <;> simp

@[simp] theorem Hw.hardCut_fw (h : Hw) : (Hw.hardCut h).fw = h.fw := by
  unfold Hw.hardCut
  (repeat' split) <;> simp [apply_ite Hw.fw]

@[simp] theorem Hw.cutErase_fw (h : Hw) : (Hw.cutErase h).fw = h.fw := by
  unfold Hw.cutErase
  split <;> simp

@[simp] theorem Hw.dropWaiting_fw (h : Hw) : (Hw.dropWaiting h).fw = h.fw := by
  unfold Hw.dropWaiting
  with_reducible rfl

@[simp] theorem Hw.putPowerEvent_fw (h : Hw) (a1 : Nat) (a2 : Nat) : (Hw.putPowerEvent h a1 a2).fw = h.fw := by
  unfold Hw.putPowerEvent
  split <;> simp

@[simp] theorem Hw.lastWord_fw (h : Hw) (a1 : Nat) : (Hw.lastWord h a1).fw = h.fw := by
  unfold Hw.lastWord
  simp [foldl_fw', apply_ite Hw.fw]

@[simp] theorem Hw.conflict_fw (h : Hw) (a1 : Nat) : (Hw.conflict h a1).fw = h.fw := by
  unfold Hw.conflict
  simp

@[simp] theorem Hw.checkKey_fw (h : Hw) (a1 : Nat) : (Hw.checkKey h a1).fw = h.fw := by
  unfold Hw.checkKey
  split <;> simp

@[simp] theorem Hw.mendSectors_fw (h : Hw) : (Hw.mendSectors h).fw = h.fw := by
  unfold Hw.mendSectors
  with_reducible rfl

@[simp] theorem Hw.marginRead_fw (h : Hw) (a1 : List Nat) : (Hw.marginRead h a1).fw = h.fw := by
  unfold Hw.marginRead
  with_reducible rfl

@[simp] theorem Hw.setTotal_fw (h : Hw) (a1 : Nat) (a2 : Nat) : (Hw.setTotal h a1 a2).fw = h.fw := by
  unfold Hw.setTotal
  simp

@[simp] theorem Hw.restoreCd_fw (h : Hw) (a1 : Nat) : (Hw.restoreCd h a1).fw = h.fw := by
  unfold Hw.restoreCd
  (repeat' split) <;> simp

@[simp] theorem Hw.restoreCounters_fw (h : Hw) : (Hw.restoreCounters h).fw = h.fw := by
  unfold Hw.restoreCounters
  with_reducible rfl

@[simp] theorem Hw.restoreGauge_fw (h : Hw) : (Hw.restoreGauge h).fw = h.fw := by
  unfold Hw.restoreGauge
  with_reducible rfl

@[simp] theorem Hw.restoreHolds_fw (h : Hw) : (Hw.restoreHolds h).fw = h.fw := by
  unfold Hw.restoreHolds
  simp [foldl_fw', apply_ite Hw.fw]

@[simp] theorem Hw.loadAllCal_fw (h : Hw) : (Hw.loadAllCal h).fw = h.fw := by
  unfold Hw.loadAllCal
  simp [foldl_fw', apply_ite Hw.fw]

@[simp] theorem Hw.rebuildSlots_fw (h : Hw) : (Hw.rebuildSlots h).fw = h.fw := by
  unfold Hw.rebuildSlots
  with_reducible rfl

@[simp] theorem Hw.restore_fw (h : Hw) : (Hw.restore h).fw = h.fw := by
  unfold Hw.restore
  simp [foldl_fw', apply_ite Hw.fw]

@[simp] theorem Hw.endMoveOf_fw (h : Hw) (a1 : Nat) (a2 : Nat) : (Hw.endMoveOf h a1 a2).fw = h.fw := by
  unfold Hw.endMoveOf
  split <;> simp

@[simp] theorem Hw.activate_fw (h : Hw) (a1 : Nat) (a2 : Nat) : (Hw.activate h a1 a2).fw = h.fw := by
  unfold Hw.activate
  simp

@[simp] theorem Hw.awaitQuiet_fw (h : Hw) (a1 : Nat) : (Hw.awaitQuiet h a1).fw = h.fw := by
  unfold Hw.awaitQuiet
  (repeat' split) <;> simp

@[simp] theorem Hw.addPhase_fw (h : Hw) (a1 : Nat) : (Hw.addPhase h a1).fw = h.fw := by
  unfold Hw.addPhase
  (repeat' split) <;> simp

@[simp] theorem Hw.addUpTo_fw (h : Hw) (a1 : Nat) (a2 : Nat) : (Hw.addUpTo h a1 a2).fw = h.fw := by
  unfold Hw.addUpTo
  simp [foldl_fw', apply_ite Hw.fw]

@[simp] theorem Hw.serveClaims_fw (h : Hw) (a1 : BitVec 4) (a2 : Bool) (a3 : Hw → Nat → Hw) (H : ∀ y0 y1, (a3 y0 y1).fw = y0.fw) : (Hw.serveClaims h a1 a2 a3).fw = h.fw := by
  unfold Hw.serveClaims
  (repeat' first
    | with_reducible assumption
    | with_reducible rfl
    | (with_reducible refine ite_fw ?_ ?_)
    | (with_reducible simp only [*]; done)
    | (simp; done)
    | (simp; with_reducible assumption)
    | (with_reducible refine foldl_fw _ _ _ ?_ (fun _ _ _ => ?_))
    | (with_reducible refine foldlp_fw _ _ _ ?_ (fun _ _ _ => ?_))
    | (extract_lets +onlyGivenNames x; first
        | (with_reducible refine stepf_fw (x := x) ?_ (fun e => ?_) <;> [subst x; clear_value x])
        | (with_reducible refine step_fw (x := x) ?_ (fun e => ?_) <;> [subst x; clear_value x])
        | (with_reducible refine stepp_fw (x := x) ?_ (fun e => ?_) <;> [subst x; clear_value x])
        | clear_value x
        | subst x)
    | intro _
    | (with_reducible simp only [*]; with_reducible assumption)
    | (simp [H]; done)
    | (simp [H]; with_reducible assumption)
    | split
    | (simp [foldl_fw', apply_ite Hw.fw]; done)
    | (simp [foldl_fw', apply_ite Hw.fw]; with_reducible assumption))

@[simp] theorem Hw.substitute_fw (h : Hw) (a1 : Nat) : (Hw.substitute h a1).fw = h.fw := by
  unfold Hw.substitute
  extract_lets +onlyGivenNames x
  have e : ∀ h : Hw, (x h).fw = h.fw := by
    intro h
    subst x
    (repeat' first
      | with_reducible assumption
      | with_reducible rfl
      | (with_reducible refine ite_fw ?_ ?_)
      | (with_reducible simp only [*]; done)
      | (simp; done)
      | (simp; with_reducible assumption)
      | (with_reducible refine foldl_fw _ _ _ ?_ (fun _ _ _ => ?_))
      | (with_reducible refine foldlp_fw _ _ _ ?_ (fun _ _ _ => ?_))
      | (extract_lets +onlyGivenNames x; first
          | (with_reducible refine stepf_fw (x := x) ?_ (fun e => ?_) <;> [subst x; clear_value x])
          | (with_reducible refine step_fw (x := x) ?_ (fun e => ?_) <;> [subst x; clear_value x])
          | (with_reducible refine stepp_fw (x := x) ?_ (fun e => ?_) <;> [subst x; clear_value x])
          | clear_value x
          | subst x)
      | intro _
      | (with_reducible simp only [*]; with_reducible assumption)
      | (simp [H]; done)
      | (simp [H]; with_reducible assumption)
      | split
      | (simp [foldl_fw', apply_ite Hw.fw]; done)
      | (simp [foldl_fw', apply_ite Hw.fw]; with_reducible assumption))
  clear_value x
  simp [foldl_fw', e, apply_ite Hw.fw]

@[simp] theorem Hw.fillShort_fw (h : Hw) : (Hw.fillShort h).fw = h.fw := by
  unfold Hw.fillShort
  simp [foldl_fw', apply_ite Hw.fw]

@[simp] theorem Hw.startPhases_fw (h : Hw) (a1 : Nat) : (Hw.startPhases h a1).fw = h.fw := by
  unfold Hw.startPhases
  (repeat' first
    | with_reducible assumption
    | with_reducible rfl
    | (with_reducible refine ite_fw ?_ ?_)
    | (with_reducible simp only [*]; done)
    | (simp; done)
    | (simp; with_reducible assumption)
    | (with_reducible refine foldl_fw _ _ _ ?_ (fun _ _ _ => ?_))
    | (with_reducible refine foldlp_fw _ _ _ ?_ (fun _ _ _ => ?_))
    | (extract_lets +onlyGivenNames x; first
        | (with_reducible refine stepf_fw (x := x) ?_ (fun e => ?_) <;> [subst x; clear_value x])
        | (with_reducible refine step_fw (x := x) ?_ (fun e => ?_) <;> [subst x; clear_value x])
        | (with_reducible refine stepp_fw (x := x) ?_ (fun e => ?_) <;> [subst x; clear_value x])
        | clear_value x
        | subst x)
    | intro _
    | (with_reducible simp only [*]; with_reducible assumption)
    | (simp [H]; done)
    | (simp [H]; with_reducible assumption)
    | split
    | (simp [foldl_fw', apply_ite Hw.fw]; done)
    | (simp [foldl_fw', apply_ite Hw.fw]; with_reducible assumption))

@[simp] theorem Hw.rampDown_fw (h : Hw) (a1 : Nat) (a2 : Nat) : (Hw.rampDown h a1 a2).fw = h.fw := by
  unfold Hw.rampDown
  simp

@[simp] theorem Hw.tryMove_fw (h : Hw) : (Hw.tryMove h).fw = h.fw := by
  unfold Hw.tryMove
  (repeat' split) <;> simp [apply_ite Hw.fw]

@[simp] theorem Hw.cancelShed_fw (h : Hw) (a1 : Nat) : (Hw.cancelShed h a1).fw = h.fw := by
  unfold Hw.cancelShed
  simp [apply_ite Hw.fw]

@[simp] theorem Hw.cancelSheds_fw (h : Hw) (a1 : Nat) : (Hw.cancelSheds h a1).fw = h.fw := by
  unfold Hw.cancelSheds
  simp [foldl_fw', apply_ite Hw.fw]

@[simp] theorem Hw.burst_fw (h : Hw) (a1 : Nat) : (Hw.burst h a1).fw = h.fw := by
  unfold Hw.burst
  simp [apply_ite Hw.fw]

@[simp] theorem Hw.quietOver_fw (h : Hw) (a1 : Nat) (a2 : Nat) : (Hw.quietOver h a1 a2).fw = h.fw := by
  unfold Hw.quietOver
  simp

@[simp] theorem Hw.lostPhase_fw (h : Hw) (a1 : List RailErr) (a2 : Nat) : (Hw.lostPhase h a1 a2).fw = h.fw := by
  unfold Hw.lostPhase
  (repeat' first
    | with_reducible assumption
    | with_reducible rfl
    | (with_reducible refine ite_fw ?_ ?_)
    | (with_reducible simp only [*]; done)
    | (simp; done)
    | (simp; with_reducible assumption)
    | (with_reducible refine foldl_fw _ _ _ ?_ (fun _ _ _ => ?_))
    | (with_reducible refine foldlp_fw _ _ _ ?_ (fun _ _ _ => ?_))
    | (extract_lets +onlyGivenNames x; first
        | (with_reducible refine stepf_fw (x := x) ?_ (fun e => ?_) <;> [subst x; clear_value x])
        | (with_reducible refine step_fw (x := x) ?_ (fun e => ?_) <;> [subst x; clear_value x])
        | (with_reducible refine stepp_fw (x := x) ?_ (fun e => ?_) <;> [subst x; clear_value x])
        | clear_value x
        | subst x)
    | intro _
    | (with_reducible simp only [*]; with_reducible assumption)
    | (simp [H]; done)
    | (simp [H]; with_reducible assumption)
    | split
    | (simp [foldl_fw', apply_ite Hw.fw]; done)
    | (simp [foldl_fw', apply_ite Hw.fw]; with_reducible assumption))

@[simp] theorem Hw.startRamp_fw (h : Hw) (a1 : Nat) (a2 : Bool) : (Hw.startRamp h a1 a2).fw = h.fw := by
  unfold Hw.startRamp
  simp [apply_ite Hw.fw]

@[simp] theorem Hw.turnOn_fw (h : Hw) (a1 : Nat) (a2 : Bool) : (Hw.turnOn h a1 a2).fw = h.fw := by
  unfold Hw.turnOn
  simp [apply_ite Hw.fw]

@[simp] theorem Hw.disable_fw (h : Hw) (a1 : Nat) : (Hw.disable h a1).fw = h.fw := by
  unfold Hw.disable
  split <;> simp

@[simp] theorem Hw.cabStart_fw (a0 : Nat) (h : Hw) : (Hw.cabStart a0 h).fw = h.fw := by
  induction a0 generalizing h with
  | zero => rfl
  | succ n ih => unfold Hw.cabStart; (repeat' split) <;> simp [ih, apply_ite Hw.fw]

@[simp] theorem Hw.cabNext_fw (h : Hw) : (Hw.cabNext h).fw = h.fw := by
  unfold Hw.cabNext
  (repeat' split) <;> simp

@[simp] theorem Hw.cabBegin_fw (h : Hw) (a1 : Bool) : (Hw.cabBegin h a1).fw = h.fw := by
  unfold Hw.cabBegin
  split <;> simp

@[simp] theorem Hw.beginStep_fw (h : Hw) : (Hw.beginStep h).fw = h.fw := by
  unfold Hw.beginStep
  simp [foldl_fw', apply_ite Hw.fw]

@[simp] theorem Hw.releaseHrst_fw (h : Hw) : (Hw.releaseHrst h).fw = h.fw := by
  unfold Hw.releaseHrst
  split <;> simp

@[simp] theorem Hw.dueHrst_fw (h : Hw) : (Hw.dueHrst h).fw = h.fw := by
  unfold Hw.dueHrst
  split <;> simp

@[simp] theorem Hw.dropPend_fw (h : Hw) (a1 : Nat) : (Hw.dropPend h a1).fw = h.fw := by
  unfold Hw.dropPend
  simp

@[simp] theorem Hw.startUp_fw (h : Hw) (a1 : Option Nat) : (Hw.startUp h a1).fw = h.fw := by
  unfold Hw.startUp
  split <;> simp

@[simp] theorem Hw.tryPend_fw (h : Hw) : (Hw.tryPend h).fw = h.fw := by
  unfold Hw.tryPend
  split <;> simp

@[simp] theorem Hw.onRequest_fw (h : Hw) (a1 : Option Nat) : (Hw.onRequest h a1).fw = h.fw := by
  unfold Hw.onRequest
  (repeat' split) <;> simp

@[simp] theorem Hw.holdRamps_fw (h : Hw) : (Hw.holdRamps h).fw = h.fw := by
  unfold Hw.holdRamps
  simp [foldl_fw', apply_ite Hw.fw]

@[simp] theorem Hw.startDown_fw (h : Hw) (a1 : Nat) (a2 : Option Nat) : (Hw.startDown h a1 a2).fw = h.fw := by
  unfold Hw.startDown
  simp

@[simp] theorem Hw.endKeep_fw (h : Hw) : (Hw.endKeep h).fw = h.fw := by
  unfold Hw.endKeep
  with_reducible rfl

@[simp] theorem Hw.offRequest_fw (h : Hw) (a1 : Option Nat) : (Hw.offRequest h a1).fw = h.fw := by
  unfold Hw.offRequest
  (repeat' first
    | with_reducible assumption
    | with_reducible rfl
    | (with_reducible refine ite_fw ?_ ?_)
    | (with_reducible simp only [*]; done)
    | (simp; done)
    | (simp; with_reducible assumption)
    | (with_reducible refine foldl_fw _ _ _ ?_ (fun _ _ _ => ?_))
    | (with_reducible refine foldlp_fw _ _ _ ?_ (fun _ _ _ => ?_))
    | (extract_lets +onlyGivenNames x; first
        | (with_reducible refine stepf_fw (x := x) ?_ (fun e => ?_) <;> [subst x; clear_value x])
        | (with_reducible refine step_fw (x := x) ?_ (fun e => ?_) <;> [subst x; clear_value x])
        | (with_reducible refine stepp_fw (x := x) ?_ (fun e => ?_) <;> [subst x; clear_value x])
        | clear_value x
        | subst x)
    | intro _
    | (with_reducible simp only [*]; with_reducible assumption)
    | (simp [H]; done)
    | (simp [H]; with_reducible assumption)
    | split
    | (simp [foldl_fw', apply_ite Hw.fw]; done)
    | (simp [foldl_fw', apply_ite Hw.fw]; with_reducible assumption))

@[simp] theorem Hw.autostart_fw (h : Hw) : (Hw.autostart h).fw = h.fw := by
  unfold Hw.autostart
  split <;> simp

@[simp] theorem Hw.dropOverrides_fw (h : Hw) : (Hw.dropOverrides h).fw = h.fw := by
  unfold Hw.dropOverrides
  with_reducible rfl

@[simp] theorem Hw.revert_fw (h : Hw) : (Hw.revert h).fw = h.fw := by
  unfold Hw.revert
  simp

@[simp] theorem Hw.faultRestart_fw (h : Hw) : (Hw.faultRestart h).fw = h.fw := by
  unfold Hw.faultRestart
  simp

@[simp] theorem Hw.lockConfig_fw (h : Hw) : (Hw.lockConfig h).fw = h.fw := by
  unfold Hw.lockConfig
  with_reducible rfl

@[simp] theorem Hw.wipeRelay_fw (h : Hw) : (Hw.wipeRelay h).fw = h.fw := by
  unfold Hw.wipeRelay
  with_reducible rfl

@[simp] theorem Hw.serviceWrite_fw (h : Hw) : (Hw.serviceWrite h).fw = h.fw := by
  unfold Hw.serviceWrite
  simp [apply_ite Hw.fw]

@[simp] theorem Hw.serviceStep_fw (h : Hw) : (Hw.serviceStep h).fw = h.fw := by
  unfold Hw.serviceStep
  simp [apply_ite Hw.fw]

@[simp] theorem Hw.armStep_fw (h : Hw) : (Hw.armStep h).fw = h.fw := by
  unfold Hw.armStep
  (repeat' first
    | with_reducible assumption
    | with_reducible rfl
    | (with_reducible refine ite_fw ?_ ?_)
    | (with_reducible simp only [*]; done)
    | (simp; done)
    | (simp; with_reducible assumption)
    | (with_reducible refine foldl_fw _ _ _ ?_ (fun _ _ _ => ?_))
    | (with_reducible refine foldlp_fw _ _ _ ?_ (fun _ _ _ => ?_))
    | (extract_lets +onlyGivenNames x; first
        | (with_reducible refine stepf_fw (x := x) ?_ (fun e => ?_) <;> [subst x; clear_value x])
        | (with_reducible refine step_fw (x := x) ?_ (fun e => ?_) <;> [subst x; clear_value x])
        | (with_reducible refine stepp_fw (x := x) ?_ (fun e => ?_) <;> [subst x; clear_value x])
        | clear_value x
        | subst x)
    | intro _
    | (with_reducible simp only [*]; with_reducible assumption)
    | (simp [H]; done)
    | (simp [H]; with_reducible assumption)
    | split
    | (simp [foldl_fw', apply_ite Hw.fw]; done)
    | (simp [foldl_fw', apply_ite Hw.fw]; with_reducible assumption))

@[simp] theorem Hw.upDone_fw (h : Hw) : (Hw.upDone h).fw = h.fw := by
  unfold Hw.upDone
  simp

@[simp] theorem Hw.limpLeft_fw (h : Hw) : (Hw.limpLeft h).fw = h.fw := by
  unfold Hw.limpLeft
  simp

@[simp] theorem Hw.leaveLimp_fw (h : Hw) : (Hw.leaveLimp h).fw = h.fw := by
  unfold Hw.leaveLimp
  split <;> simp

@[simp] theorem Hw.hostRestart_fw (h : Hw) : (Hw.hostRestart h).fw = h.fw := by
  unfold Hw.hostRestart
  (repeat' first
    | with_reducible assumption
    | with_reducible rfl
    | (with_reducible refine ite_fw ?_ ?_)
    | (with_reducible simp only [*]; done)
    | (simp; done)
    | (simp; with_reducible assumption)
    | (with_reducible refine foldl_fw _ _ _ ?_ (fun _ _ _ => ?_))
    | (with_reducible refine foldlp_fw _ _ _ ?_ (fun _ _ _ => ?_))
    | (extract_lets +onlyGivenNames x; first
        | (with_reducible refine stepf_fw (x := x) ?_ (fun e => ?_) <;> [subst x; clear_value x])
        | (with_reducible refine step_fw (x := x) ?_ (fun e => ?_) <;> [subst x; clear_value x])
        | (with_reducible refine stepp_fw (x := x) ?_ (fun e => ?_) <;> [subst x; clear_value x])
        | clear_value x
        | subst x)
    | intro _
    | (with_reducible simp only [*]; with_reducible assumption)
    | (simp [H]; done)
    | (simp [H]; with_reducible assumption)
    | split
    | (simp [foldl_fw', apply_ite Hw.fw]; done)
    | (simp [foldl_fw', apply_ite Hw.fw]; with_reducible assumption))

@[simp] theorem Hw.startMetro_fw (h : Hw) (a1 : Bool) : (Hw.startMetro h a1).fw = h.fw := by
  unfold Hw.startMetro
  with_reducible rfl

@[simp] theorem Hw.startAdc_fw (h : Hw) : (Hw.startAdc h).fw = h.fw := by
  unfold Hw.startAdc
  with_reducible rfl

@[simp] theorem Hw.ok_fw (h : Hw) (a1 : Origin) (a2 : List Byte) : (Hw.ok h a1 a2).fw = h.fw := by
  unfold Hw.ok
  simp

@[simp] theorem Hw.pending_fw (h : Hw) (a1 : Origin) (a2 : List Byte) : (Hw.pending h a1 a2).fw = h.fw := by
  unfold Hw.pending
  simp

@[simp] theorem Hw.deny_fw (h : Hw) (a1 : Origin) (a2 : Nat) (a3 : Nat) (a4 : Nat) : (Hw.deny h a1 a2 a3 a4).fw = h.fw := by
  unfold Hw.deny
  simp

@[simp] theorem Hw.internalError_fw (h : Hw) (a1 : Origin) (a2 : Nat) : (Hw.internalError h a1 a2).fw = h.fw := by
  unfold Hw.internalError
  simp

@[simp] theorem Hw.arm_fw (h : Hw) (a1 : Bool) : (Hw.arm h a1).fw = h.fw := by
  unfold Hw.arm
  with_reducible rfl

@[simp] theorem Hw.setUnlock_fw (h : Hw) (a1 : Bool) (a2 : Unlock) : (Hw.setUnlock h a1 a2).fw = h.fw := by
  unfold Hw.setUnlock
  split <;> simp

@[simp] theorem Hw.badPacket_fw (h : Hw) (a1 : Origin) (a2 : List Byte) : (Hw.badPacket h a1 a2).fw = h.fw := by
  unfold Hw.badPacket
  (repeat' first
    | with_reducible assumption
    | with_reducible rfl
    | (with_reducible refine ite_fw ?_ ?_)
    | (with_reducible simp only [*]; done)
    | (simp; done)
    | (simp; with_reducible assumption)
    | (with_reducible refine foldl_fw _ _ _ ?_ (fun _ _ _ => ?_))
    | (with_reducible refine foldlp_fw _ _ _ ?_ (fun _ _ _ => ?_))
    | (extract_lets +onlyGivenNames x; first
        | (with_reducible refine stepf_fw (x := x) ?_ (fun e => ?_) <;> [subst x; clear_value x])
        | (with_reducible refine step_fw (x := x) ?_ (fun e => ?_) <;> [subst x; clear_value x])
        | (with_reducible refine stepp_fw (x := x) ?_ (fun e => ?_) <;> [subst x; clear_value x])
        | clear_value x
        | subst x)
    | intro _
    | (with_reducible simp only [*]; with_reducible assumption)
    | (simp [H]; done)
    | (simp [H]; with_reducible assumption)
    | split
    | (simp [foldl_fw', apply_ite Hw.fw]; done)
    | (simp [foldl_fw', apply_ite Hw.fw]; with_reducible assumption))

@[simp] theorem Hw.judge_fw (h : Hw) (a1 : Origin) : (Hw.judge h a1).fw = h.fw := by
  unfold Hw.judge
  (repeat' first
    | with_reducible assumption
    | with_reducible rfl
    | (with_reducible refine ite_fw ?_ ?_)
    | (with_reducible simp only [*]; done)
    | (simp; done)
    | (simp; with_reducible assumption)
    | (with_reducible refine foldl_fw _ _ _ ?_ (fun _ _ _ => ?_))
    | (with_reducible refine foldlp_fw _ _ _ ?_ (fun _ _ _ => ?_))
    | (extract_lets +onlyGivenNames x; first
        | (with_reducible refine stepf_fw (x := x) ?_ (fun e => ?_) <;> [subst x; clear_value x])
        | (with_reducible refine step_fw (x := x) ?_ (fun e => ?_) <;> [subst x; clear_value x])
        | (with_reducible refine stepp_fw (x := x) ?_ (fun e => ?_) <;> [subst x; clear_value x])
        | clear_value x
        | subst x)
    | intro _
    | (with_reducible simp only [*]; with_reducible assumption)
    | (simp [H]; done)
    | (simp [H]; with_reducible assumption)
    | split
    | (simp [foldl_fw', apply_ite Hw.fw]; done)
    | (simp [foldl_fw', apply_ite Hw.fw]; with_reducible assumption))

@[simp] theorem Hw.judgeDue_fw (h : Hw) : (Hw.judgeDue h).fw = h.fw := by
  unfold Hw.judgeDue
  simp

@[simp] theorem Hw.abandonCore_fw (h : Hw) : (Hw.abandonCore h).fw = h.fw := by
  unfold Hw.abandonCore
  with_reducible rfl

@[simp] theorem Hw.abandonJobs_fw (h : Hw) (a1 : List Byte) : (Hw.abandonJobs h a1).fw = h.fw := by
  unfold Hw.abandonJobs
  with_reducible rfl

@[simp] theorem Hw.sramCheck_fw (h : Hw) : (Hw.sramCheck h).fw = h.fw := by
  unfold Hw.sramCheck
  simp [apply_ite Hw.fw]

@[simp] theorem Hw.contact_fw (h : Hw) (a1 : Origin) (a2 : Bool) (a3 : CmdClass) : (Hw.contact h a1 a2 a3).fw = h.fw := by
  unfold Hw.contact
  simp [apply_ite Hw.fw]

@[simp] theorem Hw.serve_fw (h : Hw) (a1 : Instr) (a2 : Hw → Hw) (H : ∀ y0, (a2 y0).fw = y0.fw) : (Hw.serve h a1 a2).fw = h.fw := by
  unfold Hw.serve
  (repeat' first
    | with_reducible assumption
    | with_reducible rfl
    | (with_reducible refine ite_fw ?_ ?_)
    | (with_reducible simp only [*]; done)
    | (simp; done)
    | (simp; with_reducible assumption)
    | (with_reducible refine foldl_fw _ _ _ ?_ (fun _ _ _ => ?_))
    | (with_reducible refine foldlp_fw _ _ _ ?_ (fun _ _ _ => ?_))
    | (extract_lets +onlyGivenNames x; first
        | (with_reducible refine stepf_fw (x := x) ?_ (fun e => ?_) <;> [subst x; clear_value x])
        | (with_reducible refine step_fw (x := x) ?_ (fun e => ?_) <;> [subst x; clear_value x])
        | (with_reducible refine stepp_fw (x := x) ?_ (fun e => ?_) <;> [subst x; clear_value x])
        | clear_value x
        | subst x)
    | intro _
    | (with_reducible simp only [*]; with_reducible assumption)
    | (simp [H]; done)
    | (simp [H]; with_reducible assumption)
    | split
    | (simp [foldl_fw', apply_ite Hw.fw]; done)
    | (simp [foldl_fw', apply_ite Hw.fw]; with_reducible assumption))

@[simp] theorem Hw.breach_fw (h : Hw) (a1 : Nat) (a2 : Side) (a3 : List Byte) : (Hw.breach h a1 a2 a3).fw = h.fw := by
  unfold Hw.breach
  (repeat' split) <;> simp [apply_ite Hw.fw]

@[simp] theorem Hw.vibFault_fw (h : Hw) (a1 : List Byte) : (Hw.vibFault h a1).fw = h.fw := by
  unfold Hw.vibFault
  simp

@[simp] theorem Hw.notGood_fw (h : Hw) (a1 : Nat) : (Hw.notGood h a1).fw = h.fw := by
  unfold Hw.notGood
  simp

@[simp] theorem Hw.forced_fw (h : Hw) : (Hw.forced h).fw = h.fw := by
  unfold Hw.forced
  simp [foldl_fw', apply_ite Hw.fw]

@[simp] theorem Hw.seqTimeout_fw (h : Hw) (a1 : LowSample) : (Hw.seqTimeout h a1).fw = h.fw := by
  unfold Hw.seqTimeout
  simp

@[simp] theorem Hw.setGood_fw (h : Hw) (a1 : Nat) : (Hw.setGood h a1).fw = h.fw := by
  unfold Hw.setGood
  simp [apply_ite Hw.fw]

@[simp] theorem Hw.clearFault_fw (h : Hw) (a1 : Option Origin) : (Hw.clearFault h a1).fw = h.fw := by
  unfold Hw.clearFault
  (repeat' split) <;> simp

@[simp] theorem Hw.limpSettings_fw (h : Hw) : (Hw.limpSettings h).fw = h.fw := by
  unfold Hw.limpSettings
  with_reducible rfl

@[simp] theorem Hw.limpEntry_fw (h : Hw) : (Hw.limpEntry h).fw = h.fw := by
  unfold Hw.limpEntry
  simp [apply_ite Hw.fw]

@[simp] theorem Hw.loadWdt_fw (h : Hw) (a1 : Bool) : (Hw.loadWdt h a1).fw = h.fw := by
  unfold Hw.loadWdt
  split <;> simp

@[simp] theorem Hw.applyImage_fw (h : Hw) : (Hw.applyImage h).fw = h.fw := by
  unfold Hw.applyImage
  with_reducible rfl

@[simp] theorem Hw.loadImage_fw (h : Hw) : (Hw.loadImage h).fw = h.fw := by
  unfold Hw.loadImage
  simp

@[simp] theorem Hw.startLink_fw (h : Hw) : (Hw.startLink h).fw = h.fw := by
  unfold Hw.startLink
  with_reducible rfl

@[simp] theorem Hw.startThermal_fw (h : Hw) (a1 : List Int) : (Hw.startThermal h a1).fw = h.fw := by
  unfold Hw.startThermal
  with_reducible rfl

@[simp] theorem Hw.retest_fw (h : Hw) (a1 : BootSample) : (Hw.retest h a1).fw = h.fw := by
  unfold Hw.retest
  simp [foldl_fw', apply_ite Hw.fw]

@[simp] theorem Hw.calibrate_fw (h : Hw) (a1 : BootSample) (a2 : Bool) : (Hw.calibrate h a1 a2).fw = h.fw := by
  unfold Hw.calibrate
  simp [foldl_fw', apply_ite Hw.fw]

@[simp] theorem Hw.halve_fw (h : Hw) : (Hw.halve h).fw = h.fw := by
  unfold Hw.halve
  with_reducible rfl

@[simp] theorem Hw.lodgeCheck_fw (h : Hw) : (Hw.lodgeCheck h).fw = h.fw := by
  unfold Hw.lodgeCheck
  simp [foldl_fw', apply_ite Hw.fw]

@[simp] theorem Hw.syncBreaks_fw (h : Hw) : (Hw.syncBreaks h).fw = h.fw := by
  unfold Hw.syncBreaks
  split <;> simp

@[simp] theorem Hw.resumeBreak_fw (h : Hw) : (Hw.resumeBreak h).fw = h.fw := by
  unfold Hw.resumeBreak
  split <;> simp

@[simp] theorem Hw.signAtBoot_fw (h : Hw) : (Hw.signAtBoot h).fw = h.fw := by
  unfold Hw.signAtBoot
  with_reducible rfl

@[simp] theorem Hw.startBlocks_fw (h : Hw) : (Hw.startBlocks h).fw = h.fw := by
  unfold Hw.startBlocks
  with_reducible rfl

@[simp] theorem Hw.served_fw (h : Hw) : (Hw.served h).fw = h.fw := by
  unfold Hw.served
  simp

@[simp] theorem Hw.askRestart_fw (h : Hw) (a1 : RestartKind) : (Hw.askRestart h a1).fw = h.fw := by
  unfold Hw.askRestart
  split <;> simp

@[simp] theorem Hw.emptyCapture_fw (h : Hw) : (Hw.emptyCapture h).fw = h.fw := by
  unfold Hw.emptyCapture
  simp

@[simp] theorem Hw.setAside_fw (h : Hw) : (Hw.setAside h).fw = h.fw := by
  unfold Hw.setAside
  (repeat' split) <;> simp

@[simp] theorem Hw.countReset_fw (h : Hw) : (Hw.countReset h).fw = h.fw := by
  unfold Hw.countReset
  with_reducible rfl

@[simp] theorem Hw.raiseAlarm_fw (h : Hw) (a1 : Nat) : (Hw.raiseAlarm h a1).fw = h.fw := by
  unfold Hw.raiseAlarm
  split <;> simp

@[simp] theorem Hw.reachTick_fw (h : Hw) (a1 : Nat) : (Hw.reachTick h a1).fw = h.fw := by
  unfold Hw.reachTick
  split <;> simp

@[simp] theorem Hw.markStepped_fw (h : Hw) (a1 : Nat) (a2 : Nat) : (Hw.markStepped h a1 a2).fw = h.fw := by
  unfold Hw.markStepped
  split <;> simp

@[simp] theorem Hw.loseStored_fw (h : Hw) : (Hw.loseStored h).fw = h.fw := by
  unfold Hw.loseStored
  simp [apply_ite Hw.fw]

@[simp] theorem Hw.copyStatus_fw (h : Hw) (a1 : DWord) : (Hw.copyStatus h a1).fw = h.fw := by
  unfold Hw.copyStatus
  simp [apply_ite Hw.fw]

@[simp] theorem Hw.rewind_fw (h : Hw) : (Hw.rewind h).fw = h.fw := by
  unfold Hw.rewind
  with_reducible rfl

@[simp] theorem Hw.lifeChange_fw (h : Hw) : (Hw.lifeChange h).fw = h.fw := by
  unfold Hw.lifeChange
  simp

@[simp] theorem Hw.finishBreak_fw (h : Hw) : (Hw.finishBreak h).fw = h.fw := by
  unfold Hw.finishBreak
  split <;> simp

@[simp] theorem Hw.breakStep_fw (h : Hw) : (Hw.breakStep h).fw = h.fw := by
  unfold Hw.breakStep
  (repeat' split) <;> simp

@[simp] theorem Hw.beginBreak_fw (h : Hw) (a1 : Nat) : (Hw.beginBreak h a1).fw = h.fw := by
  unfold Hw.beginBreak
  simp

@[simp] theorem Hw.breakAtBoot_fw (h : Hw) : (Hw.breakAtBoot h).fw = h.fw := by
  unfold Hw.breakAtBoot
  (repeat' split) <;> simp [apply_ite Hw.fw]

@[simp] theorem Hw.beginSeal_fw (h : Hw) (a1 : Nat) : (Hw.beginSeal h a1).fw = h.fw := by
  unfold Hw.beginSeal
  simp

@[simp] theorem Hw.finishSeal_fw (h : Hw) (a1 : Nat) (a2 : Nat) : (Hw.finishSeal h a1 a2).fw = h.fw := by
  unfold Hw.finishSeal
  simp [foldl_fw', apply_ite Hw.fw]

@[simp] theorem Hw.dropSeal_fw (h : Hw) : (Hw.dropSeal h).fw = h.fw := by
  unfold Hw.dropSeal
  with_reducible rfl

@[simp] theorem Hw.abandonSeal_fw (h : Hw) : (Hw.abandonSeal h).fw = h.fw := by
  unfold Hw.abandonSeal
  split <;> simp

@[simp] theorem Hw.beginRetire_fw (h : Hw) (a1 : Bool) : (Hw.beginRetire h a1).fw = h.fw := by
  unfold Hw.beginRetire
  simp

@[simp] theorem Hw.holdChans_fw (h : Hw) (a1 : List Nat) : (Hw.holdChans h a1).fw = h.fw := by
  unfold Hw.holdChans
  simp [foldl_fw', apply_ite Hw.fw]

@[simp] theorem Hw.wordLost_fw (h : Hw) (a1 : SramWord) : (Hw.wordLost h a1).fw = h.fw := by
  unfold Hw.wordLost
  split <;> simp

@[simp] theorem Hw.eccFound_fw (h : Hw) (a1 : EccFinding) (a2 : Bool) : (Hw.eccFound h a1 a2).fw = h.fw := by
  unfold Hw.eccFound
  simp [apply_ite Hw.fw]

@[simp] theorem Hw.leaveIcehouse_fw (h : Hw) : (Hw.leaveIcehouse h).fw = h.fw := by
  unfold Hw.leaveIcehouse
  split <;> simp

@[simp] theorem Hw.returnPrecharge_fw (h : Hw) : (Hw.returnPrecharge h).fw = h.fw := by
  unfold Hw.returnPrecharge
  split <;> simp

@[simp] theorem Hw.vinOutputsOff_fw (h : Hw) : (Hw.vinOutputsOff h).fw = h.fw := by
  unfold Hw.vinOutputsOff
  simp

@[simp] theorem Hw.startHandOver_fw (h : Hw) : (Hw.startHandOver h).fw = h.fw := by
  unfold Hw.startHandOver
  simp

@[simp] theorem Hw.excursion_fw (h : Hw) : (Hw.excursion h).fw = h.fw := by
  unfold Hw.excursion
  simp [apply_ite Hw.fw]

@[simp] theorem Hw.bootPor_fw (h : Hw) : (Hw.bootPor h).fw = h.fw := by
  unfold Hw.bootPor
  simp

@[simp] theorem Hw.exitScrub_fw (h : Hw) (a1 : List EccFinding) : (Hw.exitScrub h a1).fw = h.fw := by
  unfold Hw.exitScrub
  simp [foldl_fw', apply_ite Hw.fw]

@[simp] theorem Hw.startVh_fw (h : Hw) (a1 : Nat) : (Hw.startVh h a1).fw = h.fw := by
  unfold Hw.startVh
  simp

@[simp] theorem Hw.startRelay_fw (h : Hw) : (Hw.startRelay h).fw = h.fw := by
  unfold Hw.startRelay
  extract_lets +onlyGivenNames x
  have e : ∀ h : Hw, (x h).fw = h.fw := by
    intro h
    subst x
    (repeat' first
      | with_reducible assumption
      | with_reducible rfl
      | (with_reducible refine ite_fw ?_ ?_)
      | (with_reducible simp only [*]; done)
      | (simp; done)
      | (simp; with_reducible assumption)
      | (with_reducible refine foldl_fw _ _ _ ?_ (fun _ _ _ => ?_))
      | (with_reducible refine foldlp_fw _ _ _ ?_ (fun _ _ _ => ?_))
      | (extract_lets +onlyGivenNames x; first
          | (with_reducible refine stepf_fw (x := x) ?_ (fun e => ?_) <;> [subst x; clear_value x])
          | (with_reducible refine step_fw (x := x) ?_ (fun e => ?_) <;> [subst x; clear_value x])
          | (with_reducible refine stepp_fw (x := x) ?_ (fun e => ?_) <;> [subst x; clear_value x])
          | clear_value x
          | subst x)
      | intro _
      | (with_reducible simp only [*]; with_reducible assumption)
      | (simp [H]; done)
      | (simp [H]; with_reducible assumption)
      | split
      | (simp [foldl_fw', apply_ite Hw.fw]; done)
      | (simp [foldl_fw', apply_ite Hw.fw]; with_reducible assumption))
  clear_value x
  simp [foldl_fw', e, apply_ite Hw.fw]

@[simp] theorem Hw.relayTimeout_fw (h : Hw) : (Hw.relayTimeout h).fw = h.fw := by
  unfold Hw.relayTimeout
  split <;> simp

@[simp] theorem Hw.replyFragment_fw (h : Hw) (a1 : List Byte) : (Hw.replyFragment h a1).fw = h.fw := by
  unfold Hw.replyFragment
  (repeat' split) <;> simp [apply_ite Hw.fw]

@[simp] theorem Hw.requestFragment_fw (h : Hw) (a1 : List Byte) : (Hw.requestFragment h a1).fw = h.fw := by
  unfold Hw.requestFragment
  simp [apply_ite Hw.fw]

@[simp] theorem Hw.modPeer_fw (h : Hw) (a1 : Nat) (a2 : Peer → Peer) : (Hw.modPeer h a1 a2).fw = h.fw := by
  unfold Hw.modPeer
  with_reducible rfl

@[simp] theorem Hw.dropFollower_fw (h : Hw) (a1 : Nat) : (Hw.dropFollower h a1).fw = h.fw := by
  unfold Hw.dropFollower
  simp [apply_ite Hw.fw]

@[simp] theorem Hw.admitJoins_fw (h : Hw) : (Hw.admitJoins h).fw = h.fw := by
  unfold Hw.admitJoins
  with_reducible rfl

@[simp] theorem Hw.leadCycle_fw (h : Hw) : (Hw.leadCycle h).fw = h.fw := by
  unfold Hw.leadCycle
  split <;> simp

@[simp] theorem Hw.discardFrame_fw (h : Hw) (a1 : List Byte) (a2 : Nat) (a3 : List Byte) : (Hw.discardFrame h a1 a2 a3).fw = h.fw := by
  unfold Hw.discardFrame
  simp

@[simp] theorem Hw.actOnCommand_fw (h : Hw) : (Hw.actOnCommand h).fw = h.fw := by
  unfold Hw.actOnCommand
  simp [apply_ite Hw.fw]

@[simp] theorem Hw.takeLead_fw (h : Hw) (a1 : List Byte) (a2 : Nat) : (Hw.takeLead h a1 a2).fw = h.fw := by
  unfold Hw.takeLead
  with_reducible rfl

@[simp] theorem Hw.orphan_fw (h : Hw) : (Hw.orphan h).fw = h.fw := by
  unfold Hw.orphan
  split <;> simp

@[simp] theorem Hw.statusAtLead_fw (h : Hw) (a1 : Nat) (a2 : List Byte) : (Hw.statusAtLead h a1 a2).fw = h.fw := by
  unfold Hw.statusAtLead
  simp [apply_ite Hw.fw]

@[simp] theorem Hw.joinAtLead_fw (h : Hw) (a1 : Nat) (a2 : List Byte) : (Hw.joinAtLead h a1 a2).fw = h.fw := by
  unfold Hw.joinAtLead
  split <;> simp

@[simp] theorem Hw.indexConflict_fw (h : Hw) (a1 : Nat) : (Hw.indexConflict h a1).fw = h.fw := by
  unfold Hw.indexConflict
  simp

@[simp] theorem Hw.wdtExpire_fw (h : Hw) : (Hw.wdtExpire h).fw = h.fw := by
  unfold Hw.wdtExpire
  split <;> simp

@[simp] theorem Hw.wdtViolation_fw (h : Hw) : (Hw.wdtViolation h).fw = h.fw := by
  unfold Hw.wdtViolation
  simp

@[simp] theorem Hw.wdtService_fw (h : Hw) (a1 : Byte) : (Hw.wdtService h a1).fw = h.fw := by
  unfold Hw.wdtService
  simp [apply_ite Hw.fw]

@[simp] theorem Hw.wdtCommit_fw (h : Hw) (a1 : Wdt) : (Hw.wdtCommit h a1).fw = h.fw := by
  unfold Hw.wdtCommit
  with_reducible rfl

@[simp] theorem Hw.submit_fw (h : Hw) (a1 : Origin) (a2 : Byte) : (Hw.submit h a1 a2).fw = h.fw := by
  unfold Hw.submit
  (repeat' first
    | with_reducible assumption
    | with_reducible rfl
    | (with_reducible refine ite_fw ?_ ?_)
    | (with_reducible simp only [*]; done)
    | (simp; done)
    | (simp; with_reducible assumption)
    | (with_reducible refine foldl_fw _ _ _ ?_ (fun _ _ _ => ?_))
    | (with_reducible refine foldlp_fw _ _ _ ?_ (fun _ _ _ => ?_))
    | (extract_lets +onlyGivenNames x; first
        | (with_reducible refine stepf_fw (x := x) ?_ (fun e => ?_) <;> [subst x; clear_value x])
        | (with_reducible refine step_fw (x := x) ?_ (fun e => ?_) <;> [subst x; clear_value x])
        | (with_reducible refine stepp_fw (x := x) ?_ (fun e => ?_) <;> [subst x; clear_value x])
        | clear_value x
        | subst x)
    | intro _
    | (with_reducible simp only [*]; with_reducible assumption)
    | (simp [H]; done)
    | (simp [H]; with_reducible assumption)
    | split
    | (simp [foldl_fw', apply_ite Hw.fw]; done)
    | (simp [foldl_fw', apply_ite Hw.fw]; with_reducible assumption))

@[simp] theorem Hw.evtByte_fw (h : Hw) (a1 : Nat) (a2 : Byte) : (Hw.evtByte h a1 a2).fw = h.fw := by
  unfold Hw.evtByte
  split <;> simp

@[simp] theorem Hw.putByte_fw (h : Hw) (a1 : Origin) (a2 : Nat) (a3 : Byte) : (Hw.putByte h a1 a2 a3).fw = h.fw := by
  unfold Hw.putByte
  simp [apply_ite Hw.fw]

@[simp] theorem Hw.putBytes_fw (h : Hw) (a1 : Origin) (a2 : Nat) (a3 : Nat) (a4 : List Byte) : (Hw.putBytes h a1 a2 a3 a4).fw = h.fw := by
  induction a4 generalizing h a3 with
  | nil => rfl
  | cons b r ih => unfold Hw.putBytes; rw [ih]; simp

@[simp] theorem Hw.start_fw (h : Hw) (a1 : Origin) : (Hw.start h a1).fw = h.fw := by
  unfold Hw.start
  simp

@[simp] theorem Hw.busError_fw (h : Hw) (a1 : Origin) (a2 : Nat) : (Hw.busError h a1 a2).fw = h.fw := by
  unfold Hw.busError
  split <;> simp

@[simp] theorem Hw.placeReply_fw (h : Hw) (a1 : Origin) : (Hw.placeReply h a1).fw = h.fw := by
  unfold Hw.placeReply
  (repeat' first
    | with_reducible assumption
    | with_reducible rfl
    | (with_reducible refine ite_fw ?_ ?_)
    | (with_reducible simp only [*]; done)
    | (simp; done)
    | (simp; with_reducible assumption)
    | (with_reducible refine foldl_fw _ _ _ ?_ (fun _ _ _ => ?_))
    | (with_reducible refine foldlp_fw _ _ _ ?_ (fun _ _ _ => ?_))
    | (extract_lets +onlyGivenNames x; first
        | (with_reducible refine stepf_fw (x := x) ?_ (fun e => ?_) <;> [subst x; clear_value x])
        | (with_reducible refine step_fw (x := x) ?_ (fun e => ?_) <;> [subst x; clear_value x])
        | (with_reducible refine stepp_fw (x := x) ?_ (fun e => ?_) <;> [subst x; clear_value x])
        | clear_value x
        | subst x)
    | intro _
    | (with_reducible simp only [*]; with_reducible assumption)
    | (simp [H]; done)
    | (simp [H]; with_reducible assumption)
    | split
    | (simp [foldl_fw', apply_ite Hw.fw]; done)
    | (simp [foldl_fw', apply_ite Hw.fw]; with_reducible assumption))

@[simp] theorem Hw.takeOutputs_fw (h : Hw) (a1 : List ChannelResult) (a2 : Nat) : (Hw.takeOutputs h a1 a2).fw = h.fw := by
  unfold Hw.takeOutputs
  with_reducible rfl

@[simp] theorem Hw.takeSupply_fw (h : Hw) : (Hw.takeSupply h).fw = h.fw := by
  unfold Hw.takeSupply
  with_reducible rfl

@[simp] theorem Hw.checkReference_fw (h : Hw) : (Hw.checkReference h).fw = h.fw := by
  unfold Hw.checkReference
  simp [apply_ite Hw.fw]

@[simp] theorem Hw.takePack_fw (h : Hw) : (Hw.takePack h).fw = h.fw := by
  unfold Hw.takePack
  with_reducible rfl

@[simp] theorem Hw.takeBands_fw (h : Hw) : (Hw.takeBands h).fw = h.fw := by
  unfold Hw.takeBands
  with_reducible rfl

@[simp] theorem Hw.thermalFault_fw (h : Hw) (a1 : Nat) (a2 : List Byte) : (Hw.thermalFault h a1 a2).fw = h.fw := by
  unfold Hw.thermalFault
  simp

@[simp] theorem Hw.sensorTrip_fw (h : Hw) : (Hw.sensorTrip h).fw = h.fw := by
  unfold Hw.sensorTrip
  (repeat' first
    | with_reducible assumption
    | with_reducible rfl
    | (with_reducible refine ite_fw ?_ ?_)
    | (with_reducible simp only [*]; done)
    | (simp; done)
    | (simp; with_reducible assumption)
    | (with_reducible refine foldl_fw _ _ _ ?_ (fun _ _ _ => ?_))
    | (with_reducible refine foldlp_fw _ _ _ ?_ (fun _ _ _ => ?_))
    | (extract_lets +onlyGivenNames x; first
        | (with_reducible refine stepf_fw (x := x) ?_ (fun e => ?_) <;> [subst x; clear_value x])
        | (with_reducible refine step_fw (x := x) ?_ (fun e => ?_) <;> [subst x; clear_value x])
        | (with_reducible refine stepp_fw (x := x) ?_ (fun e => ?_) <;> [subst x; clear_value x])
        | clear_value x
        | subst x)
    | intro _
    | (with_reducible simp only [*]; with_reducible assumption)
    | (simp [H]; done)
    | (simp [H]; with_reducible assumption)
    | split
    | (simp [foldl_fw', apply_ite Hw.fw]; done)
    | (simp [foldl_fw', apply_ite Hw.fw]; with_reducible assumption))

@[simp] theorem Hw.markTerms_fw (h : Hw) (a1 : GovSample) : (Hw.markTerms h a1).fw = h.fw := by
  unfold Hw.markTerms
  with_reducible rfl

@[simp] theorem Hw.shedOut_fw (h : Hw) (a1 : Nat) (a2 : Nat) : (Hw.shedOut h a1 a2).fw = h.fw := by
  unfold Hw.shedOut
  split <;> simp

@[simp] theorem Hw.govCharger_fw (h : Hw) : (Hw.govCharger h).fw = h.fw := by
  unfold Hw.govCharger
  with_reducible rfl

@[simp] theorem Hw.setStage_fw (h : Hw) (a1 : GovStage) : (Hw.setStage h a1).fw = h.fw := by
  unfold Hw.setStage
  simp

@[simp] theorem Hw.escalate_fw (h : Hw) (a1 : GovSample) (a2 : Nat) : (Hw.escalate h a1 a2).fw = h.fw := by
  unfold Hw.escalate
  simp only
  (repeat' split) <;> first | (simp; done) | (rename_i e; simpa using Hw.derate_fw _ _ _ _ e)

@[simp] theorem Hw.restoreOut_fw (h : Hw) (a1 : Nat) : (Hw.restoreOut h a1).fw = h.fw := by
  unfold Hw.restoreOut
  split <;> simp

@[simp] theorem Hw.raiseLimit_fw (h : Hw) (a1 : Nat) : (Hw.raiseLimit h a1).fw = h.fw := by
  unfold Hw.raiseLimit
  simp [apply_ite Hw.fw]

@[simp] theorem Hw.release_fw (h : Hw) (a1 : GovSample) (a2 : Nat) : (Hw.release h a1 a2).fw = h.fw := by
  unfold Hw.release
  (repeat' first
    | with_reducible assumption
    | with_reducible rfl
    | (with_reducible refine ite_fw ?_ ?_)
    | (with_reducible simp only [*]; done)
    | (simp; done)
    | (simp; with_reducible assumption)
    | (with_reducible refine foldl_fw _ _ _ ?_ (fun _ _ _ => ?_))
    | (with_reducible refine foldlp_fw _ _ _ ?_ (fun _ _ _ => ?_))
    | (extract_lets +onlyGivenNames x; first
        | (with_reducible refine stepf_fw (x := x) ?_ (fun e => ?_) <;> [subst x; clear_value x])
        | (with_reducible refine step_fw (x := x) ?_ (fun e => ?_) <;> [subst x; clear_value x])
        | (with_reducible refine stepp_fw (x := x) ?_ (fun e => ?_) <;> [subst x; clear_value x])
        | clear_value x
        | subst x)
    | intro _
    | (with_reducible simp only [*]; with_reducible assumption)
    | (simp [H]; done)
    | (simp [H]; with_reducible assumption)
    | split
    | (simp [foldl_fw', apply_ite Hw.fw]; done)
    | (simp [foldl_fw', apply_ite Hw.fw]; with_reducible assumption))

@[simp] theorem Hw.holdActions_fw (h : Hw) : (Hw.holdActions h).fw = h.fw := by
  unfold Hw.holdActions
  with_reducible rfl

@[simp] theorem Hw.govern_fw (h : Hw) (a1 : GovSample) : (Hw.govern h a1).fw = h.fw := by
  unfold Hw.govern
  (repeat' split) <;> simp [apply_ite Hw.fw]

@[simp] theorem Hw.slotLogged_fw (h : Hw) (a1 : Nat) : (Hw.slotLogged h a1).fw = h.fw := by
  unfold Hw.slotLogged
  simp

@[simp] theorem Hw.writeFailure_fw (h : Hw) (a1 : Nat) : (Hw.writeFailure h a1).fw = h.fw := by
  unfold Hw.writeFailure
  simp

@[simp] theorem Hw.retireLogAt_fw (h : Hw) (a1 : Nat) : (Hw.retireLogAt h a1).fw = h.fw := by
  unfold Hw.retireLogAt
  simp

@[simp] theorem Hw.retireLog_fw (h : Hw) : (Hw.retireLog h).fw = h.fw := by
  unfold Hw.retireLog
  simp

@[simp] theorem Hw.logFails_fw (h : Hw) (a1 : List Byte) (a2 : Nat) (a3 : Bool) (a4 : Bool) : (Hw.logFails h a1 a2 a3 a4).fw = h.fw := by
  unfold Hw.logFails
  split <;> simp

@[simp] theorem Hw.beginWaiting_fw (h : Hw) (a1 : WaitRec) : (Hw.beginWaiting h a1).fw = h.fw := by
  unfold Hw.beginWaiting
  simp

@[simp] theorem Hw.serveWaiting_fw (h : Hw) : (Hw.serveWaiting h).fw = h.fw := by
  unfold Hw.serveWaiting
  (repeat' split) <;> simp

@[simp] theorem Hw.signAll_fw (h : Hw) : (Hw.signAll h).fw = h.fw := by
  unfold Hw.signAll
  simp [foldl_fw', apply_ite Hw.fw]

@[simp] theorem Hw.ringErased_fw (h : Hw) (a1 : Ring) (a2 : Bool) : (Hw.ringErased h a1 a2).fw = h.fw := by
  unfold Hw.ringErased
  simp [apply_ite Hw.fw]

@[simp] theorem Hw.eraseProved_fw (h : Hw) (a1 : Erased) (a2 : Bool) : (Hw.eraseProved h a1 a2).fw = h.fw := by
  unfold Hw.eraseProved
  split <;> simp

@[simp] theorem Hw.safePoint_fw (h : Hw) : (Hw.safePoint h).fw = h.fw := by
  unfold Hw.safePoint
  with_reducible rfl

@[simp] theorem Hw.proveErase_fw (h : Hw) (a1 : Bool) : (Hw.proveErase h a1).fw = h.fw := by
  unfold Hw.proveErase
  split <;> simp

@[simp] theorem Hw.writeDone_fw (h : Hw) (a1 : StoreWrite) : (Hw.writeDone h a1).fw = h.fw := by
  unfold Hw.writeDone
  (repeat' split) <;> simp

@[simp] theorem Hw.programmed_fw (h : Hw) (a1 : StoreWrite) (a2 : List StoreWrite) : (Hw.programmed h a1 a2).fw = h.fw := by
  unfold Hw.programmed
  (repeat' split) <;> simp

@[simp] theorem Hw.writeLost_fw (h : Hw) (a1 : StoreWrite) : (Hw.writeLost h a1).fw = h.fw := by
  unfold Hw.writeLost
  (repeat' split) <;> simp

@[simp] theorem Hw.logLost_fw (h : Hw) (a1 : StoreWrite) (a2 : List StoreWrite) (a3 : Bool) : (Hw.logLost h a1 a2 a3).fw = h.fw := by
  unfold Hw.logLost
  simp [apply_ite Hw.fw]

@[simp] theorem Hw.copyFails_fw (h : Hw) (a1 : StoreWrite) (a2 : List StoreWrite) : (Hw.copyFails h a1 a2).fw = h.fw := by
  unfold Hw.copyFails
  simp [apply_ite Hw.fw]

@[simp] theorem Hw.jobFails_fw (h : Hw) (a1 : Option Nat) : (Hw.jobFails h a1).fw = h.fw := by
  unfold Hw.jobFails
  (repeat' split) <;> simp [apply_ite Hw.fw]

@[simp] theorem Hw.takeBack_fw (h : Hw) (a1 : Verify) : (Hw.takeBack h a1).fw = h.fw := by
  unfold Hw.takeBack
  (repeat' first
    | with_reducible assumption
    | with_reducible rfl
    | (with_reducible refine ite_fw ?_ ?_)
    | (with_reducible simp only [*]; done)
    | (simp; done)
    | (simp; with_reducible assumption)
    | (with_reducible refine foldl_fw _ _ _ ?_ (fun _ _ _ => ?_))
    | (with_reducible refine foldlp_fw _ _ _ ?_ (fun _ _ _ => ?_))
    | (extract_lets +onlyGivenNames x; first
        | (with_reducible refine stepf_fw (x := x) ?_ (fun e => ?_) <;> [subst x; clear_value x])
        | (with_reducible refine step_fw (x := x) ?_ (fun e => ?_) <;> [subst x; clear_value x])
        | (with_reducible refine stepp_fw (x := x) ?_ (fun e => ?_) <;> [subst x; clear_value x])
        | clear_value x
        | subst x)
    | intro _
    | (with_reducible simp only [*]; with_reducible assumption)
    | (simp [H]; done)
    | (simp [H]; with_reducible assumption)
    | split
    | (simp [foldl_fw', apply_ite Hw.fw]; done)
    | (simp [foldl_fw', apply_ite Hw.fw]; with_reducible assumption))

@[simp] theorem Hw.programLost_fw (h : Hw) : (Hw.programLost h).fw = h.fw := by
  unfold Hw.programLost
  (repeat' split) <;> simp

@[simp] theorem Hw.programEnds_fw (h : Hw) (a1 : StoreWrite) (a2 : List StoreWrite) (a3 : Bool) : (Hw.programEnds h a1 a2 a3).fw = h.fw := by
  unfold Hw.programEnds
  simp [apply_ite Hw.fw]

@[simp] theorem Hw.scrubInjected_fw (h : Hw) (a1 : Nat) : (Hw.scrubInjected h a1).fw = h.fw := by
  unfold Hw.scrubInjected
  simp [foldl_fw', apply_ite Hw.fw]

@[simp] theorem Hw.ackTo_fw (h : Hw) (a1 : Nat) : (Hw.ackTo h a1).fw = h.fw := by
  unfold Hw.ackTo
  simp

@[simp] theorem Hw.chgTo_fw (h : Hw) (a1 : ChgState) : (Hw.chgTo h a1).fw = h.fw := by
  unfold Hw.chgTo
  with_reducible rfl

@[simp] theorem Hw.chgFault_fw (h : Hw) (a1 : Nat) : (Hw.chgFault h a1).fw = h.fw := by
  unfold Hw.chgFault
  simp

@[simp] theorem Hw.chgReset_fw (h : Hw) : (Hw.chgReset h).fw = h.fw := by
  unfold Hw.chgReset
  with_reducible rfl

@[simp] theorem Hw.reference_fw (h : Hw) (a1 : Nat) (a2 : Nat) : (Hw.reference h a1 a2).fw = h.fw := by
  unfold Hw.reference
  simp [apply_ite Hw.fw]

@[simp] theorem Hw.chgDone_fw (h : Hw) : (Hw.chgDone h).fw = h.fw := by
  unfold Hw.chgDone
  simp [apply_ite Hw.fw]

@[simp] theorem Hw.chgEvaluate_fw (h : Hw) : (Hw.chgEvaluate h).fw = h.fw := by
  unfold Hw.chgEvaluate
  simp [apply_ite Hw.fw]

@[simp] theorem Hw.packGone_fw (h : Hw) (a1 : Bool) : (Hw.packGone h a1).fw = h.fw := by
  unfold Hw.packGone
  simp

@[simp] theorem Hw.packFound_fw (h : Hw) : (Hw.packFound h).fw = h.fw := by
  unfold Hw.packFound
  simp [apply_ite Hw.fw]

@[simp] theorem Hw.probed_fw (h : Hw) (a1 : ProbeSample) : (Hw.probed h a1).fw = h.fw := by
  unfold Hw.probed
  with_reducible rfl

@[simp] theorem Hw.chgSettings_fw (h : Hw) (a1 : ChargeCfg) : (Hw.chgSettings h a1).fw = h.fw := by
  unfold Hw.chgSettings
  simp [apply_ite Hw.fw]

@[simp] theorem Hw.learnRes_fw (h : Hw) (a1 : Option (Nat × Nat)) : (Hw.learnRes h a1).fw = h.fw := by
  unfold Hw.learnRes
  (repeat' split) <;> simp

@[simp] theorem Hw.ocvRead_fw (h : Hw) (a1 : Nat) : (Hw.ocvRead h a1).1.fw = h.fw := by
  unfold Hw.ocvRead
  (repeat' split) <;> simp

@[simp] theorem Hw.setCharger_fw (h : Hw) (a1 : ChargeCfg) : (Hw.setCharger h a1).fw = h.fw := by
  unfold Hw.setCharger
  simp [apply_ite Hw.fw]

@[simp] theorem Hw.bulkChecks_fw (h : Hw) (a1 : Nat) (a2 : Nat) (a3 : Nat) : (Hw.bulkChecks h a1 a2 a3).fw = h.fw := by
  unfold Hw.bulkChecks
  simp [foldl_fw', apply_ite Hw.fw]

@[simp] theorem Hw.commitImage_fw (h : Hw) (a1 : List Byte) (a2 : Image) (a3 : Word) : (Hw.commitImage h a1 a2 a3).fw = h.fw := by
  unfold Hw.commitImage
  with_reducible rfl

@[simp] theorem Hw.captureSlot_fw (h : Hw) (a1 : DWord) (a2 : Nat) : (Hw.captureSlot h a1 a2).fw = h.fw := by
  unfold Hw.captureSlot
  simp [apply_ite Hw.fw]

@[simp] theorem Hw.captureSlots_fw (h : Hw) (a1 : DWord) : (Hw.captureSlots h a1).fw = h.fw := by
  unfold Hw.captureSlots
  simp [foldl_fw', apply_ite Hw.fw]

@[simp] theorem Hw.checkpoints_fw (h : Hw) (a1 : List Chan) : (Hw.checkpoints h a1).fw = h.fw := by
  unfold Hw.checkpoints
  simp [foldl_fw', apply_ite Hw.fw]

@[simp] theorem Hw.calChecks_fw (h : Hw) : (Hw.calChecks h).fw = h.fw := by
  unfold Hw.calChecks
  simp

@[simp] theorem Hw.finishCal_fw (h : Hw) : (Hw.finishCal h).fw = h.fw := by
  unfold Hw.finishCal
  (repeat' split) <;> simp [apply_ite Hw.fw]

@[simp] theorem Hw.compareChan_fw (h : Hw) (a1 : Nat) : (Hw.compareChan h a1).fw = h.fw := by
  unfold Hw.compareChan
  simp [apply_ite Hw.fw]

@[simp] theorem Hw.recheckCal_fw (h : Hw) (a1 : Nat) : (Hw.recheckCal h a1).fw = h.fw := by
  unfold Hw.recheckCal
  simp [apply_ite Hw.fw]

@[simp] theorem Hw.erasedCheck_fw (h : Hw) (a1 : Nat) (a2 : Nat) : (Hw.erasedCheck h a1 a2).1.fw = h.fw := by
  unfold Hw.erasedCheck
  simp

@[simp] theorem Hw.compareRec_fw (h : Hw) (a1 : Nat) (a2 : Nat) (a3 : Rec) : (Hw.compareRec h a1 a2 a3).1.fw = h.fw := by
  unfold Hw.compareRec
  (repeat' first
    | with_reducible assumption
    | with_reducible rfl
    | (with_reducible refine ite_fw ?_ ?_)
    | (with_reducible simp only [*]; done)
    | (simp; done)
    | (simp; with_reducible assumption)
    | (with_reducible refine foldl_fw _ _ _ ?_ (fun _ _ _ => ?_))
    | (with_reducible refine foldlp_fw _ _ _ ?_ (fun _ _ _ => ?_))
    | (extract_lets +onlyGivenNames x; first
        | (with_reducible refine stepf_fw (x := x) ?_ (fun e => ?_) <;> [subst x; clear_value x])
        | (with_reducible refine step_fw (x := x) ?_ (fun e => ?_) <;> [subst x; clear_value x])
        | (with_reducible refine stepp_fw (x := x) ?_ (fun e => ?_) <;> [subst x; clear_value x])
        | clear_value x
        | subst x)
    | intro _
    | (with_reducible simp only [*]; with_reducible assumption)
    | (simp [H]; done)
    | (simp [H]; with_reducible assumption)
    | split
    | (simp [foldl_fw', apply_ite Hw.fw]; done)
    | (simp [foldl_fw', apply_ite Hw.fw]; with_reducible assumption))

@[simp] theorem Hw.compareRecs_fw (h : Hw) (a1 : Nat) (a2 : Nat) (a3 : List Rec) : (Hw.compareRecs h a1 a2 a3).1.fw = h.fw := by
  induction a3 generalizing h a2 with
  | nil => rfl
  | cons r rs ih =>
    unfold Hw.compareRecs
    (repeat' first
      | with_reducible assumption
      | with_reducible rfl
      | (with_reducible refine ite_fw ?_ ?_)
      | (with_reducible simp only [*]; done)
      | (simp; done)
      | (simp; with_reducible assumption)
      | (with_reducible refine foldl_fw _ _ _ ?_ (fun _ _ _ => ?_))
      | (with_reducible refine foldlp_fw _ _ _ ?_ (fun _ _ _ => ?_))
      | (extract_lets +onlyGivenNames x; first
          | (with_reducible refine stepf_fw (x := x) ?_ (fun e => ?_) <;> [subst x; clear_value x])
          | (with_reducible refine step_fw (x := x) ?_ (fun e => ?_) <;> [subst x; clear_value x])
          | (with_reducible refine stepp_fw (x := x) ?_ (fun e => ?_) <;> [subst x; clear_value x])
          | clear_value x
          | subst x)
      | intro _
      | (with_reducible simp only [*]; with_reducible assumption)
      | (simp [H]; done)
      | (simp [H]; with_reducible assumption)
      | split
      | (simp [foldl_fw', apply_ite Hw.fw]; done)
      | (simp [foldl_fw', apply_ite Hw.fw]; with_reducible assumption))
    all_goals (rw [ih]; with_reducible assumption)

@[simp] theorem Hw.copyCompare_fw (h : Hw) (a1 : Nat) (a2 : Nat) : (Hw.copyCompare h a1 a2).1.fw = h.fw := by
  unfold Hw.copyCompare
  simp

@[simp] theorem Hw.diagLost_fw (h : Hw) : (Hw.diagLost h).fw = h.fw := by
  unfold Hw.diagLost
  simp

@[simp] theorem Hw.passEntries_fw (h : Hw) (a1 : List FaultEntry) : (Hw.passEntries h a1).1.fw = h.fw := by
  unfold Hw.passEntries
  (repeat' first
    | with_reducible assumption
    | with_reducible rfl
    | (with_reducible refine ite_fw ?_ ?_)
    | (with_reducible simp only [*]; done)
    | (simp; done)
    | (simp; with_reducible assumption)
    | (with_reducible refine foldl_fw _ _ _ ?_ (fun _ _ _ => ?_))
    | (with_reducible refine foldlp_fw _ _ _ ?_ (fun _ _ _ => ?_))
    | (extract_lets +onlyGivenNames x; first
        | (with_reducible refine stepf_fw (x := x) ?_ (fun e => ?_) <;> [subst x; clear_value x])
        | (with_reducible refine step_fw (x := x) ?_ (fun e => ?_) <;> [subst x; clear_value x])
        | (with_reducible refine stepp_fw (x := x) ?_ (fun e => ?_) <;> [subst x; clear_value x])
        | clear_value x
        | subst x)
    | intro _
    | (with_reducible simp only [*]; with_reducible assumption)
    | (simp [H]; done)
    | (simp [H]; with_reducible assumption)
    | split
    | (simp [foldl_fw', apply_ite Hw.fw]; done)
    | (simp [foldl_fw', apply_ite Hw.fw]; with_reducible assumption))

@[simp] theorem Hw.enterCalibration_fw (h : Hw) : (Hw.enterCalibration h).fw = h.fw := by
  unfold Hw.enterCalibration
  simp

@[simp] theorem Hw.sealPlain_fw (h : Hw) : (Hw.sealPlain h).fw = h.fw := by
  unfold Hw.sealPlain
  simp

@[simp] theorem Hw.vclAnswer_fw (h : Hw) (a1 : Resp) (a2 : Nat) (a3 : Half) : (Hw.vclAnswer h a1 a2 a3).fw = h.fw := by
  unfold Hw.vclAnswer
  with_reducible rfl

@[simp] theorem Hw.vclBad_fw (h : Hw) (a1 : Nat) (a2 : Nat) (a3 : Nat) (a4 : Nat) (a5 : List Byte) : (Hw.vclBad h a1 a2 a3 a4 a5).fw = h.fw := by
  unfold Hw.vclBad
  simp

@[simp] theorem Hw.retarget_fw (h : Hw) (a1 : Nat) (a2 : Nat) (a3 : Nat) : (Hw.retarget h a1 a2 a3).fw = h.fw := by
  unfold Hw.retarget
  split <;> simp

@[simp] theorem Hw.rampDone_fw (h : Hw) (a1 : Nat) : (Hw.rampDone h a1).fw = h.fw := by
  unfold Hw.rampDone
  split <;> simp

@[simp] theorem Hw.codeStep_fw (h : Hw) (a1 : Nat) : (Hw.codeStep h a1).fw = h.fw := by
  unfold Hw.codeStep
  simp [apply_ite Hw.fw]

@[simp] theorem Hw.sinkHold_fw (h : Hw) (a1 : Nat) (a2 : Bool) : (Hw.sinkHold h a1 a2).fw = h.fw := by
  unfold Hw.sinkHold
  simp [apply_ite Hw.fw]

@[simp] theorem Hw.vclRequest_fw (h : Hw) (a1 : BitVec 4) (a2 : BitVec 2) (a3 : Bool) (a4 : Half) (a5 : BitVec 4) (a6 : Bool) (a7 : Hw → Nat → Hw) (H : ∀ y0 y1, (a7 y0 y1).fw = y0.fw) : (Hw.vclRequest h a1 a2 a3 a4 a5 a6 a7).fw = h.fw := by
  unfold Hw.vclRequest
  (repeat' first
    | with_reducible assumption
    | with_reducible rfl
    | (with_reducible refine ite_fw ?_ ?_)
    | (with_reducible simp only [*]; done)
    | (simp; done)
    | (simp; with_reducible assumption)
    | (with_reducible refine foldl_fw _ _ _ ?_ (fun _ _ _ => ?_))
    | (with_reducible refine foldlp_fw _ _ _ ?_ (fun _ _ _ => ?_))
    | (extract_lets +onlyGivenNames x; first
        | (with_reducible refine stepf_fw (x := x) ?_ (fun e => ?_) <;> [subst x; clear_value x])
        | (with_reducible refine step_fw (x := x) ?_ (fun e => ?_) <;> [subst x; clear_value x])
        | (with_reducible refine stepp_fw (x := x) ?_ (fun e => ?_) <;> [subst x; clear_value x])
        | clear_value x
        | subst x)
    | intro _
    | (with_reducible simp only [*]; with_reducible assumption)
    | (simp [H]; done)
    | (simp [H]; with_reducible assumption)
    | split
    | (simp [foldl_fw', apply_ite Hw.fw]; done)
    | (simp [foldl_fw', apply_ite Hw.fw]; with_reducible assumption))

@[simp] theorem Hw.vclRead_fw (h : Hw) (a1 : Nat) (a2 : Half) : (Hw.vclRead h a1 a2).fw = h.fw := by
  unfold Hw.vclRead
  simp

@[simp] theorem Hw.vclCarry_fw (h : Hw) (a1 : Nat) (a2 : Nat) (a3 : Bool) (a4 : Half) (a5 : Half) (a6 : Hw → Hw) (H : ∀ y0, (a6 y0).fw = y0.fw) : (Hw.vclCarry h a1 a2 a3 a4 a5 a6).fw = h.fw := by
  unfold Hw.vclCarry
  (repeat' first
    | with_reducible assumption
    | with_reducible rfl
    | (with_reducible refine ite_fw ?_ ?_)
    | (with_reducible simp only [*]; done)
    | (simp; done)
    | (simp; with_reducible assumption)
    | (with_reducible refine foldl_fw _ _ _ ?_ (fun _ _ _ => ?_))
    | (with_reducible refine foldlp_fw _ _ _ ?_ (fun _ _ _ => ?_))
    | (extract_lets +onlyGivenNames x; first
        | (with_reducible refine stepf_fw (x := x) ?_ (fun e => ?_) <;> [subst x; clear_value x])
        | (with_reducible refine step_fw (x := x) ?_ (fun e => ?_) <;> [subst x; clear_value x])
        | (with_reducible refine stepp_fw (x := x) ?_ (fun e => ?_) <;> [subst x; clear_value x])
        | clear_value x
        | subst x)
    | intro _
    | (with_reducible simp only [*]; with_reducible assumption)
    | (simp [H]; done)
    | (simp [H]; with_reducible assumption)
    | split
    | (simp [foldl_fw', apply_ite Hw.fw]; done)
    | (simp [foldl_fw', apply_ite Hw.fw]; with_reducible assumption))

@[simp] theorem Hw.beginPrecharge_fw (h : Hw) (a1 : Nat) : (Hw.beginPrecharge h a1).fw = h.fw := by
  unfold Hw.beginPrecharge
  simp

@[simp] theorem Hw.askPrecharge_fw (h : Hw) (a1 : Nat) : (Hw.askPrecharge h a1).fw = h.fw := by
  unfold Hw.askPrecharge
  split <;> simp

@[simp] theorem Hw.failRead_fw (h : Hw) (a1 : Nat) : (Hw.failRead h a1).fw = h.fw := by
  unfold Hw.failRead
  simp

@[simp] theorem Hw.accError_fw (h : Hw) : (Hw.accError h).fw = h.fw := by
  unfold Hw.accError
  simp

@[simp] theorem Hw.acceptBoard_fw (h : Hw) (a1 : Nat) : (Hw.acceptBoard h a1).fw = h.fw := by
  unfold Hw.acceptBoard
  simp

@[simp] theorem Hw.refuseBoard_fw (h : Hw) (a1 : Nat) (a2 : Nat) : (Hw.refuseBoard h a1 a2).fw = h.fw := by
  unfold Hw.refuseBoard
  simp

@[simp] theorem Hw.descAbsent_fw (h : Hw) (a1 : Nat) : (Hw.descAbsent h a1).fw = h.fw := by
  unfold Hw.descAbsent
  split <;> simp

@[simp] theorem Hw.judgeDesc_fw (h : Hw) (a1 : Nat) (a2 : List Byte) : (Hw.judgeDesc h a1 a2).fw = h.fw := by
  unfold Hw.judgeDesc
  simp [apply_ite Hw.fw]

@[simp] theorem Hw.latchPort_fw (h : Hw) (a1 : Nat) (a2 : Nat) : (Hw.latchPort h a1 a2).fw = h.fw := by
  unfold Hw.latchPort
  simp

@[simp] theorem Hw.reseat_fw (h : Hw) (a1 : Nat) : (Hw.reseat h a1).fw = h.fw := by
  unfold Hw.reseat
  simp

@[simp] theorem Hw.busTaken_fw (h : Hw) : (Hw.busTaken h).fw = h.fw := by
  unfold Hw.busTaken
  with_reducible rfl

@[simp] theorem Hw.sclEpisode_fw (h : Hw) : (Hw.sclEpisode h).fw = h.fw := by
  unfold Hw.sclEpisode
  split <;> simp

@[simp] theorem Hw.pendingJob_fw (h : Hw) (a1 : Origin) (a2 : Nat) : (Hw.pendingJob h a1 a2).fw = h.fw := by
  unfold Hw.pendingJob
  simp

@[simp] theorem Hw.attachJob_fw (h : Hw) (a1 : Origin) (a2 : Byte) : (Hw.attachJob h a1 a2).fw = h.fw := by
  unfold Hw.attachJob
  split <;> simp

@[simp] theorem Hw.setTarget_fw (h : Hw) (a1 : Nat) (a2 : Nat) : (Hw.setTarget h a1 a2).fw = h.fw := by
  unfold Hw.setTarget
  simp [apply_ite Hw.fw]

@[simp] theorem Hw.forget_fw (h : Hw) (a1 : Nat) : (Hw.forget h a1).fw = h.fw := by
  unfold Hw.forget
  with_reducible rfl

@[simp] theorem Hw.switch_fw (h : Hw) (a1 : Nat) (a2 : Bool) : (Hw.switch h a1 a2).fw = h.fw := by
  unfold Hw.switch
  simp [apply_ite Hw.fw]

@[simp] theorem Hw.startMove_fw (h : Hw) (a1 : Nat) (a2 : Nat) : (Hw.startMove h a1 a2).fw = h.fw := by
  unfold Hw.startMove
  (repeat' first
    | with_reducible assumption
    | with_reducible rfl
    | (with_reducible refine ite_fw ?_ ?_)
    | (with_reducible simp only [*]; done)
    | (simp; done)
    | (simp; with_reducible assumption)
    | (with_reducible refine foldl_fw _ _ _ ?_ (fun _ _ _ => ?_))
    | (with_reducible refine foldlp_fw _ _ _ ?_ (fun _ _ _ => ?_))
    | (extract_lets +onlyGivenNames x; first
        | (with_reducible refine stepf_fw (x := x) ?_ (fun e => ?_) <;> [subst x; clear_value x])
        | (with_reducible refine step_fw (x := x) ?_ (fun e => ?_) <;> [subst x; clear_value x])
        | (with_reducible refine stepp_fw (x := x) ?_ (fun e => ?_) <;> [subst x; clear_value x])
        | clear_value x
        | subst x)
    | intro _
    | (with_reducible simp only [*]; with_reducible assumption)
    | (simp [H]; done)
    | (simp [H]; with_reducible assumption)
    | split
    | (simp [foldl_fw', apply_ite Hw.fw]; done)
    | (simp [foldl_fw', apply_ite Hw.fw]; with_reducible assumption))

@[simp] theorem Hw.setIlim_fw (h : Hw) (a1 : Nat) (a2 : Nat) : (Hw.setIlim h a1 a2).fw = h.fw := by
  unfold Hw.setIlim
  simp

@[simp] theorem Hw.setPort_fw (h : Hw) (a1 : Nat) (a2 : Bool) (a3 : Nat) : (Hw.setPort h a1 a2 a3).fw = h.fw := by
  unfold Hw.setPort
  simp [apply_ite Hw.fw]

@[simp] theorem Hw.thermStages_fw (h : Hw) : (Hw.thermStages h).fw = h.fw := by
  unfold Hw.thermStages
  simp

@[simp] theorem Hw.renameTrip_fw (h : Hw) (a1 : Nat) (a2 : Nat × Nat) : (Hw.renameTrip h a1 a2).fw = h.fw := by
  unfold Hw.renameTrip
  with_reducible rfl

@[simp] theorem Hw.writeAt_fw (h : Hw) (a1 : Nat) (a2 : BulkPlace) (a3 : Nat) (a4 : List Byte) : (Hw.writeAt h a1 a2 a3 a4).fw = h.fw := by
  unfold Hw.writeAt
  split <;> simp

@[simp] theorem Hw.fetch_fw (h : Hw) (a1 : Nat) : (Hw.fetch h a1).fw = h.fw := by
  unfold Hw.fetch
  split <;> simp

@[simp] theorem Hw.dropPacket_fw (h : Hw) (a1 : Bool) : (Hw.dropPacket h a1).fw = h.fw := by
  unfold Hw.dropPacket
  simp

end Sys2Proof.Machine
end

