-- ==== Sys2Proof/Laws/Life.lean ====
section
/-! SUPPORT. Every shared operation that is not about them leaves the fuses, keys and life-cycle bookkeeping (R520–R527) as they are: one frame lemma
an operation. -/

namespace Sys2Proof.Machine
theorem foldl_life {α : Type} (f : Hw → α → Hw) (l : List α) (h : Hw) {v} (hh : h.life = v) (H : ∀ h x, h.life = v → (f h x).life = v) : (l.foldl f h).life = v := by
  induction l generalizing h with
  | nil => exact hh
  | cons x r ih => exact ih _ (H _ _ hh)
theorem foldlp_life {α β : Type} (f : Hw × β → α → Hw × β) (l : List α) (h : Hw × β) {v} (hh : h.1.life = v) (H : ∀ h x, h.1.life = v → (f h x).1.life = v) : (l.foldl f h).1.life = v := by
  induction l generalizing h with
  | nil => exact hh
  | cons x r ih => exact ih _ (H _ _ hh)
theorem foldl_life' {α : Type} (f : Hw → α → Hw) (l : List α) (h : Hw) (H : ∀ h x, (f h x).life = h.life) : (l.foldl f h).life = h.life :=
  foldl_life f l h rfl (fun h x e => (H h x).trans e)
theorem ite_life {c : Prop} [Decidable c] {a b : Hw} {v} (ha : a.life = v) (hb : b.life = v) : (if c then a else b).life = v := by
  split <;> assumption
theorem step_life {x y : Hw} {v} (hx : x.life = v) (hy : x.life = v → y.life = v) : y.life = v := hy hx
theorem stepp_life {β : Type} {x : Hw × β} {y : Hw} {v} (hx : x.1.life = v) (hy : x.1.life = v → y.life = v) : y.life = v := hy hx
theorem stepf_life {x : Hw → Hw} {y : Hw} {v} (hx : ∀ h : Hw, (x h).life = h.life) (hy : (∀ h : Hw, (x h).life = h.life) → y.life = v) : y.life = v := hy hx
theorem Hw.derate_life (h h' : Hw) (g : GovSample) (b : Nat) (e : h.derate g b = some h') : h'.life = h.life := by
  unfold Hw.derate at e
  simp only at e
  split at e
  · cases e
  · split at e <;> (cases e; rfl)

@[simp] theorem Hw.turnRef_life (h : Hw) (a1 : Nat) : (Hw.turnRef h a1).life = h.life := by
  unfold Hw.turnRef
  simp

@[simp] theorem Hw.advance_life (h : Hw) (a1 : Nat) : (Hw.advance h a1).life = h.life := by
  unfold Hw.advance
  with_reducible rfl

@[simp] theorem Hw.reach_life (h : Hw) (a1 : Nat) : (Hw.reach h a1).life = h.life := by
  unfold Hw.reach
  simp

@[simp] theorem Hw.wake_life (h : Hw) : (Hw.wake h).life = h.life := by
  unfold Hw.wake
  split <;> simp

@[simp] theorem Hw.raise_life (h : Hw) (a1 : Nat) : (Hw.raise h a1).life = h.life := by
  unfold Hw.raise
  split <;> simp

@[simp] theorem Hw.raiseIf_life (h : Hw) (a1 : Bool) (a2 : Nat) : (Hw.raiseIf h a1 a2).life = h.life := by
  unfold Hw.raiseIf
  split <;> simp

@[simp] theorem Hw.newJob_life (h : Hw) (a1 : Byte) (a2 : Bool) : (Hw.newJob h a1 a2).life = h.life := by
  unfold Hw.newJob
  with_reducible rfl

@[simp] theorem Hw.modJob_life (h : Hw) (a1 : Nat) (a2 : Job → Job) : (Hw.modJob h a1 a2).life = h.life := by
  unfold Hw.modJob
  with_reducible rfl

@[simp] theorem Hw.endJob_life (h : Hw) (a1 : Nat) (a2 : Nat) (a3 : Nat) (a4 : List Byte) : (Hw.endJob h a1 a2 a3 a4).life = h.life := by
  unfold Hw.endJob
  simp

@[simp] theorem Hw.endJob?_life (h : Hw) (a1 : Option Nat) (a2 : Nat) (a3 : Nat) (a4 : List Byte) : (Hw.endJob? h a1 a2 a3 a4).life = h.life := by
  unfold Hw.endJob?
  split <;> simp

@[simp] theorem Hw.dropJob_life (h : Hw) (a1 : Nat) : (Hw.dropJob h a1).life = h.life := by
  unfold Hw.dropJob
  simp

@[simp] theorem Hw.dropJob?_life (h : Hw) (a1 : Option Nat) : (Hw.dropJob? h a1).life = h.life := by
  unfold Hw.dropJob?
  split <;> simp

@[simp] theorem Hw.closeAll_life (h : Hw) (a1 : Nat) (a2 : BitVec 16) : (Hw.closeAll h a1 a2).life = h.life := by
  unfold Hw.closeAll
  with_reducible rfl

@[simp] theorem Hw.startRead_life (h : Hw) : (Hw.startRead h).life = h.life := by
  unfold Hw.startRead
  split <;> simp

@[simp] theorem Hw.freeBus_life (h : Hw) (a1 : Nat) : (Hw.freeBus h a1).life = h.life := by
  unfold Hw.freeBus
  split <;> simp

@[simp] theorem Hw.unskip_life (h : Hw) (a1 : Nat) : (Hw.unskip h a1).life = h.life := by
  unfold Hw.unskip
  with_reducible rfl

@[simp] theorem Hw.endVhWait_life (h : Hw) (a1 : Nat) : (Hw.endVhWait h a1).life = h.life := by
  unfold Hw.endVhWait
  with_reducible rfl

@[simp] theorem Hw.turnOff_life (h : Hw) (a1 : OffCause) (a2 : Nat) : (Hw.turnOff h a1 a2).life = h.life := by
  unfold Hw.turnOff
  simp [apply_ite Hw.life]

@[simp] theorem Hw.turnOffAll_life (h : Hw) (a1 : OffCause) : (Hw.turnOffAll h a1).life = h.life := by
  unfold Hw.turnOffAll
  simp [foldl_life', apply_ite Hw.life]

@[simp] theorem Hw.endMove_life (h : Hw) (a1 : Nat) : (Hw.endMove h a1).life = h.life := by
  unfold Hw.endMove
  split <;> simp

@[simp] theorem Hw.govEnd_life (h : Hw) : (Hw.govEnd h).life = h.life := by
  unfold Hw.govEnd
  with_reducible rfl

@[simp] theorem Hw.evalPgood_life (h : Hw) : (Hw.evalPgood h).life = h.life := by
  unfold Hw.evalPgood
  simp

@[simp] theorem Hw.pgoodLow_life (h : Hw) : (Hw.pgoodLow h).life = h.life := by
  unfold Hw.pgoodLow
  simp

@[simp] theorem Hw.capture_life (h : Hw) (a1 : Capture) : (Hw.capture h a1).life = h.life := by
  unfold Hw.capture
  (repeat' split) <;> simp

@[simp] theorem Hw.warn_life (h : Hw) (a1 : Nat) (a2 : Nat) : (Hw.warn h a1 a2).life = h.life := by
  unfold Hw.warn
  simp [apply_ite Hw.life]

@[simp] theorem Hw.collect_life (h : Hw) (a1 : Nat) (a2 : Nat) (a3 : Nat) (a4 : Nat) (a5 : List Byte) : (Hw.collect h a1 a2 a3 a4 a5).life = h.life := by
  unfold Hw.collect
  simp

@[simp] theorem Hw.askCoreReset_life (h : Hw) (a1 : Nat) : (Hw.askCoreReset h a1).life = h.life := by
  unfold Hw.askCoreReset
  split <;> simp

@[simp] theorem Hw.imageSettings_life (h : Hw) : (Hw.imageSettings h).life = h.life := by
  unfold Hw.imageSettings
  with_reducible rfl

@[simp] theorem Hw.enterLatched_life (h : Hw) (a1 : Nat) : (Hw.enterLatched h a1).life = h.life := by
  unfold Hw.enterLatched
  simp [apply_ite Hw.life]

@[simp] theorem Hw.planRetry_life (h : Hw) : (Hw.planRetry h).life = h.life := by
  unfold Hw.planRetry
  simp [apply_ite Hw.life]

@[simp] theorem Hw.hrstFalls_life (h : Hw) : (Hw.hrstFalls h).life = h.life := by
  unfold Hw.hrstFalls
  simp [apply_ite Hw.life]

@[simp] theorem Hw.markOff_life (h : Hw) (a1 : OffCause) : (Hw.markOff h a1).life = h.life := by
  unfold Hw.markOff
  with_reducible rfl

@[simp] theorem Hw.safeState_life (h : Hw) : (Hw.safeState h).life = h.life := by
  unfold Hw.safeState
  simp [apply_ite Hw.life]

@[simp] theorem Hw.react_life (h : Hw) (a1 : Nat) : (Hw.react h a1).life = h.life := by
  unfold Hw.react
  simp [apply_ite Hw.life]

@[simp] theorem Hw.report_life (h : Hw) (a1 : Nat) (a2 : Nat) (a3 : Nat) (a4 : Nat) (a5 : List Byte) : (Hw.report h a1 a2 a3 a4 a5).life = h.life := by
  unfold Hw.report
  simp

@[simp] theorem Hw.railOff_life (h : Hw) (a1 : Nat) : (Hw.railOff h a1).life = h.life := by
  unfold Hw.railOff
  simp [apply_ite Hw.life]

@[simp] theorem Hw.railFault_life (h : Hw) (a1 : Nat) (a2 : Nat) (a3 : Nat) (a4 : List Byte) (a5 : Bool) : (Hw.railFault h a1 a2 a3 a4 a5).life = h.life := by
  unfold Hw.railFault
  simp [apply_ite Hw.life]

@[simp] theorem Hw.railFaults_life (h : Hw) (a1 : List RailErr) : (Hw.railFaults h a1).life = h.life := by
  unfold Hw.railFaults
  (repeat' first
    | with_reducible assumption
    | with_reducible rfl
    | (with_reducible refine ite_life ?_ ?_)
    | (with_reducible simp only [*]; done)
    | (simp; done)
    | (simp; with_reducible assumption)
    | (with_reducible refine foldl_life _ _ _ ?_ (fun _ _ _ => ?_))
    | (with_reducible refine foldlp_life _ _ _ ?_ (fun _ _ _ => ?_))
    | (extract_lets +onlyGivenNames x; first
        | (with_reducible refine stepf_life (x := x) ?_ (fun e => ?_) <;> [subst x; clear_value x])
        | (with_reducible refine step_life (x := x) ?_ (fun e => ?_) <;> [subst x; clear_value x])
        | (with_reducible refine stepp_life (x := x) ?_ (fun e => ?_) <;> [subst x; clear_value x])
        | clear_value x
        | subst x)
    | intro _
    | (with_reducible simp only [*]; with_reducible assumption)
    | (simp [H]; done)
    | (simp [H]; with_reducible assumption)
    | split
    | (simp [foldl_life', apply_ite Hw.life]; done)
    | (simp [foldl_life', apply_ite Hw.life]; with_reducible assumption))

@[simp] theorem Hw.chgOff_life (h : Hw) : (Hw.chgOff h).life = h.life := by
  unfold Hw.chgOff
  with_reducible rfl

@[simp] theorem Hw.reclaim_life (h : Hw) : (Hw.reclaim h).life = h.life := by
  unfold Hw.reclaim
  split <;> simp

@[simp] theorem Hw.lowSince_life (h : Hw) (a1 : Int) : (Hw.lowSince h a1).life = h.life := by
  unfold Hw.lowSince
  simp

@[simp] theorem Hw.wait_life (h : Hw) (a1 : List Byte) (a2 : Bool) (a3 : Nat) (a4 : Purpose) : (Hw.wait h a1 a2 a3 a4).life = h.life := by
  unfold Hw.wait
  with_reducible rfl

@[simp] theorem Hw.enqueueLog_life (h : Hw) (a1 : List Byte) (a2 : Purpose) : (Hw.enqueueLog h a1 a2).life = h.life := by
  unfold Hw.enqueueLog
  with_reducible rfl

@[simp] theorem Hw.enqueue_life (h : Hw) (a1 : Nat) (a2 : List Byte) (a3 : Purpose) : (Hw.enqueue h a1 a2 a3).life = h.life := by
  unfold Hw.enqueue
  with_reducible rfl

@[simp] theorem Hw.loseRecord_life (h : Hw) : (Hw.loseRecord h).life = h.life := by
  unfold Hw.loseRecord
  with_reducible rfl

@[simp] theorem Hw.take_life (h : Hw) (a1 : Nat) : (Hw.take h a1).life = h.life := by
  unfold Hw.take
  with_reducible rfl

@[simp] theorem Hw.transfer_life (h : Hw) (a1 : Nat) (a2 : Nat) : (Hw.transfer h a1 a2).1.life = h.life := by
  unfold Hw.transfer
  (repeat' first
    | with_reducible assumption
    | with_reducible rfl
    | (with_reducible refine ite_life ?_ ?_)
    | (with_reducible simp only [*]; done)
    | (simp; done)
    | (simp; with_reducible assumption)
    | (with_reducible refine foldl_life _ _ _ ?_ (fun _ _ _ => ?_))
    | (with_reducible refine foldlp_life _ _ _ ?_ (fun _ _ _ => ?_))
    | (extract_lets +onlyGivenNames x; first
        | (with_reducible refine stepf_life (x := x) ?_ (fun e => ?_) <;> [subst x; clear_value x])
        | (with_reducible refine step_life (x := x) ?_ (fun e => ?_) <;> [subst x; clear_value x])
        | (with_reducible refine stepp_life (x := x) ?_ (fun e => ?_) <;> [subst x; clear_value x])
        | clear_value x
        | subst x)
    | intro _
    | (with_reducible simp only [*]; with_reducible assumption)
    | (simp [H]; done)
    | (simp [H]; with_reducible assumption)
    | split
    | (simp [foldl_life', apply_ite Hw.life]; done)
    | (simp [foldl_life', apply_ite Hw.life]; with_reducible assumption))

@[simp] theorem Hw.flashCheck_life (h : Hw) (a1 : Nat) (a2 : Nat) (a3 : Nat) : (Hw.flashCheck h a1 a2 a3).1.life = h.life := by
  unfold Hw.flashCheck
  split <;> simp

@[simp] theorem Hw.regionCheck_life (h : Hw) (a1 : Nat) (a2 : Nat) : (Hw.regionCheck h a1 a2).1.life = h.life := by
  unfold Hw.regionCheck
  split <;> simp

@[simp] theorem Hw.lastPair_life (h : Hw) (a1 : Nat) (a2 : List Byte) : (Hw.lastPair h a1 a2).life = h.life := by
  unfold Hw.lastPair
  with_reducible rfl

@[simp] theorem Hw.prove_life (h : Hw) (a1 : Ring) (a2 : Rec) (a3 : Bool) (a4 : Option Nat) : (Hw.prove h a1 a2 a3 a4).life = h.life := by
  unfold Hw.prove
  with_reducible rfl

@[simp] theorem Hw.place_life (h : Hw) (a1 : Ring) (a2 : Rec) : (Hw.place h a1 a2).life = h.life := by
  unfold Hw.place
  with_reducible rfl

@[simp] theorem Hw.copyChecks_life (h : Hw) (a1 : Ring) : (Hw.copyChecks h a1).1.life = h.life := by
  unfold Hw.copyChecks
  (repeat' first
    | with_reducible assumption
    | with_reducible rfl
    | (with_reducible refine ite_life ?_ ?_)
    | (with_reducible simp only [*]; done)
    | (simp; done)
    | (simp; with_reducible assumption)
    | (with_reducible refine foldl_life _ _ _ ?_ (fun _ _ _ => ?_))
    | (with_reducible refine foldlp_life _ _ _ ?_ (fun _ _ _ => ?_))
    | (extract_lets +onlyGivenNames x; first
        | (with_reducible refine stepf_life (x := x) ?_ (fun e => ?_) <;> [subst x; clear_value x])
        | (with_reducible refine step_life (x := x) ?_ (fun e => ?_) <;> [subst x; clear_value x])
        | (with_reducible refine stepp_life (x := x) ?_ (fun e => ?_) <;> [subst x; clear_value x])
        | clear_value x
        | subst x)
    | intro _
    | (with_reducible simp only [*]; with_reducible assumption)
    | (simp [H]; done)
    | (simp [H]; with_reducible assumption)
    | split
    | (simp [foldl_life', apply_ite Hw.life]; done)
    | (simp [foldl_life', apply_ite Hw.life]; with_reducible assumption))

@[simp] theorem Hw.copyOldest_life (h : Hw) (a1 : Ring) : (Hw.copyOldest h a1).life = h.life := by
  unfold Hw.copyOldest
  simp [foldl_life', apply_ite Hw.life]

@[simp] theorem Hw.forgetFaults_life (h : Hw) (a1 : Ring) : (Hw.forgetFaults h a1).life = h.life := by
  unfold Hw.forgetFaults
  split <;> simp

@[simp] theorem Hw.eraseNow_life (h : Hw) (a1 : Ring) : (Hw.eraseNow h a1).life = h.life := by
  unfold Hw.eraseNow
  simp

@[simp] theorem Hw.compactNow_life (h : Hw) (a1 : Ring) : (Hw.compactNow h a1).life = h.life := by
  unfold Hw.compactNow
  split <;> simp

@[simp] theorem Hw.makeRoom_life (a0 : Nat) (a1 : Nat) (a2 : Ring) (h : Hw) : (Hw.makeRoom a0 a1 a2 h).life = h.life := by
  induction a0 generalizing h with
  | zero => rfl
  | succ n ih =>
    unfold Hw.makeRoom
    split
    · rw [ih]; simp
    · rfl

@[simp] theorem Hw.keep_life (h : Hw) (a1 : Bool) (a2 : Rec) : (Hw.keep h a1 a2).life = h.life := by
  unfold Hw.keep
  simp

@[simp] theorem Hw.pairWith_life (h : Hw) (a1 : Nat) (a2 : List Byte) (a3 : Word) (a4 : Option Nat) : (Hw.pairWith h a1 a2 a3 a4).life = h.life := by
  unfold Hw.pairWith
  simp

@[simp] theorem Hw.pairFor_life (h : Hw) (a1 : Nat) (a2 : List Byte) (a3 : Option Nat) : (Hw.pairFor h a1 a2 a3).life = h.life := by
  unfold Hw.pairFor
  simp

@[simp] theorem Hw.pair_life (h : Hw) (a1 : Nat) (a2 : List Byte) : (Hw.pair h a1 a2).life = h.life := by
  unfold Hw.pair
  simp

@[simp] theorem Hw.retireSector_life (h : Hw) (a1 : Nat) (a2 : Nat) : (Hw.retireSector h a1 a2).life = h.life := by
  unfold Hw.retireSector
  simp

@[simp] theorem Hw.newBase_life (h : Hw) (a1 : Nat) (a2 : Nat) : (Hw.newBase h a1 a2).life = h.life := by
  unfold Hw.newBase
  simp

@[simp] theorem Hw.clearBits_life (h : Hw) (a1 : Nat) (a2 : Nat) (a3 : Nat) : (Hw.clearBits h a1 a2 a3).life = h.life := by
  unfold Hw.clearBits
  with_reducible rfl

@[simp] theorem Hw.clearTo_life (h : Hw) (a1 : Nat) (a2 : Nat) (a3 : Nat) (a4 : Nat) : (Hw.clearTo h a1 a2 a3 a4).life = h.life := by
  unfold Hw.clearTo
  split <;> simp

@[simp] theorem Hw.checkpoint_life (h : Hw) (a1 : Nat) (a2 : Nat) : (Hw.checkpoint h a1 a2).life = h.life := by
  unfold Hw.checkpoint
  (repeat' first
    | with_reducible assumption
    | with_reducible rfl
    | (with_reducible refine ite_life ?_ ?_)
    | (with_reducible simp only [*]; done)
    | (simp; done)
    | (simp; with_reducible assumption)
    | (with_reducible refine foldl_life _ _ _ ?_ (fun _ _ _ => ?_))
    | (with_reducible refine foldlp_life _ _ _ ?_ (fun _ _ _ => ?_))
    | (extract_lets +onlyGivenNames x; first
        | (with_reducible refine stepf_life (x := x) ?_ (fun e => ?_) <;> [subst x; clear_value x])
        | (with_reducible refine step_life (x := x) ?_ (fun e => ?_) <;> [subst x; clear_value x])
        | (with_reducible refine stepp_life (x := x) ?_ (fun e => ?_) <;> [subst x; clear_value x])
        | clear_value x
        | subst x)
    | intro _
    | (with_reducible simp only [*]; with_reducible assumption)
    | (simp [H]; done)
    | (simp [H]; with_reducible assumption)
    | split
    | (simp [foldl_life', apply_ite Hw.life]; done)
    | (simp [foldl_life', apply_ite Hw.life]; with_reducible assumption))

@[simp] theorem Hw.addConfig_life (h : Hw) (a1 : Rec) : (Hw.addConfig h a1).life = h.life := by
  unfold Hw.addConfig
  split <;> simp

@[simp] theorem Hw.recordImage_life (h : Hw) (a1 : List Byte) : (Hw.recordImage h a1).life = h.life := by
  unfold Hw.recordImage
  simp [foldl_life', apply_ite Hw.life]

@[simp] theorem Hw.putImage_life (h : Hw) (a1 : List Byte) (a2 : Image) (a3 : Bool) : (Hw.putImage h a1 a2 a3).life = h.life := by
  unfold Hw.putImage
  split <;> simp

@[simp] theorem Hw.roomForFaults_life (h : Hw) : (Hw.roomForFaults h).life = h.life := by
  unfold Hw.roomForFaults
  (repeat' split) <;> simp

@[simp] theorem Hw.writeFault_life (h : Hw) : (Hw.writeFault h).life = h.life := by
  unfold Hw.writeFault
  split <;> simp

@[simp] theorem Hw.writeFaults_life (h : Hw) : (Hw.writeFaults h).life = h.life := by
  unfold Hw.writeFaults
  simp [foldl_life', apply_ite Hw.life]

@[simp] theorem Hw.commitFaults_life (h : Hw) : (Hw.commitFaults h).life = h.life := by
  unfold Hw.commitFaults
  with_reducible rfl

@[simp] theorem Hw.faultRecord_life (h : Hw) (a1 : Option Nat) : (Hw.faultRecord h a1).life = h.life := by
  unfold Hw.faultRecord
  simp

@[simp] theorem Hw.amendFaults_life (h : Hw) : (Hw.amendFaults h).life = h.life := by
  unfold Hw.amendFaults
  with_reducible rfl

@[simp] theorem Hw.endBlock_life (h : Hw) (a1 : List (List ModBits)) (a2 : Nat) : (Hw.endBlock h a1 a2).life = h.life := by
  unfold Hw.endBlock
  simp

@[simp] theorem Hw.gather_life (h : Hw) : (Hw.gather h).life = h.life := by
  unfold Hw.gather
  with_reducible rfl

@[simp] theorem Hw.enterHold_life (h : Hw) (a1 : Nat) (a2 : Nat) (a3 : Bool) : (Hw.enterHold h a1 a2 a3).life = h.life := by
  unfold Hw.enterHold
  simp [apply_ite Hw.life]

@[simp] theorem Hw.clearCause_life (h : Hw) (a1 : Nat) (a2 : Nat) : (Hw.clearCause h a1 a2).life = h.life := by
  unfold Hw.clearCause
  simp [apply_ite Hw.life]

@[simp] theorem Hw.loadBlocks_life (h : Hw) (a1 : Nat) (a2 : Found) (a3 : Found) (a4 : Bool) : (Hw.loadBlocks h a1 a2 a3 a4).life = h.life := by
  unfold Hw.loadBlocks
  simp [apply_ite Hw.life]

@[simp] theorem Hw.loadCal_life (h : Hw) (a1 : Nat) (a2 : Bool) : (Hw.loadCal h a1 a2).life = h.life := by
  unfold Hw.loadCal
  simp

@[simp] theorem Hw.readRecord_life (h : Hw) (a1 : Nat) (a2 : Nat) (a3 : Nat) (a4 : Nat) : (Hw.readRecord h a1 a2 a3 a4).1.life = h.life := by
  unfold Hw.readRecord
  (repeat' first
    | with_reducible assumption
    | with_reducible rfl
    | (with_reducible refine ite_life ?_ ?_)
    | (with_reducible simp only [*]; done)
    | (simp; done)
    | (simp; with_reducible assumption)
    | (with_reducible refine foldl_life _ _ _ ?_ (fun _ _ _ => ?_))
    | (with_reducible refine foldlp_life _ _ _ ?_ (fun _ _ _ => ?_))
    | (extract_lets +onlyGivenNames x; first
        | (with_reducible refine stepf_life (x := x) ?_ (fun e => ?_) <;> [subst x; clear_value x])
        | (with_reducible refine step_life (x := x) ?_ (fun e => ?_) <;> [subst x; clear_value x])
        | (with_reducible refine stepp_life (x := x) ?_ (fun e => ?_) <;> [subst x; clear_value x])
        | clear_value x
        | subst x)
    | intro _
    | (with_reducible simp only [*]; with_reducible assumption)
    | (simp [H]; done)
    | (simp [H]; with_reducible assumption)
    | split
    | (simp [foldl_life', apply_ite Hw.life]; done)
    | (simp [foldl_life', apply_ite Hw.life]; with_reducible assumption))

@[simp] theorem Hw.passRecs_life (h : Hw) (a1 : Nat) (a2 : Nat) (a3 : Nat) (a4 : List Rec) : (Hw.passRecs h a1 a2 a3 a4).1.life = h.life := by
  unfold Hw.passRecs
  (repeat' first
    | with_reducible assumption
    | with_reducible rfl
    | (with_reducible refine ite_life ?_ ?_)
    | (with_reducible simp only [*]; done)
    | (simp; done)
    | (simp; with_reducible assumption)
    | (with_reducible refine foldl_life _ _ _ ?_ (fun _ _ _ => ?_))
    | (with_reducible refine foldlp_life _ _ _ ?_ (fun _ _ _ => ?_))
    | (extract_lets +onlyGivenNames x; first
        | (with_reducible refine stepf_life (x := x) ?_ (fun e => ?_) <;> [subst x; clear_value x])
        | (with_reducible refine step_life (x := x) ?_ (fun e => ?_) <;> [subst x; clear_value x])
        | (with_reducible refine stepp_life (x := x) ?_ (fun e => ?_) <;> [subst x; clear_value x])
        | clear_value x
        | subst x)
    | intro _
    | (with_reducible simp only [*]; with_reducible assumption)
    | (simp [H]; done)
    | (simp [H]; with_reducible assumption)
    | split
    | (simp [foldl_life', apply_ite Hw.life]; done)
    | (simp [foldl_life', apply_ite Hw.life]; with_reducible assumption))

@[simp] theorem Hw.readKey_life (h : Hw) (a1 : Nat) (a2 : Nat) : (Hw.readKey h a1 a2).1.life = h.life := by
  unfold Hw.readKey
  simp

@[simp] theorem Hw.gaugeWrites_life (h : Hw) : (Hw.gaugeWrites h).life = h.life := by
  unfold Hw.gaugeWrites
  (repeat' split) <;> simp [apply_ite Hw.life]

@[simp] theorem Hw.freeze_life (h : Hw) : (Hw.freeze h).life = h.life := by
  unfold Hw.freeze
  split <;> simp

@[simp] theorem Hw.putSlot_life (h : Hw) (a1 : Nat) (a2 : Bool) (a3 : SlotState) : (Hw.putSlot h a1 a2 a3).life = h.life := by
  unfold Hw.putSlot
  simp

@[simp] theorem Hw.finishAppend_life (h : Hw) : (Hw.finishAppend h).life = h.life := by
  unfold Hw.finishAppend
  (repeat' split) <;> simp [apply_ite Hw.life]

@[simp] theorem Hw.closePf_life (h : Hw) (a1 : Nat) (a2 : Nat) : (Hw.closePf h a1 a2).life = h.life := by
  unfold Hw.closePf
  simp [apply_ite Hw.life]

@[simp] theorem Hw.timeCommitted_life (h : Hw) (a1 : Purpose) (a2 : Nat) : (Hw.timeCommitted h a1 a2).life = h.life := by
  unfold Hw.timeCommitted
  split <;> simp

@[simp] theorem Hw.beginLog_life (h : Hw) (a1 : StoreWrite) : (Hw.beginLog h a1).1.life = h.life := by
  unfold Hw.beginLog
  simp

@[simp] theorem Hw.cutLog_life (h : Hw) (a1 : StoreWrite) : (Hw.cutLog h a1).life = h.life := by
  unfold Hw.cutLog
  simp [apply_ite Hw.life]

@[simp] theorem Hw.cutCopy_life (h : Hw) (a1 : StoreWrite) (a2 : Bool) : (Hw.cutCopy h a1 a2).life = h.life := by
  unfold Hw.cutCopy
  split <;> simp

@[simp] theorem Hw.dropWrites_life (h : Hw) (a1 : List StoreWrite) : (Hw.dropWrites h a1).life = h.life := by
  unfold Hw.dropWrites
  (repeat' first
    | with_reducible assumption
    | with_reducible rfl
    | (with_reducible refine ite_life ?_ ?_)
    | (with_reducible simp only [*]; done)
    | (simp; done)
    | (simp; with_reducible assumption)
    | (with_reducible refine foldl_life _ _ _ ?_ (fun _ _ _ => ?_))
    | (with_reducible refine foldlp_life _ _ _ ?_ (fun _ _ _ => ?_))
    | (extract_lets +onlyGivenNames x; first
        | (with_reducible refine stepf_life (x := x) ?_ (fun e => ?_) <;> [subst x; clear_value x])
        | (with_reducible refine step_life (x := x) ?_ (fun e => ?_) <;> [subst x; clear_value x])
        | (with_reducible refine stepp_life (x := x) ?_ (fun e => ?_) <;> [subst x; clear_value x])
        | clear_value x
        | subst x)
    | intro _
    | (with_reducible simp only [*]; with_reducible assumption)
    | (simp [H]; done)
    | (simp [H]; with_reducible assumption)
    | split
    | (simp [foldl_life', apply_ite Hw.life]; done)
    | (simp [foldl_life', apply_ite Hw.life]; with_reducible assumption))

@[simp] theorem Hw.cutWrites_life (h : Hw) : (Hw.cutWrites h).life = h.life := by
  unfold Hw.cutWrites
  (repeat' split) <;> simp

@[simp] theorem Hw.hardCut_life (h : Hw) : (Hw.hardCut h).life = h.life := by
  unfold Hw.hardCut
  (repeat' split) <;> simp [apply_ite Hw.life]

@[simp] theorem Hw.cutErase_life (h : Hw) : (Hw.cutErase h).life = h.life := by
  unfold Hw.cutErase
  split <;> simp

@[simp] theorem Hw.dropWaiting_life (h : Hw) : (Hw.dropWaiting h).life = h.life := by
  unfold Hw.dropWaiting
  with_reducible rfl

@[simp] theorem Hw.putPowerEvent_life (h : Hw) (a1 : Nat) (a2 : Nat) : (Hw.putPowerEvent h a1 a2).life = h.life := by
  unfold Hw.putPowerEvent
  split <;> simp

@[simp] theorem Hw.lastWord_life (h : Hw) (a1 : Nat) : (Hw.lastWord h a1).life = h.life := by
  unfold Hw.lastWord
  simp [foldl_life', apply_ite Hw.life]

@[simp] theorem Hw.mainOff_life (h : Hw) : (Hw.mainOff h).life = h.life := by
  unfold Hw.mainOff
  simp

@[simp] theorem Hw.conflict_life (h : Hw) (a1 : Nat) : (Hw.conflict h a1).life = h.life := by
  unfold Hw.conflict
  simp

@[simp] theorem Hw.checkKey_life (h : Hw) (a1 : Nat) : (Hw.checkKey h a1).life = h.life := by
  unfold Hw.checkKey
  split <;> simp

@[simp] theorem Hw.mendSectors_life (h : Hw) : (Hw.mendSectors h).life = h.life := by
  unfold Hw.mendSectors
  with_reducible rfl

@[simp] theorem Hw.marginRead_life (h : Hw) (a1 : List Nat) : (Hw.marginRead h a1).life = h.life := by
  unfold Hw.marginRead
  with_reducible rfl

@[simp] theorem Hw.setTotal_life (h : Hw) (a1 : Nat) (a2 : Nat) : (Hw.setTotal h a1 a2).life = h.life := by
  unfold Hw.setTotal
  simp

@[simp] theorem Hw.restoreCd_life (h : Hw) (a1 : Nat) : (Hw.restoreCd h a1).life = h.life := by
  unfold Hw.restoreCd
  (repeat' split) <;> simp

@[simp] theorem Hw.restoreCounters_life (h : Hw) : (Hw.restoreCounters h).life = h.life := by
  unfold Hw.restoreCounters
  with_reducible rfl

@[simp] theorem Hw.restoreGauge_life (h : Hw) : (Hw.restoreGauge h).life = h.life := by
  unfold Hw.restoreGauge
  with_reducible rfl

@[simp] theorem Hw.restoreHolds_life (h : Hw) : (Hw.restoreHolds h).life = h.life := by
  unfold Hw.restoreHolds
  simp [foldl_life', apply_ite Hw.life]

@[simp] theorem Hw.loadAllCal_life (h : Hw) : (Hw.loadAllCal h).life = h.life := by
  unfold Hw.loadAllCal
  simp [foldl_life', apply_ite Hw.life]

@[simp] theorem Hw.rebuildSlots_life (h : Hw) : (Hw.rebuildSlots h).life = h.life := by
  unfold Hw.rebuildSlots
  with_reducible rfl

@[simp] theorem Hw.endMoveOf_life (h : Hw) (a1 : Nat) (a2 : Nat) : (Hw.endMoveOf h a1 a2).life = h.life := by
  unfold Hw.endMoveOf
  split <;> simp

@[simp] theorem Hw.activate_life (h : Hw) (a1 : Nat) (a2 : Nat) : (Hw.activate h a1 a2).life = h.life := by
  unfold Hw.activate
  simp

@[simp] theorem Hw.awaitQuiet_life (h : Hw) (a1 : Nat) : (Hw.awaitQuiet h a1).life = h.life := by
  unfold Hw.awaitQuiet
  (repeat' split) <;> simp

@[simp] theorem Hw.addPhase_life (h : Hw) (a1 : Nat) : (Hw.addPhase h a1).life = h.life := by
  unfold Hw.addPhase
  (repeat' split) <;> simp

@[simp] theorem Hw.addUpTo_life (h : Hw) (a1 : Nat) (a2 : Nat) : (Hw.addUpTo h a1 a2).life = h.life := by
  unfold Hw.addUpTo
  simp [foldl_life', apply_ite Hw.life]

@[simp] theorem Hw.serveClaims_life (h : Hw) (a1 : BitVec 4) (a2 : Bool) (a3 : Hw → Nat → Hw) (H : ∀ y0 y1, (a3 y0 y1).life = y0.life) : (Hw.serveClaims h a1 a2 a3).life = h.life := by
  unfold Hw.serveClaims
  (repeat' first
    | with_reducible assumption
    | with_reducible rfl
    | (with_reducible refine ite_life ?_ ?_)
    | (with_reducible simp only [*]; done)
    | (simp; done)
    | (simp; with_reducible assumption)
    | (with_reducible refine foldl_life _ _ _ ?_ (fun _ _ _ => ?_))
    | (with_reducible refine foldlp_life _ _ _ ?_ (fun _ _ _ => ?_))
    | (extract_lets +onlyGivenNames x; first
        | (with_reducible refine stepf_life (x := x) ?_ (fun e => ?_) <;> [subst x; clear_value x])
        | (with_reducible refine step_life (x := x) ?_ (fun e => ?_) <;> [subst x; clear_value x])
        | (with_reducible refine stepp_life (x := x) ?_ (fun e => ?_) <;> [subst x; clear_value x])
        | clear_value x
        | subst x)
    | intro _
    | (with_reducible simp only [*]; with_reducible assumption)
    | (simp [H]; done)
    | (simp [H]; with_reducible assumption)
    | split
    | (simp [foldl_life', apply_ite Hw.life]; done)
    | (simp [foldl_life', apply_ite Hw.life]; with_reducible assumption))

@[simp] theorem Hw.substitute_life (h : Hw) (a1 : Nat) : (Hw.substitute h a1).life = h.life := by
  unfold Hw.substitute
  extract_lets +onlyGivenNames x
  have e : ∀ h : Hw, (x h).life = h.life := by
    intro h
    subst x
    (repeat' first
      | with_reducible assumption
      | with_reducible rfl
      | (with_reducible refine ite_life ?_ ?_)
      | (with_reducible simp only [*]; done)
      | (simp; done)
      | (simp; with_reducible assumption)
      | (with_reducible refine foldl_life _ _ _ ?_ (fun _ _ _ => ?_))
      | (with_reducible refine foldlp_life _ _ _ ?_ (fun _ _ _ => ?_))
      | (extract_lets +onlyGivenNames x; first
          | (with_reducible refine stepf_life (x := x) ?_ (fun e => ?_) <;> [subst x; clear_value x])
          | (with_reducible refine step_life (x := x) ?_ (fun e => ?_) <;> [subst x; clear_value x])
          | (with_reducible refine stepp_life (x := x) ?_ (fun e => ?_) <;> [subst x; clear_value x])
          | clear_value x
          | subst x)
      | intro _
      | (with_reducible simp only [*]; with_reducible assumption)
      | (simp [H]; done)
      | (simp [H]; with_reducible assumption)
      | split
      | (simp [foldl_life', apply_ite Hw.life]; done)
      | (simp [foldl_life', apply_ite Hw.life]; with_reducible assumption))
  clear_value x
  simp [foldl_life', e, apply_ite Hw.life]

@[simp] theorem Hw.fillShort_life (h : Hw) : (Hw.fillShort h).life = h.life := by
  unfold Hw.fillShort
  simp [foldl_life', apply_ite Hw.life]

@[simp] theorem Hw.startPhases_life (h : Hw) (a1 : Nat) : (Hw.startPhases h a1).life = h.life := by
  unfold Hw.startPhases
  (repeat' first
    | with_reducible assumption
    | with_reducible rfl
    | (with_reducible refine ite_life ?_ ?_)
    | (with_reducible simp only [*]; done)
    | (simp; done)
    | (simp; with_reducible assumption)
    | (with_reducible refine foldl_life _ _ _ ?_ (fun _ _ _ => ?_))
    | (with_reducible refine foldlp_life _ _ _ ?_ (fun _ _ _ => ?_))
    | (extract_lets +onlyGivenNames x; first
        | (with_reducible refine stepf_life (x := x) ?_ (fun e => ?_) <;> [subst x; clear_value x])
        | (with_reducible refine step_life (x := x) ?_ (fun e => ?_) <;> [subst x; clear_value x])
        | (with_reducible refine stepp_life (x := x) ?_ (fun e => ?_) <;> [subst x; clear_value x])
        | clear_value x
        | subst x)
    | intro _
    | (with_reducible simp only [*]; with_reducible assumption)
    | (simp [H]; done)
    | (simp [H]; with_reducible assumption)
    | split
    | (simp [foldl_life', apply_ite Hw.life]; done)
    | (simp [foldl_life', apply_ite Hw.life]; with_reducible assumption))

@[simp] theorem Hw.rampDown_life (h : Hw) (a1 : Nat) (a2 : Nat) : (Hw.rampDown h a1 a2).life = h.life := by
  unfold Hw.rampDown
  simp

@[simp] theorem Hw.tryMove_life (h : Hw) : (Hw.tryMove h).life = h.life := by
  unfold Hw.tryMove
  (repeat' split) <;> simp [apply_ite Hw.life]

@[simp] theorem Hw.cancelShed_life (h : Hw) (a1 : Nat) : (Hw.cancelShed h a1).life = h.life := by
  unfold Hw.cancelShed
  simp [apply_ite Hw.life]

@[simp] theorem Hw.cancelSheds_life (h : Hw) (a1 : Nat) : (Hw.cancelSheds h a1).life = h.life := by
  unfold Hw.cancelSheds
  simp [foldl_life', apply_ite Hw.life]

@[simp] theorem Hw.burst_life (h : Hw) (a1 : Nat) : (Hw.burst h a1).life = h.life := by
  unfold Hw.burst
  simp [apply_ite Hw.life]

@[simp] theorem Hw.quietOver_life (h : Hw) (a1 : Nat) (a2 : Nat) : (Hw.quietOver h a1 a2).life = h.life := by
  unfold Hw.quietOver
  simp

@[simp] theorem Hw.lostPhase_life (h : Hw) (a1 : List RailErr) (a2 : Nat) : (Hw.lostPhase h a1 a2).life = h.life := by
  unfold Hw.lostPhase
  (repeat' first
    | with_reducible assumption
    | with_reducible rfl
    | (with_reducible refine ite_life ?_ ?_)
    | (with_reducible simp only [*]; done)
    | (simp; done)
    | (simp; with_reducible assumption)
    | (with_reducible refine foldl_life _ _ _ ?_ (fun _ _ _ => ?_))
    | (with_reducible refine foldlp_life _ _ _ ?_ (fun _ _ _ => ?_))
    | (extract_lets +onlyGivenNames x; first
        | (with_reducible refine stepf_life (x := x) ?_ (fun e => ?_) <;> [subst x; clear_value x])
        | (with_reducible refine step_life (x := x) ?_ (fun e => ?_) <;> [subst x; clear_value x])
        | (with_reducible refine stepp_life (x := x) ?_ (fun e => ?_) <;> [subst x; clear_value x])
        | clear_value x
        | subst x)
    | intro _
    | (with_reducible simp only [*]; with_reducible assumption)
    | (simp [H]; done)
    | (simp [H]; with_reducible assumption)
    | split
    | (simp [foldl_life', apply_ite Hw.life]; done)
    | (simp [foldl_life', apply_ite Hw.life]; with_reducible assumption))

@[simp] theorem Hw.startRamp_life (h : Hw) (a1 : Nat) (a2 : Bool) : (Hw.startRamp h a1 a2).life = h.life := by
  unfold Hw.startRamp
  simp [apply_ite Hw.life]

@[simp] theorem Hw.turnOn_life (h : Hw) (a1 : Nat) (a2 : Bool) : (Hw.turnOn h a1 a2).life = h.life := by
  unfold Hw.turnOn
  simp [apply_ite Hw.life]

@[simp] theorem Hw.disable_life (h : Hw) (a1 : Nat) : (Hw.disable h a1).life = h.life := by
  unfold Hw.disable
  split <;> simp

@[simp] theorem Hw.cabStart_life (a0 : Nat) (h : Hw) : (Hw.cabStart a0 h).life = h.life := by
  induction a0 generalizing h with
  | zero => rfl
  | succ n ih => unfold Hw.cabStart; (repeat' split) <;> simp [ih, apply_ite Hw.life]

@[simp] theorem Hw.cabNext_life (h : Hw) : (Hw.cabNext h).life = h.life := by
  unfold Hw.cabNext
  (repeat' split) <;> simp

@[simp] theorem Hw.cabBegin_life (h : Hw) (a1 : Bool) : (Hw.cabBegin h a1).life = h.life := by
  unfold Hw.cabBegin
  split <;> simp

@[simp] theorem Hw.beginStep_life (h : Hw) : (Hw.beginStep h).life = h.life := by
  unfold Hw.beginStep
  simp [foldl_life', apply_ite Hw.life]

@[simp] theorem Hw.releaseHrst_life (h : Hw) : (Hw.releaseHrst h).life = h.life := by
  unfold Hw.releaseHrst
  split <;> simp

@[simp] theorem Hw.dueHrst_life (h : Hw) : (Hw.dueHrst h).life = h.life := by
  unfold Hw.dueHrst
  split <;> simp

@[simp] theorem Hw.dropPend_life (h : Hw) (a1 : Nat) : (Hw.dropPend h a1).life = h.life := by
  unfold Hw.dropPend
  simp

@[simp] theorem Hw.startUp_life (h : Hw) (a1 : Option Nat) : (Hw.startUp h a1).life = h.life := by
  unfold Hw.startUp
  split <;> simp

@[simp] theorem Hw.tryPend_life (h : Hw) : (Hw.tryPend h).life = h.life := by
  unfold Hw.tryPend
  split <;> simp

@[simp] theorem Hw.onRequest_life (h : Hw) (a1 : Option Nat) : (Hw.onRequest h a1).life = h.life := by
  unfold Hw.onRequest
  (repeat' split) <;> simp

@[simp] theorem Hw.holdRamps_life (h : Hw) : (Hw.holdRamps h).life = h.life := by
  unfold Hw.holdRamps
  simp [foldl_life', apply_ite Hw.life]

@[simp] theorem Hw.startDown_life (h : Hw) (a1 : Nat) (a2 : Option Nat) : (Hw.startDown h a1 a2).life = h.life := by
  unfold Hw.startDown
  simp

@[simp] theorem Hw.endKeep_life (h : Hw) : (Hw.endKeep h).life = h.life := by
  unfold Hw.endKeep
  with_reducible rfl

@[simp] theorem Hw.offRequest_life (h : Hw) (a1 : Option Nat) : (Hw.offRequest h a1).life = h.life := by
  unfold Hw.offRequest
  (repeat' first
    | with_reducible assumption
    | with_reducible rfl
    | (with_reducible refine ite_life ?_ ?_)
    | (with_reducible simp only [*]; done)
    | (simp; done)
    | (simp; with_reducible assumption)
    | (with_reducible refine foldl_life _ _ _ ?_ (fun _ _ _ => ?_))
    | (with_reducible refine foldlp_life _ _ _ ?_ (fun _ _ _ => ?_))
    | (extract_lets +onlyGivenNames x; first
        | (with_reducible refine stepf_life (x := x) ?_ (fun e => ?_) <;> [subst x; clear_value x])
        | (with_reducible refine step_life (x := x) ?_ (fun e => ?_) <;> [subst x; clear_value x])
        | (with_reducible refine stepp_life (x := x) ?_ (fun e => ?_) <;> [subst x; clear_value x])
        | clear_value x
        | subst x)
    | intro _
    | (with_reducible simp only [*]; with_reducible assumption)
    | (simp [H]; done)
    | (simp [H]; with_reducible assumption)
    | split
    | (simp [foldl_life', apply_ite Hw.life]; done)
    | (simp [foldl_life', apply_ite Hw.life]; with_reducible assumption))

@[simp] theorem Hw.autostart_life (h : Hw) : (Hw.autostart h).life = h.life := by
  unfold Hw.autostart
  split <;> simp

@[simp] theorem Hw.dropOverrides_life (h : Hw) : (Hw.dropOverrides h).life = h.life := by
  unfold Hw.dropOverrides
  with_reducible rfl

@[simp] theorem Hw.revert_life (h : Hw) : (Hw.revert h).life = h.life := by
  unfold Hw.revert
  simp

@[simp] theorem Hw.faultRestart_life (h : Hw) : (Hw.faultRestart h).life = h.life := by
  unfold Hw.faultRestart
  simp

@[simp] theorem Hw.lockConfig_life (h : Hw) : (Hw.lockConfig h).life = h.life := by
  unfold Hw.lockConfig
  with_reducible rfl

@[simp] theorem Hw.wipeRelay_life (h : Hw) : (Hw.wipeRelay h).life = h.life := by
  unfold Hw.wipeRelay
  with_reducible rfl

@[simp] theorem Hw.standbyOff_life (h : Hw) : (Hw.standbyOff h).life = h.life := by
  unfold Hw.standbyOff
  simp

@[simp] theorem Hw.standbyEntry_life (h : Hw) (a1 : Byte) : (Hw.standbyEntry h a1).life = h.life := by
  unfold Hw.standbyEntry
  simp [apply_ite Hw.life]

@[simp] theorem Hw.tryStandby_life (h : Hw) : (Hw.tryStandby h).life = h.life := by
  unfold Hw.tryStandby
  (repeat' split) <;> simp

@[simp] theorem Hw.serviceWrite_life (h : Hw) : (Hw.serviceWrite h).life = h.life := by
  unfold Hw.serviceWrite
  simp [apply_ite Hw.life]

@[simp] theorem Hw.serviceStep_life (h : Hw) : (Hw.serviceStep h).life = h.life := by
  unfold Hw.serviceStep
  simp [apply_ite Hw.life]

@[simp] theorem Hw.armStep_life (h : Hw) : (Hw.armStep h).life = h.life := by
  unfold Hw.armStep
  (repeat' first
    | with_reducible assumption
    | with_reducible rfl
    | (with_reducible refine ite_life ?_ ?_)
    | (with_reducible simp only [*]; done)
    | (simp; done)
    | (simp; with_reducible assumption)
    | (with_reducible refine foldl_life _ _ _ ?_ (fun _ _ _ => ?_))
    | (with_reducible refine foldlp_life _ _ _ ?_ (fun _ _ _ => ?_))
    | (extract_lets +onlyGivenNames x; first
        | (with_reducible refine stepf_life (x := x) ?_ (fun e => ?_) <;> [subst x; clear_value x])
        | (with_reducible refine step_life (x := x) ?_ (fun e => ?_) <;> [subst x; clear_value x])
        | (with_reducible refine stepp_life (x := x) ?_ (fun e => ?_) <;> [subst x; clear_value x])
        | clear_value x
        | subst x)
    | intro _
    | (with_reducible simp only [*]; with_reducible assumption)
    | (simp [H]; done)
    | (simp [H]; with_reducible assumption)
    | split
    | (simp [foldl_life', apply_ite Hw.life]; done)
    | (simp [foldl_life', apply_ite Hw.life]; with_reducible assumption))

@[simp] theorem Hw.upDone_life (h : Hw) : (Hw.upDone h).life = h.life := by
  unfold Hw.upDone
  simp

@[simp] theorem Hw.limpLeft_life (h : Hw) : (Hw.limpLeft h).life = h.life := by
  unfold Hw.limpLeft
  simp

@[simp] theorem Hw.leaveLimp_life (h : Hw) : (Hw.leaveLimp h).life = h.life := by
  unfold Hw.leaveLimp
  split <;> simp

@[simp] theorem Hw.downDone_life (h : Hw) : (Hw.downDone h).life = h.life := by
  unfold Hw.downDone
  (repeat' first
    | with_reducible assumption
    | with_reducible rfl
    | (with_reducible refine ite_life ?_ ?_)
    | (with_reducible simp only [*]; done)
    | (simp; done)
    | (simp; with_reducible assumption)
    | (with_reducible refine foldl_life _ _ _ ?_ (fun _ _ _ => ?_))
    | (with_reducible refine foldlp_life _ _ _ ?_ (fun _ _ _ => ?_))
    | (extract_lets +onlyGivenNames x; first
        | (with_reducible refine stepf_life (x := x) ?_ (fun e => ?_) <;> [subst x; clear_value x])
        | (with_reducible refine step_life (x := x) ?_ (fun e => ?_) <;> [subst x; clear_value x])
        | (with_reducible refine stepp_life (x := x) ?_ (fun e => ?_) <;> [subst x; clear_value x])
        | clear_value x
        | subst x)
    | intro _
    | (with_reducible simp only [*]; with_reducible assumption)
    | (simp [H]; done)
    | (simp [H]; with_reducible assumption)
    | split
    | (simp [foldl_life', apply_ite Hw.life]; done)
    | (simp [foldl_life', apply_ite Hw.life]; with_reducible assumption))

@[simp] theorem Hw.finishStep_life (h : Hw) : (Hw.finishStep h).life = h.life := by
  unfold Hw.finishStep
  (repeat' first
    | with_reducible assumption
    | with_reducible rfl
    | (with_reducible refine ite_life ?_ ?_)
    | (with_reducible simp only [*]; done)
    | (simp; done)
    | (simp; with_reducible assumption)
    | (with_reducible refine foldl_life _ _ _ ?_ (fun _ _ _ => ?_))
    | (with_reducible refine foldlp_life _ _ _ ?_ (fun _ _ _ => ?_))
    | (extract_lets +onlyGivenNames x; first
        | (with_reducible refine stepf_life (x := x) ?_ (fun e => ?_) <;> [subst x; clear_value x])
        | (with_reducible refine step_life (x := x) ?_ (fun e => ?_) <;> [subst x; clear_value x])
        | (with_reducible refine stepp_life (x := x) ?_ (fun e => ?_) <;> [subst x; clear_value x])
        | clear_value x
        | subst x)
    | intro _
    | (with_reducible simp only [*]; with_reducible assumption)
    | (simp [H]; done)
    | (simp [H]; with_reducible assumption)
    | split
    | (simp [foldl_life', apply_ite Hw.life]; done)
    | (simp [foldl_life', apply_ite Hw.life]; with_reducible assumption))

@[simp] theorem Hw.hostRestart_life (h : Hw) : (Hw.hostRestart h).life = h.life := by
  unfold Hw.hostRestart
  (repeat' first
    | with_reducible assumption
    | with_reducible rfl
    | (with_reducible refine ite_life ?_ ?_)
    | (with_reducible simp only [*]; done)
    | (simp; done)
    | (simp; with_reducible assumption)
    | (with_reducible refine foldl_life _ _ _ ?_ (fun _ _ _ => ?_))
    | (with_reducible refine foldlp_life _ _ _ ?_ (fun _ _ _ => ?_))
    | (extract_lets +onlyGivenNames x; first
        | (with_reducible refine stepf_life (x := x) ?_ (fun e => ?_) <;> [subst x; clear_value x])
        | (with_reducible refine step_life (x := x) ?_ (fun e => ?_) <;> [subst x; clear_value x])
        | (with_reducible refine stepp_life (x := x) ?_ (fun e => ?_) <;> [subst x; clear_value x])
        | clear_value x
        | subst x)
    | intro _
    | (with_reducible simp only [*]; with_reducible assumption)
    | (simp [H]; done)
    | (simp [H]; with_reducible assumption)
    | split
    | (simp [foldl_life', apply_ite Hw.life]; done)
    | (simp [foldl_life', apply_ite Hw.life]; with_reducible assumption))

@[simp] theorem Hw.startMetro_life (h : Hw) (a1 : Bool) : (Hw.startMetro h a1).life = h.life := by
  unfold Hw.startMetro
  with_reducible rfl

@[simp] theorem Hw.startAdc_life (h : Hw) : (Hw.startAdc h).life = h.life := by
  unfold Hw.startAdc
  with_reducible rfl

@[simp] theorem Hw.ok_life (h : Hw) (a1 : Origin) (a2 : List Byte) : (Hw.ok h a1 a2).life = h.life := by
  unfold Hw.ok
  simp

@[simp] theorem Hw.pending_life (h : Hw) (a1 : Origin) (a2 : List Byte) : (Hw.pending h a1 a2).life = h.life := by
  unfold Hw.pending
  simp

@[simp] theorem Hw.deny_life (h : Hw) (a1 : Origin) (a2 : Nat) (a3 : Nat) (a4 : Nat) : (Hw.deny h a1 a2 a3 a4).life = h.life := by
  unfold Hw.deny
  simp

@[simp] theorem Hw.internalError_life (h : Hw) (a1 : Origin) (a2 : Nat) : (Hw.internalError h a1 a2).life = h.life := by
  unfold Hw.internalError
  simp

@[simp] theorem Hw.arm_life (h : Hw) (a1 : Bool) : (Hw.arm h a1).life = h.life := by
  unfold Hw.arm
  with_reducible rfl

@[simp] theorem Hw.setUnlock_life (h : Hw) (a1 : Bool) (a2 : Unlock) : (Hw.setUnlock h a1 a2).life = h.life := by
  unfold Hw.setUnlock
  split <;> simp

@[simp] theorem Hw.badPacket_life (h : Hw) (a1 : Origin) (a2 : List Byte) : (Hw.badPacket h a1 a2).life = h.life := by
  unfold Hw.badPacket
  (repeat' first
    | with_reducible assumption
    | with_reducible rfl
    | (with_reducible refine ite_life ?_ ?_)
    | (with_reducible simp only [*]; done)
    | (simp; done)
    | (simp; with_reducible assumption)
    | (with_reducible refine foldl_life _ _ _ ?_ (fun _ _ _ => ?_))
    | (with_reducible refine foldlp_life _ _ _ ?_ (fun _ _ _ => ?_))
    | (extract_lets +onlyGivenNames x; first
        | (with_reducible refine stepf_life (x := x) ?_ (fun e => ?_) <;> [subst x; clear_value x])
        | (with_reducible refine step_life (x := x) ?_ (fun e => ?_) <;> [subst x; clear_value x])
        | (with_reducible refine stepp_life (x := x) ?_ (fun e => ?_) <;> [subst x; clear_value x])
        | clear_value x
        | subst x)
    | intro _
    | (with_reducible simp only [*]; with_reducible assumption)
    | (simp [H]; done)
    | (simp [H]; with_reducible assumption)
    | split
    | (simp [foldl_life', apply_ite Hw.life]; done)
    | (simp [foldl_life', apply_ite Hw.life]; with_reducible assumption))

@[simp] theorem Hw.judge_life (h : Hw) (a1 : Origin) : (Hw.judge h a1).life = h.life := by
  unfold Hw.judge
  (repeat' first
    | with_reducible assumption
    | with_reducible rfl
    | (with_reducible refine ite_life ?_ ?_)
    | (with_reducible simp only [*]; done)
    | (simp; done)
    | (simp; with_reducible assumption)
    | (with_reducible refine foldl_life _ _ _ ?_ (fun _ _ _ => ?_))
    | (with_reducible refine foldlp_life _ _ _ ?_ (fun _ _ _ => ?_))
    | (extract_lets +onlyGivenNames x; first
        | (with_reducible refine stepf_life (x := x) ?_ (fun e => ?_) <;> [subst x; clear_value x])
        | (with_reducible refine step_life (x := x) ?_ (fun e => ?_) <;> [subst x; clear_value x])
        | (with_reducible refine stepp_life (x := x) ?_ (fun e => ?_) <;> [subst x; clear_value x])
        | clear_value x
        | subst x)
    | intro _
    | (with_reducible simp only [*]; with_reducible assumption)
    | (simp [H]; done)
    | (simp [H]; with_reducible assumption)
    | split
    | (simp [foldl_life', apply_ite Hw.life]; done)
    | (simp [foldl_life', apply_ite Hw.life]; with_reducible assumption))

@[simp] theorem Hw.judgeDue_life (h : Hw) : (Hw.judgeDue h).life = h.life := by
  unfold Hw.judgeDue
  simp

@[simp] theorem Hw.abandonCore_life (h : Hw) : (Hw.abandonCore h).life = h.life := by
  unfold Hw.abandonCore
  with_reducible rfl

@[simp] theorem Hw.abandonJobs_life (h : Hw) (a1 : List Byte) : (Hw.abandonJobs h a1).life = h.life := by
  unfold Hw.abandonJobs
  with_reducible rfl

@[simp] theorem Hw.sramCheck_life (h : Hw) : (Hw.sramCheck h).life = h.life := by
  unfold Hw.sramCheck
  simp [apply_ite Hw.life]

@[simp] theorem Hw.contact_life (h : Hw) (a1 : Origin) (a2 : Bool) (a3 : CmdClass) : (Hw.contact h a1 a2 a3).life = h.life := by
  unfold Hw.contact
  simp [apply_ite Hw.life]

@[simp] theorem Hw.serve_life (h : Hw) (a1 : Instr) (a2 : Hw → Hw) (H : ∀ y0, (a2 y0).life = y0.life) : (Hw.serve h a1 a2).life = h.life := by
  unfold Hw.serve
  (repeat' first
    | with_reducible assumption
    | with_reducible rfl
    | (with_reducible refine ite_life ?_ ?_)
    | (with_reducible simp only [*]; done)
    | (simp; done)
    | (simp; with_reducible assumption)
    | (with_reducible refine foldl_life _ _ _ ?_ (fun _ _ _ => ?_))
    | (with_reducible refine foldlp_life _ _ _ ?_ (fun _ _ _ => ?_))
    | (extract_lets +onlyGivenNames x; first
        | (with_reducible refine stepf_life (x := x) ?_ (fun e => ?_) <;> [subst x; clear_value x])
        | (with_reducible refine step_life (x := x) ?_ (fun e => ?_) <;> [subst x; clear_value x])
        | (with_reducible refine stepp_life (x := x) ?_ (fun e => ?_) <;> [subst x; clear_value x])
        | clear_value x
        | subst x)
    | intro _
    | (with_reducible simp only [*]; with_reducible assumption)
    | (simp [H]; done)
    | (simp [H]; with_reducible assumption)
    | split
    | (simp [foldl_life', apply_ite Hw.life]; done)
    | (simp [foldl_life', apply_ite Hw.life]; with_reducible assumption))

@[simp] theorem Hw.breach_life (h : Hw) (a1 : Nat) (a2 : Side) (a3 : List Byte) : (Hw.breach h a1 a2 a3).life = h.life := by
  unfold Hw.breach
  (repeat' split) <;> simp [apply_ite Hw.life]

@[simp] theorem Hw.vibFault_life (h : Hw) (a1 : List Byte) : (Hw.vibFault h a1).life = h.life := by
  unfold Hw.vibFault
  simp

@[simp] theorem Hw.notGood_life (h : Hw) (a1 : Nat) : (Hw.notGood h a1).life = h.life := by
  unfold Hw.notGood
  simp

@[simp] theorem Hw.forced_life (h : Hw) : (Hw.forced h).life = h.life := by
  unfold Hw.forced
  simp [foldl_life', apply_ite Hw.life]

@[simp] theorem Hw.seqTimeout_life (h : Hw) (a1 : LowSample) : (Hw.seqTimeout h a1).life = h.life := by
  unfold Hw.seqTimeout
  simp

@[simp] theorem Hw.setGood_life (h : Hw) (a1 : Nat) : (Hw.setGood h a1).life = h.life := by
  unfold Hw.setGood
  simp [apply_ite Hw.life]

@[simp] theorem Hw.clearFault_life (h : Hw) (a1 : Option Origin) : (Hw.clearFault h a1).life = h.life := by
  unfold Hw.clearFault
  (repeat' split) <;> simp

@[simp] theorem Hw.activated_life (h : Hw) (a1 : Bool) : (Hw.activated h a1).life = h.life := by
  unfold Hw.activated
  with_reducible rfl

@[simp] theorem Hw.limpSettings_life (h : Hw) : (Hw.limpSettings h).life = h.life := by
  unfold Hw.limpSettings
  with_reducible rfl

@[simp] theorem Hw.limpEntry_life (h : Hw) : (Hw.limpEntry h).life = h.life := by
  unfold Hw.limpEntry
  simp [apply_ite Hw.life]

@[simp] theorem Hw.startCore_life (h : Hw) : (Hw.startCore h).life = h.life := by
  unfold Hw.startCore
  split <;> simp

@[simp] theorem Hw.loadWdt_life (h : Hw) (a1 : Bool) : (Hw.loadWdt h a1).life = h.life := by
  unfold Hw.loadWdt
  split <;> simp

@[simp] theorem Hw.applyImage_life (h : Hw) : (Hw.applyImage h).life = h.life := by
  unfold Hw.applyImage
  with_reducible rfl

@[simp] theorem Hw.loadImage_life (h : Hw) : (Hw.loadImage h).life = h.life := by
  unfold Hw.loadImage
  simp

@[simp] theorem Hw.startLink_life (h : Hw) : (Hw.startLink h).life = h.life := by
  unfold Hw.startLink
  with_reducible rfl

@[simp] theorem Hw.startThermal_life (h : Hw) (a1 : List Int) : (Hw.startThermal h a1).life = h.life := by
  unfold Hw.startThermal
  with_reducible rfl

@[simp] theorem Hw.retest_life (h : Hw) (a1 : BootSample) : (Hw.retest h a1).life = h.life := by
  unfold Hw.retest
  simp [foldl_life', apply_ite Hw.life]

@[simp] theorem Hw.calibrate_life (h : Hw) (a1 : BootSample) (a2 : Bool) : (Hw.calibrate h a1 a2).life = h.life := by
  unfold Hw.calibrate
  simp [foldl_life', apply_ite Hw.life]

@[simp] theorem Hw.halve_life (h : Hw) : (Hw.halve h).life = h.life := by
  unfold Hw.halve
  with_reducible rfl

@[simp] theorem Hw.lodgeCheck_life (h : Hw) : (Hw.lodgeCheck h).life = h.life := by
  unfold Hw.lodgeCheck
  simp [foldl_life', apply_ite Hw.life]

@[simp] theorem Hw.syncBreaks_life (h : Hw) : (Hw.syncBreaks h).life = h.life := by
  unfold Hw.syncBreaks
  split <;> simp

@[simp] theorem Hw.signAtBoot_life (h : Hw) : (Hw.signAtBoot h).life = h.life := by
  unfold Hw.signAtBoot
  with_reducible rfl

@[simp] theorem Hw.startBlocks_life (h : Hw) : (Hw.startBlocks h).life = h.life := by
  unfold Hw.startBlocks
  with_reducible rfl

@[simp] theorem Hw.askRestart_life (h : Hw) (a1 : RestartKind) : (Hw.askRestart h a1).life = h.life := by
  unfold Hw.askRestart
  split <;> simp

@[simp] theorem Hw.emptyCapture_life (h : Hw) : (Hw.emptyCapture h).life = h.life := by
  unfold Hw.emptyCapture
  simp

@[simp] theorem Hw.setAside_life (h : Hw) : (Hw.setAside h).life = h.life := by
  unfold Hw.setAside
  (repeat' split) <;> simp

@[simp] theorem Hw.countReset_life (h : Hw) : (Hw.countReset h).life = h.life := by
  unfold Hw.countReset
  with_reducible rfl

@[simp] theorem Hw.coreBoot_life (h : Hw) (a1 : Bool) : (Hw.coreBoot h a1).life = h.life := by
  unfold Hw.coreBoot
  (repeat' first
    | with_reducible assumption
    | with_reducible rfl
    | (with_reducible refine ite_life ?_ ?_)
    | (with_reducible simp only [*]; done)
    | (simp; done)
    | (simp; with_reducible assumption)
    | (with_reducible refine foldl_life _ _ _ ?_ (fun _ _ _ => ?_))
    | (with_reducible refine foldlp_life _ _ _ ?_ (fun _ _ _ => ?_))
    | (extract_lets +onlyGivenNames x; first
        | (with_reducible refine stepf_life (x := x) ?_ (fun e => ?_) <;> [subst x; clear_value x])
        | (with_reducible refine step_life (x := x) ?_ (fun e => ?_) <;> [subst x; clear_value x])
        | (with_reducible refine stepp_life (x := x) ?_ (fun e => ?_) <;> [subst x; clear_value x])
        | clear_value x
        | subst x)
    | intro _
    | (with_reducible simp only [*]; with_reducible assumption)
    | (simp [H]; done)
    | (simp [H]; with_reducible assumption)
    | split
    | (simp [foldl_life', apply_ite Hw.life]; done)
    | (simp [foldl_life', apply_ite Hw.life]; with_reducible assumption))

@[simp] theorem Hw.raiseAlarm_life (h : Hw) (a1 : Nat) : (Hw.raiseAlarm h a1).life = h.life := by
  unfold Hw.raiseAlarm
  split <;> simp

@[simp] theorem Hw.reachTick_life (h : Hw) (a1 : Nat) : (Hw.reachTick h a1).life = h.life := by
  unfold Hw.reachTick
  split <;> simp

@[simp] theorem Hw.markStepped_life (h : Hw) (a1 : Nat) (a2 : Nat) : (Hw.markStepped h a1 a2).life = h.life := by
  unfold Hw.markStepped
  split <;> simp

@[simp] theorem Hw.loseStored_life (h : Hw) : (Hw.loseStored h).life = h.life := by
  unfold Hw.loseStored
  simp [apply_ite Hw.life]

@[simp] theorem Hw.copyStatus_life (h : Hw) (a1 : DWord) : (Hw.copyStatus h a1).life = h.life := by
  unfold Hw.copyStatus
  simp [apply_ite Hw.life]

@[simp] theorem Hw.rewind_life (h : Hw) : (Hw.rewind h).life = h.life := by
  unfold Hw.rewind
  with_reducible rfl

@[simp] theorem Hw.dropSeal_life (h : Hw) : (Hw.dropSeal h).life = h.life := by
  unfold Hw.dropSeal
  with_reducible rfl

@[simp] theorem Hw.holdChans_life (h : Hw) (a1 : List Nat) : (Hw.holdChans h a1).life = h.life := by
  unfold Hw.holdChans
  simp [foldl_life', apply_ite Hw.life]

@[simp] theorem Hw.wordLost_life (h : Hw) (a1 : SramWord) : (Hw.wordLost h a1).life = h.life := by
  unfold Hw.wordLost
  split <;> simp

@[simp] theorem Hw.eccFound_life (h : Hw) (a1 : EccFinding) (a2 : Bool) : (Hw.eccFound h a1 a2).life = h.life := by
  unfold Hw.eccFound
  simp [apply_ite Hw.life]

@[simp] theorem Hw.leaveIcehouse_life (h : Hw) : (Hw.leaveIcehouse h).life = h.life := by
  unfold Hw.leaveIcehouse
  split <;> simp

@[simp] theorem Hw.returnPrecharge_life (h : Hw) : (Hw.returnPrecharge h).life = h.life := by
  unfold Hw.returnPrecharge
  split <;> simp

@[simp] theorem Hw.vinOutputsOff_life (h : Hw) : (Hw.vinOutputsOff h).life = h.life := by
  unfold Hw.vinOutputsOff
  simp

@[simp] theorem Hw.toWaitVin_life (h : Hw) (a1 : Nat) : (Hw.toWaitVin h a1).life = h.life := by
  unfold Hw.toWaitVin
  simp

@[simp] theorem Hw.lossFault_life (h : Hw) (a1 : Nat) (a2 : Nat) : (Hw.lossFault h a1 a2).life = h.life := by
  unfold Hw.lossFault
  simp [apply_ite Hw.life]

@[simp] theorem Hw.startHandOver_life (h : Hw) : (Hw.startHandOver h).life = h.life := by
  unfold Hw.startHandOver
  simp

@[simp] theorem Hw.excursion_life (h : Hw) : (Hw.excursion h).life = h.life := by
  unfold Hw.excursion
  simp [apply_ite Hw.life]

@[simp] theorem Hw.vinLost_life (h : Hw) : (Hw.vinLost h).life = h.life := by
  unfold Hw.vinLost
  simp [apply_ite Hw.life]

@[simp] theorem Hw.vinFailed_life (h : Hw) : (Hw.vinFailed h).life = h.life := by
  unfold Hw.vinFailed
  split <;> simp

@[simp] theorem Hw.forcedVin_life (h : Hw) : (Hw.forcedVin h).life = h.life := by
  unfold Hw.forcedVin
  split <;> simp

@[simp] theorem Hw.exitScrub_life (h : Hw) (a1 : List EccFinding) : (Hw.exitScrub h a1).life = h.life := by
  unfold Hw.exitScrub
  simp [foldl_life', apply_ite Hw.life]

@[simp] theorem Hw.supplyLost_life (h : Hw) (a1 : Nat) (a2 : Nat) : (Hw.supplyLost h a1 a2).life = h.life := by
  unfold Hw.supplyLost
  simp [apply_ite Hw.life]

@[simp] theorem Hw.packLost_life (h : Hw) : (Hw.packLost h).life = h.life := by
  unfold Hw.packLost
  simp [apply_ite Hw.life]

@[simp] theorem Hw.startVh_life (h : Hw) (a1 : Nat) : (Hw.startVh h a1).life = h.life := by
  unfold Hw.startVh
  simp

@[simp] theorem Hw.startRelay_life (h : Hw) : (Hw.startRelay h).life = h.life := by
  unfold Hw.startRelay
  extract_lets +onlyGivenNames x
  have e : ∀ h : Hw, (x h).life = h.life := by
    intro h
    subst x
    (repeat' first
      | with_reducible assumption
      | with_reducible rfl
      | (with_reducible refine ite_life ?_ ?_)
      | (with_reducible simp only [*]; done)
      | (simp; done)
      | (simp; with_reducible assumption)
      | (with_reducible refine foldl_life _ _ _ ?_ (fun _ _ _ => ?_))
      | (with_reducible refine foldlp_life _ _ _ ?_ (fun _ _ _ => ?_))
      | (extract_lets +onlyGivenNames x; first
          | (with_reducible refine stepf_life (x := x) ?_ (fun e => ?_) <;> [subst x; clear_value x])
          | (with_reducible refine step_life (x := x) ?_ (fun e => ?_) <;> [subst x; clear_value x])
          | (with_reducible refine stepp_life (x := x) ?_ (fun e => ?_) <;> [subst x; clear_value x])
          | clear_value x
          | subst x)
      | intro _
      | (with_reducible simp only [*]; with_reducible assumption)
      | (simp [H]; done)
      | (simp [H]; with_reducible assumption)
      | split
      | (simp [foldl_life', apply_ite Hw.life]; done)
      | (simp [foldl_life', apply_ite Hw.life]; with_reducible assumption))
  clear_value x
  simp [foldl_life', e, apply_ite Hw.life]

@[simp] theorem Hw.relayTimeout_life (h : Hw) : (Hw.relayTimeout h).life = h.life := by
  unfold Hw.relayTimeout
  split <;> simp

@[simp] theorem Hw.replyFragment_life (h : Hw) (a1 : List Byte) : (Hw.replyFragment h a1).life = h.life := by
  unfold Hw.replyFragment
  (repeat' split) <;> simp [apply_ite Hw.life]

@[simp] theorem Hw.requestFragment_life (h : Hw) (a1 : List Byte) : (Hw.requestFragment h a1).life = h.life := by
  unfold Hw.requestFragment
  simp [apply_ite Hw.life]

@[simp] theorem Hw.modPeer_life (h : Hw) (a1 : Nat) (a2 : Peer → Peer) : (Hw.modPeer h a1 a2).life = h.life := by
  unfold Hw.modPeer
  with_reducible rfl

@[simp] theorem Hw.dropFollower_life (h : Hw) (a1 : Nat) : (Hw.dropFollower h a1).life = h.life := by
  unfold Hw.dropFollower
  simp [apply_ite Hw.life]

@[simp] theorem Hw.admitJoins_life (h : Hw) : (Hw.admitJoins h).life = h.life := by
  unfold Hw.admitJoins
  with_reducible rfl

@[simp] theorem Hw.leadCycle_life (h : Hw) : (Hw.leadCycle h).life = h.life := by
  unfold Hw.leadCycle
  split <;> simp

@[simp] theorem Hw.followerSlot_life (h : Hw) : (Hw.followerSlot h).life = h.life := by
  unfold Hw.followerSlot
  (repeat' split) <;> simp [apply_ite Hw.life]

@[simp] theorem Hw.discardFrame_life (h : Hw) (a1 : List Byte) (a2 : Nat) (a3 : List Byte) : (Hw.discardFrame h a1 a2 a3).life = h.life := by
  unfold Hw.discardFrame
  simp

@[simp] theorem Hw.actOnCommand_life (h : Hw) : (Hw.actOnCommand h).life = h.life := by
  unfold Hw.actOnCommand
  simp [apply_ite Hw.life]

@[simp] theorem Hw.takeLead_life (h : Hw) (a1 : List Byte) (a2 : Nat) : (Hw.takeLead h a1 a2).life = h.life := by
  unfold Hw.takeLead
  with_reducible rfl

@[simp] theorem Hw.orphan_life (h : Hw) : (Hw.orphan h).life = h.life := by
  unfold Hw.orphan
  split <;> simp

@[simp] theorem Hw.statusAtLead_life (h : Hw) (a1 : Nat) (a2 : List Byte) : (Hw.statusAtLead h a1 a2).life = h.life := by
  unfold Hw.statusAtLead
  simp [apply_ite Hw.life]

@[simp] theorem Hw.joinAtLead_life (h : Hw) (a1 : Nat) (a2 : List Byte) : (Hw.joinAtLead h a1 a2).life = h.life := by
  unfold Hw.joinAtLead
  split <;> simp

@[simp] theorem Hw.indexConflict_life (h : Hw) (a1 : Nat) : (Hw.indexConflict h a1).life = h.life := by
  unfold Hw.indexConflict
  simp

@[simp] theorem Hw.wdtExpire_life (h : Hw) : (Hw.wdtExpire h).life = h.life := by
  unfold Hw.wdtExpire
  split <;> simp

@[simp] theorem Hw.wdtViolation_life (h : Hw) : (Hw.wdtViolation h).life = h.life := by
  unfold Hw.wdtViolation
  simp

@[simp] theorem Hw.wdtService_life (h : Hw) (a1 : Byte) : (Hw.wdtService h a1).life = h.life := by
  unfold Hw.wdtService
  simp [apply_ite Hw.life]

@[simp] theorem Hw.wdtCommit_life (h : Hw) (a1 : Wdt) : (Hw.wdtCommit h a1).life = h.life := by
  unfold Hw.wdtCommit
  with_reducible rfl

@[simp] theorem Hw.submit_life (h : Hw) (a1 : Origin) (a2 : Byte) : (Hw.submit h a1 a2).life = h.life := by
  unfold Hw.submit
  (repeat' first
    | with_reducible assumption
    | with_reducible rfl
    | (with_reducible refine ite_life ?_ ?_)
    | (with_reducible simp only [*]; done)
    | (simp; done)
    | (simp; with_reducible assumption)
    | (with_reducible refine foldl_life _ _ _ ?_ (fun _ _ _ => ?_))
    | (with_reducible refine foldlp_life _ _ _ ?_ (fun _ _ _ => ?_))
    | (extract_lets +onlyGivenNames x; first
        | (with_reducible refine stepf_life (x := x) ?_ (fun e => ?_) <;> [subst x; clear_value x])
        | (with_reducible refine step_life (x := x) ?_ (fun e => ?_) <;> [subst x; clear_value x])
        | (with_reducible refine stepp_life (x := x) ?_ (fun e => ?_) <;> [subst x; clear_value x])
        | clear_value x
        | subst x)
    | intro _
    | (with_reducible simp only [*]; with_reducible assumption)
    | (simp [H]; done)
    | (simp [H]; with_reducible assumption)
    | split
    | (simp [foldl_life', apply_ite Hw.life]; done)
    | (simp [foldl_life', apply_ite Hw.life]; with_reducible assumption))

@[simp] theorem Hw.evtByte_life (h : Hw) (a1 : Nat) (a2 : Byte) : (Hw.evtByte h a1 a2).life = h.life := by
  unfold Hw.evtByte
  split <;> simp

@[simp] theorem Hw.putByte_life (h : Hw) (a1 : Origin) (a2 : Nat) (a3 : Byte) : (Hw.putByte h a1 a2 a3).life = h.life := by
  unfold Hw.putByte
  simp [apply_ite Hw.life]

@[simp] theorem Hw.putBytes_life (h : Hw) (a1 : Origin) (a2 : Nat) (a3 : Nat) (a4 : List Byte) : (Hw.putBytes h a1 a2 a3 a4).life = h.life := by
  induction a4 generalizing h a3 with
  | nil => rfl
  | cons b r ih => unfold Hw.putBytes; rw [ih]; simp

@[simp] theorem Hw.start_life (h : Hw) (a1 : Origin) : (Hw.start h a1).life = h.life := by
  unfold Hw.start
  simp

@[simp] theorem Hw.busError_life (h : Hw) (a1 : Origin) (a2 : Nat) : (Hw.busError h a1 a2).life = h.life := by
  unfold Hw.busError
  split <;> simp

@[simp] theorem Hw.placeReply_life (h : Hw) (a1 : Origin) : (Hw.placeReply h a1).life = h.life := by
  unfold Hw.placeReply
  (repeat' first
    | with_reducible assumption
    | with_reducible rfl
    | (with_reducible refine ite_life ?_ ?_)
    | (with_reducible simp only [*]; done)
    | (simp; done)
    | (simp; with_reducible assumption)
    | (with_reducible refine foldl_life _ _ _ ?_ (fun _ _ _ => ?_))
    | (with_reducible refine foldlp_life _ _ _ ?_ (fun _ _ _ => ?_))
    | (extract_lets +onlyGivenNames x; first
        | (with_reducible refine stepf_life (x := x) ?_ (fun e => ?_) <;> [subst x; clear_value x])
        | (with_reducible refine step_life (x := x) ?_ (fun e => ?_) <;> [subst x; clear_value x])
        | (with_reducible refine stepp_life (x := x) ?_ (fun e => ?_) <;> [subst x; clear_value x])
        | clear_value x
        | subst x)
    | intro _
    | (with_reducible simp only [*]; with_reducible assumption)
    | (simp [H]; done)
    | (simp [H]; with_reducible assumption)
    | split
    | (simp [foldl_life', apply_ite Hw.life]; done)
    | (simp [foldl_life', apply_ite Hw.life]; with_reducible assumption))

@[simp] theorem Hw.takeOutputs_life (h : Hw) (a1 : List ChannelResult) (a2 : Nat) : (Hw.takeOutputs h a1 a2).life = h.life := by
  unfold Hw.takeOutputs
  with_reducible rfl

@[simp] theorem Hw.takeSupply_life (h : Hw) : (Hw.takeSupply h).life = h.life := by
  unfold Hw.takeSupply
  with_reducible rfl

@[simp] theorem Hw.checkReference_life (h : Hw) : (Hw.checkReference h).life = h.life := by
  unfold Hw.checkReference
  simp [apply_ite Hw.life]

@[simp] theorem Hw.takePack_life (h : Hw) : (Hw.takePack h).life = h.life := by
  unfold Hw.takePack
  with_reducible rfl

@[simp] theorem Hw.takeBands_life (h : Hw) : (Hw.takeBands h).life = h.life := by
  unfold Hw.takeBands
  with_reducible rfl

@[simp] theorem Hw.thermalFault_life (h : Hw) (a1 : Nat) (a2 : List Byte) : (Hw.thermalFault h a1 a2).life = h.life := by
  unfold Hw.thermalFault
  simp

@[simp] theorem Hw.sensorTrip_life (h : Hw) : (Hw.sensorTrip h).life = h.life := by
  unfold Hw.sensorTrip
  (repeat' first
    | with_reducible assumption
    | with_reducible rfl
    | (with_reducible refine ite_life ?_ ?_)
    | (with_reducible simp only [*]; done)
    | (simp; done)
    | (simp; with_reducible assumption)
    | (with_reducible refine foldl_life _ _ _ ?_ (fun _ _ _ => ?_))
    | (with_reducible refine foldlp_life _ _ _ ?_ (fun _ _ _ => ?_))
    | (extract_lets +onlyGivenNames x; first
        | (with_reducible refine stepf_life (x := x) ?_ (fun e => ?_) <;> [subst x; clear_value x])
        | (with_reducible refine step_life (x := x) ?_ (fun e => ?_) <;> [subst x; clear_value x])
        | (with_reducible refine stepp_life (x := x) ?_ (fun e => ?_) <;> [subst x; clear_value x])
        | clear_value x
        | subst x)
    | intro _
    | (with_reducible simp only [*]; with_reducible assumption)
    | (simp [H]; done)
    | (simp [H]; with_reducible assumption)
    | split
    | (simp [foldl_life', apply_ite Hw.life]; done)
    | (simp [foldl_life', apply_ite Hw.life]; with_reducible assumption))

@[simp] theorem Hw.markTerms_life (h : Hw) (a1 : GovSample) : (Hw.markTerms h a1).life = h.life := by
  unfold Hw.markTerms
  with_reducible rfl

@[simp] theorem Hw.shedOut_life (h : Hw) (a1 : Nat) (a2 : Nat) : (Hw.shedOut h a1 a2).life = h.life := by
  unfold Hw.shedOut
  split <;> simp

@[simp] theorem Hw.govCharger_life (h : Hw) : (Hw.govCharger h).life = h.life := by
  unfold Hw.govCharger
  with_reducible rfl

@[simp] theorem Hw.setStage_life (h : Hw) (a1 : GovStage) : (Hw.setStage h a1).life = h.life := by
  unfold Hw.setStage
  simp

@[simp] theorem Hw.escalate_life (h : Hw) (a1 : GovSample) (a2 : Nat) : (Hw.escalate h a1 a2).life = h.life := by
  unfold Hw.escalate
  simp only
  (repeat' split) <;> first | (simp; done) | (rename_i e; simpa using Hw.derate_life _ _ _ _ e)

@[simp] theorem Hw.restoreOut_life (h : Hw) (a1 : Nat) : (Hw.restoreOut h a1).life = h.life := by
  unfold Hw.restoreOut
  split <;> simp

@[simp] theorem Hw.raiseLimit_life (h : Hw) (a1 : Nat) : (Hw.raiseLimit h a1).life = h.life := by
  unfold Hw.raiseLimit
  simp [apply_ite Hw.life]

@[simp] theorem Hw.release_life (h : Hw) (a1 : GovSample) (a2 : Nat) : (Hw.release h a1 a2).life = h.life := by
  unfold Hw.release
  (repeat' first
    | with_reducible assumption
    | with_reducible rfl
    | (with_reducible refine ite_life ?_ ?_)
    | (with_reducible simp only [*]; done)
    | (simp; done)
    | (simp; with_reducible assumption)
    | (with_reducible refine foldl_life _ _ _ ?_ (fun _ _ _ => ?_))
    | (with_reducible refine foldlp_life _ _ _ ?_ (fun _ _ _ => ?_))
    | (extract_lets +onlyGivenNames x; first
        | (with_reducible refine stepf_life (x := x) ?_ (fun e => ?_) <;> [subst x; clear_value x])
        | (with_reducible refine step_life (x := x) ?_ (fun e => ?_) <;> [subst x; clear_value x])
        | (with_reducible refine stepp_life (x := x) ?_ (fun e => ?_) <;> [subst x; clear_value x])
        | clear_value x
        | subst x)
    | intro _
    | (with_reducible simp only [*]; with_reducible assumption)
    | (simp [H]; done)
    | (simp [H]; with_reducible assumption)
    | split
    | (simp [foldl_life', apply_ite Hw.life]; done)
    | (simp [foldl_life', apply_ite Hw.life]; with_reducible assumption))

@[simp] theorem Hw.holdActions_life (h : Hw) : (Hw.holdActions h).life = h.life := by
  unfold Hw.holdActions
  with_reducible rfl

@[simp] theorem Hw.govern_life (h : Hw) (a1 : GovSample) : (Hw.govern h a1).life = h.life := by
  unfold Hw.govern
  (repeat' split) <;> simp [apply_ite Hw.life]

@[simp] theorem Hw.writeFailure_life (h : Hw) (a1 : Nat) : (Hw.writeFailure h a1).life = h.life := by
  unfold Hw.writeFailure
  simp

@[simp] theorem Hw.retireLogAt_life (h : Hw) (a1 : Nat) : (Hw.retireLogAt h a1).life = h.life := by
  unfold Hw.retireLogAt
  simp

@[simp] theorem Hw.retireLog_life (h : Hw) : (Hw.retireLog h).life = h.life := by
  unfold Hw.retireLog
  simp

@[simp] theorem Hw.logFails_life (h : Hw) (a1 : List Byte) (a2 : Nat) (a3 : Bool) (a4 : Bool) : (Hw.logFails h a1 a2 a3 a4).life = h.life := by
  unfold Hw.logFails
  split <;> simp

@[simp] theorem Hw.beginWaiting_life (h : Hw) (a1 : WaitRec) : (Hw.beginWaiting h a1).life = h.life := by
  unfold Hw.beginWaiting
  simp

@[simp] theorem Hw.serveWaiting_life (h : Hw) : (Hw.serveWaiting h).life = h.life := by
  unfold Hw.serveWaiting
  (repeat' split) <;> simp

@[simp] theorem Hw.signAll_life (h : Hw) : (Hw.signAll h).life = h.life := by
  unfold Hw.signAll
  simp [foldl_life', apply_ite Hw.life]

@[simp] theorem Hw.ringErased_life (h : Hw) (a1 : Ring) (a2 : Bool) : (Hw.ringErased h a1 a2).life = h.life := by
  unfold Hw.ringErased
  simp [apply_ite Hw.life]

@[simp] theorem Hw.eraseProved_life (h : Hw) (a1 : Erased) (a2 : Bool) : (Hw.eraseProved h a1 a2).life = h.life := by
  unfold Hw.eraseProved
  split <;> simp

@[simp] theorem Hw.safePoint_life (h : Hw) : (Hw.safePoint h).life = h.life := by
  unfold Hw.safePoint
  with_reducible rfl

@[simp] theorem Hw.proveErase_life (h : Hw) (a1 : Bool) : (Hw.proveErase h a1).life = h.life := by
  unfold Hw.proveErase
  split <;> simp

@[simp] theorem Hw.writeLost_life (h : Hw) (a1 : StoreWrite) : (Hw.writeLost h a1).life = h.life := by
  unfold Hw.writeLost
  (repeat' split) <;> simp

@[simp] theorem Hw.copyFails_life (h : Hw) (a1 : StoreWrite) (a2 : List StoreWrite) : (Hw.copyFails h a1 a2).life = h.life := by
  unfold Hw.copyFails
  simp [apply_ite Hw.life]

@[simp] theorem Hw.jobFails_life (h : Hw) (a1 : Option Nat) : (Hw.jobFails h a1).life = h.life := by
  unfold Hw.jobFails
  (repeat' split) <;> simp [apply_ite Hw.life]

@[simp] theorem Hw.takeBack_life (h : Hw) (a1 : Verify) : (Hw.takeBack h a1).life = h.life := by
  unfold Hw.takeBack
  (repeat' first
    | with_reducible assumption
    | with_reducible rfl
    | (with_reducible refine ite_life ?_ ?_)
    | (with_reducible simp only [*]; done)
    | (simp; done)
    | (simp; with_reducible assumption)
    | (with_reducible refine foldl_life _ _ _ ?_ (fun _ _ _ => ?_))
    | (with_reducible refine foldlp_life _ _ _ ?_ (fun _ _ _ => ?_))
    | (extract_lets +onlyGivenNames x; first
        | (with_reducible refine stepf_life (x := x) ?_ (fun e => ?_) <;> [subst x; clear_value x])
        | (with_reducible refine step_life (x := x) ?_ (fun e => ?_) <;> [subst x; clear_value x])
        | (with_reducible refine stepp_life (x := x) ?_ (fun e => ?_) <;> [subst x; clear_value x])
        | clear_value x
        | subst x)
    | intro _
    | (with_reducible simp only [*]; with_reducible assumption)
    | (simp [H]; done)
    | (simp [H]; with_reducible assumption)
    | split
    | (simp [foldl_life', apply_ite Hw.life]; done)
    | (simp [foldl_life', apply_ite Hw.life]; with_reducible assumption))

@[simp] theorem Hw.scrubInjected_life (h : Hw) (a1 : Nat) : (Hw.scrubInjected h a1).life = h.life := by
  unfold Hw.scrubInjected
  simp [foldl_life', apply_ite Hw.life]

@[simp] theorem Hw.ackTo_life (h : Hw) (a1 : Nat) : (Hw.ackTo h a1).life = h.life := by
  unfold Hw.ackTo
  simp

@[simp] theorem Hw.chgTo_life (h : Hw) (a1 : ChgState) : (Hw.chgTo h a1).life = h.life := by
  unfold Hw.chgTo
  with_reducible rfl

@[simp] theorem Hw.chgFault_life (h : Hw) (a1 : Nat) : (Hw.chgFault h a1).life = h.life := by
  unfold Hw.chgFault
  simp

@[simp] theorem Hw.chgReset_life (h : Hw) : (Hw.chgReset h).life = h.life := by
  unfold Hw.chgReset
  with_reducible rfl

@[simp] theorem Hw.reference_life (h : Hw) (a1 : Nat) (a2 : Nat) : (Hw.reference h a1 a2).life = h.life := by
  unfold Hw.reference
  simp [apply_ite Hw.life]

@[simp] theorem Hw.chgDone_life (h : Hw) : (Hw.chgDone h).life = h.life := by
  unfold Hw.chgDone
  simp [apply_ite Hw.life]

@[simp] theorem Hw.chgEvaluate_life (h : Hw) : (Hw.chgEvaluate h).life = h.life := by
  unfold Hw.chgEvaluate
  simp [apply_ite Hw.life]

@[simp] theorem Hw.packGone_life (h : Hw) (a1 : Bool) : (Hw.packGone h a1).life = h.life := by
  unfold Hw.packGone
  simp

@[simp] theorem Hw.packFound_life (h : Hw) : (Hw.packFound h).life = h.life := by
  unfold Hw.packFound
  simp [apply_ite Hw.life]

@[simp] theorem Hw.probed_life (h : Hw) (a1 : ProbeSample) : (Hw.probed h a1).life = h.life := by
  unfold Hw.probed
  with_reducible rfl

@[simp] theorem Hw.chgSettings_life (h : Hw) (a1 : ChargeCfg) : (Hw.chgSettings h a1).life = h.life := by
  unfold Hw.chgSettings
  simp [apply_ite Hw.life]

@[simp] theorem Hw.learnRes_life (h : Hw) (a1 : Option (Nat × Nat)) : (Hw.learnRes h a1).life = h.life := by
  unfold Hw.learnRes
  (repeat' split) <;> simp

@[simp] theorem Hw.ocvRead_life (h : Hw) (a1 : Nat) : (Hw.ocvRead h a1).1.life = h.life := by
  unfold Hw.ocvRead
  (repeat' split) <;> simp

@[simp] theorem Hw.setCharger_life (h : Hw) (a1 : ChargeCfg) : (Hw.setCharger h a1).life = h.life := by
  unfold Hw.setCharger
  simp [apply_ite Hw.life]

@[simp] theorem Hw.bulkChecks_life (h : Hw) (a1 : Nat) (a2 : Nat) (a3 : Nat) : (Hw.bulkChecks h a1 a2 a3).life = h.life := by
  unfold Hw.bulkChecks
  simp [foldl_life', apply_ite Hw.life]

@[simp] theorem Hw.commitImage_life (h : Hw) (a1 : List Byte) (a2 : Image) (a3 : Word) : (Hw.commitImage h a1 a2 a3).life = h.life := by
  unfold Hw.commitImage
  with_reducible rfl

@[simp] theorem Hw.captureSlot_life (h : Hw) (a1 : DWord) (a2 : Nat) : (Hw.captureSlot h a1 a2).life = h.life := by
  unfold Hw.captureSlot
  simp [apply_ite Hw.life]

@[simp] theorem Hw.captureSlots_life (h : Hw) (a1 : DWord) : (Hw.captureSlots h a1).life = h.life := by
  unfold Hw.captureSlots
  simp [foldl_life', apply_ite Hw.life]

@[simp] theorem Hw.checkpoints_life (h : Hw) (a1 : List Chan) : (Hw.checkpoints h a1).life = h.life := by
  unfold Hw.checkpoints
  simp [foldl_life', apply_ite Hw.life]

@[simp] theorem Hw.calChecks_life (h : Hw) : (Hw.calChecks h).life = h.life := by
  unfold Hw.calChecks
  simp

@[simp] theorem Hw.finishCal_life (h : Hw) : (Hw.finishCal h).life = h.life := by
  unfold Hw.finishCal
  (repeat' split) <;> simp [apply_ite Hw.life]

@[simp] theorem Hw.compareChan_life (h : Hw) (a1 : Nat) : (Hw.compareChan h a1).life = h.life := by
  unfold Hw.compareChan
  simp [apply_ite Hw.life]

@[simp] theorem Hw.recheckCal_life (h : Hw) (a1 : Nat) : (Hw.recheckCal h a1).life = h.life := by
  unfold Hw.recheckCal
  simp [apply_ite Hw.life]

@[simp] theorem Hw.forceActs_life (h : Hw) (a1 : Nat) : (Hw.forceActs h a1).life = h.life := by
  unfold Hw.forceActs
  simp [apply_ite Hw.life]

@[simp] theorem Hw.erasedCheck_life (h : Hw) (a1 : Nat) (a2 : Nat) : (Hw.erasedCheck h a1 a2).1.life = h.life := by
  unfold Hw.erasedCheck
  simp

@[simp] theorem Hw.compareRec_life (h : Hw) (a1 : Nat) (a2 : Nat) (a3 : Rec) : (Hw.compareRec h a1 a2 a3).1.life = h.life := by
  unfold Hw.compareRec
  (repeat' first
    | with_reducible assumption
    | with_reducible rfl
    | (with_reducible refine ite_life ?_ ?_)
    | (with_reducible simp only [*]; done)
    | (simp; done)
    | (simp; with_reducible assumption)
    | (with_reducible refine foldl_life _ _ _ ?_ (fun _ _ _ => ?_))
    | (with_reducible refine foldlp_life _ _ _ ?_ (fun _ _ _ => ?_))
    | (extract_lets +onlyGivenNames x; first
        | (with_reducible refine stepf_life (x := x) ?_ (fun e => ?_) <;> [subst x; clear_value x])
        | (with_reducible refine step_life (x := x) ?_ (fun e => ?_) <;> [subst x; clear_value x])
        | (with_reducible refine stepp_life (x := x) ?_ (fun e => ?_) <;> [subst x; clear_value x])
        | clear_value x
        | subst x)
    | intro _
    | (with_reducible simp only [*]; with_reducible assumption)
    | (simp [H]; done)
    | (simp [H]; with_reducible assumption)
    | split
    | (simp [foldl_life', apply_ite Hw.life]; done)
    | (simp [foldl_life', apply_ite Hw.life]; with_reducible assumption))

@[simp] theorem Hw.compareRecs_life (h : Hw) (a1 : Nat) (a2 : Nat) (a3 : List Rec) : (Hw.compareRecs h a1 a2 a3).1.life = h.life := by
  induction a3 generalizing h a2 with
  | nil => rfl
  | cons r rs ih =>
    unfold Hw.compareRecs
    (repeat' first
      | with_reducible assumption
      | with_reducible rfl
      | (with_reducible refine ite_life ?_ ?_)
      | (with_reducible simp only [*]; done)
      | (simp; done)
      | (simp; with_reducible assumption)
      | (with_reducible refine foldl_life _ _ _ ?_ (fun _ _ _ => ?_))
      | (with_reducible refine foldlp_life _ _ _ ?_ (fun _ _ _ => ?_))
      | (extract_lets +onlyGivenNames x; first
          | (with_reducible refine stepf_life (x := x) ?_ (fun e => ?_) <;> [subst x; clear_value x])
          | (with_reducible refine step_life (x := x) ?_ (fun e => ?_) <;> [subst x; clear_value x])
          | (with_reducible refine stepp_life (x := x) ?_ (fun e => ?_) <;> [subst x; clear_value x])
          | clear_value x
          | subst x)
      | intro _
      | (with_reducible simp only [*]; with_reducible assumption)
      | (simp [H]; done)
      | (simp [H]; with_reducible assumption)
      | split
      | (simp [foldl_life', apply_ite Hw.life]; done)
      | (simp [foldl_life', apply_ite Hw.life]; with_reducible assumption))
    all_goals (rw [ih]; with_reducible assumption)

@[simp] theorem Hw.copyCompare_life (h : Hw) (a1 : Nat) (a2 : Nat) : (Hw.copyCompare h a1 a2).1.life = h.life := by
  unfold Hw.copyCompare
  simp

@[simp] theorem Hw.diagLost_life (h : Hw) : (Hw.diagLost h).life = h.life := by
  unfold Hw.diagLost
  simp

@[simp] theorem Hw.passEntries_life (h : Hw) (a1 : List FaultEntry) : (Hw.passEntries h a1).1.life = h.life := by
  unfold Hw.passEntries
  (repeat' first
    | with_reducible assumption
    | with_reducible rfl
    | (with_reducible refine ite_life ?_ ?_)
    | (with_reducible simp only [*]; done)
    | (simp; done)
    | (simp; with_reducible assumption)
    | (with_reducible refine foldl_life _ _ _ ?_ (fun _ _ _ => ?_))
    | (with_reducible refine foldlp_life _ _ _ ?_ (fun _ _ _ => ?_))
    | (extract_lets +onlyGivenNames x; first
        | (with_reducible refine stepf_life (x := x) ?_ (fun e => ?_) <;> [subst x; clear_value x])
        | (with_reducible refine step_life (x := x) ?_ (fun e => ?_) <;> [subst x; clear_value x])
        | (with_reducible refine stepp_life (x := x) ?_ (fun e => ?_) <;> [subst x; clear_value x])
        | clear_value x
        | subst x)
    | intro _
    | (with_reducible simp only [*]; with_reducible assumption)
    | (simp [H]; done)
    | (simp [H]; with_reducible assumption)
    | split
    | (simp [foldl_life', apply_ite Hw.life]; done)
    | (simp [foldl_life', apply_ite Hw.life]; with_reducible assumption))

@[simp] theorem Hw.stage_life (h : Hw) (a1 : Nat) (a2 : List Byte) : (Hw.stage h a1 a2).life = h.life := by
  unfold Hw.stage
  with_reducible rfl

@[simp] theorem Hw.activateFw_life (h : Hw) (a1 : Bool) : (Hw.activateFw h a1).life = h.life := by
  unfold Hw.activateFw
  with_reducible rfl

@[simp] theorem Hw.vclAnswer_life (h : Hw) (a1 : Resp) (a2 : Nat) (a3 : Half) : (Hw.vclAnswer h a1 a2 a3).life = h.life := by
  unfold Hw.vclAnswer
  with_reducible rfl

@[simp] theorem Hw.vclBad_life (h : Hw) (a1 : Nat) (a2 : Nat) (a3 : Nat) (a4 : Nat) (a5 : List Byte) : (Hw.vclBad h a1 a2 a3 a4 a5).life = h.life := by
  unfold Hw.vclBad
  simp

@[simp] theorem Hw.retarget_life (h : Hw) (a1 : Nat) (a2 : Nat) (a3 : Nat) : (Hw.retarget h a1 a2 a3).life = h.life := by
  unfold Hw.retarget
  split <;> simp

@[simp] theorem Hw.rampDone_life (h : Hw) (a1 : Nat) : (Hw.rampDone h a1).life = h.life := by
  unfold Hw.rampDone
  split <;> simp

@[simp] theorem Hw.codeStep_life (h : Hw) (a1 : Nat) : (Hw.codeStep h a1).life = h.life := by
  unfold Hw.codeStep
  simp [apply_ite Hw.life]

@[simp] theorem Hw.sinkHold_life (h : Hw) (a1 : Nat) (a2 : Bool) : (Hw.sinkHold h a1 a2).life = h.life := by
  unfold Hw.sinkHold
  simp [apply_ite Hw.life]

@[simp] theorem Hw.vclRequest_life (h : Hw) (a1 : BitVec 4) (a2 : BitVec 2) (a3 : Bool) (a4 : Half) (a5 : BitVec 4) (a6 : Bool) (a7 : Hw → Nat → Hw) (H : ∀ y0 y1, (a7 y0 y1).life = y0.life) : (Hw.vclRequest h a1 a2 a3 a4 a5 a6 a7).life = h.life := by
  unfold Hw.vclRequest
  (repeat' first
    | with_reducible assumption
    | with_reducible rfl
    | (with_reducible refine ite_life ?_ ?_)
    | (with_reducible simp only [*]; done)
    | (simp; done)
    | (simp; with_reducible assumption)
    | (with_reducible refine foldl_life _ _ _ ?_ (fun _ _ _ => ?_))
    | (with_reducible refine foldlp_life _ _ _ ?_ (fun _ _ _ => ?_))
    | (extract_lets +onlyGivenNames x; first
        | (with_reducible refine stepf_life (x := x) ?_ (fun e => ?_) <;> [subst x; clear_value x])
        | (with_reducible refine step_life (x := x) ?_ (fun e => ?_) <;> [subst x; clear_value x])
        | (with_reducible refine stepp_life (x := x) ?_ (fun e => ?_) <;> [subst x; clear_value x])
        | clear_value x
        | subst x)
    | intro _
    | (with_reducible simp only [*]; with_reducible assumption)
    | (simp [H]; done)
    | (simp [H]; with_reducible assumption)
    | split
    | (simp [foldl_life', apply_ite Hw.life]; done)
    | (simp [foldl_life', apply_ite Hw.life]; with_reducible assumption))

@[simp] theorem Hw.vclRead_life (h : Hw) (a1 : Nat) (a2 : Half) : (Hw.vclRead h a1 a2).life = h.life := by
  unfold Hw.vclRead
  simp

@[simp] theorem Hw.vclCarry_life (h : Hw) (a1 : Nat) (a2 : Nat) (a3 : Bool) (a4 : Half) (a5 : Half) (a6 : Hw → Hw) (H : ∀ y0, (a6 y0).life = y0.life) : (Hw.vclCarry h a1 a2 a3 a4 a5 a6).life = h.life := by
  unfold Hw.vclCarry
  (repeat' first
    | with_reducible assumption
    | with_reducible rfl
    | (with_reducible refine ite_life ?_ ?_)
    | (with_reducible simp only [*]; done)
    | (simp; done)
    | (simp; with_reducible assumption)
    | (with_reducible refine foldl_life _ _ _ ?_ (fun _ _ _ => ?_))
    | (with_reducible refine foldlp_life _ _ _ ?_ (fun _ _ _ => ?_))
    | (extract_lets +onlyGivenNames x; first
        | (with_reducible refine stepf_life (x := x) ?_ (fun e => ?_) <;> [subst x; clear_value x])
        | (with_reducible refine step_life (x := x) ?_ (fun e => ?_) <;> [subst x; clear_value x])
        | (with_reducible refine stepp_life (x := x) ?_ (fun e => ?_) <;> [subst x; clear_value x])
        | clear_value x
        | subst x)
    | intro _
    | (with_reducible simp only [*]; with_reducible assumption)
    | (simp [H]; done)
    | (simp [H]; with_reducible assumption)
    | split
    | (simp [foldl_life', apply_ite Hw.life]; done)
    | (simp [foldl_life', apply_ite Hw.life]; with_reducible assumption))

@[simp] theorem Hw.beginPrecharge_life (h : Hw) (a1 : Nat) : (Hw.beginPrecharge h a1).life = h.life := by
  unfold Hw.beginPrecharge
  simp

@[simp] theorem Hw.askPrecharge_life (h : Hw) (a1 : Nat) : (Hw.askPrecharge h a1).life = h.life := by
  unfold Hw.askPrecharge
  split <;> simp

@[simp] theorem Hw.failRead_life (h : Hw) (a1 : Nat) : (Hw.failRead h a1).life = h.life := by
  unfold Hw.failRead
  simp

@[simp] theorem Hw.accError_life (h : Hw) : (Hw.accError h).life = h.life := by
  unfold Hw.accError
  simp

@[simp] theorem Hw.acceptBoard_life (h : Hw) (a1 : Nat) : (Hw.acceptBoard h a1).life = h.life := by
  unfold Hw.acceptBoard
  simp

@[simp] theorem Hw.refuseBoard_life (h : Hw) (a1 : Nat) (a2 : Nat) : (Hw.refuseBoard h a1 a2).life = h.life := by
  unfold Hw.refuseBoard
  simp

@[simp] theorem Hw.descAbsent_life (h : Hw) (a1 : Nat) : (Hw.descAbsent h a1).life = h.life := by
  unfold Hw.descAbsent
  split <;> simp

@[simp] theorem Hw.judgeDesc_life (h : Hw) (a1 : Nat) (a2 : List Byte) : (Hw.judgeDesc h a1 a2).life = h.life := by
  unfold Hw.judgeDesc
  simp [apply_ite Hw.life]

@[simp] theorem Hw.latchPort_life (h : Hw) (a1 : Nat) (a2 : Nat) : (Hw.latchPort h a1 a2).life = h.life := by
  unfold Hw.latchPort
  simp

@[simp] theorem Hw.reseat_life (h : Hw) (a1 : Nat) : (Hw.reseat h a1).life = h.life := by
  unfold Hw.reseat
  simp

@[simp] theorem Hw.busTaken_life (h : Hw) : (Hw.busTaken h).life = h.life := by
  unfold Hw.busTaken
  with_reducible rfl

@[simp] theorem Hw.sclEpisode_life (h : Hw) : (Hw.sclEpisode h).life = h.life := by
  unfold Hw.sclEpisode
  split <;> simp

@[simp] theorem Hw.pendingJob_life (h : Hw) (a1 : Origin) (a2 : Nat) : (Hw.pendingJob h a1 a2).life = h.life := by
  unfold Hw.pendingJob
  simp

@[simp] theorem Hw.attachJob_life (h : Hw) (a1 : Origin) (a2 : Byte) : (Hw.attachJob h a1 a2).life = h.life := by
  unfold Hw.attachJob
  split <;> simp

@[simp] theorem Hw.setTarget_life (h : Hw) (a1 : Nat) (a2 : Nat) : (Hw.setTarget h a1 a2).life = h.life := by
  unfold Hw.setTarget
  simp [apply_ite Hw.life]

@[simp] theorem Hw.forget_life (h : Hw) (a1 : Nat) : (Hw.forget h a1).life = h.life := by
  unfold Hw.forget
  with_reducible rfl

@[simp] theorem Hw.switch_life (h : Hw) (a1 : Nat) (a2 : Bool) : (Hw.switch h a1 a2).life = h.life := by
  unfold Hw.switch
  simp [apply_ite Hw.life]

@[simp] theorem Hw.startMove_life (h : Hw) (a1 : Nat) (a2 : Nat) : (Hw.startMove h a1 a2).life = h.life := by
  unfold Hw.startMove
  (repeat' first
    | with_reducible assumption
    | with_reducible rfl
    | (with_reducible refine ite_life ?_ ?_)
    | (with_reducible simp only [*]; done)
    | (simp; done)
    | (simp; with_reducible assumption)
    | (with_reducible refine foldl_life _ _ _ ?_ (fun _ _ _ => ?_))
    | (with_reducible refine foldlp_life _ _ _ ?_ (fun _ _ _ => ?_))
    | (extract_lets +onlyGivenNames x; first
        | (with_reducible refine stepf_life (x := x) ?_ (fun e => ?_) <;> [subst x; clear_value x])
        | (with_reducible refine step_life (x := x) ?_ (fun e => ?_) <;> [subst x; clear_value x])
        | (with_reducible refine stepp_life (x := x) ?_ (fun e => ?_) <;> [subst x; clear_value x])
        | clear_value x
        | subst x)
    | intro _
    | (with_reducible simp only [*]; with_reducible assumption)
    | (simp [H]; done)
    | (simp [H]; with_reducible assumption)
    | split
    | (simp [foldl_life', apply_ite Hw.life]; done)
    | (simp [foldl_life', apply_ite Hw.life]; with_reducible assumption))

@[simp] theorem Hw.setIlim_life (h : Hw) (a1 : Nat) (a2 : Nat) : (Hw.setIlim h a1 a2).life = h.life := by
  unfold Hw.setIlim
  simp

@[simp] theorem Hw.setPort_life (h : Hw) (a1 : Nat) (a2 : Bool) (a3 : Nat) : (Hw.setPort h a1 a2 a3).life = h.life := by
  unfold Hw.setPort
  simp [apply_ite Hw.life]

@[simp] theorem Hw.thermStages_life (h : Hw) : (Hw.thermStages h).life = h.life := by
  unfold Hw.thermStages
  simp

@[simp] theorem Hw.renameTrip_life (h : Hw) (a1 : Nat) (a2 : Nat × Nat) : (Hw.renameTrip h a1 a2).life = h.life := by
  unfold Hw.renameTrip
  with_reducible rfl

@[simp] theorem Hw.writeAt_life (h : Hw) (a1 : Nat) (a2 : BulkPlace) (a3 : Nat) (a4 : List Byte) : (Hw.writeAt h a1 a2 a3 a4).life = h.life := by
  unfold Hw.writeAt
  split <;> simp

@[simp] theorem Hw.fetch_life (h : Hw) (a1 : Nat) : (Hw.fetch h a1).life = h.life := by
  unfold Hw.fetch
  split <;> simp

@[simp] theorem Hw.dropPacket_life (h : Hw) (a1 : Bool) : (Hw.dropPacket h a1).life = h.life := by
  unfold Hw.dropPacket
  simp

@[simp] theorem Hw.descDone_life (h : Hw) (a1 : Nat) (a2 : Desc) : (Hw.descDone h a1 a2).life = h.life := by
  unfold Hw.descDone
  (repeat' split) <;> simp

@[simp] theorem Hw.putMore_life (h : Hw) (a1 : Nat) (a2 : Desc) (a3 : Nat) : (Hw.putMore h a1 a2 a3).life = h.life := by
  unfold Hw.putMore
  split <;> simp

@[simp] theorem Hw.emptyBurst_life (h : Hw) (a1 : Nat) (a2 : Desc) (a3 : Burst) : (Hw.emptyBurst h a1 a2 a3).life = h.life := by
  unfold Hw.emptyBurst
  (repeat' first
    | with_reducible assumption
    | with_reducible rfl
    | (with_reducible refine ite_life ?_ ?_)
    | (with_reducible simp only [*]; done)
    | (simp; done)
    | (simp; with_reducible assumption)
    | (with_reducible refine foldl_life _ _ _ ?_ (fun _ _ _ => ?_))
    | (with_reducible refine foldlp_life _ _ _ ?_ (fun _ _ _ => ?_))
    | (extract_lets +onlyGivenNames x; first
        | (with_reducible refine stepf_life (x := x) ?_ (fun e => ?_) <;> [subst x; clear_value x])
        | (with_reducible refine step_life (x := x) ?_ (fun e => ?_) <;> [subst x; clear_value x])
        | (with_reducible refine stepp_life (x := x) ?_ (fun e => ?_) <;> [subst x; clear_value x])
        | clear_value x
        | subst x)
    | intro _
    | (with_reducible simp only [*]; with_reducible assumption)
    | (simp [H]; done)
    | (simp [H]; with_reducible assumption)
    | split
    | (simp [foldl_life', apply_ite Hw.life]; done)
    | (simp [foldl_life', apply_ite Hw.life]; with_reducible assumption))

end Sys2Proof.Machine
end

