-- ==== Sys2Proof/WellFormed.lean ====
section
/-! DEFINITION. Well-formed commands: operands that the types of Syntax.lean do not bound already have the size the manual
gives them. -/

namespace Sys2Proof

/-- The six sensors (R490). -/
def BootSample.wellFormed (b : BootSample) : Bool := b.temps.length = 6

/-- The six port currents (R74). -/
def GovSample.wellFormed (g : GovSample) : Bool := g.portMa.length = 6

/-- A descriptor of 16 bytes, or fewer of a read left short (R50, R402). -/
def descWellFormed : Option (List Byte) → Bool
  | some d => d.length ≤ 16
  | none => true

/-- A frame of the link: 4 bytes of header, LEN ≤ 64 of payload, 4 of CRC (R213). -/
def frameWellFormed (f : List Byte) : Bool :=
  (f.getD 2 0).toNat ≤ 64 && f.length = (f.getD 2 0).toNat + 8

/-- Operands of a command have their sizes: the identifier of R277, the response of R417, the block of R244, the table of
R358, the band table of R373, data as long as its LENGTH (R331, R444, R446), 8 channels in a block (R240), 8 phases (R82), a
result for each channel at most once (R167), and at least one byte in a bus write (R388). -/
def Instr.wellFormed : Instr → Bool
  | .bootComplete b => b.wellFormed
  | .governorEvaluate g => g.wellFormed
  | .governorComparatorWake g => g.wellFormed
  | .descReadComplete _ d => descWellFormed d
  | .leadFrame _ f => frameWellFormed f.bytes
  | .statusFrame _ f => frameWellFormed f
  | .join _ f => frameWellFormed f
  | .leave _ f => frameWellFormed f
  | .scanComplete rs _ => decide (rs.map (·.chan)).Nodup
  | .blockEnd cs => cs.length = 8
  | .thermalModelUpdate a => a.phases.length = 8
  | .hostBusWrite _ _ data => !data.isEmpty
  | .evtPendWrite _ _ data => !data.isEmpty
  | .configUnlockResponse _ mac => mac.length = 32
  | .openSession _ _ sid => sid.length = 16
  | .closeSession _ _ sid => sid.length = 16
  | .calWrite _ _ _ block => block.length = 48
  | .gaugeTableLoad _ points => points.length = 32
  | .trimSet _ _ band => band.length = 8
  | .storeWrite _ _ len _ payload => payload.length = len.toNat
  | .configWrite _ _ len _ data => data.length = len.toNat
  | .fwStage _ _ len _ data => data.length = len.toNat
  | .seatingConfirmed | .strapSample _ _ _ | .inputPrechargeStart | .inputSwitchClose | .inputPrechargeTimeout
  | .prechargeHoldoffEnd | .storeReady | .removalProcedure | .removalProcedureComplete | .vinUnusable _ | .handOver
  | .inputSwitchOpenOnBattery | .vinExcursion | .returnCountComplete | .ratioBalanceEnd | .vinReturn | .vhRestartStagger
  | .vhRestartTimeout _ | .lastWordCommitEnd | .packUnusable _ | .btsOpen | .reserveLow | .holdupLow | .icehouseExit
  | .eppresFall _ | .epSeatingStable _ | .descReadRetry _ | .descReadTimeout _ | .epPrechargeComplete _
  | .prechargeTimeout _ | .epPrechargeIntervalEnd _ | .epStartupEnd _ | .startupFail _ | .ocSustained _ | .ocFast _
  | .reverse _ | .eppresRise _ | .epHeldRestart _ | .pulseSkipEntry _ | .pulseSkipExit _ | .idleEntry | .idleWake
  | .phaseAdd _ | .burstAdd _ | .phaseRespacingEnd _ | .phaseShed _ | .shedRampDownEnd _ | .quietEnd _ _ | .shedCancel _
  | .hintHoldEnd _ | .poolMoveWaitTimeout | .phaseOutOfService _ _ _ | .ocLatch _ _ | .imbalance _ | .vclNop _ _ _ _ _
  | .setv _ _ _ _ | .hint _ _ _ _ _ | .getv _ _ _ _ | .geti _ _ _ _ _ | .getvm _ _ _ _ _ | .truncated _ _ | .slewStep _ _
  | .settled _ | .vclSlewStall _ | .slewEpisodeEnd _ | .rampEnd _ | .scanStart | .sliceRotation
  | .sliceCalibrationEnd _ _ _ | .averagingWindowEnd | .refSettled | .outputEnergyCheckpoint | .seqStepComplete _
  | .seqTimeout _ | .windowBreach _ | .goodSet _ | .enRise | .enFall | .offMinElapsed | .fltnFall | .retryDue
  | .retryStart | .retryCountReset | .clearFaultLineTest _ | .xevEdge _ _ | .prmCycle | .listenComplete _ | .joinRetry
  | .followerSilent _ | .orphanHold | .orphanTimeout | .cabEntryComplete | .cabEntryTimeout | .prmTimeCompare
  | .relayTimeout | .cabClearTest _ | .comparison | .stuckBitstream _ | .inputCauseClear _ | .recordAppended _ _
  | .deferredSigningEnd | .appendAfterReclaim | .flashEraseComplete _ | .flashProgramComplete _ | .idleCompaction _
  | .checkpointBase _ _ | .sramScrub _ | .gaugeStateCheckpoint | .preconditionDone | .cvReached | .chargeTermination
  | .topoffEnd | .recharge | .chargeTimerExpiry | .preconditionTimeout | .chargerBandChange _ | .chargerRestartEval
  | .packProbe _ | .keepaliveTimeout | .gaugeUpdate _ | .restPoint _ | .noRest | .packFoundOcv _ | .gatehouseLockClose
  | .lodgeSupplyReturn | .gatehouseLockOpen | .lodgeReset | .trimWindow | .alarmFire _ | .calendarOverflow | .holdover
  | .timeSetApply | .readSnapshot _ _ _ | .repeatedStartInAck _ _ | .startInsideByte _ _ | .stopInsideByte _ _
  | .onePointerByte _ | .stalledTransaction _ _ | .addressMatchWake _ | .wakeTimeout _ | .arbitrationLoss | .arbLostCond
  | .accTransactionRestart | .accAddressNackRetry | .sdaStuckLow | .sclHeldLow | .cmdSubmit _ _ | .replyPlaced _
  | .replyTaken _ | .unlockTimeout | .unlockLockoutEnd | .wdtEnable _ | .wdtDisable _ | .wdtKeyArm | .wdtService _
  | .wdtExpiry | .hrstnRelease | .graceExpiry | .coreWatchdogExpiry | .coreResetExecute | .faultLogWrite
  | .fwActivateReset | .trialConfirm | .bulkBurst _ _ _ | .rstn | .restartMainReset | .standbyWake _ | .sealBreak _
  | .servicePrepareComplete | .nop _ | .ident _ | .getStatus _ | .jobStatus _ _ | .coreReset _ _ | .moduleRestart _ _
  | .configUnlock _ _ | .servicePrepare _ | .enterStandby _ _ | .enterIcehouse _ _ | .powerUp _ | .powerDown _
  | .railSet _ _ _ | .railGet _ _ | .railEnable _ _ _ | .supervisorSet _ _ _ _ _ | .poolAssign _ _ _ | .poolStatus _
  | .portSet _ _ _ _ | .portStatus _ _ | .budgetSet _ _ _ _ | .seqStatus _ | .clearFault _ | .telemRead _ _
  | .telemPeaks _ _ | .adcScanSet _ _ _ _ _ | .adcRead _ _ _ | .energyRead _ | .metroStatus _ _ | .metroRead _ _
  | .registerRead _ _ | .sessionStatus _ _ | .recordRead _ _ | .recordAck _ _ | .publicKeyRead _ _ | .calRead _ _
  | .seal _ | .chargerSet _ _ _ _ _ _ _ | .chargerKeepalive _ | .chargerStatus _ | .gaugeRead _ | .gaugeResetLearn _
  | .backupSet _ _ _ _ _ _ | .timeSet _ _ _ | .timeGet _ | .alarmSet _ _ _ _ _ _ | .alarmStatus _
  | .eventCountersClear _ _ | .faultRead _ _ | .faultPolicySet _ _ _ | .faultLogRead _ _ _ | .bulkRead _ _ _ _ _
  | .storeRead _ _ | .configCommit _ _ _ | .storeStatus _ | .lifecycleGet _ | .lifecycleAdvance _ _ | .fwVerify _ _
  | .fwActivate _ _ | .identityCertRead _ _ _ | .retire _ _ | .promStatus _ | .promRoster _ _ _ | .promAdmitPolicy _ _ _
  | .follyInject _ _ _ | .follyForce _ _ _ | .diagCompare _ _ _ _ _ | .diagSelftest _ _ | .fltnHigh | .rstnRelease
  | .lodgeSupplyMove => true

end Sys2Proof
end

