-- ==== Sys2Proof/Tests/Slice0.lean ====
section
/-! SUPPORT. The author's own tests: ill-formed commands that the check refuses, the manual's worked examples, one step of a few
commands, and for each obligation with hypotheses a state and operands that meet all of them, clause by clause. -/

namespace Sys2Proof.Machine

/- Theorems one after another: elaborated side by side, hundreds of small evaluations each hold a thread and its stack. -/
set_option Elab.async false

/-! ## States for the tests -/

/-- A seated module in RUN with main power, booted, unlocked, in OPERATIONAL with its calibration entered. -/
def liveHw : Hw :=
  let h := Hw.reset
  { h with
    ins := { h.ins with state := .ready, inputSwitch := true, vbatSwitch := .closed, storeReady := true, mainOn := true, booted := true, presA := true, presB := true, path33 := true }
    pwr := { h.pwr with vinUsable := true }
    seq := { h.seq with state := .run, hrst := true, pgood := true }
    lodge := { h.lodge with lock := false, supply := .main, status := .setLocal }
    proto := { h.proto with unlock := { h.proto.unlock with unlocked := true } }
    life := { h.life with calEntered := true, keySlot := some 1, keyGen := 1 } }

def live (fs : List (Hw → Hw)) : State := ⟨fs.foldl (fun h f => f h) liveHw, []⟩

/-- The packet of a command in process at its address, judged and not yet answered. -/
def bring (i : Instr) (h : Hw) : Hw :=
  match packetOf i with
  | some (o, op, ps) =>
    let b := [BitVec.ofNat 8 op, 7, 0, BitVec.ofNat 8 ps.length] ++ ps
    h.modMbx o (fun m => { m with inProc := some (1, b ++ be 2 (crc16 b).toNat), judged := true, ready := none })
  | none => h

/-- Calibration bytes with ENABLE set; a valid record that disables its channel. -/
def calOn : List Byte := [1, 1] ++ List.replicate 46 0
def calOff : List Byte :=
  let b : List Byte := [1, 0, 0, 0] ++ be 4 1000 ++ be 4 100 ++ be 4 0x40000000 ++ be 4 0x40000000 ++ List.replicate 24 0
  b ++ be 4 (crc32 b).toNat

def entry1 : FaultEntry :=
  { num := 1, err := ⟨0x42, 0, 0, 0, 0, 0⟩, reaction := 1, coalesced := 0, detail := [], instant := 0 }

/-- Both parameter halves with erased sectors. -/
def roomy (h : Hw) : Hw :=
  { h with store := { h.store with half0 := ⟨[], [0, 0], 0⟩, half1 := ⟨[], [0, 0], 0⟩ } }

/-- The hardware that a next state holds. -/
def after : Out → Hw
  | .next t => t.hw
  | _ => Hw.reset

theorem crcBytes_append (w : Nat) (p i : BitVec w) (a b : List Byte) :
    crcBytes w p i (a ++ b) = crcBytes w p (crcBytes w p i a) b := List.foldl_append

theorem blank16_crc0 : crcBytes 32 0x04C11DB7 0xFFFFFFFF (List.replicate 16 0xFF) = 0xa79c3203 := by decide +kernel
theorem blank16_crc1 : crcBytes 32 0x04C11DB7 0xa79c3203 (List.replicate 16 0xFF) = 0x2f2ac900 := by decide +kernel
theorem blank16_crc2 : crcBytes 32 0x04C11DB7 0x2f2ac900 (List.replicate 16 0xFF) = 0x8417e798 := by decide +kernel
theorem blank16_crc3 : crcBytes 32 0x04C11DB7 0x8417e798 (List.replicate 16 0xFF) = 0xa21e790f := by decide +kernel

theorem blank64 : Cells.read 0xFF [] 0 64 = List.replicate 16 0xFF ++ List.replicate 16 0xFF ++ List.replicate 16 0xFF ++
    List.replicate 16 0xFF := by decide +kernel

/-- The CRC-32 of 64 erased bytes, in steps the kernel evaluates. -/
theorem blank64_crc : crc32 (Cells.read 0xFF [] 0 64) = 0xa21e790f := by
  rw [blank64, crc32, crcBytes_append, crcBytes_append, crcBytes_append, blank16_crc0, blank16_crc1, blank16_crc2, blank16_crc3]

/-- No phase of a pool in which none ramps down is in RAMP_DOWN, whatever its number. -/
theorem noneRampsDown {h : Hw} (hp : (h.pool.phases.all fun p => p.cond != .rampDown) = true) (q : Nat) :
    (h.phase q).cond ≠ .rampDown := by
  unfold Hw.phase
  rw [List.getD_eq_getElem?_getD]
  rcases hq : h.pool.phases[q]? with _ | p
  · simp [Phase.parked]
  · have := List.all_eq_true.mp hp p (List.mem_of_getElem? hq)
    simpa using this

/-! ## Witnesses: each clause's hypotheses can be met together, at boundary values of its operands -/

theorem meets_StepTakesTheFrontCommand :
    (∃ (s : State) (c : Instr) (rest : List Instr), s.pending = c :: rest) ∧
    (∃ (s : State), s.pending = []) :=
  ⟨⟨⟨liveHw, [.enRise, .enFall]⟩, .enRise, [.enFall], by decide +kernel⟩,
   ⟨State.reset, by decide +kernel⟩⟩

theorem meets_EveryCommandAnswers :
    (∃ (_s : State) (mv : Nat), 80000 < mv) :=
  ⟨live [], 80001, by decide +kernel⟩

theorem meets_FusesOnlyBurn :
    (∃ (s : State) (t : State), step s = .next t ∧ FusesInRange s.hw.life) :=
  ⟨⟨liveHw, [.enRise]⟩, _, rfl, by unfold FusesInRange; decide +kernel⟩

theorem meets_BuffersStayCanonical :
    (∃ (s : State) (t : State), step s = .next t ∧ s.hw.buffersOk = true) :=
  ⟨⟨liveHw, [.enRise]⟩, _, rfl, by decide +kernel⟩

theorem meets_PartsKeepTheirNumber :
    (∃ (s : State) (t : State), step s = .next t ∧ s.hw.shaped = true) :=
  ⟨⟨liveHw, [.enRise]⟩, _, rfl, by decide +kernel⟩

theorem meets_AbsentUnitsAnswer :
    (∃ (s : State) (o : Origin) (c : Instr), (((∃ b, c = .metroStatus o b) ∨ (∃ b, c = .metroRead o b) ∨ (∃ m, c =
      .registerRead o m) ∨ (∃ m i, c = .openSession o m i) ∨ (∃ n i, c = .closeSession o n i) ∨ (∃ n, c =
      .sessionStatus o n) ∨ (∃ g, c = .publicKeyRead o g) ∨ (∃ b r d, c = .calWrite o b r d) ∨ (∃ b, c = .calRead o b)
      ∨ c = .seal o)) ∧ s.hw.metering = false ∧ s.hw.reaches c = true ∧ s.hw.pwr.commit = none ∧ s.hw.bootWork =
      false) ∧
    (∃ (s : State) (o : Origin) (c : Instr), (((∃ a b d i e f, c = .chargerSet o a b d i e f) ∨ c = .chargerKeepalive
      o ∨ c = .chargerStatus o ∨ c = .gaugeRead o ∨ c = .gaugeResetLearn o ∨ (∃ p, c = .gaugeTableLoad o p) ∨ (∃ e v l
      u f, c = .backupSet o e v l u f) ∨ (∃ a, c = .enterIcehouse o a))) ∧ s.hw.holdup = false ∧ s.hw.reaches c = true
      ∧ s.hw.pwr.commit = none ∧ s.hw.bootWork = false) :=
  ⟨⟨live [fun h => { h with factory := { h.factory with variant := .P } }, fun h => bring (.seal .A : Instr) h, fun h
    => { h with pwr := { h.pwr with commit := none } }], .A, .seal .A, by simp, by decide +kernel⟩,
   ⟨live [fun h => { h with factory := { h.factory with variant := .P } }, fun h => bring (.gaugeRead .A : Instr) h,
     fun h => { h with pwr := { h.pwr with commit := none } }], .A, .gaugeRead .A, by simp, by decide +kernel⟩⟩

theorem meets_StatesOverrideTheChecks :
    (∃ (h : Hw) (o : Origin) (p : Nat × List Byte), (h.mbx o).inProc = some p ∧ (h.mbx o).judged = false ∧ h.serves =
      true ∧ h.turn o = true ∧ h.pwr.commit.isSome = true ∧ 4 ≤ p.2.length) ∧
    (∃ (h : Hw) (i : Instr) (o : Origin) (op : Nat) (ps : List Byte) (_body : Hw → Hw), packetOf i = some (o, op, ps)
      ∧ h.reaches i = true ∧ h.pwr.commit.isSome = true) ∧
    (∃ (h : Hw) (o : Origin) (p : Nat × List Byte), (h.mbx o).inProc = some p ∧ (h.mbx o).judged = false ∧ h.serves =
      true ∧ h.turn o = true ∧ h.pwr.commit = none ∧ h.log.signPending = true ∧ (p.2.getD 0 0).toNat ≠ 1 ∧ (p.2.getD 0
      0).toNat ≠ 2 ∧ 4 ≤ p.2.length) ∧
    (∃ (h : Hw) (i : Instr) (o : Origin) (op : Nat) (ps : List Byte) (_body : Hw → Hw), packetOf i = some (o, op, ps)
      ∧ h.reaches i = true ∧ h.pwr.commit = none ∧ h.log.signPending = true ∧ op ≠ 0x01 ∧ op ≠ 0x02) ∧
    (∃ (h : Hw) (i : Instr) (o : Origin) (op : Nat) (ps : List Byte) (_body : Hw → Hw) (c : CmdInfo), packetOf i =
      some (o, op, ps) ∧ cmdInfo op = some c ∧ h.reaches i = true ∧ h.pwr.commit = none ∧ h.bootWork = false ∧
      h.unitAbsent c.unit = false ∧ h.classRefuses c.cls o = none ∧ h.inLimp = true ∧ op ∉ [0x01, 0x02, 0x03, 0xA2,
      0xA3, 0xA4, 0x71, 0xA0, 0xA5, 0x48, 0x46, 0x83]) ∧
    (∃ (op : Nat), op ∈ [0x01, 0x02, 0x03, 0xA2, 0xA3, 0xA4, 0x71, 0xA0, 0xA5, 0x48, 0x46, 0x83]) ∧
    (∃ (s : State) (o : Origin), s.hw.inLimp = true ∧ s.hw.carries (.ident o) = true) :=
  ⟨⟨(live [fun h => h.modMbx .A (fun y => { y with inProc := some (1, [(0x10 : Byte), 7, 0, 0]) }), fun h =>
    { h with pwr := { h.pwr with commit := some 1 } }]).hw, .A, (1, [(0x10 : Byte), 7, 0, 0]), by decide +kernel⟩,
   ⟨(live [fun h => bring (.powerUp .A : Instr) h, fun h => { h with pwr := { h.pwr with commit := some 1 } }]).hw,
     .powerUp .A, .A, 0x10, [], id, by decide +kernel⟩,
   ⟨(live [fun h => { h with pwr := { h.pwr with commit := none } }, fun h =>
     { h with log := { h.log with signPending := true } }, fun h => h.modMbx .A (fun y =>
     { y with inProc := some (1, [(0x10 : Byte), 7, 0, 0]) })]).hw, .A, (1, [(0x10 : Byte), 7, 0, 0]), by
     decide +kernel⟩,
   ⟨(live [fun h => bring (.powerUp .A : Instr) h, fun h => { h with pwr := { h.pwr with commit := none } }, fun h =>
     { h with log := { h.log with signPending := true } }]).hw, .powerUp .A, .A, 0x10, [], id, by decide +kernel⟩,
   ⟨(live [fun h => bring (.powerUp .A : Instr) h, fun h => { h with pwr := { h.pwr with commit := none } }, fun h =>
     { h with seq := { h.seq with state := .limp } }]).hw, .powerUp .A, .A, 0x10, [], id, (cmdInfo 0x10).getD ⟨0,
     .opened, .core, 0, none⟩, by decide +kernel⟩,
   ⟨0x83, by decide +kernel⟩,
   ⟨live [fun h => { h with seq := { h.seq with state := .limp } }, fun h => bring (.ident .A) h], .A, by
     decide +kernel⟩⟩

theorem meets_PrivilegeClassesRefuse :
    (∃ (h : Hw) (i : Instr) (o : Origin) (op : Nat) (ps : List Byte) (_body : Hw → Hw) (c : CmdInfo) (st : Nat),
      packetOf i = some (o, op, ps) ∧ cmdInfo op = some c ∧ h.reaches i = true ∧ h.pwr.commit = none ∧ h.bootWork =
      false ∧ h.unitAbsent c.unit = false ∧ h.classRefuses c.cls o = some st) ∧
    (∃ (s : State), s.hw.carries (.faultRead .V 1) = true ∧ s.hw.faults.cap = none) :=
  ⟨⟨(live [fun h => bring (.powerUp .V : Instr) h, fun h => { h with pwr := { h.pwr with commit := none } }]).hw,
    .powerUp .V, .V, 0x10, [], id, (cmdInfo 0x10).getD ⟨0, .opened, .core, 0, none⟩, stDenied, by decide +kernel⟩,
   ⟨live [fun h => bring (.faultRead .V 1) h, fun h => { h with faults := { h.faults with cap := none } }], by
     decide +kernel⟩⟩

theorem meets_FollowersKeepCabinetTime :
    (∃ (s : State) (o : Origin) (v : DWord) (f : Byte), s.hw.carries (.timeSet o v f) = true ∧ s.hw.prm.role =
      .follower ∧ s.hw.prm.link = .active) ∧
    (∃ (s : State) (o : Origin) (v : DWord) (f : Byte), s.hw.carries (.timeSet o v f) = true ∧ ((s.hw.prm.role =
      .standalone ∨ s.hw.prm.role = .follower ∧ s.hw.prm.link = .orphan)) ∧ s.hw.lodge.lock = false ∧ timeOk v = true
      ∧ f.toNat ≤ 1 ∧ 18 ≤ s.hw.logSpace ∧ 3 ≤ s.hw.logErased ∧ s.hw.lodge.timeSet = none) :=
  ⟨⟨live [fun h => bring (.timeSet .A 0 0) h, fun h => { h with prm := { h.prm with role := .follower } }, fun h =>
    { h with prm := { h.prm with link := .active } }], .A, 0, 0, by decide +kernel⟩,
   ⟨live [fun h => bring (.timeSet .A 0x0000000001000000 1) h, fun h =>
     { h with lodge := { h.lodge with lock := false } }, fun h =>
     { h with lodge := { h.lodge with timeSet := none } }], .A, 0x0000000001000000, 1, by decide +kernel⟩⟩

theorem meets_RepliesKeepTheirLayout :
    (∃ (h : Hw) (o : Origin) (p : Nat × List Byte) (op : Nat) (len : Nat) (md : Nat) (m : Hw), (h.mbx o).inProc = some
      p ∧ (h.mbx o).judged = false ∧ h.serves = true ∧ h.turn o = true ∧ h.pwr.commit = none ∧ h.bootWork = false ∧ 4
      ≤ p.2.length ∧ op = (p.2.getD 0 0).toNat ∧ md = (p.2.getD 2 0).toNat ∧ len = (p.2.getD 3 0).toNat ∧ m = h.modMbx
      o (fun x => { x with judged := true })) ∧
    (∃ (h : Hw) (o : Origin) (p : Nat × List Byte), (h.mbx o).inProc = some p ∧ (h.mbx o).judged = false ∧ h.serves =
      true ∧ h.turn o = true ∧ p.2.length < 4) ∧
    (∃ (h : Hw) (i : Instr) (o : Origin) (op : Nat) (ps : List Byte) (_body : Hw → Hw), packetOf i = some (o, op, ps)
      ∧ ((h.judge o).spelled o op ps) = false) ∧
    (∃ (h : Hw) (i : Instr) (o : Origin) (op : Nat) (ps : List Byte) (_body : Hw → Hw) (c : CmdInfo), packetOf i =
      some (o, op, ps) ∧ cmdInfo op = some c ∧ h.reaches i = true ∧ h.pwr.commit = none ∧ h.bootWork = false ∧
      h.unitAbsent c.unit = false ∧ h.classRefuses c.cls o = none ∧ h.inLimp = false ∧ h.shaped = false) :=
  ⟨⟨(live [fun h => { h with pwr := { h.pwr with commit := none } }, fun h => h.modMbx .A (fun y =>
    { y with inProc := some (1, [(0x10 : Byte), 7, 0, 0]) })]).hw, .A, (1, [(0x10 : Byte), 7, 0, 0]), 0x10, 0, 0,
    (live [fun h => h.modMbx .A (fun y => { y with inProc := some (1, [(0x10 : Byte), 7, 0, 0]) })]).hw.modMbx .A (fun
    x => { x with judged := true }), by decide +kernel⟩,
   ⟨(live [fun h => h.modMbx .A (fun y => { y with inProc := some (1, [(1 : Byte), 7]) })]).hw, .A, (1, [(1 : Byte),
     7]), by decide +kernel⟩,
   ⟨(live [bring (.powerDown .A)]).hw, .powerUp .A, .A, 0x10, [], id, by decide +kernel⟩,
   ⟨(live [fun h => bring (.powerUp .A : Instr) h, fun h => { h with pwr := { h.pwr with commit := none } }, fun h =>
     { h with ports := [] }]).hw, .powerUp .A, .A, 0x10, [], id, (cmdInfo 0x10).getD ⟨0, .opened, .core, 0, none⟩, by
     decide +kernel⟩⟩

theorem meets_InsertionReachesTheStoreCharge :
    (∃ (s : State), (s.hw.ins.state = .unseated ∨ s.hw.ins.state = .removed)) ∧
    (∃ (s : State), s.hw.ins.state = .waitVin ∧ s.hw.ins.holdoff = false) ∧
    (∃ (s : State), s.hw.ins.state = .inputPrecharge) ∧
    (∃ (s : State), s.hw.ins.state = .inputPrecharge ∧ s.hw.ins.fails < 2) ∧
    (∃ (s : State), s.hw.ins.state = .inputPrecharge ∧ 2 ≤ s.hw.ins.fails) ∧
    (∃ (s : State), s.hw.ins.state = .ready ∧ s.hw.pwr.ret = .precharge) ∧
    (∃ (s : State), s.hw.ins.state = .ready ∧ s.hw.pwr.onBattery = true ∧ s.hw.pwr.ret = .counting ∧ s.hw.pwr.commit =
      none ∧ s.hw.ins.inputSwitch = false ∧ s.hw.ins.holdoff = false ∧ 3 ≤ s.hw.ins.fails ∧ 0x42 ∉ s.hw.faults.forces) :=
  ⟨⟨live [fun h => { h with ins := { h.ins with state := .removed } }], by decide +kernel⟩,
   ⟨live [fun h => { h with ins := { h.ins with state := .waitVin } }, fun h =>
     { h with ins := { h.ins with holdoff := false } }], by decide +kernel⟩,
   ⟨live [fun h => { h with ins := { h.ins with state := .inputPrecharge } }], by decide +kernel⟩,
   ⟨live [fun h => { h with ins := { h.ins with state := .inputPrecharge } }, fun h =>
     { h with ins := { h.ins with fails := 1 } }], by decide +kernel⟩,
   ⟨live [fun h => { h with ins := { h.ins with state := .inputPrecharge } }, fun h =>
     { h with ins := { h.ins with fails := 2 } }], by decide +kernel⟩,
   ⟨live [fun h => { h with ins := { h.ins with state := .ready } }, fun h =>
     { h with pwr := { h.pwr with ret := .precharge } }], by decide +kernel⟩,
   ⟨live [fun h => { h with ins := { h.ins with state := .ready } }, fun h =>
     { h with pwr := { h.pwr with onBattery := true } }, fun h => { h with pwr := { h.pwr with ret := .counting } },
     fun h => { h with pwr := { h.pwr with commit := none } }, fun h =>
     { h with ins := { h.ins with inputSwitch := false } }, fun h =>
     { h with ins := { h.ins with holdoff := false } }, fun h => { h with ins := { h.ins with fails := 3 } }], by
     decide +kernel⟩⟩

theorem meets_BootServesWithAChargedStore :
    (∃ (s : State), s.hw.ins.mainOn = true ∧ s.hw.ins.storeReady = false) ∧
    (∃ (s : State) (_b : BootSample), s.hw.ins.mainOn = true ∧ s.hw.ins.booted = false ∧ s.hw.lines.rstLow = false ∧
      s.hw.lodge.lock = false ∧ s.hw.pwr.commit = none ∧ s.hw.ins.state ≠ .removing ∧ s.hw.ins.state ≠ .removed) :=
  ⟨⟨live [fun h => { h with ins := { h.ins with mainOn := true } }, fun h =>
    { h with ins := { h.ins with storeReady := false } }], by decide +kernel⟩,
   ⟨live [fun h => { h with ins := { h.ins with mainOn := true } }, fun h =>
     { h with ins := { h.ins with booted := false } }, fun h => { h with lines := { h.lines with rstLow := false } },
     fun h => { h with lodge := { h.lodge with lock := false } }, fun h =>
     { h with pwr := { h.pwr with commit := none } }],
     { phaseFail := 0x80, sliceFail := 0, temps := [2500, 2500, 2500, 2500, 2500, 2500], weak := [] }, by
     decide +kernel⟩⟩

theorem meets_RemovalPowersOff :
    (∃ (s : State), s.hw.ins.state ≠ .unseated ∧ s.hw.ins.state ≠ .removing ∧ s.hw.ins.state ≠ .removed ∧
      s.hw.ins.state ≠ .inputFault) ∧
    (∃ (s : State), s.hw.ins.state = .inputFault) ∧
    (∃ (s : State), s.hw.ins.state = .removing ∧ s.hw.pwr.commit = none) :=
  ⟨⟨live [], by decide +kernel⟩,
   ⟨live [fun h => { h with ins := { h.ins with state := .inputFault } }], by decide +kernel⟩,
   ⟨live [fun h => { h with ins := { h.ins with state := .removing } }, fun h =>
     { h with pwr := { h.pwr with commit := none } }], by decide +kernel⟩⟩

theorem meets_VinLossIsJudged :
    (∃ (_s : State) (mv : Nat), 32000 ≤ mv ∧ mv ≤ 62000) ∧
    (∃ (_s : State) (mv : Nat), (mv < 32000 ∨ 62000 < mv) ∧ mv ≤ 80000) ∧
    (∃ (_s : State) (mv : Nat), 80000 < mv) :=
  ⟨⟨live [], 32000, by decide +kernel⟩,
   ⟨live [], 31999, by decide +kernel⟩,
   ⟨live [], 80001, by decide +kernel⟩⟩

theorem meets_BatteryOperationComesAndGoes :
    (∃ (s : State), s.hw.pwr.handingOver = true ∧ s.hw.pwr.btsOpen = false ∧ s.hw.holdup = true) ∧
    (∃ (s : State), (s.hw.pwr.onBattery = true ∨ s.hw.pwr.handingOver = true)) ∧
    (∃ (s : State), s.hw.pwr.onBattery = true ∧ s.hw.pwr.ret ≠ .idle ∧ s.hw.pwr.ret ≠ .ramp) ∧
    (∃ (s : State), s.hw.pwr.onBattery = true ∧ s.hw.pwr.ret = .ramp) ∧
    (∃ (s : State), s.hw.pwr.onBattery = true ∧ s.hw.pwr.ret = .counting ∧ s.hw.pwr.commit = none) ∧
    (∃ (s : State), s.hw.pwr.ret = .balance) ∧
    (∃ (s : State), s.hw.pwr.ret = .ramp ∧ s.hw.pwr.onBattery = true ∧ s.hw.faults.forces = []) ∧
    (∃ (s : State), s.hw.pwr.vhNext = true ∧ (s.hw.out 11).on = false ∧ s.hw.noVin = false ∧ s.hw.restartsVh = true ∧
      s.hw.faults.forces = [] ∧ s.hw.shaped = true) ∧
    (∃ (s : State) (vh : Fin 2) (start : Nat), s.hw.pwr.vhWait.getD vh none = some start ∧ ((s.hw.out (10 + vh)).on =
      false ∨ (s.hw.out (10 + vh)).good = true)) ∧
    (∃ (s : State) (vh : Fin 2) (start : Nat), s.hw.pwr.vhWait.getD vh none = some start ∧ (s.hw.out (10 + vh)).on =
      true ∧ (s.hw.out (10 + vh)).good = false ∧ s.hw.seq.state = .run ∧ s.hw.leaving = false) :=
  ⟨⟨live [fun h => { h with pwr := { h.pwr with handingOver := true } }, fun h =>
    { h with pwr := { h.pwr with btsOpen := false } }], by decide +kernel⟩,
   ⟨live [fun h => { h with pwr := { h.pwr with handingOver := true } }], by decide +kernel⟩,
   ⟨live [fun h => { h with pwr := { h.pwr with onBattery := true } }, fun h =>
     { h with pwr := { h.pwr with ret := .balance } }], by decide +kernel⟩,
   ⟨live [fun h => { h with pwr := { h.pwr with onBattery := true } }, fun h =>
     { h with pwr := { h.pwr with ret := .ramp } }, fun h => { h with pwr := { h.pwr with ret := .ramp } }], by
     decide +kernel⟩,
   ⟨live [fun h => { h with pwr := { h.pwr with onBattery := true } }, fun h =>
     { h with pwr := { h.pwr with ret := .counting } }, fun h => { h with pwr := { h.pwr with commit := none } }], by
     decide +kernel⟩,
   ⟨live [fun h => { h with pwr := { h.pwr with ret := .balance } }], by decide +kernel⟩,
   ⟨live [fun h => { h with pwr := { h.pwr with ret := .ramp } }, fun h =>
     { h with pwr := { h.pwr with onBattery := true } }, fun h =>
     { h with faults := { h.faults with forces := [] } }], by decide +kernel⟩,
   ⟨live [fun h => { h with pwr := { h.pwr with vhNext := true } }, fun h => h.modOut 11 (fun y =>
     { y with on := false }), fun h => { h with faults := { h.faults with forces := [] } }], by decide +kernel⟩,
   ⟨live [fun h => { h with pwr := { h.pwr with vhWait := [none, some 0] } }], 1, 0, by decide +kernel⟩,
   ⟨live [fun h => h.modOut (10 + 1) (fun y => { y with on := true }), fun h => h.modOut (10 + 1) (fun y =>
     { y with good := false }), fun h => { h with seq := { h.seq with state := .run } }, fun h =>
     { h with pwr := { h.pwr with vhWait := [none, some 0] } }], 1, 0, by decide +kernel⟩⟩

theorem meets_LossAndIcehouseEndSafely :
    (∃ (s : State) (n : Nat), s.hw.pwr.commit = some n ∧ n ≠ 4 ∧ s.hw.ins.state ≠ .removing) ∧
    (∃ (s : State), s.hw.pwr.commit = some 4 ∧ s.hw.ins.state = .ready ∧ s.hw.seq.state = .standby) ∧
    (∃ (s : State) (_c : PackLoss), s.hw.pwr.onBattery = true ∧ s.hw.pwr.handingOver = false ∧ s.hw.commits = true ∧
      s.hw.ins.state = .ready ∧ s.hw.seq.state = .run) ∧
    (∃ (s : State) (_c : PackLoss), s.hw.pwr.handingOver = true ∧ s.hw.commits = true ∧ s.hw.ins.state = .ready ∧
      s.hw.seq.state = .run) ∧
    (∃ (s : State), s.hw.holdup = true ∧ s.hw.pwr.btsOpen = false ∧ s.hw.pwr.onBattery = false ∧ s.hw.pwr.handingOver
      = false) ∧
    (∃ (s : State), s.hw.pwr.onBattery = true ∧ s.hw.pwr.reserveLow = false ∧ s.hw.holdup = true) ∧
    (∃ (s : State), s.hw.pwr.onBattery = true ∧ s.hw.pwr.lowPackRaised = false ∧ s.hw.holdup = true) ∧
    (∃ (s : State), s.hw.ins.state = .waitVin ∧ s.hw.pwr.icehouse = true) :=
  ⟨⟨live [fun h => { h with pwr := { h.pwr with commit := some 1 } }], 1, by decide +kernel⟩,
   ⟨live [fun h => { h with pwr := { h.pwr with commit := some 4 } }, fun h =>
     { h with ins := { h.ins with state := .ready } }, fun h => { h with seq := { h.seq with state := .standby } }],
     by decide +kernel⟩,
   ⟨live [fun h => { h with pwr := { h.pwr with onBattery := true } }, fun h =>
     { h with pwr := { h.pwr with handingOver := false } }, fun h => { h with ins := { h.ins with state := .ready } },
     fun h => { h with seq := { h.seq with state := .run } }], .exhausted, by decide +kernel⟩,
   ⟨live [fun h => { h with pwr := { h.pwr with handingOver := true } }, fun h =>
     { h with ins := { h.ins with state := .ready } }, fun h => { h with seq := { h.seq with state := .run } }],
     .temperature, by decide +kernel⟩,
   ⟨live [fun h => { h with pwr := { h.pwr with btsOpen := false } }, fun h =>
     { h with pwr := { h.pwr with onBattery := false } }, fun h =>
     { h with pwr := { h.pwr with handingOver := false } }], by decide +kernel⟩,
   ⟨live [fun h => { h with pwr := { h.pwr with onBattery := true } }, fun h =>
     { h with pwr := { h.pwr with reserveLow := false } }], by decide +kernel⟩,
   ⟨live [fun h => { h with pwr := { h.pwr with onBattery := true } }, fun h =>
     { h with pwr := { h.pwr with lowPackRaised := false } }], by decide +kernel⟩,
   ⟨live [fun h => { h with ins := { h.ins with state := .waitVin } }, fun h =>
     { h with pwr := { h.pwr with icehouse := true } }], by decide +kernel⟩⟩

theorem meets_PortsJudgeTheirBoards :
    (∃ (s : State) (p : Fin 6), p.val < s.hw.ports.length ∧ (s.hw.port p).state = .empty ∧ s.hw.live = true) ∧
    (∃ (s : State) (_p : Fin 6), s.hw.live = false) ∧
    (∃ (s : State) (p : Fin 6), (s.hw.port p).state = .seating ∧ (s.hw.port p).eppresLow = true ∧ (s.hw.port
      p).waiting = false ∧ s.hw.portAllowed p = true ∧ s.hw.portMode p ≠ .off) ∧
    (∃ (s : State) (p : Fin 6), (s.hw.port p).state = .seating ∧ (s.hw.port p).eppresLow = true ∧ (s.hw.port
      p).waiting = false ∧ s.hw.portAllowed p = true ∧ s.hw.portMode p = .off ∧ (s.hw.port p).spacing = false) ∧
    (∃ (s : State) (p : Fin 6), (s.hw.port p).state = .descCheck ∧ (s.hw.port p).reread = true) ∧
    (∃ (s : State) (p : Fin 6) (d : List Byte), (s.hw.port p).state = .descCheck ∧ s.hw.reading = some p.val ∧
      s.hw.acc.waiting = false ∧ d.length = 16 ∧ s.hw.hit 0x0E = false) ∧
    (∃ (s : State) (p : Fin 6) (d : List Byte), (s.hw.port p).state = .descCheck ∧ s.hw.reading = some p.val ∧
      s.hw.acc.waiting = false ∧ d.length ≠ 16 ∧ s.hw.faults.cap = none) ∧
    (∃ (s : State) (p : Fin 6), (s.hw.port p).state = .descCheck ∧ s.hw.reading = some p.val ∧ s.hw.acc.waiting =
      false ∧ s.hw.acc.nacks < 2) ∧
    (∃ (s : State) (p : Fin 6), (s.hw.port p).state = .descCheck ∧ s.hw.reading = some p.val ∧ s.hw.acc.waiting =
      false ∧ 2 ≤ s.hw.acc.nacks) ∧
    (∃ (s : State) (p : Fin 6), (s.hw.port p).state = .descCheck ∧ (s.hw.port p).waiting = false) :=
  ⟨⟨live [fun h => h.modPort 5 (fun y => { y with state := .empty })], 5, by decide +kernel⟩,
   ⟨live [fun h => { h with ins := { h.ins with booted := false } }], 5, by decide +kernel⟩,
   ⟨live [fun h => h.modPort 5 (fun y => { y with state := .seating }), fun h => h.modPort 5 (fun y =>
     { y with eppresLow := true }), fun h => h.modPort 5 (fun y => { y with waiting := false }), fun h => h.modPort 5
     (fun y => { y with enabled := true })], 5, by decide +kernel⟩,
   ⟨live [fun h => h.modPort 5 (fun y => { y with state := .seating }), fun h => h.modPort 5 (fun y =>
     { y with eppresLow := true }), fun h => h.modPort 5 (fun y => { y with waiting := false }), fun h => h.modPort 5
     (fun y => { y with spacing := false }), fun h => h.modPort 5 (fun y => { y with enabled := true }), fun h =>
     { h with image := { h.image with outs := h.image.outs.modify 17 (fun y => { y with mode := .off }) } }], 5, by
     decide +kernel⟩,
   ⟨live [fun h => h.modPort 0 (fun y => { y with state := .descCheck }), fun h => h.modPort 0 (fun y =>
     { y with reread := true })], 0, by decide +kernel⟩,
   ⟨live [fun h => h.modPort 5 (fun y => { y with state := .descCheck }), fun h =>
     { h with acc := { h.acc with waiting := false } }, fun h => { h with acc := { h.acc with port := some 5 } }, fun
     h => h.modPort 5 (fun y => { y with state := .descCheck, reread := false })], 5, List.replicate 16 0, by
     decide +kernel⟩,
   ⟨live [fun h => h.modPort 5 (fun y => { y with state := .descCheck }), fun h =>
     { h with acc := { h.acc with waiting := false } }, fun h => { h with faults := { h.faults with cap := none } },
     fun h => { h with acc := { h.acc with port := some 5 } }, fun h => h.modPort 5 (fun y =>
     { y with state := .descCheck, reread := false })], 5, List.replicate 15 0, by decide +kernel⟩,
   ⟨live [fun h => h.modPort 5 (fun y => { y with state := .descCheck }), fun h =>
     { h with acc := { h.acc with waiting := false } }, fun h => { h with acc := { h.acc with port := some 5 } }, fun
     h => h.modPort 5 (fun y => { y with state := .descCheck, reread := false }), fun h =>
     { h with image := { h.image with outs := h.image.outs.modify 17 (fun y => { y with mode := .required }) } }], 5,
     by decide +kernel⟩,
   ⟨live [fun h => h.modPort 5 (fun y => { y with state := .descCheck }), fun h =>
     { h with acc := { h.acc with waiting := false } }, fun h => { h with acc := { h.acc with port := some 5 } }, fun
     h => h.modPort 5 (fun y => { y with state := .descCheck, reread := false }), fun h =>
     { h with acc := { h.acc with nacks := 2 } }, fun h =>
     { h with image := { h.image with outs := h.image.outs.modify 17 (fun y => { y with mode := .required }) } }], 5,
     by decide +kernel⟩,
   ⟨live [fun h => h.modPort 0 (fun y => { y with state := .descCheck }), fun h => h.modPort 0 (fun y =>
     { y with waiting := false })], 0, by decide +kernel⟩⟩

theorem meets_PortsStartUpAndLatch :
    (∃ (s : State) (p : Fin 6), (s.hw.port p).state = .precharge) ∧
    (∃ (s : State) (p : Fin 6), (s.hw.port p).waiting = true ∧ s.hw.portAllowed p = true) ∧
    (∃ (s : State) (p : Fin 6), (s.hw.port p).waiting = false) ∧
    (∃ (s : State) (p : Fin 6), (s.hw.port p).state = .startup ∧ s.hw.faults.forces = []) ∧
    (∃ (s : State) (p : Fin 6) (c : Instr) (reason : Nat), ((c = .prechargeTimeout p ∧ reason = 4 ∧ (s.hw.port
      p).state = .precharge) ∨ (c = .startupFail p ∧ reason = 3 ∧ (s.hw.port p).state = .startup) ∨ (c = .ocSustained
      p ∧ reason = 2 ∧ (s.hw.port p).state = .on) ∨ (c = .ocFast p ∧ reason = 1 ∧ ((s.hw.port p).state = .precharge ∨
      (s.hw.port p).state = .startup ∨ (s.hw.port p).state = .on)) ∨ (c = .reverse p ∧ reason = 5 ∧ ((s.hw.port
      p).state = .precharge ∨ (s.hw.port p).state = .startup ∨ (s.hw.port p).state = .on)))) :=
  ⟨⟨live [fun h => h.modPort 0 (fun y => { y with state := .precharge })], 0, by decide +kernel⟩,
   ⟨live [fun h => h.modPort 5 (fun y => { y with waiting := true }), fun h => h.modPort 5 (fun y =>
     { y with enabled := true })], 5, by decide +kernel⟩,
   ⟨live [fun h => h.modPort 0 (fun y => { y with waiting := false })], 0, by decide +kernel⟩,
   ⟨live [fun h => h.modPort 0 (fun y => { y with state := .startup }), fun h =>
     { h with faults := { h.faults with forces := [] } }], 0, by decide +kernel⟩,
   ⟨live [fun h => h.modPort 5 (fun y => { y with state := .startup })], 5, .reverse 5, 5, by decide +kernel⟩⟩

theorem meets_PortsEmptyAndRetryTheBus :
    (∃ (s : State) (p : Fin 6), p.val < s.hw.ports.length ∧ s.hw.live = true) ∧
    (∃ (s : State) (p : Fin 6), p.val < s.hw.ports.length ∧ s.hw.live = false) ∧
    (∃ (s : State) (p : Fin 6), (s.hw.port p).state = .held ∧ (s.hw.port p).eppresLow = true ∧ (s.hw.port p).waiting =
      false ∧ s.hw.portAllowed p = true ∧ (s.hw.port p).spacing = false) ∧
    (∃ (s : State) (p : Fin 6), p.val < s.hw.ports.length ∧ (s.hw.port p).state = .held ∧ (s.hw.port p).eppresLow =
      true ∧ (s.hw.port p).waiting = false ∧ s.hw.portAllowed p = true ∧ (s.hw.port p).spacing = true) ∧
    (∃ (s : State) (p : Fin 6), (s.hw.port p).state = .seating ∧ (s.hw.port p).eppresLow = true ∧ (s.hw.port
      p).waiting = false ∧ s.hw.portAllowed p = true ∧ s.hw.portMode p ≠ .off ∧ s.hw.acc.port = none ∧ (∀ q, q < 6 →
      (s.hw.port q).state ≠ .descCheck)) ∧
    (∃ (s : State), s.hw.reading ≠ none) ∧
    (∃ (s : State), s.hw.reading ≠ none ∧ s.hw.acc.waiting = false) ∧
    (∃ (s : State), s.hw.reading ≠ none ∧ s.hw.acc.waiting = false ∧ s.hw.acc.condLosses < 3) ∧
    (∃ (s : State) (p : Nat), s.hw.reading = some p ∧ s.hw.acc.waiting = false ∧ 3 ≤ s.hw.acc.condLosses ∧
      s.hw.faults.cap = none) ∧
    (∃ (s : State), s.hw.reading ≠ none ∧ s.hw.acc.waiting = false ∧ s.hw.acc.nacks < 2) ∧
    (∃ (s : State), s.hw.live = true ∧ s.hw.gone = false ∧ s.hw.faults.cap = none) ∧
    (∃ (s : State), (s.hw.acc.waiting = true ∨ s.hw.reading = none) ∧ s.hw.acc.sclStuck = false ∧ s.hw.live = true ∧
      s.hw.gone = false) ∧
    (∃ (s : State), (s.hw.acc.waiting = true ∨ s.hw.reading = none) ∧ s.hw.acc.sclStuck = true ∧ s.hw.live = true ∧
      s.hw.gone = false) ∧
    (∃ (s : State) (p : Nat), s.hw.reading = some p ∧ s.hw.acc.waiting = false ∧ s.hw.faults.cap = none) :=
  ⟨⟨live [], 5, by decide +kernel⟩,
   ⟨live [fun h => { h with ins := { h.ins with booted := false } }], 5, by decide +kernel⟩,
   ⟨live [fun h => h.modPort 5 (fun y => { y with state := .held }), fun h => h.modPort 5 (fun y =>
     { y with eppresLow := true }), fun h => h.modPort 5 (fun y => { y with waiting := false }), fun h => h.modPort 5
     (fun y => { y with spacing := false }), fun h => h.modPort 5 (fun y => { y with enabled := true })], 5, by
     decide +kernel⟩,
   ⟨live [fun h => h.modPort 5 (fun y => { y with state := .held }), fun h => h.modPort 5 (fun y =>
     { y with eppresLow := true }), fun h => h.modPort 5 (fun y => { y with waiting := false }), fun h => h.modPort 5
     (fun y => { y with spacing := true }), fun h => h.modPort 5 (fun y => { y with enabled := true })], 5, by
     decide +kernel⟩,
   ⟨live [fun h => h.modPort 5 (fun y => { y with state := .seating }), fun h => h.modPort 5 (fun y =>
     { y with eppresLow := true }), fun h => h.modPort 5 (fun y => { y with waiting := false }), fun h =>
     { h with acc := { h.acc with port := none } }, fun h => h.modPort 5 (fun y => { y with enabled := true })], 5, by
     decide +kernel⟩,
   ⟨live [fun h => { h with acc := { h.acc with port := some 5 } }, fun h => h.modPort 5 (fun y =>
     { y with state := .descCheck, reread := false })], by decide +kernel⟩,
   ⟨live [fun h => { h with acc := { h.acc with waiting := false } }, fun h =>
     { h with acc := { h.acc with port := some 5 } }, fun h => h.modPort 5 (fun y =>
     { y with state := .descCheck, reread := false })], by decide +kernel⟩,
   ⟨live [fun h => { h with acc := { h.acc with waiting := false } }, fun h =>
     { h with acc := { h.acc with port := some 5 } }, fun h => h.modPort 5 (fun y =>
     { y with state := .descCheck, reread := false }), fun h => { h with acc := { h.acc with condLosses := 2 } }], by
     decide +kernel⟩,
   ⟨live [fun h => { h with acc := { h.acc with waiting := false } }, fun h =>
     { h with faults := { h.faults with cap := none } }, fun h => { h with acc := { h.acc with port := some 5 } }, fun
     h => h.modPort 5 (fun y => { y with state := .descCheck, reread := false }), fun h =>
     { h with acc := { h.acc with condLosses := 3 } }], 5, by decide +kernel⟩,
   ⟨live [fun h => { h with acc := { h.acc with waiting := false } }, fun h =>
     { h with acc := { h.acc with port := some 5 } }, fun h => h.modPort 5 (fun y =>
     { y with state := .descCheck, reread := false }), fun h => { h with acc := { h.acc with nacks := 1 } }], by
     decide +kernel⟩,
   ⟨live [fun h => { h with faults := { h.faults with cap := none } }], by decide +kernel⟩,
   ⟨live [fun h => { h with acc := { h.acc with sclStuck := false } }], by decide +kernel⟩,
   ⟨live [fun h => { h with acc := { h.acc with sclStuck := true } }], by decide +kernel⟩,
   ⟨live [fun h => { h with acc := { h.acc with waiting := false } }, fun h =>
     { h with faults := { h.faults with cap := none } }, fun h => { h with acc := { h.acc with port := some 5 } }, fun
     h => h.modPort 5 (fun y => { y with state := .descCheck, reread := false })], 5, by decide +kernel⟩⟩

theorem meets_LightLoadAndIdle :
    (∃ (s : State) (c : Fin 14) (load : Nat), s.hw.maySkip c = true ∧ load < (s.hw.skipLimits c).1) ∧
    (∃ (s : State) (c : Fin 14) (load : Nat), (s.hw.skipLimits c).2 < load) ∧
    (∃ (s : State), s.hw.seq.state = .run ∧ s.hw.allSkipping = true ∧ s.hw.poolQuiet = true ∧ s.hw.chg.charging =
      false ∧ s.hw.nothingQueued = true ∧ s.hw.portsSettled = true ∧ s.hw.idle.idle = false) ∧
    (∃ (s : State), s.hw.idle.idle = true) :=
  ⟨⟨live [], 12, 1999, by decide +kernel⟩,
   ⟨live [], 13, 3001, by decide +kernel⟩,
   ⟨live [fun h => { h with seq := { h.seq with state := .run } }, fun h =>
     { h with idle := { h.idle with idle := false } }, fun h =>
     { h with idle := { h.idle with skipping := List.replicate 14 true } }], by decide +kernel⟩,
   ⟨live [fun h => { h with idle := { h.idle with idle := true } }], by decide +kernel⟩⟩

theorem meets_GovernorCapsOnOverload :
    (∃ (s : State) (g : GovSample), (s.hw.eff = .seqUp ∨ s.hw.eff = .run ∨ s.hw.eff = .seqDown) ∧ s.hw.pwr.commit =
      none ∧ s.hw.gone = false ∧ s.hw.budget g < g.pIn ∧ s.hw.gov.stage = .normal) ∧
    (∃ (s : State) (g : GovSample), s.hw.idle.idle = true ∧ (s.hw.eff = .seqUp ∨ s.hw.eff = .run ∨ s.hw.eff =
      .seqDown) ∧ s.hw.pwr.commit = none ∧ s.hw.gone = false ∧ s.hw.budget g < g.pIn ∧ s.hw.gov.stage = .normal) ∧
    (∃ (s : State) (g : GovSample), (s.hw.eff = .seqUp ∨ s.hw.eff = .run ∨ s.hw.eff = .seqDown) ∧ s.hw.pwr.commit =
      none ∧ s.hw.gone = false ∧ s.hw.budget g < g.pIn ∧ s.hw.gov.stage = .capped) ∧
    (∃ (s : State) (g : GovSample) (p : Fin 6), (s.hw.eff = .seqUp ∨ s.hw.eff = .run ∨ s.hw.eff = .seqDown) ∧
      s.hw.pwr.commit = none ∧ s.hw.gone = false ∧ s.hw.budget g < g.pIn ∧ s.hw.gov.stage = .derating ∧ 0 < g.vin ∧
      p.val < s.hw.ports.length ∧ ((s.hw.port (p : Nat)).isOff = false ∧ 1 ≤ (s.hw.cfg (12 + (p : Nat))).prio ∧
      (s.hw.cfg (12 + (p : Nat))).prio ≤ 3 ∧ ((s.hw.cfg (12 + (p : Nat))).floorCode) < (s.hw.port (p : Nat)).active ∧
      (max (((s.hw.cfg (12 + (p : Nat))).floorCode)) (((g.portMa.getD (p : Nat) 0 * g.vin - (g.pIn - s.hw.budget g) *
      1000) / g.vin) / 250 - 2)) < (s.hw.port (p : Nat)).active) ∧ ((∀ q, q < 6 → q ≠ p.val → ((s.hw.port q).isOff =
      false ∧ 1 ≤ (s.hw.cfg (12 + q)).prio ∧ (s.hw.cfg (12 + q)).prio ≤ 3 ∧ ((s.hw.cfg (12 + q)).floorCode) <
      (s.hw.port q).active ∧ (max (((s.hw.cfg (12 + q)).floorCode)) (((g.portMa.getD q 0 * g.vin - (g.pIn -
      s.hw.budget g) * 1000) / g.vin) / 250 - 2)) < (s.hw.port q).active) → (s.hw.cfg (12 + q)).prio < (s.hw.cfg (12 +
      p)).prio ∨ (s.hw.cfg (12 + q)).prio = (s.hw.cfg (12 + p)).prio ∧ q < p.val))) ∧
    (∃ (s : State) (g : GovSample), (s.hw.eff = .seqUp ∨ s.hw.eff = .run ∨ s.hw.eff = .seqDown) ∧ s.hw.pwr.commit =
      none ∧ s.hw.gone = false ∧ s.hw.budget g < g.pIn ∧ s.hw.gov.stage = .derating ∧ ((∀ q, q < 6 → (s.hw.port
      q).isOff = true ∨ (s.hw.cfg (12 + q)).prio = 0 ∨ 3 < (s.hw.cfg (12 + q)).prio ∨ (s.hw.port q).active ≤ (s.hw.cfg
      (12 + q)).floorCode))) ∧
    (∃ (s : State) (g : GovSample) (k : Fin 18), (s.hw.eff = .seqUp ∨ s.hw.eff = .run ∨ s.hw.eff = .seqDown) ∧
      s.hw.pwr.commit = none ∧ s.hw.gone = false ∧ s.hw.budget g < g.pIn ∧ s.hw.gov.stage = .shedding ∧
      s.hw.gov.nextShed ≤ max s.hw.clk (s.hw.gov.lastEval + 1000) ∧ k.val < s.hw.outs.length ∧ (1 ≤ (s.hw.cfg (k :
      Nat)).prio ∧ (s.hw.cfg (k : Nat)).prio ≤ 3 ∧ (s.hw.out (k : Nat)).on = true ∧ (s.hw.out (k : Nat)).shed = false)
      ∧ ((∀ j, j < 18 → j ≠ k.val → (1 ≤ (s.hw.cfg j).prio ∧ (s.hw.cfg j).prio ≤ 3 ∧ (s.hw.out j).on = true ∧
      (s.hw.out j).shed = false) → (s.hw.cfg j).prio < (s.hw.cfg k).prio ∨ (s.hw.cfg j).prio = (s.hw.cfg k).prio ∧ j <
      k.val))) ∧
    (∃ (s : State) (g : GovSample), (s.hw.eff = .seqUp ∨ s.hw.eff = .run ∨ s.hw.eff = .seqDown) ∧ s.hw.pwr.commit =
      none ∧ s.hw.gone = false ∧ s.hw.budget g < g.pIn ∧ s.hw.gov.stage = .shedding ∧ s.hw.gov.nextShed ≤ max s.hw.clk
      (s.hw.gov.lastEval + 1000) ∧ ((∀ j, j < 18 → (s.hw.cfg j).prio = 0 ∨ 3 < (s.hw.cfg j).prio ∨ (s.hw.out j).on =
      false ∨ (s.hw.out j).shed = true))) ∧
    (∃ (s : State) (g : GovSample), (s.hw.eff = .seqUp ∨ s.hw.eff = .run ∨ s.hw.eff = .seqDown) ∧ s.hw.pwr.commit =
      none ∧ s.hw.gone = false ∧ s.hw.budget g < g.pIn ∧ (s.hw.gov.stage = .exhausted ∨ s.hw.gov.stage = .shedding ∧
      max s.hw.clk (s.hw.gov.lastEval + 1000) < s.hw.gov.nextShed)) ∧
    (∃ (s : State) (g : GovSample) (e : Shed) (es : List Shed) (since : Nat), (s.hw.eff = .seqUp ∨ s.hw.eff = .run ∨
      s.hw.eff = .seqDown) ∧ s.hw.pwr.commit = none ∧ s.hw.gone = false ∧ 10 * g.pIn ≤ 9 * s.hw.budget g ∧
      s.hw.gov.shedList = e :: es ∧ 10 * (g.pIn + e.power) ≤ 9 * s.hw.budget g ∧ e.since = some since ∧ since +
      1000000 ≤ max s.hw.clk (s.hw.gov.lastEval + 1000) ∧ e.out < 18) ∧
    (∃ (s : State) (g : GovSample) (e : Shed) (es : List Shed), (s.hw.eff = .seqUp ∨ s.hw.eff = .run ∨ s.hw.eff =
      .seqDown) ∧ s.hw.pwr.commit = none ∧ s.hw.gone = false ∧ g.pIn ≤ s.hw.budget g ∧ s.hw.gov.shedList = e :: es ∧ 9
      * s.hw.budget g < 10 * (g.pIn + e.power)) ∧
    (∃ (s : State) (g : GovSample) (p : Nat) (ps : List Nat) (due : Nat), (s.hw.eff = .seqUp ∨ s.hw.eff = .run ∨
      s.hw.eff = .seqDown) ∧ s.hw.pwr.commit = none ∧ s.hw.gone = false ∧ 10 * g.pIn ≤ 9 * s.hw.budget g ∧
      s.hw.gov.shedList = [] ∧ s.hw.gov.derated = p :: ps ∧ s.hw.gov.nextRaise = some due ∧ p < s.hw.ports.length) ∧
    (∃ (s : State) (g : GovSample) (since : Nat), (s.hw.eff = .seqUp ∨ s.hw.eff = .run ∨ s.hw.eff = .seqDown) ∧
      s.hw.pwr.commit = none ∧ s.hw.gone = false ∧ 10 * g.pIn ≤ 9 * s.hw.budget g ∧ s.hw.gov.shedList = [] ∧
      s.hw.gov.derated = [] ∧ s.hw.gov.lowSince = some since ∧ since + 1000000 ≤ max s.hw.clk (s.hw.gov.lastEval +
      1000)) ∧
    (∃ (s : State) (g : GovSample), (s.hw.eff = .seqUp ∨ s.hw.eff = .run ∨ s.hw.eff = .seqDown) ∧ s.hw.pwr.commit =
      none ∧ s.hw.gone = false ∧ 9 * s.hw.budget g < 10 * g.pIn ∧ g.pIn ≤ s.hw.budget g) ∧
    (∃ (s : State) (_g : GovSample), s.hw.eff ≠ .seqUp ∧ s.hw.eff ≠ .run ∧ s.hw.eff ≠ .seqDown) :=
  ⟨⟨live [fun h => { h with pwr := { h.pwr with commit := none } }, fun h =>
    { h with gov := { h.gov with stage := .normal } }],
    { pIn := 200000, epPower := 0, vhPower := 0, shedPower := 0, vin := 48000, portMa := [] }, by decide +kernel⟩,
   ⟨live [fun h => { h with idle := { h.idle with idle := true } }, fun h =>
     { h with pwr := { h.pwr with commit := none } }, fun h => { h with gov := { h.gov with stage := .normal } }],
     { pIn := 200000, epPower := 0, vhPower := 0, shedPower := 0, vin := 48000, portMa := [] }, by decide +kernel⟩,
   ⟨live [fun h => { h with pwr := { h.pwr with commit := none } }, fun h =>
     { h with gov := { h.gov with stage := .capped } }],
     { pIn := 200000, epPower := 0, vhPower := 0, shedPower := 0, vin := 48000, portMa := [] }, by decide +kernel⟩,
   ⟨live [fun h => { h with pwr := { h.pwr with commit := none } }, fun h =>
     { h with gov := { h.gov with stage := .derating } }, fun h => h.modPort 5 (fun y =>
     { y with state := .on, active := 16 }), fun h =>
     { h with image := { h.image with outs := h.image.outs.modify 17 (fun y => { y with prio := 1 }) } }],
     { pIn := 200000, epPower := 0, vhPower := 0, shedPower := 0, vin := 48000, portMa := [] }, 5, by decide +kernel⟩,
   ⟨live [fun h => { h with pwr := { h.pwr with commit := none } }, fun h =>
     { h with gov := { h.gov with stage := .derating } }],
     { pIn := 200000, epPower := 0, vhPower := 0, shedPower := 0, vin := 48000, portMa := [] }, by decide +kernel⟩,
   ⟨live [fun h => { h with pwr := { h.pwr with commit := none } }, fun h =>
     { h with gov := { h.gov with stage := .shedding } }, fun h => h.modOut 11 (fun y =>
     { y with on := true, shed := false }), fun h =>
     { h with image := { h.image with outs := h.image.outs.modify 11 (fun y => { y with prio := 1 }) } }],
     { pIn := 200000, epPower := 0, vhPower := 0, shedPower := 0, vin := 48000, portMa := [] }, 11, by
     decide +kernel⟩,
   ⟨live [fun h => { h with pwr := { h.pwr with commit := none } }, fun h =>
     { h with gov := { h.gov with stage := .shedding } }],
     { pIn := 200000, epPower := 0, vhPower := 0, shedPower := 0, vin := 48000, portMa := [] }, by decide +kernel⟩,
   ⟨live [fun h => { h with pwr := { h.pwr with commit := none } }, fun h =>
     { h with gov := { h.gov with stage := .exhausted } }],
     { pIn := 200000, epPower := 0, vhPower := 0, shedPower := 0, vin := 48000, portMa := [] }, by decide +kernel⟩,
   ⟨live [fun h => { h with pwr := { h.pwr with commit := none } }, fun h =>
     { h with gov := { h.gov with shedList := ({ out := 17, power := 1000, since := some 0 } : Shed) :: ([] : List Shed) } },
     fun h => { h with clk := 1000000 }],
     { pIn := 1000, epPower := 0, vhPower := 0, shedPower := 0, vin := 48000, portMa := [] },
     { out := 17, power := 1000, since := some 0 }, [], 0, by decide +kernel⟩,
   ⟨live [fun h => { h with pwr := { h.pwr with commit := none } }, fun h =>
     { h with gov := { h.gov with shedList := ({ out := 17, power := 200000, since := some 0 } : Shed) :: ([] : List Shed) } }],
     { pIn := 1000, epPower := 0, vhPower := 0, shedPower := 0, vin := 48000, portMa := [] },
     { out := 17, power := 200000, since := some 0 }, [], by decide +kernel⟩,
   ⟨live [fun h => { h with pwr := { h.pwr with commit := none } }, fun h =>
     { h with gov := { h.gov with shedList := [] } }, fun h =>
     { h with gov := { h.gov with derated := 5 :: ([] : List Nat) } }, fun h =>
     { h with gov := { h.gov with nextRaise := some 0 } }],
     { pIn := 1000, epPower := 0, vhPower := 0, shedPower := 0, vin := 48000, portMa := [] }, 5, [], 0, by
     decide +kernel⟩,
   ⟨live [fun h => { h with pwr := { h.pwr with commit := none } }, fun h =>
     { h with gov := { h.gov with shedList := [] } }, fun h => { h with gov := { h.gov with derated := [] } }, fun h
     => { h with gov := { h.gov with lowSince := some 0 } }, fun h => { h with clk := 1000000 }],
     { pIn := 1000, epPower := 0, vhPower := 0, shedPower := 0, vin := 48000, portMa := [] }, 0, by decide +kernel⟩,
   ⟨live [fun h => { h with pwr := { h.pwr with commit := none } }],
     { pIn := 140000, epPower := 0, vhPower := 0, shedPower := 0, vin := 48000, portMa := [] }, by decide +kernel⟩,
   ⟨live [fun h => { h with seq := { h.seq with state := .off } }],
     { pIn := 200000, epPower := 0, vhPower := 0, shedPower := 0, vin := 48000, portMa := [] }, by decide +kernel⟩⟩

theorem meets_PhasesAreAdded :
    (∃ (s : State) (k : Fin 4) (p : Nat), s.hw.shaped = true ∧ (s.hw.out k).on = true ∧ s.hw.pool.active k < (s.hw.cfg
      k).maxPh ∧ p < 8 ∧ (∀ q, q < 8 → (s.hw.phase q).cond = .quiet → (s.hw.phase q).serving ≠ k + 1) ∧ ((((s.hw.phase
      (p : Nat)).cond = .standby ∧ (s.hw.phase (p : Nat)).owner = k + 1) ∧ ((s.hw.phase (if (p : Nat) % 2 = 0 then (p
      : Nat) + 1 else (p : Nat) - 1)).cond = .active ∧ (s.hw.phase (if (p : Nat) % 2 = 0 then (p : Nat) + 1 else (p :
      Nat) - 1)).serving = k + 1) ∧ ∀ q, q < p → ((s.hw.phase q).cond = .standby ∧ (s.hw.phase q).owner = k + 1) → ¬
      ((s.hw.phase (if q % 2 = 0 then q + 1 else q - 1)).cond = .active ∧ (s.hw.phase (if q % 2 = 0 then q + 1 else q
      - 1)).serving = k + 1)) ∨ (((s.hw.phase (p : Nat)).cond = .standby ∧ (s.hw.phase (p : Nat)).owner = k + 1) ∧ ∀
      q, q < 8 → ((s.hw.phase q).cond = .standby ∧ (s.hw.phase q).owner = k + 1) → p ≤ q ∧ ¬ ((s.hw.phase (if q % 2 =
      0 then q + 1 else q - 1)).cond = .active ∧ (s.hw.phase (if q % 2 = 0 then q + 1 else q - 1)).serving = k + 1)) ∨
      ((s.hw.cfg k).lend = true ∧ (∀ q, q < 8 → ¬ ((s.hw.phase q).cond = .standby ∧ (s.hw.phase q).owner = k + 1)) ∧
      ((s.hw.phase (p : Nat)).cond = .parked) ∧ ((s.hw.phase (if (p : Nat) % 2 = 0 then (p : Nat) + 1 else (p : Nat) -
      1)).cond = .active ∧ (s.hw.phase (if (p : Nat) % 2 = 0 then (p : Nat) + 1 else (p : Nat) - 1)).serving = k + 1)
      ∧ ∀ q, q < p → ((s.hw.phase q).cond = .parked) → ¬ ((s.hw.phase (if q % 2 = 0 then q + 1 else q - 1)).cond =
      .active ∧ (s.hw.phase (if q % 2 = 0 then q + 1 else q - 1)).serving = k + 1)) ∨ ((s.hw.cfg k).lend = true ∧ (∀
      q, q < 8 → ¬ ((s.hw.phase q).cond = .standby ∧ (s.hw.phase q).owner = k + 1)) ∧ ((s.hw.phase (p : Nat)).cond =
      .parked) ∧ ∀ q, q < 8 → ((s.hw.phase q).cond = .parked) → p ≤ q ∧ ¬ ((s.hw.phase (if q % 2 = 0 then q + 1 else q
      - 1)).cond = .active ∧ (s.hw.phase (if q % 2 = 0 then q + 1 else q - 1)).serving = k + 1)))) ∧
    (∃ (s : State) (k : Fin 4) (p : Nat), s.hw.shaped = true ∧ (s.hw.out k).on = true ∧ s.hw.pool.active k < (s.hw.cfg
      k).maxPh ∧ p < 8 ∧ (s.hw.phase p).cond = .quiet ∧ (s.hw.phase p).serving = k + 1 ∧ (∀ q, q < p → (s.hw.phase
      q).cond = .quiet → (s.hw.phase q).serving ≠ k + 1)) ∧
    (∃ (s : State) (k : Fin 4), s.hw.shaped = true ∧ (s.hw.out k).on = true ∧ (∀ q, q < 8 → (s.hw.phase q).cond =
      .quiet → (s.hw.phase q).serving ≠ k + 1) ∧ (∀ q, q < 8 → (s.hw.phase q).owner = k + 1 → (s.hw.phase q).cond ≠
      .standby) ∧ ((s.hw.cfg k).lend = false ∨ (∀ q, q < 8 → (s.hw.phase q).cond ≠ .parked))) ∧
    (∃ (s : State) (claims : BitVec 4) (w : Fin 4) (k : Fin 4) (p : Nat), s.hw.shaped = true ∧ w ≠ k ∧ claims = (1 :
      BitVec 4) <<< w.val ||| (1 : BitVec 4) <<< k.val ∧ ((s.hw.cfg w).prio < (s.hw.cfg k).prio ∨ (s.hw.cfg w).prio =
      (s.hw.cfg k).prio ∧ w < k) ∧ (s.hw.cfg k).prio < 4 ∧ ((∀ i : Fin 4, i = w ∨ i = k → (s.hw.out i).on = true ∧
      s.hw.pool.active i < (s.hw.cfg i).maxPh ∧ (s.hw.cfg i).lend = true ∧ ∀ q, q < 8 → (s.hw.phase q).cond ≠ .quiet ∧
      ((s.hw.phase q).owner = i + 1 → (s.hw.phase q).cond ≠ .standby))) ∧ p < 8 ∧ (∀ q, q < 8 → ((s.hw.phase q).cond =
      .parked ↔ q = p))) ∧
    (∃ (s : State) (claims : BitVec 4) (k : Fin 4) (j : Fin 4) (p : Nat), s.hw.shaped = true ∧ claims.getLsbD k = true
      ∧ claims.getLsbD j = true ∧ k ≠ j ∧ ((∀ i : Fin 4, claims.getLsbD i = true → i ≠ k → (s.hw.cfg k).prio <
      (s.hw.cfg i).prio ∨ (s.hw.cfg k).prio = (s.hw.cfg i).prio ∧ k < i)) ∧ (s.hw.cfg k).prio < 4 ∧ (s.hw.out k).on =
      true ∧ s.hw.pool.active k < (s.hw.cfg k).maxPh ∧ s.hw.pick k = some p) ∧
    (∃ (s : State) (k : Fin 4), s.hw.shaped = true ∧ (s.hw.out k).on = true) :=
  ⟨⟨live [fun h => h.modOut 3 (fun y => { y with on := true }), fun h => h.modPhase 7 (fun y =>
    { y with cond := .standby, owner := 4 }), fun h =>
    { h with image := { h.image with outs := h.image.outs.modify 3 (fun y => { y with maxPh := 8 }) } }], 3, 7, by
    decide +kernel, by decide +kernel, by decide +kernel, by decide +kernel, by decide +kernel, .inr (.inl (by
    decide +kernel))⟩,
   ⟨live [fun h => h.modOut 0 (fun y => { y with on := true }), fun h => h.modPhase 0 (fun y =>
     { y with cond := .quiet }), fun h => h.modPhase 0 (fun y => { y with serving := 0 + 1 }), fun h => h.modPhase 0
     (fun y => { y with cond := .quiet, serving := 1 })], 0, 0, by decide +kernel⟩,
   ⟨live [fun h => h.modOut 3 (fun y => { y with on := true })], 3, by decide +kernel⟩,
   ⟨live [fun h => { h with pool := { h.pool with phases := h.pool.phases.map (fun y => { y with cond := .oos }) } },
     fun h =>
     { h with image := { h.image with outs := h.image.outs.map (fun y => { y with lend := true, maxPh := 8 }) } }, fun
     h => h.modOut 2 (fun y => { y with on := true }), fun h => h.modOut 3 (fun y => { y with on := true }), fun h =>
     h.modPhase 7 (fun y => { y with cond := .parked })], 12, 2, 3, 7, by decide +kernel⟩,
   ⟨live [fun h => h.modOut 0 (fun y => { y with on := true }), fun h => h.modOut 0 (fun y => { y with on := true }),
     fun h => h.modOut 3 (fun y => { y with on := true }), fun h => h.modPhase 0 (fun y =>
     { y with cond := .standby })], 9, 0, 3, 0, by decide +kernel⟩,
   ⟨live [fun h => h.modOut 0 (fun y => { y with on := true })], 0, by decide +kernel⟩⟩

theorem meets_PhasesAreShedAndMoved :
    (∃ (s : State) (k : Fin 4), s.hw.shaped = true ∧ (s.hw.out k).on = true ∧ s.hw.shedBlocked k = false ∧ (∀ q,
      (s.hw.phase q).cond = .rampDown → (s.hw.phase q).serving ≠ k + 1) ∧ s.hw.pool.move = none ∧ (s.hw.cfg k).minPh <
      s.hw.pool.active k) ∧
    (∃ (s : State) (p : Fin 8), (s.hw.phase p).cond = .rampDown) ∧
    (∃ (s : State) (p : Fin 8), s.hw.shaped = true ∧ (s.hw.phase p).cond = .quiet ∧ s.hw.pool.move = none) ∧
    (∃ (s : State) (p : Fin 8) (m : Move), s.hw.shaped = true ∧ (s.hw.phase p).cond = .quiet ∧ s.hw.pool.move = some m
      ∧ m.phase = p.val ∧ 0 < m.newOwner) ∧
    (∃ (s : State) (p : Fin 8) (m : Move), s.hw.shaped = true ∧ (s.hw.phase p).cond = .quiet ∧ s.hw.pool.move = some m
      ∧ m.phase = p.val ∧ m.newOwner = 0 ∧ (∀ j : Fin 4, (s.hw.out j).on = true → (s.hw.cfg j).minPh ≤ s.hw.pool.owned
      j - (if (s.hw.phase p).owner = j + 1 then 1 else 0))) ∧
    (∃ (s : State) (p : Fin 8) (k : Fin 4) (holds : BitVec 4), s.hw.shaped = true ∧ (s.hw.phase p).cond = .quiet ∧
      (s.hw.phase p).owner = 0 ∧ s.hw.pool.move = none ∧ (s.hw.phase p).claims &&& holds = 1 <<< k.val ∧ (∀ j : Fin 4,
      (s.hw.out j).on = true → (s.hw.cfg j).minPh ≤ s.hw.pool.owned j) ∧ (s.hw.out k).on = true ∧ s.hw.pool.active k <
      (s.hw.cfg k).maxPh ∧ (s.hw.cfg k).prio < 4 ∧ (s.hw.cfg k).lend = true ∧ s.hw.pick k = none) ∧
    (∃ (s : State) (p : Fin 8), (s.hw.phase p).cond = .rampDown) ∧
    (∃ (s : State) (_k : Fin 4), s.hw.shaped = true) ∧
    (∃ (s : State) (m : Move) (j : Job), s.hw.pool.move = some m ∧ (s.hw.phase m.phase).cond = .active ∧ j ∈
      s.hw.proto.jobs ∧ j.num = m.job ∧ j.state = .running) :=
  ⟨⟨live [fun h => h.modOut 0 (fun y => { y with on := true }), fun h =>
    { h with pool := { h.pool with move := none } }, fun h => h.modOut 0 (fun y => { y with rampEnded := true }), fun
    h => h.modPhase 0 (fun y => { y with cond := .active, serving := 1 }), fun h => h.modPhase 1 (fun y =>
    { y with cond := .active, serving := 1 }), fun h => h.modPhase 2 (fun y =>
    { y with cond := .active, serving := 1 })], 0, by decide +kernel, by decide +kernel, by decide +kernel, fun q hq
    => absurd hq (noneRampsDown (by decide +kernel) q), by decide +kernel, by decide +kernel⟩,
   ⟨live [fun h => h.modPhase 0 (fun y => { y with cond := .rampDown })], 0, by decide +kernel⟩,
   ⟨live [fun h => h.modPhase 0 (fun y => { y with cond := .quiet }), fun h =>
     { h with pool := { h.pool with move := none } }], 0, by decide +kernel⟩,
   ⟨live [fun h => h.modPhase 7 (fun y => { y with cond := .quiet }), fun h =>
     { h with pool := { h.pool with move := some ({ phase := 7, newOwner := 2, job := 7 } : Move) } }], 7,
     { phase := 7, newOwner := 2, job := 7 }, by decide +kernel⟩,
   ⟨live [fun h => h.modPhase 7 (fun y => { y with cond := .quiet }), fun h =>
     { h with pool := { h.pool with move := some ({ phase := 7, newOwner := 0, job := 7 } : Move) } }], 7,
     { phase := 7, newOwner := 0, job := 7 }, by decide +kernel⟩,
   ⟨live [fun h => h.modPhase 7 (fun y => { y with cond := .quiet }), fun h => h.modPhase 7 (fun y =>
     { y with owner := 0 }), fun h => { h with pool := { h.pool with move := none } }, fun h => h.modOut 0 (fun y =>
     { y with on := true }), fun h =>
     { h with pool := { h.pool with phases := h.pool.phases.map (fun y => { y with owner := 2, cond := .standby }) } },
     fun h =>
     { h with image := { h.image with outs := h.image.outs.map (fun y => { y with minPh := 0, lend := true }) } }, fun
     h => h.modOut 0 (fun y => { y with on := true }), fun h => h.modPhase 7 (fun y =>
     { y with cond := .quiet, claims := 1, owner := 0 })], 7, 0, 1, by decide +kernel⟩,
   ⟨live [fun h => h.modPhase 0 (fun y => { y with cond := .rampDown })], 0, by decide +kernel⟩,
   ⟨live [], 0, by decide +kernel⟩,
   ⟨live [fun h => { h with pool := { h.pool with move := some { phase := 7, newOwner := 2, job := 7 } } }, fun h =>
     { h with pool := { h.pool with move := some ({ phase := 7, newOwner := 2, job := 7 } : Move) } }, fun h =>
     h.modPhase ({ phase := 7, newOwner := 2, job := 7 } : Move).phase (fun y => { y with cond := .active }), fun h =>
     h.modPhase 7 (fun y => { y with cond := .active }), fun h =>
     { h with proto := { h.proto with jobs := [{ num := 7, op := 0x16, state := .running, status := 0, result := 0, progress := 0, data := [], byCore := true }] } }],
     { phase := 7, newOwner := 2, job := 7 },
     { num := 7, op := 0x16, state := .running, status := 0, result := 0, progress := 0, data := [], byCore := true },
     by decide +kernel⟩⟩

theorem meets_PhaseAndConverterFaults :
    (∃ (s : State) (p : Fin 8) (m : PhaseMonitor) (_oa : Bool), s.hw.shaped = true ∧ s.hw.monitored p m = true) ∧
    (∃ (s : State) (k : Fin 12) (mv : Nat), (s.hw.out k).on = true ∧ (s.hw.seq.state = .seqUp ∨ s.hw.seq.state = .run
      ∨ s.hw.seq.state = .seqDown) ∧ s.hw.leaving = false ∧ 4000 * mv < s.hw.lowerEdge k ∧ (k.val < 4 → 0 <
      s.hw.pool.active k)) ∧
    (∃ (s : State) (vh : Fin 2), (s.hw.out (10 + vh)).on = true ∧ (s.hw.seq.state = .seqUp ∨ s.hw.seq.state = .run ∨
      s.hw.seq.state = .seqDown) ∧ s.hw.leaving = false) :=
  ⟨⟨live [fun h => h.modPhase 7 (fun y => { y with cond := .rampDown })], 7, .gate, false, by decide +kernel⟩,
   ⟨live [fun h => h.modOut 11 (fun y => { y with on := true })], 11, 0, by decide +kernel⟩,
   ⟨live [fun h => h.modOut (10 + 1) (fun y => { y with on := true })], 1, by decide +kernel⟩⟩

theorem meets_LinkRequestsAreAnswered :
    (∃ (s : State) (op : BitVec 4) (rail : BitVec 2) (tog : Bool) (crc : BitVec 4) (c : Instr) (data : Half) (ma10 :
      Int) (mv : Nat), s.hw.live = true ∧ s.hw.hit 0x0B = false ∧ (s.hw.cfg rail.toNat).vclEn = true ∧ crc4
      (requestBits op rail tog 0) = crc ∧ ((op = 0 ∧ c = .vclNop 0 rail tog 0 crc ∧ data = 0) ∨ (op = 3 ∧ c = .getv
      rail tog 0 crc ∧ data = BitVec.ofNat 16 ((s.hw.rail rail.toNat).cls * 8192 + s.hw.refNow rail.toNat)) ∨ (op = 4
      ∧ c = .geti rail tog 0 crc ma10 ∧ data = BitVec.ofInt 16 (max (-32768) (min 32767 ma10))) ∨ (op = 5 ∧ c = .getvm
      rail tog 0 crc mv ∧ data = BitVec.ofNat 16 (min 65535 mv)))) ∧
    (∃ (s : State) (op : BitVec 4) (rail : BitVec 2) (tog : Bool) (payload : Half) (crc : BitVec 4) (c : Instr) (iOut
      : Int) (ma10 : Int) (mv : Nat) (code : Nat), s.hw.live = true ∧ s.hw.hit 0x0B = false ∧ ((op = 0 ∨ 6 ≤ op.toNat)
      ∧ c = .vclNop op rail tog payload crc ∨ op = 1 ∧ c = .setv rail tog payload crc ∨ op = 2 ∧ c = .hint rail tog
      payload crc iOut ∨ op = 3 ∧ c = .getv rail tog payload crc ∨ op = 4 ∧ c = .geti rail tog payload crc ma10 ∨ op =
      5 ∧ c = .getvm rail tog payload crc mv) ∧ ((crc4 (requestBits op rail tog payload) ≠ crc) ∧ code = 1 ∨ ¬ (crc4
      (requestBits op rail tog payload) ≠ crc) ∧ (6 ≤ op.toNat ∨ (op = 0 ∨ op = 3 ∨ op = 4 ∨ op = 5) ∧ payload ≠ 0 ∨
      op = 1 ∧ payload.extractLsb' 10 3 ≠ 0 ∨ op = 2 ∧ payload.extractLsb' 0 8 ≠ 0) ∧ code = 5 ∨ ¬ (crc4 (requestBits
      op rail tog payload) ≠ crc) ∧ ¬ (6 ≤ op.toNat ∨ (op = 0 ∨ op = 3 ∨ op = 4 ∨ op = 5) ∧ payload ≠ 0 ∨ op = 1 ∧
      payload.extractLsb' 10 3 ≠ 0 ∨ op = 2 ∧ payload.extractLsb' 0 8 ≠ 0) ∧ ((s.hw.cfg (rail.toNat)).vclEn = false) ∧
      code = 3 ∨ ¬ (crc4 (requestBits op rail tog payload) ≠ crc) ∧ ¬ (6 ≤ op.toNat ∨ (op = 0 ∨ op = 3 ∨ op = 4 ∨ op =
      5) ∧ payload ≠ 0 ∨ op = 1 ∧ payload.extractLsb' 10 3 ≠ 0 ∨ op = 2 ∧ payload.extractLsb' 0 8 ≠ 0) ∧ ¬ ((s.hw.cfg
      (rail.toNat)).vclEn = false) ∧ ((op = 1 ∨ op = 2) ∧ ((s.hw.out (rail.toNat)).on = false ∨ (s.hw.out
      (rail.toNat)).stepDone = false ∨ (s.hw.out (rail.toNat)).shed = true ∨ s.hw.eff = .faultLatched)) ∧ code = 4 ∨ ¬
      (crc4 (requestBits op rail tog payload) ≠ crc) ∧ ¬ (6 ≤ op.toNat ∨ (op = 0 ∨ op = 3 ∨ op = 4 ∨ op = 5) ∧ payload
      ≠ 0 ∨ op = 1 ∧ payload.extractLsb' 10 3 ≠ 0 ∨ op = 2 ∧ payload.extractLsb' 0 8 ≠ 0) ∧ ¬ ((s.hw.cfg
      (rail.toNat)).vclEn = false) ∧ ¬ ((op = 1 ∨ op = 2) ∧ ((s.hw.out (rail.toNat)).on = false ∨ (s.hw.out
      (rail.toNat)).stepDone = false ∨ (s.hw.out (rail.toNat)).shed = true ∨ s.hw.eff = .faultLatched)) ∧ (op = 1 ∧
      (560 < (payload.extractLsb' 0 10).toNat ∨ (payload.extractLsb' 0 10).toNat < (s.hw.cfg (rail.toNat)).vMin ∨
      (s.hw.cfg (rail.toNat)).vMax < (payload.extractLsb' 0 10).toNat)) ∧ code = 2)) ∧
    (∃ (s : State) (_op : BitVec 4) (_rail : BitVec 2), s.hw.live = true) :=
  ⟨⟨live [], 0, 0, false, crc4 (requestBits 0 0 false 0), .vclNop 0 0 false 0 (crc4 (requestBits 0 0 false 0)), 0, 0,
    0, by decide +kernel⟩,
   ⟨live [fun h => h.modOut 3 (fun y => { y with on := true, stepDone := true }), fun h =>
     { h with image := { h.image with outs := h.image.outs.modify 3 (fun y => { y with vclEn := true }) } }], 1, 3,
     false, 561, crc4 (requestBits 1 3 false 561), .setv 3 false 561 (crc4 (requestBits 1 3 false 561)), 0, 0, 0, 2,
     by decide +kernel, by decide +kernel, .inr (.inl (by decide +kernel)), .inr (.inr (.inr (.inr (by
     decide +kernel))))⟩,
   ⟨live [], 1, 0, by decide +kernel⟩⟩

theorem meets_LinkCommandsMoveReferences :
    (∃ (s : State) (rail : BitVec 2) (tog : Bool) (payload : Half) (crc : BitVec 4), s.hw.shaped = true ∧ s.hw.live =
      true ∧ s.hw.hit 0x0B = false ∧ (s.hw.cfg rail.toNat).vclEn = true ∧ crc4 (requestBits 1 rail tog payload) = crc
      ∧ payload.extractLsb' 10 3 = 0 ∧ s.hw.vclAccepts rail.toNat = true ∧ (payload.extractLsb' 0 10).toNat ≤ 560 ∧
      (s.hw.cfg rail.toNat).vMin ≤ (payload.extractLsb' 0 10).toNat ∧ (payload.extractLsb' 0 10).toNat ≤ (s.hw.cfg
      rail.toNat).vMax ∧ s.hw.vcl.kept = none) ∧
    (∃ (s : State) (rail : BitVec 2) (tog : Bool) (payload : Half) (crc : BitVec 4) (x : VclKept), s.hw.live = true ∧
      s.hw.hit 0x0B = false ∧ (s.hw.cfg rail.toNat).vclEn = true ∧ crc4 (requestBits 1 rail tog payload) = crc ∧
      payload.extractLsb' 10 3 = 0 ∧ s.hw.vclAccepts rail.toNat = true ∧ (payload.extractLsb' 0 10).toNat ≤ 560 ∧
      (s.hw.cfg rail.toNat).vMin ≤ (payload.extractLsb' 0 10).toNat ∧ (payload.extractLsb' 0 10).toNat ≤ (s.hw.cfg
      rail.toNat).vMax ∧ s.hw.vcl.kept = some x ∧ x.same 1 rail.toNat tog payload = true) ∧
    (∃ (s : State) (rail : BitVec 2) (tog : Bool) (payload : Half) (crc : BitVec 4) (_iOut : Int), s.hw.shaped = true
      ∧ s.hw.live = true ∧ s.hw.hit 0x0B = false ∧ (s.hw.cfg rail.toNat).vclEn = true ∧ crc4 (requestBits 2 rail tog
      payload) = crc ∧ payload.extractLsb' 0 8 = 0 ∧ s.hw.vclAccepts rail.toNat = true ∧ s.hw.vcl.kept = none) ∧
    (∃ (s : State) (k : Fin 12), k.val < 4 ∧ (s.hw.rail k).slewing = true ∧ (s.hw.out k).ref + 5 < codeHalf k
      (s.hw.out k).tgt ∧ (s.hw.out k).on = true) ∧
    (∃ (s : State) (k : Fin 12), k.val < 4 ∧ (s.hw.rail k).slewing = true ∧ codeHalf k (s.hw.out k).tgt + 5 <
      (s.hw.out k).ref ∧ (s.hw.out k).on = true) ∧
    (∃ (_s : State) (k : Fin 12), k.val < 4) ∧
    (∃ (s : State) (k : Fin 12), 4 ≤ k.val ∧ (s.hw.out k).on = true ∧ (s.hw.out k).ramping = true ∧ (s.hw.out k).held
      = false ∧ codeHalf k (s.hw.out k).tgt < s.hw.refHalf k) ∧
    (∃ (s : State) (k : Fin 4), s.hw.shaped = true ∧ (s.hw.out k).on = true ∧ (s.hw.rail k).slewing = false ∧
      (s.hw.out k).rampEnded = true) ∧
    (∃ (s : State) (k : Fin 4), (s.hw.rail k).slewing = true ∧ (s.hw.rail k).stallRaised = false) ∧
    (∃ (s : State) (k : Fin 12), (s.hw.out k).episode = true ∧ (k.val < 4 → (s.hw.rail k).slewing = false) ∧ (4 ≤
      k.val → (s.hw.out k).ramping = false) ∧ (s.hw.out k).ref = codeHalf k (s.hw.out k).tgt) ∧
    (∃ (s : State) (k : Fin 12), (s.hw.out k).on = true ∧ (k.val < 4 → (s.hw.rail k).slewing = true) ∧ (4 ≤ k.val →
      (s.hw.out k).ramping = true ∧ (s.hw.out k).held = false) ∧ s.hw.faults.forces = []) :=
  ⟨⟨live [fun h => { h with vcl := { h.vcl with kept := none } }, fun h => h.modOut 0 (fun y =>
    { y with on := true, stepDone := true })], 0, false, 400, crc4 (requestBits 1 0 false 400), by decide +kernel⟩,
   ⟨live [fun h =>
     { h with vcl := { h.vcl with kept := some ({ op := 1, rail := 0, tog := false, payload := 400, data := 0 } : VclKept) } },
     fun h => h.modOut 0 (fun y => { y with on := true, stepDone := true })], 0, false, 400, crc4 (requestBits 1 0
     false 400), { op := 1, rail := 0, tog := false, payload := 400, data := 0 }, by decide +kernel⟩,
   ⟨live [fun h => { h with vcl := { h.vcl with kept := none } }, fun h => h.modOut 0 (fun y =>
     { y with on := true, stepDone := true })], 0, false, 0x0300, crc4 (requestBits 2 0 false 0x0300), 6000, by
     decide +kernel⟩,
   ⟨live [fun h => h.modRail 3 (fun y => { y with slewing := true }), fun h => h.modOut 3 (fun y =>
     { y with on := true }), fun h => h.modOut 3 (fun y => { y with ref := 1000, tgt := 100 })], 3, by
     decide +kernel⟩,
   ⟨live [fun h => h.modRail 3 (fun y => { y with slewing := true }), fun h => h.modOut 3 (fun y =>
     { y with on := true }), fun h => h.modOut 3 (fun y => { y with ref := 2000, tgt := 100 })], 3, by
     decide +kernel⟩,
   ⟨live [], 3, by decide +kernel⟩,
   ⟨live [fun h => h.modOut 11 (fun y => { y with on := true }), fun h => h.modOut 11 (fun y =>
     { y with ramping := true }), fun h => h.modOut 11 (fun y => { y with held := false }), fun h => h.modOut 11 (fun
     y => { y with ref := 20000, tgt := 0, rampAt := 0 })], 11, by decide +kernel⟩,
   ⟨live [fun h => h.modOut 3 (fun y => { y with on := true }), fun h => h.modRail 3 (fun y =>
     { y with slewing := false }), fun h => h.modOut 3 (fun y => { y with rampEnded := true })], 3, by
     decide +kernel⟩,
   ⟨live [fun h => h.modRail 3 (fun y => { y with slewing := true }), fun h => h.modRail 3 (fun y =>
     { y with stallRaised := false })], 3, by decide +kernel⟩,
   ⟨live [fun h => h.modOut 11 (fun y => { y with on := true, episode := true, ref := 10000, tgt := 0 })], 11, by
     decide +kernel⟩,
   ⟨live [fun h => h.modOut 11 (fun y => { y with on := true }), fun h =>
     { h with faults := { h.faults with forces := [] } }, fun h => h.modOut 11 (fun y =>
     { y with ramping := true, held := false })], 11, by decide +kernel⟩⟩

theorem meets_ScansReplaceTheMirror :
    (∃ (s : State), s.hw.ins.mainOn = true ∧ s.hw.ins.booted = true ∧ s.hw.adc.scanning = false ∧ s.hw.adc.ref =
      .full) ∧
    (∃ (s : State) (_rs : List ChannelResult) (_dt : Nat), s.hw.ins.mainOn = true ∧ s.hw.adc.scanning = true ∧
      s.hw.adc.active ≠ []) :=
  ⟨⟨live [fun h => { h with ins := { h.ins with mainOn := true } }, fun h =>
    { h with ins := { h.ins with booted := true } }, fun h => { h with adc := { h.adc with scanning := false } }, fun
    h => { h with adc := { h.adc with ref := .full } }], by decide +kernel⟩,
   ⟨live [fun h => { h with ins := { h.ins with mainOn := true } }, fun h =>
     { h with adc := { h.adc with scanning := true } }], [], 5000, by decide +kernel⟩⟩

theorem meets_SlicesWindowsAndReference :
    (∃ (s : State), s.hw.ins.mainOn = true ∧ s.hw.adc.sliceOos = 0 ∧ s.hw.adc.scanning = false) ∧
    (∃ (s : State), s.hw.ins.mainOn = true ∧ s.hw.adc.sliceOos = 0 ∧ s.hw.adc.scanning = true) ∧
    (∃ (s : State) (sl : Fin 3), s.hw.adc.calibrating = true ∧ (s.hw.adc.rotation + 2) % 3 = sl.val) ∧
    (∃ (s : State) (sl : Fin 3) (g : Bool) (o : Bool), s.hw.adc.calibrating = true ∧ (s.hw.adc.rotation + 2) % 3 =
      sl.val ∧ (g || o) = true) ∧
    (∃ (s : State), s.hw.adc.restartWindow = true) ∧
    (∃ (s : State), s.hw.ins.mainOn = true ∧ s.hw.adc.restartWindow = false) ∧
    (∃ (s : State), s.hw.ins.mainOn = true ∧ s.hw.adc.ref = .settling) ∧
    (∃ (s : State), s.hw.ins.booted = true ∧ s.hw.pwr.commit = none ∧ s.hw.seq.state ≠ .limp) :=
  ⟨⟨live [fun h => { h with ins := { h.ins with mainOn := true } }, fun h =>
    { h with adc := { h.adc with sliceOos := 0 } }, fun h => { h with adc := { h.adc with scanning := false } }], by
    decide +kernel⟩,
   ⟨live [fun h => { h with ins := { h.ins with mainOn := true } }, fun h =>
     { h with adc := { h.adc with sliceOos := 0 } }, fun h => { h with adc := { h.adc with scanning := true } }], by
     decide +kernel⟩,
   ⟨live [fun h => { h with adc := { h.adc with calibrating := true } }], 2, by decide +kernel⟩,
   ⟨live [fun h => { h with adc := { h.adc with calibrating := true } }], 2, true, false, by decide +kernel⟩,
   ⟨live [fun h => { h with adc := { h.adc with restartWindow := true } }], by decide +kernel⟩,
   ⟨live [fun h => { h with ins := { h.ins with mainOn := true } }, fun h =>
     { h with adc := { h.adc with restartWindow := false } }], by decide +kernel⟩,
   ⟨live [fun h => { h with ins := { h.ins with mainOn := true } }, fun h =>
     { h with adc := { h.adc with ref := .settling } }], by decide +kernel⟩,
   ⟨live [fun h => { h with ins := { h.ins with booted := true } }, fun h =>
     { h with pwr := { h.pwr with commit := none } }], by decide +kernel⟩⟩

theorem meets_SequenceStepsComplete :
    (∃ (s : State) (low : LowSample), s.hw.seq.active = true ∧ s.hw.stepMet low = true ∧ s.hw.stepDue low ≤
      s.hw.stepLimit ∧ s.hw.faults.forces = [] ∧ s.hw.atLast = false ∧ s.hw.seq.dir ≠ .host) ∧
    (∃ (s : State) (low : LowSample), s.hw.seq.active = true ∧ s.hw.stepMet low = true ∧ s.hw.stepDue low ≤
      s.hw.stepLimit ∧ s.hw.faults.forces = [] ∧ s.hw.atLast = true ∧ s.hw.seq.dir = .up ∧ s.hw.seq.state = .seqUp) ∧
    (∃ (s : State) (low : LowSample), s.hw.seq.active = true ∧ s.hw.stepMet low = true ∧ s.hw.stepDue low ≤
      s.hw.stepLimit ∧ s.hw.faults.forces = [] ∧ s.hw.atLast = true ∧ s.hw.seq.dir = .down ∧ s.hw.seq.state = .seqDown
      ∧ s.hw.seq.standbyReq = none ∧ s.hw.seq.limpExit = false ∧ s.hw.seq.pendOn = false ∧ s.hw.seq.service.job =
      none) :=
  ⟨⟨live [fun h => { h with seq := { h.seq with active := true } }, fun h =>
    { h with faults := { h.faults with forces := [] } }, fun h => { h with seq := { h.seq with dir := .up } }, fun h
    => h.modOut 4 (fun y => { y with good := true })], ⟨0, 0⟩, by decide +kernel⟩,
   ⟨live [fun h => { h with seq := { h.seq with active := true } }, fun h =>
     { h with faults := { h.faults with forces := [] } }, fun h => { h with seq := { h.seq with dir := .up } }, fun h
     => { h with seq := { h.seq with state := .seqUp } }, fun h => { h with seq := { h.seq with step := 1 } }, fun h
     => h.modOut 0 (fun y => { y with good := true })], ⟨0, 0⟩, by decide +kernel⟩,
   ⟨live [fun h => { h with seq := { h.seq with active := true } }, fun h =>
     { h with faults := { h.faults with forces := [] } }, fun h => { h with seq := { h.seq with dir := .down } }, fun
     h => { h with seq := { h.seq with state := .seqDown } }, fun h =>
     { h with seq := { h.seq with standbyReq := none } }, fun h => { h with seq := { h.seq with limpExit := false } },
     fun h => { h with seq := { h.seq with pendOn := false } }, fun h =>
     { h with seq := { h.seq with service := { h.seq.service with job := none } } }, fun h =>
     { h with seq := { h.seq with step := 2 } }], ⟨0x10, 0x10⟩, by decide +kernel⟩⟩

theorem meets_TimeoutsAndBreachesLatch :
    (∃ (s : State) (low : LowSample), s.hw.seq.active = true ∧ s.hw.stepMet low = false ∧ (s.hw.seq.state = .seqUp ∧
      s.hw.seq.dir = .up ∨ s.hw.seq.state = .seqDown ∧ s.hw.seq.dir = .down ∨ (s.hw.seq.state = .run ∨ s.hw.seq.state
      = .seqUp) ∧ s.hw.seq.dir = .host) ∧ s.hw.leaving = false) ∧
    (∃ (s : State) (k : Fin 12) (mv : Nat), (s.hw.out k).on = true ∧ (s.hw.out k).sup = .armed ∧ (s.hw.seq.state =
      .seqUp ∨ s.hw.seq.state = .run ∨ s.hw.seq.state = .seqDown) ∧ s.hw.leaving = false ∧ (4000 * mv < s.hw.lowerEdge
      k ∨ s.hw.upperEdge k < 4000 * mv)) ∧
    (∃ (s : State) (k : Fin 12) (mv : Nat), (s.hw.out k).on = true ∧ (s.hw.out k).sup ≠ .armed ∧ (4000 * mv <
      s.hw.lowerEdge k ∨ s.hw.upperEdge k < 4000 * mv)) ∧
    (∃ (s : State) (p : Fin 6) (mv : Nat) (vin : Nat), (s.hw.port p).state = .on ∧ (s.hw.out (12 + p)).on = true ∧
      (s.hw.out (12 + p)).sup = .armed ∧ (s.hw.seq.state = .seqUp ∨ s.hw.seq.state = .run ∨ s.hw.seq.state = .seqDown)
      ∧ s.hw.leaving = false ∧ 1000 * mv < (1000 - windowTenths (s.hw.out (12 + p)).uv) * vin) ∧
    (∃ (s : State) (mv : Nat) (vin : Nat), s.hw.seq.state = .run ∧ s.hw.ins.mainOn = true ∧ s.hw.leaving = false ∧
      s.hw.pwr.handingOver = false ∧ s.hw.pwr.onBattery = false ∧ (400 * mv < 85 * vin ∨ 110 * vin < 400 * mv)) ∧
    (∃ (s : State) (k : Fin 12) (mv : Nat), (s.hw.out k).on = true ∧ (s.hw.out k).rampEnded = true ∧ (s.hw.out k).good
      = false ∧ s.hw.faults.forces = [] ∧ s.hw.insideWindow k mv = true) ∧
    (∃ (h : Hw) (k : Nat), (h.out k).episode = false) :=
  ⟨⟨live [fun h => { h with seq := { h.seq with active := true } }, fun h =>
    { h with seq := { h.seq with state := .seqUp } }, fun h => { h with seq := { h.seq with dir := .up } }], ⟨0, 0⟩,
    by decide +kernel⟩,
   ⟨live [fun h => h.modOut 11 (fun y => { y with on := true }), fun h => h.modOut 11 (fun y =>
     { y with sup := .armed })], 11, 0, by decide +kernel⟩,
   ⟨live [fun h => h.modOut 11 (fun y => { y with on := true })], 11, 65535, by decide +kernel⟩,
   ⟨live [fun h => h.modPort 5 (fun y => { y with state := .on }), fun h => h.modOut (12 + 5) (fun y =>
     { y with on := true }), fun h => h.modOut (12 + 5) (fun y => { y with sup := .armed })], 5, 0, 48000, by
     decide +kernel⟩,
   ⟨live [fun h => { h with seq := { h.seq with state := .run } }, fun h =>
     { h with ins := { h.ins with mainOn := true } }, fun h => { h with pwr := { h.pwr with handingOver := false } },
     fun h => { h with pwr := { h.pwr with onBattery := false } }], 0, 48000, by decide +kernel⟩,
   ⟨live [fun h => h.modOut 11 (fun y => { y with on := true }), fun h => h.modOut 11 (fun y =>
     { y with rampEnded := true }), fun h => h.modOut 11 (fun y => { y with good := false }), fun h =>
     { h with faults := { h.faults with forces := [] } }, fun h => h.modOut 11 (fun y => { y with tgt := 450 })], 11,
     27500, by decide +kernel⟩,
   ⟨(live []).hw, 0, by decide +kernel⟩⟩

theorem meets_LinesStartAndStop :
    (∃ (s : State), s.hw.lines.en = false ∧ s.hw.image.autostart = false ∧ s.hw.seq.state = .off ∧ s.hw.seq.limpFault
      = false) ∧
    (∃ (s : State), s.hw.lines.en = false ∧ s.hw.image.autostart = true ∧ s.hw.seq.state = .off ∧ s.hw.seq.limpFault =
      false ∧ s.hw.ins.booted = true ∧ s.hw.ins.storeReady = true ∧ s.hw.admitted = true ∧ s.hw.serviceReady = false ∧
      s.hw.seq.offWait = false ∧ s.hw.lines.fltLow = false ∧ s.hw.pwr.commit = none ∧ s.hw.rst.restart = none ∧
      s.hw.faults.forces = [] ∧ s.hw.gone = false) ∧
    (∃ (s : State), s.hw.lines.en = true ∧ s.hw.seq.state = .run ∧ s.hw.seq.limpFault = false) ∧
    (∃ (s : State), s.hw.seq.offWait = true ∧ s.hw.seq.pendOn = false ∧ s.hw.faults.forces = []) ∧
    (∃ (s : State), s.hw.lines.fltLow = false ∧ s.hw.seq.state = .run ∧ s.hw.gone = false) ∧
    (∃ (s : State), s.hw.lines.fltLow = false ∧ s.hw.seq.state = .off) ∧
    (∃ (s : State), s.hw.seq.fltDrive = false ∧ s.hw.seq.pendOn = false ∧ s.hw.faults.forces = []) :=
  ⟨⟨live [fun h => { h with lines := { h.lines with en := false } }, fun h =>
    { h with image := { h.image with autostart := false } }, fun h => { h with seq := { h.seq with state := .off } },
    fun h => { h with seq := { h.seq with limpFault := false } }], by decide +kernel⟩,
   ⟨live [fun h => { h with lines := { h.lines with en := false } }, fun h =>
     { h with image := { h.image with autostart := true } }, fun h => { h with seq := { h.seq with state := .off } },
     fun h => { h with seq := { h.seq with limpFault := false } }, fun h =>
     { h with ins := { h.ins with booted := true } }, fun h => { h with ins := { h.ins with storeReady := true } },
     fun h => { h with seq := { h.seq with offWait := false } }, fun h =>
     { h with lines := { h.lines with fltLow := false } }, fun h => { h with pwr := { h.pwr with commit := none } },
     fun h => { h with rst := { h.rst with restart := none } }, fun h =>
     { h with faults := { h.faults with forces := [] } }], by decide +kernel⟩,
   ⟨live [fun h => { h with lines := { h.lines with en := true } }, fun h =>
     { h with seq := { h.seq with state := .run } }, fun h => { h with seq := { h.seq with limpFault := false } }], by
     decide +kernel⟩,
   ⟨live [fun h => { h with seq := { h.seq with offWait := true } }, fun h =>
     { h with seq := { h.seq with pendOn := false } }, fun h => { h with faults := { h.faults with forces := [] } }],
     by decide +kernel⟩,
   ⟨live [fun h => { h with lines := { h.lines with fltLow := false } }, fun h =>
     { h with seq := { h.seq with state := .run } }], by decide +kernel⟩,
   ⟨live [fun h => { h with lines := { h.lines with fltLow := false } }, fun h =>
     { h with seq := { h.seq with state := .off } }], by decide +kernel⟩,
   ⟨live [fun h => { h with seq := { h.seq with fltDrive := false } }, fun h =>
     { h with seq := { h.seq with pendOn := false } }, fun h => { h with faults := { h.faults with forces := [] } }],
     by decide +kernel⟩⟩

theorem meets_RetriesClearsAndEdges :
    (∃ (s : State), s.hw.seq.state = .faultLatched ∧ s.hw.seq.retryWait = true ∧ s.hw.seq.retryReleased = false) ∧
    (∃ (s : State), s.hw.seq.state = .faultLatched ∧ s.hw.seq.retryReleased = true ∧ s.hw.lines.en = true ∧
      s.hw.lines.fltLow = false ∧ s.hw.seq.offWait = false ∧ s.hw.thermHolds = false ∧ s.hw.prm.clearLeft = 0 ∧
      s.hw.gone = false ∧ s.hw.pwr.commit = none ∧ s.hw.seq.service.job = none ∧ s.hw.serviceReady = false ∧
      s.hw.faults.forces = [] ∧ s.hw.seq.clearTest = [] ∧ s.hw.prm.clearJob = none) ∧
    (∃ (s : State), s.hw.eff = .run) ∧
    (∃ (s : State), s.hw.seq.clearTest = [none] ∧ s.hw.seq.state = .faultLatched ∧ s.hw.seq.fltDrive = false) ∧
    (∃ (s : State) (o : Origin), s.hw.seq.clearTest = [some o] ∧ s.hw.seq.state = .faultLatched ∧ s.hw.seq.fltDrive =
      false) ∧
    (∃ (s : State) (o : Origin) (later : List (Option Origin)) (_high : Bool), s.hw.seq.clearTest = some o :: later ∧
      s.hw.seq.state ≠ .faultLatched) ∧
    (∃ (s : State) (o : Origin), s.hw.seq.clearTest = [some o] ∧ s.hw.seq.state = .faultLatched ∧ s.hw.seq.fltDrive =
      false) ∧
    (∃ (s : State) (x : Fin 4) (level : Bool), s.hw.lines.xev.getD x false ≠ level ∧ s.hw.live = true) ∧
    (∃ (s : State) (_x : Fin 4) (_level : Bool), s.hw.live = false) :=
  ⟨⟨live [fun h => { h with seq := { h.seq with state := .faultLatched } }, fun h =>
    { h with seq := { h.seq with retryWait := true } }, fun h =>
    { h with seq := { h.seq with retryReleased := false } }], by decide +kernel⟩,
   ⟨live [fun h => { h with seq := { h.seq with state := .faultLatched } }, fun h =>
     { h with seq := { h.seq with retryReleased := true } }, fun h => { h with lines := { h.lines with en := true } },
     fun h => { h with lines := { h.lines with fltLow := false } }, fun h =>
     { h with seq := { h.seq with offWait := false } }, fun h => { h with prm := { h.prm with clearLeft := 0 } }, fun
     h => { h with pwr := { h.pwr with commit := none } }, fun h =>
     { h with seq := { h.seq with service := { h.seq.service with job := none } } }, fun h =>
     { h with faults := { h.faults with forces := [] } }, fun h => { h with seq := { h.seq with clearTest := [] } },
     fun h => { h with prm := { h.prm with clearJob := none } }], by decide +kernel⟩,
   ⟨live [fun h => { h with seq := { h.seq with state := .run } }], by decide +kernel⟩,
   ⟨live [fun h => { h with seq := { h.seq with clearTest := [none] } }, fun h =>
     { h with seq := { h.seq with state := .faultLatched } }, fun h =>
     { h with seq := { h.seq with fltDrive := false } }], by decide +kernel⟩,
   ⟨live [fun h => { h with seq := { h.seq with clearTest := [some .A] } }, fun h =>
     { h with seq := { h.seq with state := .faultLatched } }, fun h =>
     { h with seq := { h.seq with fltDrive := false } }], .A, by decide +kernel⟩,
   ⟨live [fun h => { h with seq := { h.seq with clearTest := some .A :: ([none] : List (Option Origin)) } }], .A,
     [none], true, by decide +kernel⟩,
   ⟨live [fun h => { h with seq := { h.seq with clearTest := [some .A] } }, fun h =>
     { h with seq := { h.seq with state := .faultLatched } }, fun h =>
     { h with seq := { h.seq with fltDrive := false } }], .A, by decide +kernel⟩,
   ⟨live [], 3, true, by decide +kernel⟩,
   ⟨live [fun h => { h with ins := { h.ins with booted := false } }], 3, true, by decide +kernel⟩⟩

theorem meets_FramesKeepToTheRules :
    (∃ (s : State) (r : Nat), s.hw.linkRuns = true ∧ s.hw.prm.role = .lead ∧ s.hw.prm.leadOn = true ∧
      s.hw.prm.leaveDue = some r) ∧
    (∃ (s : State), s.hw.linkRuns = true ∧ s.hw.prm.role = .lead ∧ s.hw.prm.leadOn = true ∧ s.hw.prm.leaveDue = none ∧
      s.hw.reaction 0x41 ≤ 1) ∧
    (∃ (s : State), s.hw.linkRuns = true ∧ s.hw.prm.role = .follower ∧ s.hw.prm.link = .active ∧ s.hw.prm.leaveDue =
      none ∧ s.hw.prm.relay = none ∧ s.hw.straps.idx ≠ 0) ∧
    (∃ (s : State), s.hw.linkRuns = true ∧ s.hw.prm.role = .follower ∧ s.hw.prm.link = .joining ∧ s.hw.prm.joinSent =
      false ∧ s.hw.prm.joinWait = false ∧ s.hw.straps.idx ≠ 0) ∧
    (∃ (s : State), s.hw.linkRuns = false) ∧
    (∃ (s : State) (f : List Byte) (_delay : Nat), s.hw.linkRuns = true ∧ s.hw.prm.role = .follower ∧ s.hw.prm.link =
      .active ∧ s.hw.hit 0x0C = false ∧ frameOk f 0 = true ∧ frameType f = 1) ∧
    (∃ (s : State) (slot : Fin 16) (f : List Byte), s.hw.linkRuns = true ∧ s.hw.prm.role = .lead ∧ s.hw.hit 0x0C =
      false ∧ frameOk f slot = true ∧ frameType f = 2 ∧ s.hw.prm.roster.getLsbD slot = true ∧ slot.val <
      s.hw.prm.peers.length ∧ s.hw.prm.relay = none) ∧
    (∃ (s : State) (slot : Fin 16) (f : List Byte), s.hw.linkRuns = true ∧ s.hw.prm.role = .lead ∧ s.hw.prm.leadOn =
      true ∧ s.hw.hit 0x0C = false ∧ frameOk f slot = true ∧ frameType f = 3 ∧ s.hw.prm.roster.getLsbD slot = false ∧
      slot.val ∉ s.hw.prm.joins ∧ s.hw.prm.admitMask.getLsbD slot = true) ∧
    (∃ (s : State) (slot : Fin 16) (f : List Byte), s.hw.linkRuns = true ∧ s.hw.prm.role = .lead ∧ s.hw.hit 0x0C =
      false ∧ frameOk f slot = true ∧ frameType f = 4 ∧ s.hw.prm.roster.getLsbD slot = true) ∧
    (∃ (s : State) (f : List Byte), s.hw.linkRuns = true ∧ s.hw.prm.role = .follower ∧ s.hw.prm.link = .active ∧
      s.hw.hit 0x0C = false ∧ frameOk f 0 = true ∧ frameType f = 4) ∧
    (∃ (s : State) (slot : Fin 16) (f : List Byte) (delay : Nat) (c : Instr), s.hw.linkRuns = true ∧ frameOk f slot =
      false ∧ (c = .leadFrame slot ⟨f, delay⟩ ∨ c = .statusFrame slot f ∨ c = .join slot f ∨ c = .leave slot f)) :=
  ⟨⟨live [fun h => { h with prm := { h.prm with role := .follower } }, fun h =>
    { h with prm := { h.prm with role := .lead } }, fun h => { h with prm := { h.prm with leadOn := true } }, fun h =>
    { h with prm := { h.prm with leaveDue := some 0 } }], 0, by decide +kernel⟩,
   ⟨live [fun h => { h with prm := { h.prm with role := .follower } }, fun h =>
     { h with prm := { h.prm with role := .lead } }, fun h => { h with prm := { h.prm with leadOn := true } }, fun h
     => { h with prm := { h.prm with leaveDue := none } }], by decide +kernel⟩,
   ⟨live [fun h => { h with prm := { h.prm with role := .follower } }, fun h =>
     { h with prm := { h.prm with role := .follower } }, fun h => { h with prm := { h.prm with link := .active } },
     fun h => { h with prm := { h.prm with leaveDue := none } }, fun h =>
     { h with prm := { h.prm with relay := none } }, fun h => { h with straps := { h.straps with idx := 15 } }], by
     decide +kernel⟩,
   ⟨live [fun h => { h with prm := { h.prm with role := .follower } }, fun h =>
     { h with prm := { h.prm with role := .follower } }, fun h => { h with prm := { h.prm with link := .joining } },
     fun h => { h with prm := { h.prm with joinSent := false } }, fun h =>
     { h with prm := { h.prm with joinWait := false } }, fun h => { h with straps := { h.straps with idx := 15 } }],
     by decide +kernel⟩,
   ⟨live [fun h => { h with prm := { h.prm with role := .standalone } }], by decide +kernel⟩,
   ⟨live [fun h => { h with prm := { h.prm with role := .follower } }, fun h =>
     { h with prm := { h.prm with role := .follower } }, fun h => { h with prm := { h.prm with link := .active } }],
     prmFrame 1 0 (List.replicate 24 0), 0, by decide +kernel⟩,
   ⟨live [fun h => { h with prm := { h.prm with role := .follower } }, fun h =>
     { h with prm := { h.prm with role := .lead } }, fun h => { h with prm := { h.prm with relay := none } }, fun h =>
     { h with prm := { h.prm with roster := 0x8001 } }], 15, prmFrame 2 15 (List.replicate 24 0), by decide +kernel⟩,
   ⟨live [fun h => { h with prm := { h.prm with role := .follower } }, fun h =>
     { h with prm := { h.prm with role := .lead } }, fun h => { h with prm := { h.prm with leadOn := true } }], 15,
     prmFrame 3 15 (List.replicate 8 0), by decide +kernel⟩,
   ⟨live [fun h => { h with prm := { h.prm with role := .follower } }, fun h =>
     { h with prm := { h.prm with role := .lead } }, fun h => { h with prm := { h.prm with roster := 0x8001 } }], 15,
     prmFrame 4 15 (List.replicate 1 0), by decide +kernel⟩,
   ⟨live [fun h => { h with prm := { h.prm with role := .follower } }, fun h =>
     { h with prm := { h.prm with role := .follower } }, fun h => { h with prm := { h.prm with link := .active } }],
     prmFrame 4 0 (List.replicate 1 0), by decide +kernel⟩,
   ⟨live [fun h => { h with prm := { h.prm with role := .follower } }], 15, prmFrame 1 15 (List.replicate 24 0), 0,
     .leadFrame 15 ⟨prmFrame 1 15 (List.replicate 24 0), 0⟩, by decide +kernel⟩⟩

theorem meets_LinkAdmissionAndLoss :
    (∃ (s : State), s.hw.linkRuns = true ∧ s.hw.prm.link = .listening ∧ s.hw.ins.booted = true ∧ s.hw.serviceReady =
      false) ∧
    (∃ (s : State) (_ty : Byte), s.hw.linkRuns = true ∧ s.hw.prm.link = .listening ∧ s.hw.ins.booted = true) ∧
    (∃ (s : State) (slot : Fin 16) (f : List Byte) (c : Instr), s.hw.linkRuns = true ∧ s.hw.ins.booted = true ∧
      s.hw.prm.link = .listening ∧ s.hw.hit 0x0C = false ∧ frameOk f slot = true ∧ (s.hw.prm.role = .lead → slot = 0 ∧
      frameType f = 1) ∧ (s.hw.prm.role = .follower → slot.val = s.hw.ownIndex) ∧ ((∃ d, c = .leadFrame slot ⟨f, d⟩) ∨
      c = .statusFrame slot f ∨ c = .join slot f ∨ c = .leave slot f)) ∧
    (∃ (s : State), s.hw.linkRuns = true ∧ s.hw.prm.link = .joining ∧ s.hw.prm.joinWait = true) ∧
    (∃ (s : State) (i : Fin 16), s.hw.linkRuns = true ∧ s.hw.prm.role = .lead ∧ i.val ≠ 0 ∧ s.hw.prm.roster.getLsbD i
      = true) ∧
    (∃ (s : State), s.hw.linkRuns = true ∧ s.hw.prm.role = .follower ∧ s.hw.prm.link ≠ .orphan) ∧
    (∃ (s : State), s.hw.ins.mainOn = true ∧ s.hw.prm.conflict = false ∧ s.hw.prm.role = .silent ∧ s.hw.prm.link =
      .listening) ∧
    (∃ (s : State), s.hw.prm.link = .orphan ∧ s.hw.image.prm.orphanTimeout ≠ 0 ∧ s.hw.seq.state = .run) :=
  ⟨⟨live [fun h => { h with prm := { h.prm with role := .follower } }, fun h =>
    { h with prm := { h.prm with link := .listening } }, fun h => { h with ins := { h.ins with booted := true } }], by
    decide +kernel⟩,
   ⟨live [fun h => { h with prm := { h.prm with role := .follower } }, fun h =>
     { h with prm := { h.prm with link := .listening } }, fun h => { h with ins := { h.ins with booted := true } }],
     1, by decide +kernel⟩,
   ⟨live [fun h => { h with prm := { h.prm with role := .follower } }, fun h =>
     { h with ins := { h.ins with booted := true } }, fun h => { h with prm := { h.prm with link := .listening } },
     fun h => { h with prm := { h.prm with role := .lead } }], 0, prmFrame 1 0 (List.replicate 24 0), .leadFrame 0
     ⟨prmFrame 1 0 (List.replicate 24 0), 0⟩, by decide +kernel, by decide +kernel, by decide +kernel, by
     decide +kernel, by decide +kernel, by decide +kernel, by decide +kernel, .inl ⟨0, rfl⟩⟩,
   ⟨live [fun h => { h with prm := { h.prm with role := .follower } }, fun h =>
     { h with prm := { h.prm with link := .joining } }, fun h => { h with prm := { h.prm with joinWait := true } }],
     by decide +kernel⟩,
   ⟨live [fun h => { h with prm := { h.prm with role := .follower } }, fun h =>
     { h with prm := { h.prm with role := .lead } }, fun h => { h with prm := { h.prm with roster := 0x8001 } }], 15,
     by decide +kernel⟩,
   ⟨live [fun h => { h with prm := { h.prm with role := .follower } }, fun h =>
     { h with prm := { h.prm with role := .follower } }], by decide +kernel⟩,
   ⟨live [fun h => { h with ins := { h.ins with mainOn := true } }, fun h =>
     { h with prm := { h.prm with conflict := false } }, fun h => { h with prm := { h.prm with role := .silent } },
     fun h => { h with prm := { h.prm with link := .listening } }], by decide +kernel⟩,
   ⟨live [fun h => { h with prm := { h.prm with link := .orphan } }, fun h =>
     { h with seq := { h.seq with state := .run } }, fun h =>
     { h with image := { h.image with prm := { h.image.prm with orphanTimeout := 1 } } }], by decide +kernel⟩⟩

theorem meets_CabinetListRelayAndClear :
    (∃ (s : State) (e : CabEntry), s.hw.entryNow = some e ∧ s.hw.entryDone e = true ∧ e.last = true) ∧
    (∃ (s : State) (e : CabEntry), s.hw.entryNow = some e ∧ s.hw.entryDone e = false ∧ s.hw.seq.state = .run ∧
      s.hw.leaving = false) ∧
    (∃ (s : State) (r : Relay) (n : Nat) (pkt : List Byte), s.hw.prm.role = .lead ∧ s.hw.prm.relay = some r ∧
      r.sending = false ∧ (s.hw.mbx r.origin).inProc = some (n, pkt)) ∧
    (∃ (s : State) (j : Nat) (x : Job), s.hw.prm.clearJob = some j ∧ s.hw.prm.clearLeft = 0 ∧ s.hw.seq.state =
      .faultLatched ∧ s.hw.seq.fltDrive = false ∧ x ∈ s.hw.proto.jobs ∧ x.num = j ∧ x.state = .running) ∧
    (∃ (s : State) (j : Nat) (x : Job) (high : Bool), s.hw.prm.clearJob = some j ∧ s.hw.prm.clearLeft = 0 ∧
      s.hw.seq.state = .faultLatched ∧ (high = false ∨ s.hw.seq.fltDrive = true) ∧ x ∈ s.hw.proto.jobs ∧ x.num = j ∧
      x.state = .running) :=
  ⟨⟨live [fun h => { h with prm := { h.prm with role := .lead } }, fun h =>
    { h with prm := { h.prm with cabRunning := true } }, fun h =>
    { h with image := { h.image with prm := { h.image.prm with upList := [({ index := 0, last := true, localStep := 0, token := 1, timeout := 10 } : CabEntry)] } } }],
    { index := 0, last := true, localStep := 0, token := 1, timeout := 10 }, by decide +kernel⟩,
   ⟨live [fun h => { h with seq := { h.seq with state := .run } }, fun h =>
     { h with prm := { h.prm with role := .lead } }, fun h => { h with prm := { h.prm with cabRunning := true } }, fun
     h =>
     { h with image := { h.image with prm := { h.image.prm with upList := [({ index := 1, last := true, localStep := 1, token := 1, timeout := 10 } : CabEntry)] } } }],
     { index := 1, last := true, localStep := 1, token := 1, timeout := 10 }, by decide +kernel⟩,
   ⟨live [fun h => { h with prm := { h.prm with role := .lead } }, fun h =>
     { h with prm := { h.prm with relay := some ({ origin := .A, index := 3, rtag := 1, out := [], outFrag := 0, inFrag := 0, inBytes := [], inDone := false } : Relay) } },
     fun h => h.modMbx
     ({ origin := .A, index := 3, rtag := 1, out := [], outFrag := 0, inFrag := 0, inBytes := [], inDone := false } :
     Relay).origin (fun y => { y with inProc := some (1, ([0x10, 7, 3, 0] : List Byte)) }), fun h => h.modMbx .A (fun
     y => { y with inProc := some (1, [(0x10 : Byte), 7, 3, 0]) })],
     { origin := .A, index := 3, rtag := 1, out := [], outFrag := 0, inFrag := 0, inBytes := [], inDone := false }, 1,
     [0x10, 7, 3, 0], by decide +kernel⟩,
   ⟨live [fun h => { h with prm := { h.prm with clearJob := some 7 } }, fun h =>
     { h with prm := { h.prm with clearLeft := 0 } }, fun h =>
     { h with seq := { h.seq with state := .faultLatched } }, fun h =>
     { h with seq := { h.seq with fltDrive := false } }, fun h =>
     { h with proto := { h.proto with jobs := [{ num := 7, op := 0x16, state := .running, status := 0, result := 0, progress := 0, data := [], byCore := true }] } }],
     7,
     { num := 7, op := 0x16, state := .running, status := 0, result := 0, progress := 0, data := [], byCore := true },
     by decide +kernel⟩,
   ⟨live [fun h => { h with prm := { h.prm with clearJob := some 7 } }, fun h =>
     { h with prm := { h.prm with clearLeft := 0 } }, fun h =>
     { h with seq := { h.seq with state := .faultLatched } }, fun h =>
     { h with proto := { h.proto with jobs := [{ num := 7, op := 0x16, state := .running, status := 0, result := 0, progress := 0, data := [], byCore := true }] } }],
     7,
     { num := 7, op := 0x16, state := .running, status := 0, result := 0, progress := 0, data := [], byCore := true },
     false, by decide +kernel⟩⟩

theorem meets_LodgeKeepsTheTime :
    (∃ (s : State), s.hw.lodge.supply = .vbat) ∧
    (∃ (s : State), s.hw.lodge.supply = .vkeep ∧ s.hw.holdup = true ∧ s.hw.ins.vbatSwitch ≠ .opened) ∧
    (∃ (s : State), s.hw.ins.mainOn = true ∧ s.hw.lines.rstLow = false ∧ s.hw.lodge.supply = .main) ∧
    (∃ (s : State) (a : Fin 2), (s.hw.lodge.alarms.getD a Alarm.disarmed).state = .armed ∧ s.hw.ins.mainOn = true) ∧
    (∃ (s : State), s.hw.lodge.status = .setSynced) :=
  ⟨⟨live [fun h => { h with lodge := { h.lodge with supply := .vbat } }], by decide +kernel⟩,
   ⟨live [fun h => { h with lodge := { h.lodge with supply := .vkeep } }], by decide +kernel⟩,
   ⟨live [fun h => { h with ins := { h.ins with mainOn := true } }, fun h =>
     { h with lines := { h.lines with rstLow := false } }, fun h =>
     { h with lodge := { h.lodge with supply := .main } }], by decide +kernel⟩,
   ⟨live [fun h => { h with ins := { h.ins with mainOn := true } }, fun h =>
     { h with lodge := { h.lodge with alarms := [Alarm.disarmed, { Alarm.disarmed with state := .armed }] } }], 1, by
     decide +kernel⟩,
   ⟨live [fun h => { h with lodge := { h.lodge with status := .setSynced } }], by decide +kernel⟩⟩

theorem meets_TimeIsSetAndFollowed :
    (∃ (s : State) (j : TimeSetJob), s.hw.lodge.timeSet = some j ∧ j.committed = true ∧ s.hw.lodge.lock = false) ∧
    (∃ (s : State), s.hw.linkRuns = true ∧ s.hw.prm.role = .follower ∧ s.hw.prm.link = .active ∧ ticksOf
      s.hw.prm.leadTime.toNat ≤ s.hw.prm.ownTicks + 1 ∧ s.hw.prm.ownTicks ≤ ticksOf s.hw.prm.leadTime.toNat + 1) ∧
    (∃ (s : State), s.hw.linkRuns = true ∧ s.hw.prm.role = .follower ∧ s.hw.prm.link = .active ∧ s.hw.lodge.lock =
      false ∧ statusOf s.hw.prm.leadTime ≠ .invalid ∧ s.hw.prm.ownTicks + 2 ≤ ticksOf s.hw.prm.leadTime.toNat ∧
      ticksOf s.hw.prm.leadTime.toNat < s.hw.prm.ownTicks + 1024 ∧ s.hw.lodge.ticks + ticksOf s.hw.prm.leadTime.toNat
      < 2 ^ 49) ∧
    (∃ (s : State) (j : TimeSetJob), s.hw.lodge.timeSet = some j ∧ j.committed = true ∧ s.hw.lodge.lock = true) ∧
    (∃ (s : State), s.hw.linkRuns = true ∧ s.hw.prm.role = .follower ∧ s.hw.prm.link = .active ∧ (s.hw.lodge.lock =
      true ∨ statusOf s.hw.prm.leadTime = .invalid)) ∧
    (∃ (s : State), s.hw.linkRuns = true ∧ s.hw.prm.role = .follower ∧ s.hw.prm.link = .active ∧ s.hw.lodge.lock =
      false ∧ statusOf s.hw.prm.leadTime ≠ .invalid ∧ ticksOf s.hw.prm.leadTime.toNat + 2 ≤ s.hw.prm.ownTicks ∧
      s.hw.prm.ownTicks < ticksOf s.hw.prm.leadTime.toNat + 1024 ∧ s.hw.prm.ownTicks ≤ s.hw.lodge.ticks + ticksOf
      s.hw.prm.leadTime.toNat ∧ s.hw.lodge.ticks < 2 ^ 49) ∧
    (∃ (s : State), s.hw.linkRuns = true ∧ s.hw.prm.role = .follower ∧ s.hw.prm.link = .active ∧ s.hw.lodge.lock =
      false ∧ statusOf s.hw.prm.leadTime ≠ .invalid ∧ (s.hw.prm.ownTicks + 1024 ≤ (ticksOf s.hw.prm.leadTime.toNat) ∨
      (ticksOf s.hw.prm.leadTime.toNat) + 1024 ≤ s.hw.prm.ownTicks) ∧ s.hw.prm.ownTicks ≤ s.hw.lodge.ticks + (ticksOf
      s.hw.prm.leadTime.toNat) ∧ (s.hw.lodge.ticks + (ticksOf s.hw.prm.leadTime.toNat) - s.hw.prm.ownTicks) < 2 ^ 49 ∧
      s.hw.inLimp = false) :=
  ⟨⟨live [fun h =>
    { h with lodge := { h.lodge with timeSet := some ({ value := 1024, acceptedAt := 0, synced := true, job := 7, committed := true, seq := 1 } : TimeSetJob) } },
    fun h => { h with lodge := { h.lodge with lock := false } }],
    { value := 1024, acceptedAt := 0, synced := true, job := 7, committed := true, seq := 1 }, by decide +kernel⟩,
   ⟨live [fun h => { h with prm := { h.prm with role := .follower } }, fun h =>
     { h with prm := { h.prm with role := .follower } }, fun h => { h with prm := { h.prm with link := .active } },
     fun h => { h with prm := { h.prm with ownTicks := 1 } }], by decide +kernel⟩,
   ⟨live [fun h => { h with prm := { h.prm with role := .follower } }, fun h =>
     { h with prm := { h.prm with role := .follower } }, fun h => { h with prm := { h.prm with link := .active } },
     fun h => { h with lodge := { h.lodge with lock := false } }, fun h =>
     { h with prm := { h.prm with leadTime := 0x0000000001000400 } }, fun h =>
     { h with prm := { h.prm with ownTicks := 1022 } }], by decide +kernel⟩,
   ⟨live [fun h =>
     { h with lodge := { h.lodge with timeSet := some ({ value := 1024, acceptedAt := 0, synced := true, job := 7, committed := true, seq := 1 } : TimeSetJob) } },
     fun h => { h with lodge := { h.lodge with lock := true } }],
     { value := 1024, acceptedAt := 0, synced := true, job := 7, committed := true, seq := 1 }, by decide +kernel⟩,
   ⟨live [fun h => { h with prm := { h.prm with role := .follower } }, fun h =>
     { h with prm := { h.prm with role := .follower } }, fun h => { h with prm := { h.prm with link := .active } }],
     by decide +kernel⟩,
   ⟨live [fun h => { h with prm := { h.prm with role := .follower } }, fun h =>
     { h with prm := { h.prm with role := .follower } }, fun h => { h with prm := { h.prm with link := .active } },
     fun h => { h with lodge := { h.lodge with lock := false } }, fun h =>
     { h with prm := { h.prm with leadTime := 0x0000000001000400 } }, fun h =>
     { h with prm := { h.prm with ownTicks := 1026 } }, fun h => { h with lodge := { h.lodge with ticks := 2048 } }],
     by decide +kernel⟩,
   ⟨live [fun h => { h with prm := { h.prm with role := .follower } }, fun h =>
     { h with prm := { h.prm with role := .follower } }, fun h => { h with prm := { h.prm with link := .active } },
     fun h => { h with lodge := { h.lodge with lock := false } }, fun h =>
     { h with prm := { h.prm with leadTime := 0x0000000001000400 } }, fun h =>
     { h with prm := { h.prm with ownTicks := 2048 } }, fun h => { h with lodge := { h.lodge with ticks := 2048 } }],
     by decide +kernel⟩⟩

theorem meets_BlocksAccumulate :
    (∃ (s : State) (_cs : List (List ModBits)), s.hw.metroRuns = true ∧ (∀ j, s.hw.metro.calJob = some j → j.written =
      false) ∧ s.hw.shaped = true) ∧
    (∃ (s : State) (_cs : List (List ModBits)) (j : CalJob), s.hw.metroRuns = true ∧ s.hw.metro.calJob = some j ∧
      j.written = true ∧ j.chan < 8 ∧ (∀ x ∈ s.hw.slots, x.openJob ≠ some j.job) ∧ s.hw.shaped = true ∧
      s.hw.faults.inject = List.replicate 15 (0, false)) ∧
    (∃ (x : Chan) (rom : MeterRom) (t0 : Nat) (t1 : Nat) (bs : List ModBits), x.enabled = true ∧ x.held = false ∧
      x.resume = false ∧ belowCreep x.calP (x.run rom t0 t1 bs).2.1 = false) ∧
    (∃ (_x : Sample) (_w : Int) (t0 : Int) (t1 : Int) (t2 : Int), t0 ≤ t1 ∧ t1 ≤ t2) :=
  ⟨⟨live [], [], by decide +kernel⟩,
   ⟨live [fun h =>
     { h with metro := { h.metro with calJob := some ({ chan := 7, job := 7, written := true } : CalJob) } }, fun h =>
     { h with faults := { h.faults with inject := List.replicate 15 (0, false) } }], [],
     { chan := 7, job := 7, written := true }, by decide +kernel⟩,
   ⟨{ Chan.blank with calP := calOn }, Hw.reset.factory.meter, 0, 0, [], by decide +kernel⟩,
   ⟨⟨0, 0, 0, false⟩, 4, -2, 0, 2, by decide +kernel⟩⟩

theorem meets_CrossCheckAndHolds :
    (∃ (s : State), s.hw.metroRuns = true ∧ s.hw.metro.compareDue = true ∧ s.hw.faults.inject = List.replicate 15 (0,
      false)) ∧
    (∃ (s : State) (c : Fin 8), s.hw.metroRuns = true ∧ (s.hw.chan c).enabled = true ∧ (s.hw.chan c).inputHold =
      false) ∧
    (∃ (s : State) (c : Fin 8), s.hw.metroRuns = true ∧ (s.hw.chan c).enabled = true ∧ (s.hw.chan c).inputHold = true) ∧
    (∃ (s : State) (c : Fin 8), s.hw.metroRuns = true ∧ s.hw.stuckForced c = false ∧ (s.hw.chan c).inputHold = true) ∧
    (∃ (s : State) (c : Fin 8) (d : Bool), s.hw.metroRuns = true ∧ (s.hw.chan c).total (b2n d) ≠
      s.hw.store.ckptAt.getD (2 * c.val + b2n d) 0) :=
  ⟨⟨live [fun h => { h with metro := { h.metro with compareDue := true } }, fun h =>
    { h with faults := { h.faults with inject := List.replicate 15 (0, false) } }], by decide +kernel⟩,
   ⟨live [fun h => h.modChan 7 (fun y => { y with inputHold := false }), fun h => h.modChan 7 (fun y =>
     { y with calP := calOn })], 7, by decide +kernel⟩,
   ⟨live [fun h => h.modChan 7 (fun y => { y with inputHold := true }), fun h => h.modChan 7 (fun y =>
     { y with calP := calOn })], 7, by decide +kernel⟩,
   ⟨live [fun h => h.modChan 7 (fun y => { y with inputHold := true })], 7, by decide +kernel⟩,
   ⟨live [fun h => { h with store := { h.store with ckptAt := List.replicate 16 5 } }], 7, true, by decide +kernel⟩⟩

theorem meets_RecordsReachTheLog :
    (∃ (s : State) (n : Fin 128), (s.hw.slot n).open? = true ∧ (s.hw.slot n).captured = true ∧ s.hw.pwr.commit = none
      ∧ s.hw.slotTurn n = true ∧ s.hw.log.waiting.any (waitsFor n) = false ∧ 0 < s.hw.log.erased ∧ s.hw.metering =
      true ∧ s.hw.life.breaking = none ∧ s.hw.seq.service.job = none ∧ s.hw.hit 0x0F = false) ∧
    (∃ (s : State) (n : Fin 128), (s.hw.slot n).open? = true ∧ (s.hw.slot n).captured = true ∧ s.hw.pwr.commit = none
      ∧ s.hw.slotTurn n = true ∧ s.hw.log.waiting.any (waitsFor n) = false ∧ 0 < s.hw.log.erased ∧ s.hw.hit 0x0F =
      false) ∧
    (∃ (s : State) (w : WaitRec) (ws : List WaitRec), s.hw.log.waiting = w :: ws ∧ 0 < s.hw.log.erased ∧
      s.hw.pwr.commit = none ∧ s.hw.sessionsDue = false ∧ (∀ x ∈ w :: ws, slice x.draft 0 1 ≠ [1]) ∧ w.purpose =
      .none) ∧
    (∃ (s : State) (w : WaitRec) (n : Fin 128), s.hw.log.waiting.find? (fun x => slice x.draft 0 1 == [1]) = some w ∧
      0 < s.hw.log.erased ∧ s.hw.pwr.commit = none ∧ ube (slice w.draft 8 2) = n ∧ s.hw.shaped = true) ∧
    (∃ (s : State), s.hw.log.signPending = true ∧ s.hw.ins.mainOn = true ∧ s.hw.pwr.commit = none ∧ s.hw.life.breaking
      = none ∧ s.hw.life.breakDue = none) :=
  ⟨⟨live [fun h => h.modSlot 127 (fun y => { y with captured := true }), fun h =>
    { h with pwr := { h.pwr with commit := none } }, fun h => { h with life := { h.life with breaking := none } }, fun
    h => { h with seq := { h.seq with service := { h.seq.service with job := none } } }, fun h => h.modSlot 127 (fun y
    => { y with st := .opened, captured := true })], 127, by decide +kernel⟩,
   ⟨live [fun h => h.modSlot 127 (fun y => { y with captured := true }), fun h =>
     { h with pwr := { h.pwr with commit := none } }, fun h => h.modSlot 127 (fun y =>
     { y with st := .opened, captured := true })], 127, by decide +kernel⟩,
   ⟨live [fun h =>
     { h with log := { h.log with waiting := (⟨[2], false, 0, .none⟩ : WaitRec) :: ([] : List WaitRec) } }, fun h =>
     { h with pwr := { h.pwr with commit := none } }], ⟨[2], false, 0, .none⟩, [], by decide +kernel⟩,
   ⟨live [fun h => { h with pwr := { h.pwr with commit := none } }, fun h =>
     { h with log := { h.log with waiting := [⟨[1, 0, 0, 0, 0, 0, 0, 0, 0, 127], true, 1, .none⟩] } }], ⟨[1, 0, 0, 0,
     0, 0, 0, 0, 0, 127], true, 1, .none⟩, 127, by decide +kernel⟩,
   ⟨live [fun h => { h with log := { h.log with signPending := true } }, fun h =>
     { h with ins := { h.ins with mainOn := true } }, fun h => { h with pwr := { h.pwr with commit := none } }, fun h
     => { h with life := { h.life with breaking := none } }, fun h =>
     { h with life := { h.life with breakDue := none } }], by decide +kernel⟩⟩

theorem meets_FlashAndScrub :
    (∃ (s : State) (w : StoreWrite) (ws : List StoreWrite), s.hw.ins.mainOn = true ∧ s.hw.pwr.commit = none ∧
      s.hw.fw.programming = false ∧ s.hw.store.proving = [] ∧ s.hw.store.queue = w :: ws ∧ w.isLog = false ∧ ((w.phase
      = 0 ∨ w.phase = 2)) ∧ (∀ n img, w.purpose ≠ .image n img) ∧ s.hw.hit 0x0F = false) ∧
    (∃ (s : State) (w : StoreWrite) (ws : List StoreWrite), s.hw.ins.mainOn = true ∧ s.hw.pwr.commit = none ∧
      s.hw.fw.programming = false ∧ s.hw.store.proving = [] ∧ s.hw.store.queue = w :: ws ∧ w.isLog = false ∧ w.phase =
      1 ∧ (∀ n img, w.purpose ≠ .image n img) ∧ s.hw.hit 0x0F = false) ∧
    (∃ (s : State) (w : StoreWrite) (ws : List StoreWrite) (n : Nat), s.hw.ins.mainOn = true ∧ s.hw.pwr.commit = none
      ∧ s.hw.fw.programming = false ∧ s.hw.store.proving = [] ∧ s.hw.store.queue = w :: ws ∧ w.isLog = false ∧ w.phase
      = 3 ∧ w.purpose = .job n ∧ s.hw.hit 0x0F = false) ∧
    (∃ (s : State) (w : StoreWrite) (ws : List StoreWrite) (n : Nat) (img : Image), s.hw.ins.mainOn = true ∧
      s.hw.pwr.commit = none ∧ s.hw.fw.programming = false ∧ s.hw.store.proving = [] ∧ s.hw.store.queue = w :: ws ∧
      w.isLog = false ∧ w.phase = 1 ∧ w.purpose = .image n img ∧ s.hw.hit 0x0F = false) ∧
    (∃ (s : State) (w : StoreWrite) (ws : List StoreWrite) (n : Nat), s.hw.ins.mainOn = true ∧ s.hw.pwr.commit = none
      ∧ s.hw.fw.programming = false ∧ s.hw.store.proving = [] ∧ s.hw.store.queue = w :: ws ∧ w.isLog = true ∧ w.phase
      = 2 ∧ w.purpose = .sealing n ∧ s.hw.hit 0x0F = false ∧ s.hw.life.state = 2 ∧ s.hw.life.seals < 32 ∧ FusesInRange
      s.hw.life) ∧
    (∃ (s : State) (w : StoreWrite) (ws : List StoreWrite), s.hw.ins.mainOn = true ∧ s.hw.pwr.commit = none ∧
      s.hw.fw.programming = false ∧ s.hw.store.proving = [] ∧ s.hw.store.queue = w :: ws ∧ w.isLog = false ∧ 0 <
      s.hw.store.spare ∧ s.hw.hit 0x0F = false) ∧
    (∃ (s : State) (e : EraseOp), s.hw.ins.mainOn = true ∧ s.hw.pwr.commit = none ∧ s.hw.life.retireLeft = 0 ∧
      s.hw.log.reclaiming = false ∧ s.hw.store.erase = some e ∧ e.ring = .config ∧ (∀ v ∈ s.hw.store.proving, v.copy =
      true → v.ring ≠ .config)) ∧
    (∃ (s : State) (_v : Bool), s.hw.ins.mainOn = true ∧ s.hw.pwr.commit = none ∧ s.hw.life.retireLeft = 0 ∧
      s.hw.log.reclaiming = true ∧ s.hw.lodge.leadStep = none ∧ s.hw.log.worn.contains s.hw.log.oldest = false) ∧
    (∃ (s : State) (_v : Bool) (e : EraseOp), s.hw.ins.mainOn = true ∧ s.hw.pwr.commit = none ∧ s.hw.life.retireLeft =
      0 ∧ s.hw.log.reclaiming = false ∧ s.hw.store.erase = some e ∧ (∃ x ∈ s.hw.store.proving, x.copy = true ∧ x.ring
      = e.ring)) ∧
    (∃ (s : State) (e : Erased) (es : List Erased), s.hw.ins.mainOn = true ∧ s.hw.pwr.commit = none ∧
      s.hw.life.retireLeft = 0 ∧ s.hw.log.reclaiming = false ∧ s.hw.store.erase = none ∧ s.hw.store.erased = e :: es) ∧
    (∃ (s : State) (v : Verify) (vs : List Verify), s.hw.ins.mainOn = true ∧ s.hw.pwr.commit = none ∧
      s.hw.fw.programming = false ∧ s.hw.store.proving = v :: vs ∧ s.hw.hit 0x0F = false) ∧
    (∃ (s : State) (v : Verify) (vs : List Verify), s.hw.ins.mainOn = true ∧ s.hw.pwr.commit = none ∧
      s.hw.fw.programming = false ∧ s.hw.store.proving = v :: vs ∧ v.ring ≠ .sessionLog ∧ s.hw.faults.inject =
      List.replicate 15 (0, false)) ∧
    (∃ (s : State) (n : Nat), s.hw.ins.mainOn = true ∧ s.hw.pwr.commit = none ∧ s.hw.life.retireLeft = n + 2) ∧
    (∃ (s : State) (r : Ring), s.hw.ins.booted = true ∧ s.hw.pwr.commit = none ∧ s.hw.inLimp = false ∧
      s.hw.store.erase = none ∧ s.hw.log.reclaiming = false ∧ s.hw.life.retireLeft = 0 ∧ r ≠ .sessionLog ∧
      s.hw.compactDue r = true ∧ s.hw.faults.inject = List.replicate 15 (0, false)) ∧
    (∃ (s : State), s.hw.ins.mainOn = true ∧ s.hw.ins.booted = true ∧ s.hw.faults.inject = List.replicate 15 (0,
      false)) ∧
    (∃ (s : State) (_a : Nat) (_c : Fin 8) (_d : Bool), s.hw.ins.mainOn = true ∧ s.hw.ins.booted = true ∧
      s.hw.faults.inject = List.replicate 15 (0, false) ∧ s.hw.metering = true ∧ s.hw.shaped = true) ∧
    (∃ (s : State) (_a : Nat), s.hw.ins.mainOn = true ∧ s.hw.ins.booted = true ∧ s.hw.faults.inject = List.replicate
      15 (0, false)) ∧
    (∃ (s : State) (_a : Nat) (_w : SramWord), s.hw.ins.mainOn = true ∧ s.hw.ins.booted = true ∧ s.hw.faults.inject =
      List.replicate 15 (0, false)) :=
  ⟨⟨live [fun h =>
    { h with store := { h.store with queue := [{ key := 0x0300, payload := [1], isLog := false, signed := false, phase := 2, seq := 1, half := false, purpose := .none }] } },
    fun h => { h with ins := { h.ins with mainOn := true } }, fun h =>
    { h with pwr := { h.pwr with commit := none } }, fun h => { h with fw := { h.fw with programming := false } }, fun
    h => { h with store := { h.store with proving := [] } }, fun h =>
    { h with store := { h.store with queue := ({ key := 0x0300, payload := [1], isLog := false, signed := false, phase := 2, seq := 1, half := false, purpose := .none } : StoreWrite) :: ([] : List StoreWrite) } }],
    { key := 0x0300, payload := [1], isLog := false, signed := false, phase := 2, seq := 1, half := false, purpose := .none },
    [], by decide +kernel, by decide +kernel, by decide +kernel, by decide +kernel, by decide +kernel, by
    decide +kernel, by decide +kernel, (fun _ _ h => nomatch h), by decide +kernel⟩,
   ⟨live [fun h =>
     { h with store := { h.store with queue := [{ key := 0x0300, payload := [1], isLog := false, signed := false, phase := 1, seq := 1, half := false, purpose := .none }] } },
     fun h => { h with ins := { h.ins with mainOn := true } }, fun h =>
     { h with pwr := { h.pwr with commit := none } }, fun h => { h with fw := { h.fw with programming := false } },
     fun h => { h with store := { h.store with proving := [] } }, fun h =>
     { h with store := { h.store with queue := ({ key := 0x0300, payload := [1], isLog := false, signed := false, phase := 1, seq := 1, half := false, purpose := .none } : StoreWrite) :: ([] : List StoreWrite) } }],
     { key := 0x0300, payload := [1], isLog := false, signed := false, phase := 1, seq := 1, half := false, purpose := .none },
     [], by decide +kernel, by decide +kernel, by decide +kernel, by decide +kernel, by decide +kernel, by
     decide +kernel, by decide +kernel, (fun _ _ h => nomatch h), by decide +kernel⟩,
   ⟨live [fun h =>
     { h with store := { h.store with queue := [{ key := 0x0300, payload := [1], isLog := false, signed := false, phase := 3, seq := 1, half := false, purpose := .job 7 }] } },
     fun h => { h with ins := { h.ins with mainOn := true } }, fun h =>
     { h with pwr := { h.pwr with commit := none } }, fun h => { h with fw := { h.fw with programming := false } },
     fun h => { h with store := { h.store with proving := [] } }, fun h =>
     { h with store := { h.store with queue := ({ key := 0x0300, payload := [1], isLog := false, signed := false, phase := 3, seq := 1, half := false, purpose := .job 7 } : StoreWrite) :: ([] : List StoreWrite) } }],
     { key := 0x0300, payload := [1], isLog := false, signed := false, phase := 3, seq := 1, half := false, purpose := .job 7 },
     [], 7, by decide +kernel⟩,
   ⟨live [fun h =>
     { h with store := { h.store with queue := [{ key := 0x0300, payload := [1], isLog := false, signed := false, phase := 1, seq := 1, half := false, purpose := .image 7 Image.default }] } },
     fun h => { h with ins := { h.ins with mainOn := true } }, fun h =>
     { h with pwr := { h.pwr with commit := none } }, fun h => { h with fw := { h.fw with programming := false } },
     fun h => { h with store := { h.store with proving := [] } }, fun h =>
     { h with store := { h.store with queue := ({ key := 0x0300, payload := [1], isLog := false, signed := false, phase := 1, seq := 1, half := false, purpose := .image 7 Image.default } : StoreWrite) :: ([] : List StoreWrite) } }],
     { key := 0x0300, payload := [1], isLog := false, signed := false, phase := 1, seq := 1, half := false, purpose := .image 7 Image.default },
     [], 7, Image.default, by decide +kernel⟩,
   ⟨live [fun h =>
     { h with store := { h.store with queue := [{ key := 0xE001, payload := [], isLog := true, signed := true, phase := 2, seq := 1, half := false, purpose := .sealing 7 }] } },
     fun h => { h with ins := { h.ins with mainOn := true } }, fun h =>
     { h with pwr := { h.pwr with commit := none } }, fun h => { h with fw := { h.fw with programming := false } },
     fun h => { h with store := { h.store with proving := [] } }, fun h =>
     { h with store := { h.store with queue := ({ key := 0xE001, payload := [], isLog := true, signed := true, phase := 2, seq := 1, half := false, purpose := .sealing 7 } : StoreWrite) :: ([] : List StoreWrite) } }],
     { key := 0xE001, payload := [], isLog := true, signed := true, phase := 2, seq := 1, half := false, purpose := .sealing 7 },
     [], 7, by unfold FusesInRange; decide +kernel⟩,
   ⟨live [fun h =>
     { h with store := { h.store with queue := [{ key := 0x0300, payload := [1], isLog := false, signed := false, phase := 3, seq := 1, half := false, purpose := .none }] } },
     fun h => { h with ins := { h.ins with mainOn := true } }, fun h =>
     { h with pwr := { h.pwr with commit := none } }, fun h => { h with fw := { h.fw with programming := false } },
     fun h => { h with store := { h.store with proving := [] } }, fun h =>
     { h with store := { h.store with queue := ({ key := 0x0300, payload := [1], isLog := false, signed := false, phase := 3, seq := 1, half := false, purpose := .none } : StoreWrite) :: ([] : List StoreWrite) } }],
     { key := 0x0300, payload := [1], isLog := false, signed := false, phase := 3, seq := 1, half := false, purpose := .none },
     [], by decide +kernel⟩,
   ⟨live [fun h => { h with store := { h.store with erase := some { ring := .config, retire := false } } }, fun h =>
     { h with ins := { h.ins with mainOn := true } }, fun h => { h with pwr := { h.pwr with commit := none } }, fun h
     => { h with life := { h.life with retireLeft := 0 } }, fun h =>
     { h with log := { h.log with reclaiming := false } }, fun h =>
     { h with store := { h.store with erase := some ({ ring := .config, retire := false } : EraseOp) } }],
     { ring := .config, retire := false }, by decide +kernel⟩,
   ⟨live [fun h => { h with ins := { h.ins with mainOn := true } }, fun h =>
     { h with pwr := { h.pwr with commit := none } }, fun h => { h with life := { h.life with retireLeft := 0 } }, fun
     h => { h with log := { h.log with reclaiming := true } }, fun h =>
     { h with lodge := { h.lodge with leadStep := none } }], false, by decide +kernel⟩,
   ⟨live [fun h => { h with ins := { h.ins with mainOn := true } }, fun h =>
     { h with pwr := { h.pwr with commit := none } }, fun h => { h with life := { h.life with retireLeft := 0 } }, fun
     h => { h with log := { h.log with reclaiming := false } }, fun h =>
     { h with store := { h.store with erase := some ({ ring := .half0, retire := false } : EraseOp) } }, fun h =>
     { h with store := { h.store with proving := [{ ring := .half0, gen := 1, key := 0x300, seq := 1, len := 1, old := none, copy := true, job := none }] } }],
     true, { ring := .half0, retire := false }, by decide +kernel⟩,
   ⟨live [fun h => { h with ins := { h.ins with mainOn := true } }, fun h =>
     { h with pwr := { h.pwr with commit := none } }, fun h => { h with life := { h.life with retireLeft := 0 } }, fun
     h => { h with log := { h.log with reclaiming := false } }, fun h =>
     { h with store := { h.store with erase := none } }, fun h =>
     { h with store := { h.store with erased := ({ ring := .half0, gen := 1 } : Erased) :: ([] : List Erased) } }],
     { ring := .half0, gen := 1 }, [], by decide +kernel⟩,
   ⟨live [fun h => { h with ins := { h.ins with mainOn := true } }, fun h =>
     { h with pwr := { h.pwr with commit := none } }, fun h => { h with fw := { h.fw with programming := false } },
     fun h =>
     { h with store := { h.store with proving := ({ ring := .half0, gen := 1, key := 0x300, seq := 1, len := 1, old := none, copy := false, job := none } : Verify) :: ([] : List Verify) } }],
     { ring := .half0, gen := 1, key := 0x300, seq := 1, len := 1, old := none, copy := false, job := none }, [], by
     decide +kernel⟩,
   ⟨live [fun h => { h with ins := { h.ins with mainOn := true } }, fun h =>
     { h with pwr := { h.pwr with commit := none } }, fun h => { h with fw := { h.fw with programming := false } },
     fun h =>
     { h with store := { h.store with proving := ({ ring := .half0, gen := 1, key := 0x300, seq := 1, len := 1, old := none, copy := false, job := none } : Verify) :: ([] : List Verify) } },
     fun h => { h with faults := { h.faults with inject := List.replicate 15 (0, false) } }],
     { ring := .half0, gen := 1, key := 0x300, seq := 1, len := 1, old := none, copy := false, job := none }, [], by
     decide +kernel⟩,
   ⟨live [fun h => { h with ins := { h.ins with mainOn := true } }, fun h =>
     { h with pwr := { h.pwr with commit := none } }, fun h =>
     { h with life := { h.life with retireLeft := 0 + 2 } }], 0, by decide +kernel⟩,
   ⟨live [fun h => { h with ins := { h.ins with booted := true } }, fun h =>
     { h with pwr := { h.pwr with commit := none } }, fun h => { h with store := { h.store with erase := none } }, fun
     h => { h with log := { h.log with reclaiming := false } }, fun h =>
     { h with life := { h.life with retireLeft := 0 } }, fun h =>
     { h with faults := { h.faults with inject := List.replicate 15 (0, false) } }, fun h =>
     { h with store := { h.store with half0 := ⟨[⟨1, 0, [], false⟩, ⟨2, 0, [], false⟩], [], 0⟩ } }], .half0, by
     decide +kernel⟩,
   ⟨live [fun h => { h with ins := { h.ins with mainOn := true } }, fun h =>
     { h with ins := { h.ins with booted := true } }, fun h =>
     { h with faults := { h.faults with inject := List.replicate 15 (0, false) } }], by decide +kernel⟩,
   ⟨live [fun h => { h with ins := { h.ins with mainOn := true } }, fun h =>
     { h with ins := { h.ins with booted := true } }, fun h =>
     { h with faults := { h.faults with inject := List.replicate 15 (0, false) } }], 0, 0, false, by decide +kernel⟩,
   ⟨live [fun h => { h with ins := { h.ins with mainOn := true } }, fun h =>
     { h with ins := { h.ins with booted := true } }, fun h =>
     { h with faults := { h.faults with inject := List.replicate 15 (0, false) } }], 0, by decide +kernel⟩,
   ⟨live [fun h => { h with ins := { h.ins with mainOn := true } }, fun h =>
     { h with ins := { h.ins with booted := true } }, fun h =>
     { h with faults := { h.faults with inject := List.replicate 15 (0, false) } }], 0, .other, by decide +kernel⟩⟩

theorem meets_ChargeRunsItsCourse :
    (∃ (s : State), s.hw.chg.state = .precondition ∧ s.hw.chg.govHold = false ∧ s.hw.ins.mainOn = true) ∧
    (∃ (s : State), s.hw.chg.state = .cc ∧ s.hw.chg.govHold = false ∧ s.hw.ins.mainOn = true) ∧
    (∃ (s : State), s.hw.chg.state = .cv ∧ s.hw.chg.govHold = false ∧ s.hw.ins.mainOn = true ∧ s.hw.chg.set.tTopoff ≠
      0) ∧
    (∃ (s : State), s.hw.chg.state = .cv ∧ s.hw.chg.govHold = false ∧ s.hw.ins.mainOn = true ∧ s.hw.chg.set.tTopoff =
      0 ∧ s.hw.holdup = true) ∧
    (∃ (s : State), s.hw.chg.state = .topoff ∧ s.hw.chg.govHold = false ∧ s.hw.ins.mainOn = true ∧ s.hw.holdup = true) ∧
    (∃ (s : State), s.hw.chg.state = .done ∧ s.hw.chg.govHold = false ∧ s.hw.ins.mainOn = true) ∧
    (∃ (s : State), s.hw.chg.timerRun = true ∧ s.hw.chg.govHold = false ∧ s.hw.ins.mainOn = true ∧ s.hw.holdup = true) ∧
    (∃ (s : State), s.hw.chg.state = .precondition ∧ s.hw.chg.govHold = false ∧ s.hw.ins.mainOn = true ∧ s.hw.holdup =
      true) ∧
    (∃ (s : State) (temp : Int), s.hw.holdup = true ∧ s.hw.ins.mainOn = true ∧ s.hw.pwr.battAbsent = false ∧ temp ≤
      10000 ∧ ((s.hw.chg.state = .precondition ∨ s.hw.chg.state = .cc ∨ s.hw.chg.state = .cv ∨ s.hw.chg.state =
      .topoff ∨ s.hw.chg.state = .done))) ∧
    (∃ (s : State) (temp : Int), s.hw.holdup = true ∧ s.hw.ins.mainOn = true ∧ s.hw.pwr.battAbsent = false ∧ 10000 <
      temp ∧ ((s.hw.chg.state = .precondition ∨ s.hw.chg.state = .cc ∨ s.hw.chg.state = .cv ∨ s.hw.chg.state = .topoff
      ∨ s.hw.chg.state = .done ∨ s.hw.chg.state = .tempPause))) ∧
    (∃ (_was : Nat) (t : Int), t < 0) ∧
    (∃ (_was : Nat) (t : Int), 1200 ≤ t ∧ t ≤ 4300) ∧
    (∃ (_was : Nat) (t : Int), 5500 < t) :=
  ⟨⟨live [fun h => { h with chg := { h.chg with state := .precondition } }, fun h =>
    { h with chg := { h.chg with govHold := false } }, fun h => { h with ins := { h.ins with mainOn := true } }], by
    decide +kernel⟩,
   ⟨live [fun h => { h with chg := { h.chg with state := .cc } }, fun h =>
     { h with chg := { h.chg with govHold := false } }, fun h => { h with ins := { h.ins with mainOn := true } }], by
     decide +kernel⟩,
   ⟨live [fun h => { h with chg := { h.chg with state := .cv } }, fun h =>
     { h with chg := { h.chg with govHold := false } }, fun h => { h with ins := { h.ins with mainOn := true } }], by
     decide +kernel⟩,
   ⟨live [fun h => { h with chg := { h.chg with state := .cv } }, fun h =>
     { h with chg := { h.chg with govHold := false } }, fun h => { h with ins := { h.ins with mainOn := true } }, fun
     h => { h with chg := { h.chg with set := { h.chg.set with tTopoff := 0 } } }], by decide +kernel⟩,
   ⟨live [fun h => { h with chg := { h.chg with state := .topoff } }, fun h =>
     { h with chg := { h.chg with govHold := false } }, fun h => { h with ins := { h.ins with mainOn := true } }], by
     decide +kernel⟩,
   ⟨live [fun h => { h with chg := { h.chg with state := .done } }, fun h =>
     { h with chg := { h.chg with govHold := false } }, fun h => { h with ins := { h.ins with mainOn := true } }], by
     decide +kernel⟩,
   ⟨live [fun h => { h with chg := { h.chg with timerRun := true } }, fun h =>
     { h with chg := { h.chg with govHold := false } }, fun h => { h with ins := { h.ins with mainOn := true } }], by
     decide +kernel⟩,
   ⟨live [fun h => { h with chg := { h.chg with state := .precondition } }, fun h =>
     { h with chg := { h.chg with govHold := false } }, fun h => { h with ins := { h.ins with mainOn := true } }], by
     decide +kernel⟩,
   ⟨live [fun h => { h with ins := { h.ins with mainOn := true } }, fun h =>
     { h with pwr := { h.pwr with battAbsent := false } }, fun h => { h with chg := { h.chg with state := .done } }],
     10000, by decide +kernel⟩,
   ⟨live [fun h => { h with ins := { h.ins with mainOn := true } }, fun h =>
     { h with pwr := { h.pwr with battAbsent := false } }, fun h =>
     { h with chg := { h.chg with state := .tempPause } }], 10001, by decide +kernel⟩,
   ⟨0, -1, by decide +kernel⟩,
   ⟨0, 1200, by decide +kernel⟩,
   ⟨0, 5501, by decide +kernel⟩⟩

theorem meets_ChargerRestartsAndProbes :
    (∃ (s : State), s.hw.chg.restartDue = true ∧ s.hw.chgEnabled = true ∧ s.hw.pwr.battAbsent = true) ∧
    (∃ (s : State), s.hw.chg.restartDue = true ∧ s.hw.chgEnabled = true ∧ s.hw.pwr.battAbsent = false ∧
      s.hw.pwr.packTemp ≤ 10000 ∧ noCharge (packBand s.hw.pwr.packTemp s.hw.chg.band) = true) ∧
    (∃ (s : State), s.hw.chg.restartDue = true ∧ s.hw.chgEnabled = true ∧ s.hw.pwr.battAbsent = false ∧
      s.hw.pwr.packTemp ≤ 10000 ∧ noCharge (packBand s.hw.pwr.packTemp s.hw.chg.band) = false ∧ s.hw.cellMv <
      s.hw.image.chem.vPre) ∧
    (∃ (s : State) (p : ProbeSample), s.hw.holdup = true ∧ s.hw.ins.mainOn = true ∧ s.hw.pwr.vinUsable = true ∧
      s.hw.pwr.onBattery = false ∧ s.hw.pwr.handingOver = false ∧ s.hw.gone = false ∧ s.hw.seq.state ≠ .standby ∧
      s.hw.pwr.battAbsent = false ∧ ((p.vbat ≤ s.hw.image.cells * 1500 ∨ 1000 < p.drop ∨ p.temp = none))) ∧
    (∃ (s : State) (p : ProbeSample) (t : Int), s.hw.holdup = true ∧ s.hw.ins.mainOn = true ∧ s.hw.pwr.vinUsable =
      true ∧ s.hw.pwr.onBattery = false ∧ s.hw.pwr.handingOver = false ∧ s.hw.gone = false ∧ s.hw.seq.state ≠ .standby
      ∧ s.hw.pwr.battAbsent = true ∧ s.hw.image.cells * 1500 < p.vbat ∧ p.drop ≤ 1000 ∧ p.temp = some t ∧ t ≤ 10000) ∧
    (∃ (s : State), s.hw.holdup = true ∧ s.hw.ins.mainOn = true ∧ s.hw.ins.booted = true ∧ s.hw.chg.safeDefaults =
      false) :=
  ⟨⟨live [fun h => { h with chg := { h.chg with restartDue := true } }, fun h =>
    { h with pwr := { h.pwr with battAbsent := true } }], by decide +kernel⟩,
   ⟨live [fun h => { h with chg := { h.chg with restartDue := true } }, fun h =>
     { h with pwr := { h.pwr with battAbsent := false } }, fun h => { h with pwr := { h.pwr with packTemp := -1 } }],
     by decide +kernel⟩,
   ⟨live [fun h => { h with chg := { h.chg with restartDue := true } }, fun h =>
     { h with pwr := { h.pwr with battAbsent := false } }, fun h =>
     { h with pwr := { h.pwr with packTemp := 2500 } }], by decide +kernel⟩,
   ⟨live [fun h => { h with ins := { h.ins with mainOn := true } }, fun h =>
     { h with pwr := { h.pwr with vinUsable := true } }, fun h => { h with pwr := { h.pwr with onBattery := false } },
     fun h => { h with pwr := { h.pwr with handingOver := false } }, fun h =>
     { h with pwr := { h.pwr with battAbsent := false } }], { vbat := 4500, drop := 0, temp := some 2500 }, by
     decide +kernel⟩,
   ⟨live [fun h => { h with ins := { h.ins with mainOn := true } }, fun h =>
     { h with pwr := { h.pwr with vinUsable := true } }, fun h => { h with pwr := { h.pwr with onBattery := false } },
     fun h => { h with pwr := { h.pwr with handingOver := false } }, fun h =>
     { h with pwr := { h.pwr with battAbsent := true } }], { vbat := 4501, drop := 1000, temp := some 10000 }, 10000,
     by decide +kernel⟩,
   ⟨live [fun h => { h with ins := { h.ins with mainOn := true } }, fun h =>
     { h with ins := { h.ins with booted := true } }, fun h =>
     { h with chg := { h.chg with safeDefaults := false } }], by decide +kernel⟩⟩

theorem meets_GaugeCountsAndAnchors :
    (∃ (s : State) (g : GaugeSample), s.hw.gauges = true ∧ s.hw.gauge.fcc ≠ 0 ∧ g.step = none) ∧
    (∃ (s : State) (_v : Nat), s.hw.gauges = true ∧ s.hw.gauge.custom = none) ∧
    (∃ (s : State) (_v : Nat), s.hw.gauges = true) ∧
    (∃ (s : State), s.hw.gauges = true ∧ s.hw.gauge.noRest = false) ∧
    (∃ (s : State) (_v : Nat), s.hw.gauges = true ∧ s.hw.gauge.foundWait = true ∧ s.hw.gauge.active = none) ∧
    (∃ (s : State), s.hw.holdup = true ∧ s.hw.ins.booted = true ∧ s.hw.pwr.commit = none ∧ s.hw.inLimp = false ∧
      s.hw.halfShort = false ∧ s.hw.gauge.learnedDue = false) ∧
    (∃ (s : State), s.hw.holdup = true ∧ s.hw.ins.booted = true ∧ s.hw.pwr.commit = none ∧ s.hw.inLimp = false ∧
      s.hw.halfShort = true) :=
  ⟨⟨live [fun h => { h with pwr := { h.pwr with battAbsent := false } }], { dq := 1000, step := none }, by
    decide +kernel⟩,
   ⟨live [fun h => { h with pwr := { h.pwr with battAbsent := false } }, fun h =>
     { h with gauge := { h.gauge with custom := none } }], 3700, by decide +kernel⟩,
   ⟨live [fun h => { h with pwr := { h.pwr with battAbsent := false } }], 3700, by decide +kernel⟩,
   ⟨live [fun h => { h with pwr := { h.pwr with battAbsent := false } }, fun h =>
     { h with gauge := { h.gauge with noRest := false } }], by decide +kernel⟩,
   ⟨live [fun h => { h with pwr := { h.pwr with battAbsent := false } }, fun h =>
     { h with gauge := { h.gauge with foundWait := true } }, fun h =>
     { h with gauge := { h.gauge with active := none } }], 0, by decide +kernel⟩,
   ⟨live [fun h => { h with ins := { h.ins with booted := true } }, fun h =>
     { h with pwr := { h.pwr with commit := none } }, roomy, fun h =>
     { h with gauge := { h.gauge with learnedDue := false } }], by decide +kernel⟩,
   ⟨live [fun h => { h with ins := { h.ins with booted := true } }, fun h =>
     { h with pwr := { h.pwr with commit := none } }, fun h =>
     { h with store := { h.store with half0 := ⟨[], [], 0⟩ } }], by decide +kernel⟩⟩

theorem meets_BusWritesReachTheirBytes :
    (∃ (s : State) (adr : BitVec 7) (ptr : Half) (data : List Byte) (c : Instr), ((c = .hostBusWrite adr ptr data ∨ c
      = .evtPendWrite adr ptr data)) ∧ s.hw.straps.origin adr = none) ∧
    (∃ (s : State) (adr : BitVec 7) (o : Origin) (ptr : Half) (data : List Byte) (v : WdtView) (c : Instr), ((c =
      .hostBusWrite adr ptr data ∨ c = .evtPendWrite adr ptr data)) ∧ s.hw.straps.origin adr = some o ∧ s.hw.busUp =
      true ∧ checkBytes o s.hw.wdtOpen ptr.toNat 0 data { w := s.hw.wdt, high := none } = .ok v) ∧
    (∃ (s : State) (adr : BitVec 7) (o : Origin) (ptr : Half) (data : List Byte) (a : Nat) (nack : Bool) (c : Instr),
      ((c = .hostBusWrite adr ptr data ∨ c = .evtPendWrite adr ptr data)) ∧ s.hw.straps.origin adr = some o ∧
      s.hw.busUp = true ∧ checkBytes o s.hw.wdtOpen ptr.toNat 0 data { w := s.hw.wdt, high := none } = .error (a,
      nack)) ∧
    (∃ (s : State) (adr : BitVec 7) (o : Origin) (ptr : Half) (data : List Byte) (c : Instr), ((c = .hostBusWrite adr
      ptr data ∨ c = .evtPendWrite adr ptr data)) ∧ s.hw.straps.origin adr = some o ∧ s.hw.busUp = false) ∧
    (∃ (s : State) (adr : BitVec 7) (o : Origin) (ptr : Half) (data : List Byte), s.hw.straps.origin adr = some o ∧
      s.hw.busUp = true ∧ s.hw.buffersOk = true ∧ 0x1000 ≤ ptr.toNat ∧ ptr.toNat < 0x1100 ∧ data.length ≤ 64) ∧
    (∃ (s : State) (adr : BitVec 7) (o : Origin) (ptr : Half) (_b : Byte) (_bs : List Byte), s.hw.straps.origin adr =
      some o ∧ s.hw.busUp = true ∧ writable o (pageAddr ptr.toNat 0) = false ∧ ((pageAddr ptr.toNat 0 < 0x100 ∨ 0x110
      ≤ pageAddr ptr.toNat 0 ∨ o = .V))) ∧
    (∃ (s : State) (adr : BitVec 7) (_i : Fin 8) (_b : Byte), s.hw.straps.origin adr = some .A ∧ s.hw.busUp = true) ∧
    (∃ (s : State) (adr : BitVec 7) (_i : Fin 8) (_b : Byte), s.hw.straps.origin adr = some .A ∧ s.hw.busUp = true) ∧
    (∃ (s : State) (adr : BitVec 7) (data : List Byte), s.hw.straps.origin adr = some .A ∧ s.hw.busUp = true ∧
      data.length = 8) ∧
    (∃ (s : State) (adr : BitVec 7) (_i : Fin 16) (_b : Byte), s.hw.straps.origin adr = some .V ∧ s.hw.busUp = true) :=
  ⟨⟨live [], 0x5A, 0, [], .evtPendWrite 0x5A 0 [], by decide +kernel⟩,
   ⟨live [fun h => { h with straps := { h.straps with addr := 3 } }], 0x5E, .A, 0x1000, [1],
     { w := Hw.reset.wdt, high := none }, .hostBusWrite 0x5E 0x1000 [1], by decide +kernel⟩,
   ⟨live [fun h => { h with straps := { h.straps with addr := 3 } }], 0x5F, .V, 0x2800, [1], 0x2800, true,
     .evtPendWrite 0x5F 0x2800 [1], by decide +kernel⟩,
   ⟨live [fun h => { h with ins := { h.ins with booted := false } }], 0x58, .A, 0x80, [1], .evtPendWrite 0x58 0x80
     [1], by decide +kernel⟩,
   ⟨live [], 0x58, .A, 0x10FF, List.replicate 64 1, by decide +kernel⟩,
   ⟨live [], 0x58, .A, 0x2800, 1, [], by decide +kernel⟩,
   ⟨live [], 0x58, 7, 0, by decide +kernel⟩,
   ⟨live [], 0x58, 7, 0, by decide +kernel⟩,
   ⟨live [], 0x58, List.replicate 8 0xFF, by decide +kernel⟩,
   ⟨live [], 0x59, 15, 0, by decide +kernel⟩⟩

theorem meets_BusReadsAndErrors :
    (∃ (s : State) (adr : BitVec 7) (_p : Option Half) (_n : Nat), s.hw.straps.origin adr = none) ∧
    (∃ (s : State) (adr : BitVec 7) (o : Origin) (_p : Half) (_n : Nat), s.hw.straps.origin adr = some o ∧ s.hw.busUp
      = true) ∧
    (∃ (s : State) (adr : BitVec 7) (o : Origin) (_n : Nat), s.hw.straps.origin adr = some o ∧ s.hw.busUp = true) ∧
    (∃ (s : State) (adr : BitVec 7) (o : Origin) (_p : Option Half) (_n : Nat), s.hw.straps.origin adr = some o ∧
      s.hw.busUp = false) ∧
    (∃ (_h : Hw) (_o : Origin) (p : Nat), 0x50 ≤ p ∧ p < 0x80) ∧
    (∃ (_h : Hw) (_o : Origin) (p : Nat), 0x2800 ≤ p) ∧
    (∃ (_h : Hw) (p : Nat), 0x100 ≤ p ∧ p < 0x110) ∧
    (∃ (s : State) (o : Origin) (p : Half) (c : Instr), ((c = .repeatedStartInAck o p ∨ c = .startInsideByte o p ∨ c =
      .stopInsideByte o p ∨ c = .stalledTransaction o p)) ∧ s.hw.busUp = true) ∧
    (∃ (s : State) (o : Origin), s.hw.busUp = true ∧ (s.hw.mbx o).ptrReset = false) ∧
    (∃ (s : State) (o : Origin) (p : Half) (c : Instr), ((c = .repeatedStartInAck o p ∨ c = .startInsideByte o p ∨ c =
      .stopInsideByte o p ∨ c = .stalledTransaction o p ∨ c = .onePointerByte o)) ∧ s.hw.busUp = false) ∧
    (∃ (s : State) (adr : BitVec 7) (o : Origin), s.hw.straps.origin adr = some o ∧ s.hw.wakes = true) ∧
    (∃ (s : State) (adr : BitVec 7) (o : Origin), s.hw.straps.origin adr = some o ∧ s.hw.idle.idle = true ∧ s.hw.busUp
      = true) ∧
    (∃ (s : State) (adr : BitVec 7), s.hw.straps.origin adr = none) ∧
    (∃ (s : State) (o : Origin), (s.hw.mbx o).stretching = true) :=
  ⟨⟨live [], 0x57, none, 1, by decide +kernel⟩,
   ⟨live [], 0x58, .A, 0, 0, by decide +kernel⟩,
   ⟨live [], 0x58, .A, 1, by decide +kernel⟩,
   ⟨live [fun h => { h with ins := { h.ins with booted := false } }], 0x58, .A, none, 1, by decide +kernel⟩,
   ⟨(live []).hw, .A, 0x7F, by decide +kernel⟩,
   ⟨(live []).hw, .A, 0x2800, by decide +kernel⟩,
   ⟨(live []).hw, 0x10F, by decide +kernel⟩,
   ⟨live [], .A, 0x1000, .stalledTransaction .A 0x1000, by decide +kernel⟩,
   ⟨live [fun h => h.modMbx .A (fun y => { y with ptrReset := false })], .A, by decide +kernel⟩,
   ⟨live [fun h => { h with ins := { h.ins with booted := false } }], .A, 0, .onePointerByte .A, by decide +kernel⟩,
   ⟨live [fun h => { h with seq := { h.seq with state := .standby } }, fun h =>
     { h with ins := { h.ins with mainOn := false } }, fun h => { h with ins := { h.ins with booted := false } }],
     0x58, .A, by decide +kernel⟩,
   ⟨live [fun h => { h with idle := { h.idle with idle := true } }], 0x58, .A, by decide +kernel⟩,
   ⟨live [], 0x60, by decide +kernel⟩,
   ⟨live [fun h => h.modMbx .A (fun y => { y with stretching := true })], .A, by decide +kernel⟩⟩

theorem meets_SubmissionsAndReplies :
    (∃ (s : State) (o : Origin) (g : Byte), s.hw.busUp = true ∧ (s.hw.mbx o).inProc = none ∧ (s.hw.mbx o).queued =
      none ∧ (s.hw.mbx o).tagMatches g = true ∧ s.hw.hit 0x0F = false) ∧
    (∃ (s : State) (o : Origin) (g : Byte), s.hw.busUp = true ∧ (s.hw.mbx o).inProc = none ∧ (s.hw.mbx o).queued =
      none ∧ (s.hw.mbx o).tagMatches g = false ∧ s.hw.serves = true ∧ s.hw.bootWork = false ∧ s.hw.pwr.commit = none ∧
      (s.hw.mbx (Origin.other o)).inProc = none ∧ s.hw.reaction 0x41 ≤ 1) ∧
    (∃ (s : State) (o : Origin) (g : Byte) (p : Nat × List Byte), s.hw.busUp = true ∧ (s.hw.mbx o).inProc = some p ∧
      (s.hw.mbx o).queued = none ∧ p.2.getD 1 0 ≠ g ∧ (s.hw.mbx o).tagMatches g = true ∧ s.hw.hit 0x0F = false) ∧
    (∃ (s : State) (o : Origin) (g : Byte) (p : Nat × List Byte) (q : Nat × List Byte), s.hw.busUp = true ∧ (s.hw.mbx
      o).inProc = some p ∧ (s.hw.mbx o).queued = some q ∧ p.2.getD 1 0 ≠ g ∧ q.2.getD 1 0 ≠ g) ∧
    (∃ (s : State) (o : Origin) (g : Byte) (p : Nat × List Byte), s.hw.busUp = true ∧ (s.hw.mbx o).inProc = some p ∧
      p.2.getD 1 0 = g) ∧
    (∃ (s : State) (o : Origin) (r : List Byte), s.hw.ins.booted = true ∧ s.hw.gone = false ∧ s.hw.rst.coreReq = none
      ∧ (s.hw.mbx o).taken = true ∧ (s.hw.mbx o).ready = some r ∧ (s.hw.mbx o).judged = true ∧ (s.hw.mbx o).queued =
      none ∧ (s.hw.mbx o).standbyReply = false) ∧
    (∃ (s : State) (o : Origin), s.hw.busUp = true ∧ (s.hw.mbx o).taken = false ∧ (s.hw.mbx o).replyState = .ready) :=
  ⟨⟨live [fun h => h.modMbx .A (fun y => { y with inProc := none }), fun h => h.modMbx .A (fun y =>
    { y with queued := none })], .A, 0, by decide +kernel⟩,
   ⟨live [fun h => h.modMbx .A (fun y => { y with inProc := none }), fun h => h.modMbx .A (fun y =>
     { y with queued := none }), fun h => { h with pwr := { h.pwr with commit := none } }, fun h => h.modMbx
     (Origin.other .A) (fun y => { y with inProc := none })], .A, 7, by decide +kernel⟩,
   ⟨live [fun h => h.modMbx .A (fun y => { y with inProc := some ((1, [(0x10 : Byte), 7, 0, 0]) : Nat × List Byte) }),
     fun h => h.modMbx .A (fun y => { y with queued := none }), fun h => h.modMbx .A (fun y =>
     { y with cmd := [(1, 8)] })], .A, 8, (1, [(0x10 : Byte), 7, 0, 0]), by decide +kernel⟩,
   ⟨live [fun h => h.modMbx .A (fun y => { y with inProc := some ((1, [(0x10 : Byte), 7, 0, 0]) : Nat × List Byte) }),
     fun h => h.modMbx .A (fun y => { y with queued := some ((1, [(0x10 : Byte), 7, 0, 0]) : Nat × List Byte) })], .A,
     8, (1, [(0x10 : Byte), 7, 0, 0]), (1, [(0x10 : Byte), 7, 0, 0]), by decide +kernel⟩,
   ⟨live [fun h => h.modMbx .A (fun y =>
     { y with inProc := some ((1, [(0x10 : Byte), 7, 0, 0]) : Nat × List Byte) })], .A, 7, (1, [(0x10 : Byte), 7, 0,
     0]), by decide +kernel⟩,
   ⟨live [fun h => { h with ins := { h.ins with booted := true } }, fun h =>
     { h with rst := { h.rst with coreReq := none } }, fun h => h.modMbx .A (fun y => { y with taken := true }), fun h
     => h.modMbx .A (fun y => { y with ready := some (replyBytes 0 7 0 [] : List Byte) }), fun h => h.modMbx .A (fun y
     => { y with judged := true }), fun h => h.modMbx .A (fun y => { y with queued := none }), fun h => h.modMbx .A
     (fun y => { y with inProc := some (1, [(0x10 : Byte), 7, 0, 0]) })], .A, replyBytes 0 7 0 [], by decide +kernel⟩,
   ⟨live [fun h => h.modMbx .A (fun y => { y with taken := false }), fun h => h.modMbx .A (fun y =>
     { y with replyState := .ready })], .A, by decide +kernel⟩⟩

theorem meets_WatchdogAndUnlockTimers :
    (∃ (s : State) (c : Byte), s.hw.busUp = true ∧ s.hw.wdt.enable = false ∧ s.hw.wdt.lock = false ∧ c.getLsbD 0 =
      true ∧ c.toNat / 4 % 4 = s.hw.wdt.window ∧ s.hw.wdt.window ≠ 0) ∧
    (∃ (s : State) (c : Byte), s.hw.busUp = true ∧ s.hw.wdt.enable = true ∧ s.hw.wdt.lock = false ∧ c.getLsbD 0 =
      false ∧ c.toNat / 4 % 4 ≠ 0) ∧
    (∃ (s : State) (c : Byte), s.hw.busUp = true ∧ s.hw.wdt.enable = true ∧ s.hw.wdt.lock = true ∧ c.getLsbD 0 =
      false) ∧
    (∃ (s : State) (adr : BitVec 7) (_a : Fin 16) (_b : Byte), s.hw.straps.origin adr = some .V ∧ s.hw.busUp = true) ∧
    (∃ (s : State), s.hw.busUp = true) ∧
    (∃ (s : State), s.hw.busUp = true ∧ s.hw.wdt.keyArmed = true ∧ s.hw.wdtOpen = true) ∧
    (∃ (s : State) (v : Byte), s.hw.busUp = true ∧ v ≠ 0xA5 ∧ v ≠ 0x5A ∧ s.hw.wdtCounts = true ∧ s.hw.wdt.warn =
      false) ∧
    (∃ (s : State), s.hw.wdtCounts = true ∧ s.hw.wdt.grace = false ∧ s.hw.wdt.warn = false) ∧
    (∃ (s : State), s.hw.wdtCounts = true ∧ s.hw.wdt.grace = true ∧ s.hw.wdt.warn = false) ∧
    (∃ (s : State), s.hw.wdtCounts = true ∧ s.hw.wdt.grace = false ∧ s.hw.wdt.warn = true ∧ s.hw.seq.state = .run) ∧
    (∃ (s : State), s.hw.seq.hostStepsDone = true ∧ s.hw.seq.state = .run ∧ s.hw.seq.hrst = false) ∧
    (∃ (s : State), s.hw.proto.unlock.unlocked = true ∧ s.hw.prm.unlock.unlocked = false) ∧
    (∃ (s : State), s.hw.proto.unlock.locked = true ∧ s.hw.prm.unlock.locked = false) :=
  ⟨⟨live [fun h => { h with wdt := { h.wdt with enable := false } }, fun h =>
    { h with wdt := { h.wdt with lock := false } }], 0x05, by decide +kernel⟩,
   ⟨live [fun h => { h with wdt := { h.wdt with enable := true } }, fun h =>
     { h with wdt := { h.wdt with lock := false } }], 0x04, by decide +kernel⟩,
   ⟨live [fun h => { h with wdt := { h.wdt with enable := true } }, fun h =>
     { h with wdt := { h.wdt with lock := true } }], 0, by decide +kernel⟩,
   ⟨live [], 0x59, 15, 0, by decide +kernel⟩,
   ⟨live [], by decide +kernel⟩,
   ⟨live [fun h => { h with wdt := { h.wdt with keyArmed := true } }, fun h =>
     { h with wdt := { h.wdt with enable := true } }, fun h => { h with wdt := { h.wdt with grace := true } }], by
     decide +kernel⟩,
   ⟨live [fun h => { h with wdt := { h.wdt with enable := true } }, fun h =>
     { h with wdt := { h.wdt with warn := false } }], 0x5B, by decide +kernel⟩,
   ⟨live [fun h => { h with wdt := { h.wdt with enable := true } }, fun h =>
     { h with wdt := { h.wdt with grace := false } }, fun h => { h with wdt := { h.wdt with warn := false } }], by
     decide +kernel⟩,
   ⟨live [fun h => { h with wdt := { h.wdt with enable := true } }, fun h =>
     { h with wdt := { h.wdt with grace := true } }, fun h => { h with wdt := { h.wdt with warn := false } }], by
     decide +kernel⟩,
   ⟨live [fun h => { h with wdt := { h.wdt with enable := true } }, fun h =>
     { h with wdt := { h.wdt with grace := false } }, fun h => { h with wdt := { h.wdt with warn := true } }, fun h =>
     { h with seq := { h.seq with state := .run } }], by decide +kernel⟩,
   ⟨live [fun h => { h with seq := { h.seq with hostStepsDone := true } }, fun h =>
     { h with seq := { h.seq with state := .run } }, fun h => { h with seq := { h.seq with hrst := false } }], by
     decide +kernel⟩,
   ⟨live [fun h => { h with proto := { h.proto with unlock := { h.proto.unlock with unlocked := true } } }, fun h =>
     { h with prm := { h.prm with unlock := { h.prm.unlock with unlocked := false } } }], by decide +kernel⟩,
   ⟨live [fun h => { h with proto := { h.proto with unlock := { h.proto.unlock with locked := true } } }, fun h =>
     { h with prm := { h.prm with unlock := { h.prm.unlock with locked := false } } }], by decide +kernel⟩⟩

theorem meets_RestartsResetTheMainDomain :
    (∃ (s : State), s.hw.lines.rstLow = false ∧ s.hw.ins.mainOn = true ∧ s.hw.ins.booted = true ∧ s.hw.pwr.commit =
      none ∧ s.hw.gone = false ∧ s.hw.rst.restart ≠ some .rstn) ∧
    (∃ (s : State), s.hw.lines.rstLow = false ∧ s.hw.seq.state = .standby ∧ s.hw.pwr.commit = none ∧ s.hw.ins.mainOn =
      false ∧ s.hw.leaving = false) ∧
    (∃ (s : State), s.hw.lines.rstLow = false ∧ s.hw.wakes = false ∧ s.hw.ins.mainOn = true ∧ s.hw.ins.booted = false
      ∧ s.hw.ins.porCause ≠ 0 ∧ s.hw.pwr.commit = none ∧ s.hw.gone = false) ∧
    (∃ (s : State) (k : RestartKind), s.hw.rst.restart = some k ∧ s.hw.nRes = 0 ∧ s.hw.seq.state = .off ∧
      s.hw.life.breaking = none ∧ s.hw.pwr.commit = none ∧ s.hw.gone = false) ∧
    (∃ (s : State) (w : WakeSource), s.hw.seq.state = .standby ∧ s.hw.pwr.commit = none ∧ s.hw.ins.mainOn = false ∧
      s.hw.leaving = false ∧ ((w = .address ∨ (w = .en ∧ s.hw.seq.wake.getLsbD 0 = true) ∨ (w = .alarm ∧
      s.hw.seq.wake.getLsbD 1 = true)))) ∧
    (∃ (s : State) (w : WakeSource), s.hw.seq.state = .standby ∧ s.hw.pwr.commit = none ∧ s.hw.ins.mainOn = false ∧
      s.hw.leaving = false ∧ (((w = .en ∧ s.hw.seq.wake.getLsbD 0 = false) ∨ (w = .alarm ∧ s.hw.seq.wake.getLsbD 1 =
      false)))) :=
  ⟨⟨live [fun h => { h with lines := { h.lines with rstLow := false } }, fun h =>
    { h with ins := { h.ins with mainOn := true } }, fun h => { h with ins := { h.ins with booted := true } }, fun h
    => { h with pwr := { h.pwr with commit := none } }], by decide +kernel⟩,
   ⟨live [fun h => { h with lines := { h.lines with rstLow := false } }, fun h =>
     { h with seq := { h.seq with state := .standby } }, fun h => { h with pwr := { h.pwr with commit := none } }, fun
     h => { h with ins := { h.ins with mainOn := false } }], by decide +kernel⟩,
   ⟨live [fun h => { h with lines := { h.lines with rstLow := false } }, fun h =>
     { h with ins := { h.ins with mainOn := true } }, fun h => { h with ins := { h.ins with booted := false } }, fun h
     => { h with pwr := { h.pwr with commit := none } }], by decide +kernel⟩,
   ⟨live [fun h => { h with rst := { h.rst with restart := some .moduleRestart } }, fun h =>
     { h with seq := { h.seq with state := .off } }, fun h => { h with life := { h.life with breaking := none } }, fun
     h => { h with pwr := { h.pwr with commit := none } }], .moduleRestart, by decide +kernel⟩,
   ⟨live [fun h => { h with seq := { h.seq with state := .standby } }, fun h =>
     { h with pwr := { h.pwr with commit := none } }, fun h => { h with ins := { h.ins with mainOn := false } }, fun h
     => { h with ins := { h.ins with booted := false } }, fun h => { h with seq := { h.seq with wake := 2 } }],
     .alarm, by decide +kernel⟩,
   ⟨live [fun h => { h with seq := { h.seq with state := .standby } }, fun h =>
     { h with pwr := { h.pwr with commit := none } }, fun h => { h with ins := { h.ins with mainOn := false } }, fun h
     => { h with seq := { h.seq with wake := 1 } }], .alarm, by decide +kernel⟩⟩

theorem meets_CoreResetsLeaveTheHardware :
    (∃ (s : State), s.hw.ins.mainOn = true ∧ s.hw.ins.booted = true ∧ s.hw.pwr.commit = none ∧ s.hw.rst.coreReq =
      none) ∧
    (∃ (s : State) (q : Nat) (f : Fw), s.hw.rst.coreReq = some q ∧ s.hw.ins.mainOn = true ∧ s.hw.ins.booted = true ∧
      s.hw.pwr.commit = none ∧ s.hw.inLimp = false ∧ s.hw.fw.activatePending = false ∧ s.hw.fw.start = some f ∧
      s.hw.life.retired = false ∧ (s.hw.flashBusy = false ∨ s.hw.rst.safe = true) ∧ s.hw.fw.programming = false ∧
      s.hw.bulk.holds 14 = false ∧ s.hw.lodge.lodgeReset = false ∧ (s.hw.rst.history.filter (fun i => s.hw.clk ≤ i +
      60000000)).length < 2) ∧
    (∃ (s : State) (q : Nat), s.hw.rst.coreReq = some q ∧ s.hw.ins.mainOn = true ∧ s.hw.ins.booted = true ∧
      s.hw.pwr.commit = none ∧ s.hw.inLimp = false ∧ s.hw.fw.activatePending = false ∧ (s.hw.flashBusy = false ∨
      s.hw.rst.safe = true) ∧ s.hw.fw.programming = false ∧ 2 ≤ (s.hw.rst.history.filter (fun i => s.hw.clk ≤ i +
      60000000)).length) ∧
    (∃ (s : State) (q : Nat), s.hw.rst.coreReq = some q ∧ (s.hw.flashBusy = true ∧ s.hw.rst.safe = false ∨
      s.hw.fw.programming = true)) ∧
    (∃ (s : State), s.hw.rst.fwReset = true ∧ s.hw.pwr.commit = none ∧ s.hw.rst.coreReq = none) ∧
    (∃ (s : State), s.hw.fw.trialRun = true ∧ s.hw.ins.booted = true ∧ s.hw.inLimp = false ∧ s.hw.rst.coreReq = none) ∧
    (∃ (s : State) (e : FaultEntry) (es : List FaultEntry), s.hw.ins.booted = true ∧ s.hw.inLimp = false ∧
      s.hw.pwr.commit = none ∧ s.hw.faults.queue = e :: es) ∧
    (∃ (s : State) (j : Nat), s.hw.seq.service.job = some j ∧ s.hw.seq.service.downAsked = true ∧
      s.hw.seq.service.lastWordDone = true ∧ s.hw.prm.leaveDue = none ∧ s.hw.pwr.commit = none ∧ ((s.hw.seq.state =
      .off ∨ s.hw.seq.state = .faultLatched)) ∧ (∀ v ∈ s.hw.store.proving, v.job ≠ some j)) ∧
    (∃ (s : State) (j : Nat) (v : Verify), s.hw.seq.service.job = some j ∧ v ∈ s.hw.store.proving ∧ v.job = some j ∧
      s.hw.seq.service.downAsked = true ∧ s.hw.seq.service.lastWordDone = true) :=
  ⟨⟨live [fun h => { h with ins := { h.ins with mainOn := true } }, fun h =>
    { h with ins := { h.ins with booted := true } }, fun h => { h with pwr := { h.pwr with commit := none } }, fun h
    => { h with rst := { h.rst with coreReq := none } }], by decide +kernel⟩,
   ⟨live [fun h => { h with rst := { h.rst with coreReq := some 3 } }, fun h =>
     { h with ins := { h.ins with mainOn := true } }, fun h => { h with ins := { h.ins with booted := true } }, fun h
     => { h with pwr := { h.pwr with commit := none } }, fun h =>
     { h with fw := { h.fw with activatePending := false } }, fun h =>
     { h with life := { h.life with retired := false } }, fun h =>
     { h with fw := { h.fw with programming := false } }, fun h =>
     { h with lodge := { h.lodge with lodgeReset := false } }], 3, (Hw.reset.fw.start).getD Hw.reset.fw, by
     decide +kernel⟩,
   ⟨live [fun h => { h with rst := { h.rst with coreReq := some 3 } }, fun h =>
     { h with ins := { h.ins with mainOn := true } }, fun h => { h with ins := { h.ins with booted := true } }, fun h
     => { h with pwr := { h.pwr with commit := none } }, fun h =>
     { h with fw := { h.fw with activatePending := false } }, fun h =>
     { h with fw := { h.fw with programming := false } }, fun h =>
     { h with rst := { h.rst with history := [0, 0] } }], 3, by decide +kernel⟩,
   ⟨live [fun h => { h with rst := { h.rst with coreReq := some 4 } }, fun h =>
     { h with log := { h.log with reclaiming := true } }], 4, by decide +kernel⟩,
   ⟨live [fun h => { h with rst := { h.rst with fwReset := true } }, fun h =>
     { h with pwr := { h.pwr with commit := none } }, fun h => { h with rst := { h.rst with coreReq := none } }], by
     decide +kernel⟩,
   ⟨live [fun h => { h with fw := { h.fw with trialRun := true } }, fun h =>
     { h with ins := { h.ins with booted := true } }, fun h => { h with rst := { h.rst with coreReq := none } }], by
     decide +kernel⟩,
   ⟨live [fun h => { h with ins := { h.ins with booted := true } }, fun h =>
     { h with pwr := { h.pwr with commit := none } }, fun h =>
     { h with faults := { h.faults with queue := entry1 :: ([] : List FaultEntry) } }], entry1, [], by
     decide +kernel⟩,
   ⟨live [fun h => { h with seq := { h.seq with service := { h.seq.service with job := some 7 } } }, fun h =>
     { h with seq := { h.seq with service := { h.seq.service with downAsked := true } } }, fun h =>
     { h with seq := { h.seq with service := { h.seq.service with lastWordDone := true } } }, fun h =>
     { h with prm := { h.prm with leaveDue := none } }, fun h => { h with pwr := { h.pwr with commit := none } }, fun
     h => { h with seq := { h.seq with state := .faultLatched } }], 7, by decide +kernel⟩,
   ⟨live [fun h => { h with seq := { h.seq with service := { h.seq.service with job := some 7 } } }, fun h =>
     { h with seq := { h.seq with service := { h.seq.service with downAsked := true } } }, fun h =>
     { h with seq := { h.seq with service := { h.seq.service with lastWordDone := true } } }, fun h =>
     { h with store := { h.store with proving := [{ ring := .half0, gen := 1, key := 0x300, seq := 1, len := 1, old := none, copy := false, job := some 7 }] } },
     fun h => { h with seq := { h.seq with service := { h.seq.service with job := some 7 } } }], 7,
     { ring := .half0, gen := 1, key := 0x300, seq := 1, len := 1, old := none, copy := false, job := some 7 }, by
     decide +kernel⟩⟩

theorem meets_SealBreakLeavesSealed :
    (∃ (s : State) (_c : CalenSample), s.hw.unheld = false) ∧
    (∃ (s : State), s.hw.unheld = true ∧ s.hw.pwr.commit = none) ∧
    (∃ (s : State), s.hw.unheld = true ∧ s.hw.pwr.commit = none ∧ s.hw.sealed = false ∧ s.hw.sealing = false) ∧
    (∃ (s : State), s.hw.unheld = true ∧ s.hw.pwr.commit = none ∧ s.hw.sealed = false ∧ s.hw.sealing = true ∧
      s.hw.lines.calenLow = false) ∧
    (∃ (s : State) (w : StoreWrite) (b : BreakSt), s.hw.ins.mainOn = true ∧ s.hw.pwr.commit = none ∧ s.hw.store.queue
      = [w] ∧ w.isLog = true ∧ w.phase = 2 ∧ w.purpose = .breaking ∧ s.hw.life.breaking = some b ∧ s.hw.hit 0x0F =
      false ∧ s.hw.store.proving = [] ∧ s.hw.fw.programming = false) ∧
    (∃ (s : State) (c : CalenSample), s.hw.unheld = true ∧ s.hw.pwr.commit = none ∧ s.hw.sealed = true ∧
      s.hw.ins.booted = true ∧ FusesInRange s.hw.life ∧ ((c = .falls ∧ s.hw.lines.calenLow = false ∨ c =
      .lowAtFirstSample ∧ s.hw.log.signPending = false))) ∧
    (∃ (s : State), s.hw.unheld = true ∧ s.hw.pwr.commit = none ∧ s.hw.sealed = true ∧ (s.hw.ins.booted = false ∨
      s.hw.log.signPending = true)) ∧
    (∃ (s : State), s.hw.unheld = true ∧ s.hw.pwr.commit = none ∧ s.hw.sealed = true ∧ s.hw.lines.calenLow = false ∧
      s.hw.ins.booted = false ∧ s.hw.life.breakDue = none) ∧
    (∃ (s : State), s.hw.unheld = true ∧ s.hw.pwr.commit = none ∧ s.hw.sealed = true ∧ s.hw.lines.calenLow = false ∧
      s.hw.ins.booted = true ∧ s.hw.reaction 0xC0 ≤ 1) :=
  ⟨⟨live [fun h => { h with ins := { h.ins with mainOn := false } }], .falls, by decide +kernel⟩,
   ⟨live [fun h => { h with pwr := { h.pwr with commit := none } }], by decide +kernel⟩,
   ⟨live [fun h => { h with pwr := { h.pwr with commit := none } }], by decide +kernel⟩,
   ⟨live [fun h => { h with pwr := { h.pwr with commit := none } }, fun h =>
     { h with lines := { h.lines with calenLow := false } }, fun h => { h with life := { h.life with seals := 0 } },
     fun h =>
     { h with store := { h.store with queue := [{ key := 0xE001, payload := [], isLog := true, signed := true, phase := 2, seq := 1, half := false, purpose := .sealing 7 }] } }],
     by decide +kernel⟩,
   ⟨live [fun h =>
     { h with store := { h.store with queue := [{ key := 0xE001, payload := [], isLog := true, signed := true, phase := 2, seq := 1, half := false, purpose := .breaking }] } },
     fun h => { h with ins := { h.ins with mainOn := true } }, fun h =>
     { h with pwr := { h.pwr with commit := none } }, fun h =>
     { h with store := { h.store with queue := [({ key := 0xE001, payload := [], isLog := true, signed := true, phase := 2, seq := 1, half := false, purpose := .breaking } : StoreWrite)] } },
     fun h =>
     { h with life := { h.life with breaking := some ({ cause := 1, sessions := 0, deferred := false, asked := true, atBoot := false } : BreakSt) } },
     fun h => { h with store := { h.store with proving := [] } }, fun h =>
     { h with fw := { h.fw with programming := false } }],
     { key := 0xE001, payload := [], isLog := true, signed := true, phase := 2, seq := 1, half := false, purpose := .breaking },
     { cause := 1, sessions := 0, deferred := false, asked := true, atBoot := false }, by decide +kernel⟩,
   ⟨live [fun h => { h with pwr := { h.pwr with commit := none } }, fun h =>
     { h with life := { h.life with seals := 1 } }, fun h => { h with ins := { h.ins with booted := true } }],
     .lowAtFirstSample, by unfold FusesInRange; decide +kernel⟩,
   ⟨live [fun h => { h with pwr := { h.pwr with commit := none } }, fun h =>
     { h with life := { h.life with seals := 1 } }, fun h => { h with log := { h.log with signPending := true } }], by
     decide +kernel⟩,
   ⟨live [fun h => { h with pwr := { h.pwr with commit := none } }, fun h =>
     { h with life := { h.life with seals := 1 } }, fun h => { h with lines := { h.lines with calenLow := false } },
     fun h => { h with ins := { h.ins with booted := false } }, fun h =>
     { h with life := { h.life with breakDue := none } }], by decide +kernel⟩,
   ⟨live [fun h => { h with pwr := { h.pwr with commit := none } }, fun h =>
     { h with life := { h.life with seals := 1 } }, fun h => { h with lines := { h.lines with calenLow := false } },
     fun h => { h with ins := { h.ins with booted := true } }, fun h =>
     { h with faults := { h.faults with policies := List.replicate 13 1 } }], by decide +kernel⟩⟩

theorem meets_ThermalAndBulkEngines :
    (∃ (s : State) (a : UnscannedAmps), s.hw.ins.mainOn = true ∧ s.hw.ins.booted = true ∧
      ({ s.hw.therm with nodes := s.hw.corrected (s.hw.predicted a) } : Thermal).hottest < degrees 135 ∧
      s.hw.faults.forces = []) ∧
    (∃ (s : State) (a : UnscannedAmps), s.hw.ins.mainOn = true ∧ s.hw.ins.booted = true ∧ s.hw.seq.state = .run ∧
      s.hw.leaving = false ∧ s.hw.therm.trip = none ∧ degrees 135 ≤
      ({ s.hw.therm with nodes := s.hw.corrected (s.hw.predicted a) } : Thermal).hottest) ∧
    (∃ (h : Hw) (_a : UnscannedAmps) (_n : Nat), h.seq.state = .faultLatched ∧ (∀ x ∈ h.outs, x.on = false)) ∧
    (∃ (s : State) (rq : BitVec 16) (c : Nat) (d : Desc) (rest : List Desc), s.hw.ins.mainOn = true ∧ s.hw.idle.idle =
      false ∧ s.hw.bulk.diag = none ∧ bulkTurn s.hw.bulk.last (s.hw.empties rq) = none ∧ bulkTurn s.hw.bulk.lastRead
      (s.hw.asks rq) = some c ∧ s.hw.bulk.ring c = d :: rest) ∧
    (∃ (s : State) (rq : BitVec 16) (c : Nat) (d : Desc) (rest : List Desc) (x : Burst), s.hw.ins.mainOn = true ∧
      s.hw.idle.idle = false ∧ s.hw.bulk.diag = none ∧ bulkTurn s.hw.bulk.last (s.hw.empties rq) = some c ∧
      s.hw.bulk.ring c = d :: rest ∧ d.post.mode = 0 ∧ s.hw.hit 0x0F = false ∧ s.hw.bulk.buffer.find? (fun x => x.chan
      = c) = some x ∧ d.put + x.bytes.length < d.post.len) ∧
    (∃ (s : State) (rq : BitVec 16) (c : Nat) (d : Desc) (rest : List Desc), s.hw.ins.mainOn = true ∧ s.hw.idle.idle =
      false ∧ s.hw.bulk.diag = none ∧ bulkTurn s.hw.bulk.last (s.hw.empties rq) = some c ∧ s.hw.bulk.ring c = d ::
      rest ∧ d.post.mode = 1) ∧
    (∃ (s : State) (rq : BitVec 16) (c : Nat) (d : Desc) (rest : List Desc) (x : Burst) (i : Nat), s.hw.ins.mainOn =
      true ∧ s.hw.idle.idle = false ∧ s.hw.bulk.diag = none ∧ bulkTurn s.hw.bulk.last (s.hw.empties rq) = some c ∧
      s.hw.bulk.ring c = d :: rest ∧ d.post.mode = 2 ∧ s.hw.hit 0x0F = false ∧ s.hw.bulk.buffer.find? (fun x => x.chan
      = c) = some x ∧ c < 16 ∧ s.hw.bulk.found.length = 16 ∧ i < x.bytes.length ∧ x.bytes.getD i 0 ≠ x.other.getD i 0
      ∧ (∀ k, k < i → x.bytes.getD k 0 = x.other.getD k 0)) ∧
    (∃ (s : State) (rq : BitVec 16) (c : Nat) (d : Desc) (rest : List Desc) (x : Burst), s.hw.ins.mainOn = true ∧
      s.hw.idle.idle = false ∧ s.hw.bulk.diag = none ∧ bulkTurn s.hw.bulk.last (s.hw.empties rq) = some c ∧
      s.hw.bulk.ring c = d :: rest ∧ d.post.mode ≠ 1 ∧ s.hw.bulk.buffer.find? (fun x => x.chan = c) = some x) ∧
    (∃ (s : State) (rq : BitVec 16), s.hw.ins.mainOn = true ∧ s.hw.idle.idle = false ∧ s.hw.bulk.diag = none ∧
      bulkTurn s.hw.bulk.last (s.hw.empties rq) = none ∧ bulkTurn s.hw.bulk.lastRead (s.hw.asks rq) = none) ∧
    (∃ (s : State) (rq : BitVec 16) (_e : Bool), s.hw.idle.idle = true ∧ rq &&& 0xFFF3 = 0) ∧
    (∃ (h : Hw) (_rq : BitVec 16) (c : Nat), ((h.pwr.commit.isSome = true ∨ h.leaving = true)) ∧ (c = 8 ∨ c = 9 ∨ c =
      12 ∨ c = 13 ∨ c = 14 ∨ c = 15)) ∧
    (∃ (b : Bulk) (p : BulkPost), 1 ≤ p.len ∧ p.len ≤ 65536 ∧ 16 ≤ (b.ring p.chan).length) ∧
    (∃ (b : Bulk) (p : BulkPost), 1 ≤ p.len ∧ p.len ≤ 65536 ∧ (b.ring p.chan).length < 16 ∧ b.rings.length = 16) :=
  ⟨⟨live [fun h => { h with ins := { h.ins with mainOn := true } }, fun h =>
    { h with ins := { h.ins with booted := true } }, fun h => { h with faults := { h.faults with forces := [] } }],
    { vib := 4000, phases := [1000, 0, 0, 0, 0, 0, 0, 0] }, by decide +kernel⟩,
   ⟨live [fun h => { h with ins := { h.ins with mainOn := true } }, fun h =>
     { h with ins := { h.ins with booted := true } }, fun h => { h with seq := { h.seq with state := .run } }, fun h
     => { h with therm := { h.therm with trip := none } }, fun h =>
     { h with therm := { h.therm with nodes := List.replicate 16 (degrees 200) } }],
     { vib := 4000, phases := [1000, 0, 0, 0, 0, 0, 0, 0] }, by decide +kernel⟩,
   ⟨(live [fun h => { h with seq := { h.seq with state := .faultLatched } }]).hw,
     { vib := 4000, phases := [1000, 0, 0, 0, 0, 0, 0, 0] }, 0, by decide +kernel⟩,
   ⟨live [fun h => { h with ins := { h.ins with mainOn := true } }, fun h =>
     { h with idle := { h.idle with idle := false } }, fun h => { h with bulk := { h.bulk with diag := none } }, fun h
     =>
     { h with bulk := { h.bulk with rings := [[], [], [], [], [], [], [], [], [], [], [], [], [], [], [], [{ post := { chan := 15, mode := 0, src := .sram 0, other := .sram 4, dst := .sram 64, len := 65536, fill := 0xAABBCCDD }, got := 0, put := 0, retried := none }]] } }],
     0, 15,
     { post := { chan := 15, mode := 0, src := .sram 0, other := .sram 4, dst := .sram 64, len := 65536, fill := 0xAABBCCDD }, got := 0, put := 0, retried := none },
     [], by decide +kernel⟩,
   ⟨live [fun h => { h with ins := { h.ins with mainOn := true } }, fun h =>
     { h with idle := { h.idle with idle := false } }, fun h => { h with bulk := { h.bulk with diag := none } }, fun h
     =>
     { h with bulk := { h.bulk with rings := [[], [], [], [], [], [], [], [], [], [], [], [], [], [], [], [{ post := { chan := 15, mode := 0, src := .sram 0, other := .sram 4, dst := .sram 64, len := 65536, fill := 0xAABBCCDD }, got := 64, put := 0, retried := none }]] } },
     fun h =>
     { h with bulk := { h.bulk with buffer := [{ chan := 15, bytes := List.replicate 64 7, other := [] }] } }], 0, 15,
     { post := { chan := 15, mode := 0, src := .sram 0, other := .sram 4, dst := .sram 64, len := 65536, fill := 0xAABBCCDD }, got := 64, put := 0, retried := none },
     [], { chan := 15, bytes := List.replicate 64 7, other := [] }, by decide +kernel⟩,
   ⟨live [fun h => { h with ins := { h.ins with mainOn := true } }, fun h =>
     { h with idle := { h.idle with idle := false } }, fun h => { h with bulk := { h.bulk with diag := none } }, fun h
     =>
     { h with bulk := { h.bulk with rings := [[{ post := { chan := 0, mode := 1, src := .sram 0, other := .sram 4, dst := .sram 64, len := 64, fill := 0xAABBCCDD }, got := 0, put := 0, retried := none }], [], [], [], [], [], [], [], [], [], [], [], [], [], [], []] } }],
     0, 0,
     { post := { chan := 0, mode := 1, src := .sram 0, other := .sram 4, dst := .sram 64, len := 64, fill := 0xAABBCCDD }, got := 0, put := 0, retried := none },
     [], by decide +kernel⟩,
   ⟨live [fun h => { h with ins := { h.ins with mainOn := true } }, fun h =>
     { h with idle := { h.idle with idle := false } }, fun h => { h with bulk := { h.bulk with diag := none } }, fun h
     =>
     { h with bulk := { h.bulk with rings := [[], [], [], [], [], [], [], [], [], [], [], [], [], [], [], [{ post := { chan := 15, mode := 2, src := .sram 0, other := .sram 4, dst := .sram 64, len := 64, fill := 0xAABBCCDD }, got := 64, put := 0, retried := none }]] } },
     fun h => { h with bulk := { h.bulk with buffer := [{ chan := 15, bytes := [1, 2], other := [1, 3] }] } }], 0, 15,
     { post := { chan := 15, mode := 2, src := .sram 0, other := .sram 4, dst := .sram 64, len := 64, fill := 0xAABBCCDD }, got := 64, put := 0, retried := none },
     [], { chan := 15, bytes := [1, 2], other := [1, 3] }, 1, by decide +kernel⟩,
   ⟨live [fun h => { h with ins := { h.ins with mainOn := true } }, fun h =>
     { h with idle := { h.idle with idle := false } }, fun h => { h with bulk := { h.bulk with diag := none } }, fun h
     =>
     { h with bulk := { h.bulk with rings := [[], [], [], [], [], [], [], [], [], [{ post := { chan := 9, mode := 0, src := .sram 0, other := .sram 4, dst := .sram 64, len := 64, fill := 0xAABBCCDD }, got := 64, put := 0, retried := some 3 }], [], [], [], [], [], []] } },
     fun h =>
     { h with bulk := { h.bulk with buffer := [{ chan := 9, bytes := List.replicate 64 7, other := [] }] } }], 0, 9,
     { post := { chan := 9, mode := 0, src := .sram 0, other := .sram 4, dst := .sram 64, len := 64, fill := 0xAABBCCDD }, got := 64, put := 0, retried := some 3 },
     [], { chan := 9, bytes := List.replicate 64 7, other := [] }, by decide +kernel⟩,
   ⟨live [fun h => { h with ins := { h.ins with mainOn := true } }, fun h =>
     { h with idle := { h.idle with idle := false } }, fun h => { h with bulk := { h.bulk with diag := none } }], 0,
     by decide +kernel⟩,
   ⟨live [fun h => { h with idle := { h.idle with idle := true } }], 0, false, by decide +kernel⟩,
   ⟨(live [fun h => { h with pwr := { h.pwr with commit := some 1 } }]).hw, 0, 15, by decide +kernel⟩,
   ⟨{ Hw.reset.bulk with rings := [List.replicate 16 { post := { chan := 0, mode := 0, src := .sram 0, other := .sram 4, dst := .sram 64, len := 1, fill := 0xAABBCCDD }, got := 0, put := 0, retried := none }] },
     { chan := 0, mode := 0, src := .sram 0, other := .sram 4, dst := .sram 64, len := 65536, fill := 0xAABBCCDD }, by
     decide +kernel⟩,
   ⟨Hw.reset.bulk,
     { chan := 15, mode := 2, src := .sram 0, other := .sram 4, dst := .sram 64, len := 1, fill := 0xAABBCCDD }, by
     decide +kernel⟩⟩

theorem meets_ReadCommandsOnlyReply :
    (∃ (k : Byte), k.toNat ≤ 11) ∧
    (∃ (p : Byte), p ≠ 0 ∧ p.toNat ≤ 6) ∧
    (∃ (b : Byte), b.toNat < 18) ∧
    (∃ (s : State) (o : Origin) (f : Byte) (n : Byte), s.hw.carries (.adcRead o f n) = true ∧ s.hw.adc.ready = true ∧
      1 ≤ n.toNat ∧ n.toNat ≤ 16 ∧ f.toNat + n.toNat ≤ 64 ∧ f.toNat ≤ 63) ∧
    (∃ (s : State) (o : Origin) (f : Byte) (n : Byte), s.hw.carries (.adcRead o f n) = true ∧ s.hw.adc.ready = false) ∧
    (∃ (c : Byte), chanOk c = true) ∧
    (∃ (m : Half), m ≠ 0 ∧ m.toNat < 256) ∧
    (∃ (n : Byte), n.toNat ≤ 127) ∧
    (∃ (s : State) (o : Origin) (g : Word) (k : Nat × List Byte), s.hw.carries (.publicKeyRead o g) = true ∧
      s.hw.life.pubKeys.find? (fun k => k.1 = if g = 0 then s.hw.life.keyGen else g.toNat) = some k) ∧
    (∃ (c : Byte), chanOk c = true) ∧
    (∃ (s : State) (o : Origin) (a : Half) (n : Byte), s.hw.carries (.identityCertRead o a n) = true ∧ 1 ≤ n.toNat ∧
      n.toNat ≤ 240 ∧ a.toNat < s.hw.factory.cert.length) ∧
    (∃ (f : Byte) (n : Byte), 1 ≤ n.toNat ∧ n.toNat ≤ 8 ∧ f.toNat ≤ 15 ∧ f.toNat + n.toNat ≤ 16) ∧
    (∃ (h : Hw) (n : Nat) (j : Job), h.proto.jobs.find? (fun j => j.num = n) = some j) ∧
    (∃ (h : Hw) (n : Nat), h.proto.jobs.find? (fun j => j.num = n) = none) ∧
    (∃ (h : Hw) (k : Nat), k < 4 ∧ (h.out k).on = true) ∧
    (∃ (_h : Hw) (k : Nat), 4 ≤ k ∧ k ≤ 11) ∧
    (∃ (h : Hw) (k : Nat), (h.out k).on = false) ∧
    (∃ (_h : Hw) (p : Nat), p < 8) ∧
    (∃ (_h : Hw) (k : Nat), k < 4) ∧
    (∃ (h : Hw) (n : Nat), (h.slot n).st = .free) ∧
    (∃ (h : Hw) (n : Nat), (h.slot n).st ≠ .free) ∧
    (∃ (h : Hw) (n : Nat), (h.slot n).open? = true ∧ (h.slot n).captured = false ∧ (h.slot n).startPending = false) ∧
    (∃ (h : Hw), 0 ≤ (h.result 42).value) ∧
    (∃ (h : Hw) (i : Nat) (p : Peer), h.prm.role = .lead ∧ h.prm.peers[i]? = some p) ∧
    (∃ (k : Byte), 11 < k.toNat) ∧
    (∃ (p : Byte), (p = 0 ∨ 6 < p.toNat)) ∧
    (∃ (b : Byte), 18 ≤ b.toNat ∧ b ≠ 0x40 ∧ b ≠ 0x41) ∧
    (∃ (k : Byte), 17 < k.toNat) ∧
    (∃ (c : Byte), chanOk c = false) ∧
    (∃ (c : Byte), chanOk c = false) ∧
    (∃ (m : Half), (m = 0 ∨ 256 ≤ m.toNat)) ∧
    (∃ (n : Byte), 127 < n.toNat) ∧
    (∃ (c : Byte), chanOk c = false) ∧
    (∃ (k : Half), hostKey k = false) ∧
    (∃ (f : Byte) (n : Byte), (15 < f.toNat ∨ n.toNat < 1 ∨ 8 < n.toNat ∨ 16 < f.toNat + n.toNat)) ∧
    (∃ (v : Half) (b : Half) (t : Byte), (v.toNat < 10 ∨ 1500 < v.toNat ∨ b.toNat < 5 ∨ 60 < b.toNat ∨ t.toNat < 1 ∨
      100 < t.toNat)) ∧
    (∃ (s : State) (o : Origin) (n : Word), s.hw.carries (.recordAck o n) = true ∧ s.hw.log.lastSeq < n.toNat) ∧
    (∃ (k : Byte), k ≠ 0xC4) ∧
    (∃ (k : Byte), k ≠ 0xE7) ∧
    (∀ i ∈ ([.nop .A, .ident .A, .getStatus .A, .jobStatus .A 0, .railGet .A 11, .portStatus .A 6, .seqStatus .A,
      .telemRead .A 17, .telemRead .A 0x40, .telemRead .A 0x41, .energyRead .A, .metroRead .A 8, .registerRead .A 255,
      .sessionStatus .A 127, .calRead .A 8, .chargerStatus .A, .gaugeRead .A, .alarmStatus .A, .storeStatus .A,
      .lifecycleGet .A, .promStatus .A, .promRoster .A 15 1, .railGet .A 12, .portStatus .A 7, .telemRead .A 18,
      .telemPeaks .A 18, .metroRead .A 9, .metroStatus .A 0, .registerRead .A 256, .sessionStatus .A 128, .calRead .A
      9, .storeRead .A 0, .promRoster .A 15 2, .budgetSet .A 9 5 0, .coreReset .A 0, .moduleRestart .A 0] : List
      Instr), ∃ s : State, s.hw.carries i = true) :=
  ⟨⟨11, by decide +kernel⟩,
   ⟨6, by decide +kernel⟩,
   ⟨17, by decide +kernel⟩,
   ⟨live [fun h => bring (.adcRead .A 63 1) h, fun h => { h with adc := { h.adc with ready := true } }], .A, 63, 1, by
     decide +kernel⟩,
   ⟨live [fun h => bring (.adcRead .A 0 0) h, fun h => { h with adc := { h.adc with ready := false } }], .A, 0, 0, by
     decide +kernel⟩,
   ⟨8, by decide +kernel⟩,
   ⟨255, by decide +kernel⟩,
   ⟨127, by decide +kernel⟩,
   ⟨live [fun h => bring (.publicKeyRead .A 0) h, fun h => { h with life := { h.life with pubKeys := [(1, [])] } }],
     .A, 0, (1, []), by decide +kernel⟩,
   ⟨8, by decide +kernel⟩,
   ⟨live [fun h => bring (.identityCertRead .A 0 240) h, fun h =>
     { h with factory := { h.factory with cert := [0x30] } }], .A, 0, 240, by decide +kernel⟩,
   ⟨15, 1, by decide +kernel⟩,
   ⟨(live [fun h =>
     { h with proto := { h.proto with jobs := [{ num := 7, op := 0x16, state := .running, status := 0, result := 0, progress := 0, data := [], byCore := true }] } }]).hw,
     7,
     { num := 7, op := 0x16, state := .running, status := 0, result := 0, progress := 0, data := [], byCore := true },
     by decide +kernel⟩,
   ⟨(live []).hw, 0, by decide +kernel⟩,
   ⟨(live [fun h => h.modOut 3 (fun y => { y with on := true })]).hw, 3, by decide +kernel⟩,
   ⟨(live []).hw, 11, by decide +kernel⟩,
   ⟨(live []).hw, 0, by decide +kernel⟩,
   ⟨(live []).hw, 7, by decide +kernel⟩,
   ⟨(live []).hw, 3, by decide +kernel⟩,
   ⟨(live []).hw, 0, by decide +kernel⟩,
   ⟨(live [fun h => h.modSlot 127 (fun y => { y with st := .closed })]).hw, 127, by decide +kernel⟩,
   ⟨(live [fun h => h.modSlot 127 (fun y => { y with st := .opened })]).hw, 127, by decide +kernel⟩,
   ⟨(live []).hw, by decide +kernel⟩,
   ⟨(live [fun h => { h with prm := { h.prm with role := .lead } }, fun h =>
     { h with prm := { h.prm with role := .lead } }, fun h =>
     { h with prm := { h.prm with peers := [{ Peer.none with serial := 5 }] } }]).hw, 0,
     { Peer.none with serial := 5 }, by decide +kernel⟩,
   ⟨12, by decide +kernel⟩,
   ⟨7, by decide +kernel⟩,
   ⟨18, by decide +kernel⟩,
   ⟨18, by decide +kernel⟩,
   ⟨9, by decide +kernel⟩,
   ⟨0, by decide +kernel⟩,
   ⟨256, by decide +kernel⟩,
   ⟨128, by decide +kernel⟩,
   ⟨9, by decide +kernel⟩,
   ⟨0, by decide +kernel⟩,
   ⟨15, 2, by decide +kernel⟩,
   ⟨9, 5, 0, by decide +kernel⟩,
   ⟨live [fun h => bring (.recordAck .A 1) h], .A, 1, by decide +kernel⟩,
   ⟨0, by decide +kernel⟩,
   ⟨0, by decide +kernel⟩,
   fun i h => ⟨live [fun h => { h with lines := { h.lines with calenLow := true } }, bring i], (by decide +kernel : ∀
     i ∈ ([.nop .A, .ident .A, .getStatus .A, .jobStatus .A 0, .railGet .A 11, .portStatus .A 6, .seqStatus .A,
     .telemRead .A 17, .telemRead .A 0x40, .telemRead .A 0x41, .energyRead .A, .metroRead .A 8, .registerRead .A 255,
     .sessionStatus .A 127, .calRead .A 8, .chargerStatus .A, .gaugeRead .A, .alarmStatus .A, .storeStatus .A,
     .lifecycleGet .A, .promStatus .A, .promRoster .A 15 1, .railGet .A 12, .portStatus .A 7, .telemRead .A 18,
     .telemPeaks .A 18, .metroRead .A 9, .metroStatus .A 0, .registerRead .A 256, .sessionStatus .A 128, .calRead .A
     9, .storeRead .A 0, .promRoster .A 15 2, .budgetSet .A 9 5 0, .coreReset .A 0, .moduleRestart .A 0] : List
     Instr), (live [fun h => { h with lines := { h.lines with calenLow := true } }, bring i]).hw.carries i = true) i
     h⟩⟩

theorem meets_ReadCommandsWithEffects :
    (∃ (s : State) (o : Origin), s.hw.carries (.poolStatus o) = true) ∧
    (∃ (s : State) (o : Origin), s.hw.carries (.timeGet o) = true) ∧
    (∃ (s : State) (o : Origin) (c : Byte), s.hw.carries (.metroStatus o c) = true ∧ chanOk c = true) ∧
    (∃ (s : State) (o : Origin) (k : Byte), s.hw.carries (.telemPeaks o k) = true ∧ k.toNat ≤ 17 ∧ k.toNat <
      s.hw.adc.outs.length) ∧
    (∃ (s : State) (o : Origin) (n : Word) (e : LogEntry), s.hw.carries (.recordRead o n) = true ∧ n ≠ 0 ∧
      s.hw.log.find n.toNat = some e ∧ s.hw.faults.inject = List.replicate 15 (0, false)) ∧
    (∃ (s : State) (o : Origin) (n : Byte) (w : Word), s.hw.carries (.faultLogRead o w n) = true ∧ 1 ≤ n.toNat ∧
      n.toNat ≤ 7 ∧ w.toNat ≤ s.hw.faults.lastEntry ∧ s.hw.faults.inject = List.replicate 15 (0, false) ∧
      s.hw.faults.served w.toNat n.toNat = []) ∧
    (∃ (s : State) (o : Origin) (n : Byte) (w : Word) (e : FaultEntry) (es : List FaultEntry), s.hw.carries
      (.faultLogRead o w n) = true ∧ 1 ≤ n.toNat ∧ n.toNat ≤ 7 ∧ w.toNat ≤ s.hw.faults.lastEntry ∧ s.hw.faults.inject
      = List.replicate 15 (0, false) ∧ s.hw.faults.served w.toNat n.toNat = e :: es) ∧
    (∃ (s : State) (o : Origin), s.hw.carries (.faultRead o 0) = true) ∧
    (∃ (s : State), s.hw.carries (.faultRead .A 1) = true) ∧
    (∃ (s : State), s.hw.carries (.faultRead .V 1) = true) ∧
    (∃ (s : State) (o : Origin) (r : Byte) (n : Byte) (a : Word), s.hw.carries (.bulkRead o r 0 a n) = true ∧ ((r = 4
      ∨ r = 5)) ∧ 1 ≤ n.toNat ∧ n.toNat ≤ 240 ∧ a.toNat + n.toNat ≤ regionSectors r.toNat * 4096 ∧ s.hw.meetsErase
      r.toNat a.toNat n.toNat = false ∧ s.hw.faults.inject = List.replicate 15 (0, false)) ∧
    (∃ (s : State) (o : Origin) (k : Half), s.hw.carries (.storeRead o k) = true ∧ hostKey k = true ∧
      s.hw.faults.inject = List.replicate 15 (0, false) ∧ s.hw.store.look k.toNat = .absent) ∧
    (∃ (s : State) (o : Origin) (k : Half) (r : Rec), s.hw.carries (.storeRead o k) = true ∧ hostKey k = true ∧
      s.hw.faults.inject = List.replicate 15 (0, false) ∧ s.hw.store.look k.toNat = .value r) :=
  ⟨⟨live [fun h => bring (.poolStatus .A) h], .A, by decide +kernel⟩,
   ⟨live [fun h => bring (.timeGet .A) h], .A, by decide +kernel⟩,
   ⟨live [fun h => bring (.metroStatus .A 8) h], .A, 8, by decide +kernel⟩,
   ⟨live [fun h => bring (.telemPeaks .A 17) h], .A, 17, by decide +kernel⟩,
   ⟨live [fun h => bring (.recordRead .A 1) h, fun h =>
     { h with faults := { h.faults with inject := List.replicate 15 (0, false) } }, fun h =>
     { h with log := { h.log with entries := [{ pos := 0, seq := 1, bytes := [], committed := true, signed := false, damaged := false }] } }],
     .A, 1, { pos := 0, seq := 1, bytes := [], committed := true, signed := false, damaged := false }, by
     decide +kernel⟩,
   ⟨live [fun h => bring (.faultLogRead .A 0 7) h, fun h =>
     { h with faults := { h.faults with inject := List.replicate 15 (0, false) } }], .A, 7, 0, by decide +kernel⟩,
   ⟨live [fun h => bring (.faultLogRead .A 1 7) h, fun h =>
     { h with faults := { h.faults with inject := List.replicate 15 (0, false) } }, fun h =>
     { h with faults := { h.faults with log := [entry1] } }, fun h =>
     { h with faults := { h.faults with lastEntry := 1 } }], .A, 7, 1, entry1, [], by decide +kernel⟩,
   ⟨live [fun h => bring (.faultRead .A 0) h], .A, by decide +kernel⟩,
   ⟨live [fun h => bring (.faultRead .A 1) h], by decide +kernel⟩,
   ⟨live [fun h => bring (.faultRead .V 1) h], by decide +kernel⟩,
   ⟨live [fun h => bring (.bulkRead .A 5 0 0x3FFF10 240) h, fun h =>
     { h with faults := { h.faults with inject := List.replicate 15 (0, false) } }], .A, 5, 240, 0x3FFF10, by
     decide +kernel⟩,
   ⟨live [fun h => bring (.storeRead .A 0x803F) h, fun h =>
     { h with faults := { h.faults with inject := List.replicate 15 (0, false) } }], .A, 0x803F, by decide +kernel⟩,
   ⟨live [fun h => bring (.storeRead .A 0x803F) h, fun h =>
     { h with faults := { h.faults with inject := List.replicate 15 (0, false) } }, fun h =>
     { h with store := { h.store with half0 := ⟨[⟨1, 0, [{ key := 0x803F, seq := 1, copy := false, payload := [1], committed := true, unary := 0xFFFFFFFF, weak := false, broken := false }], false⟩], [], 0⟩ } }],
     .A, 0x803F,
     { key := 0x803F, seq := 1, copy := false, payload := [1], committed := true, unary := 0xFFFFFFFF, weak := false, broken := false },
     by decide +kernel⟩⟩

theorem meets_SystemCommandsAct :
    (∃ (s : State) (o : Origin), s.hw.carries (.coreReset o 0xC4) = true) ∧
    (∃ (s : State) (o : Origin), s.hw.carries (.moduleRestart o 0xE7) = true ∧ s.hw.gone = false ∧ s.hw.rst.restart ≠
      some .rstn) ∧
    (∃ (s : State) (o : Origin), s.hw.carries (.configUnlock o 0) = true ∧ (s.hw.unlockOf o).locked = false) ∧
    (∃ (s : State) (o : Origin) (m : Byte), s.hw.carries (.configUnlock o m) = true ∧ (s.hw.unlockOf o).locked = true) ∧
    (∃ (s : State) (o : Origin), s.hw.carries (.configUnlock o 1) = true ∧ (s.hw.unlockOf o).locked = false) ∧
    (∃ (s : State) (o : Origin) (c : List Byte), s.hw.carries (.configUnlockResponse o (s.hw.unlockMac c)) = true ∧
      (s.hw.unlockOf o).challenge = some c ∧ s.hw.clk ≤ (s.hw.unlockOf o).issuedAt + 30000000) ∧
    (∃ (s : State) (o : Origin) (c : List Byte) (m : List Byte), s.hw.carries (.configUnlockResponse o m) = true ∧
      (s.hw.unlockOf o).challenge = some c ∧ s.hw.clk ≤ (s.hw.unlockOf o).issuedAt + 30000000 ∧ m ≠ s.hw.unlockMac c) ∧
    (∃ (s : State) (o : Origin), s.hw.carries (.servicePrepare o) = true ∧ s.hw.serviceReady = true) ∧
    (∃ (s : State) (o : Origin), s.hw.carries (.servicePrepare o) = true ∧ s.hw.serviceReady = false ∧
      s.hw.seq.service.job = none) ∧
    (∃ (s : State) (o : Origin) (w : Byte), s.hw.carries (.enterStandby o w) = true ∧ s.hw.nRes = 0 ∧ w.toNat < 4 ∧
      ((s.hw.seq.state = .off ∨ s.hw.seq.state = .run))) ∧
    (∃ (s : State) (o : Origin), s.hw.carries (.enterIcehouse o 1) = true ∧ s.hw.pwr.vinUsable = true ∧
      s.hw.pwr.onBattery = false ∧ s.hw.nRes = 0) ∧
    (∃ (s : State) (o : Origin), s.hw.carries (.enterIcehouse o 0) = true) :=
  ⟨⟨live [fun h => bring (.coreReset .A 0xC4) h], .A, by decide +kernel⟩,
   ⟨live [fun h => bring (.moduleRestart .A 0xE7) h], .A, by decide +kernel⟩,
   ⟨live [fun h => bring (.configUnlock .A 0) h], .A, by decide +kernel⟩,
   ⟨live [fun h => bring (.configUnlock .A 0) h, fun h =>
     { h with proto := { h.proto with unlock := { h.proto.unlock with locked := true } } }], .A, 0, by
     decide +kernel⟩,
   ⟨live [fun h => bring (.configUnlock .A 1) h], .A, by decide +kernel⟩,
   ⟨live [fun h => bring (.configUnlockResponse .A (h.unlockMac (List.replicate 16 1 : List Byte))) h, fun h =>
     { h with proto := { h.proto with unlock := { h.proto.unlock with challenge := some (List.replicate 16 1) } } }],
     .A, List.replicate 16 1, by decide +kernel⟩,
   ⟨live [fun h => bring (.configUnlockResponse .A ([] : List Byte)) h, fun h =>
     { h with proto := { h.proto with unlock := { h.proto.unlock with challenge := some (List.replicate 16 1) } } }],
     .A, List.replicate 16 1, [], by decide +kernel⟩,
   ⟨live [fun h => bring (.servicePrepare .A) h, fun h =>
     { h with seq := { h.seq with service := { h.seq.service with ready := true } } }], .A, by decide +kernel⟩,
   ⟨live [fun h => bring (.servicePrepare .A) h, fun h =>
     { h with seq := { h.seq with service := { h.seq.service with job := none } } }], .A, by decide +kernel⟩,
   ⟨live [fun h => bring (.enterStandby .A 3) h, fun h => { h with seq := { h.seq with state := .off } }], .A, 3, by
     decide +kernel⟩,
   ⟨live [fun h => bring (.enterIcehouse .A 1) h, fun h => { h with pwr := { h.pwr with vinUsable := true } }, fun h
     => { h with pwr := { h.pwr with onBattery := false } }], .A, by decide +kernel⟩,
   ⟨live [fun h => bring (.enterIcehouse .A 0) h], .A, by decide +kernel⟩⟩

theorem meets_PowerCommandsAct :
    (∃ (s : State) (o : Origin), s.hw.carries (.powerUp o) = true ∧ s.hw.seq.state = .faultLatched) ∧
    (∃ (s : State) (o : Origin), s.hw.carries (.powerUp o) = true ∧ s.hw.seq.state ≠ .faultLatched ∧
      s.hw.ins.storeReady = false) ∧
    (∃ (s : State) (o : Origin), s.hw.carries (.powerUp o) = true ∧ s.hw.seq.state = .off ∧ s.hw.ins.storeReady = true
      ∧ s.hw.lines.en = true ∧ s.hw.serviceReady = false ∧ s.hw.admitted = true ∧ s.hw.faults.forces = [] ∧ s.hw.gone
      = false) ∧
    (∃ (s : State) (o : Origin), s.hw.carries (.powerUp o) = true ∧ s.hw.seq.state = .run ∧ s.hw.ins.storeReady = true
      ∧ s.hw.lines.en = true ∧ s.hw.serviceReady = false ∧ s.hw.admitted = true) ∧
    (∃ (s : State) (o : Origin), s.hw.carries (.powerDown o) = true ∧ s.hw.seq.state = .run) ∧
    (∃ (s : State) (o : Origin), s.hw.carries (.powerDown o) = true ∧ s.hw.seq.state = .off) ∧
    (∃ (s : State) (o : Origin), s.hw.carries (.clearFault o) = true ∧ s.hw.prm.role ≠ .lead ∧ s.hw.seq.state ≠
      .faultLatched) ∧
    (∃ (s : State) (o : Origin), s.hw.carries (.clearFault o) = true ∧ s.hw.prm.role ≠ .lead ∧ s.hw.seq.state =
      .faultLatched ∧ s.hw.thermHolds = false) ∧
    (∃ (s : State) (o : Origin), s.hw.carries (.clearFault o) = true ∧ s.hw.seq.state = .faultLatched ∧
      s.hw.thermHolds = true) ∧
    (∃ (s : State) (o : Origin), s.hw.carries (.clearFault o) = true ∧ s.hw.prm.role = .lead ∧ s.hw.seq.state ≠
      .faultLatched ∧ s.hw.prm.clearJob = none) ∧
    (∃ (s : State) (o : Origin), s.hw.carries (.clearFault o) = true ∧ s.hw.prm.role = .lead ∧ s.hw.seq.state =
      .faultLatched ∧ s.hw.thermHolds = false ∧ s.hw.prm.clearJob = none) ∧
    (∃ (s : State) (o : Origin) (k : Byte) (v : Half), s.hw.carries (.railSet o k v) = true ∧ s.hw.shaped = true ∧
      k.toNat ≤ 11 ∧ s.hw.used k.toNat = true ∧ s.hw.codeOk k.toNat v.toNat = true ∧ s.hw.seq.state ≠ .seqDown ∧
      s.hw.seq.state ≠ .faultLatched) ∧
    (∃ (s : State) (o : Origin) (k : Byte) (v : Half), s.hw.carries (.railSet o k v) = true ∧ s.hw.seq.state =
      .seqDown) ∧
    (∃ (s : State) (o : Origin) (k : Byte) (v : Half), s.hw.carries (.railSet o k v) = true ∧ s.hw.seq.state =
      .faultLatched) ∧
    (∃ (s : State) (o : Origin) (k : Byte), s.hw.carries (.railEnable o k 0) = true ∧ s.hw.shaped = true ∧ 4 ≤ k.toNat
      ∧ k.toNat ≤ 11 ∧ (s.hw.cfg k.toNat).hostSw = true ∧ s.hw.seq.state = .run ∧ s.hw.faults.forces = []) ∧
    (∃ (s : State) (o : Origin) (k : Byte), s.hw.carries (.railEnable o k 1) = true ∧ s.hw.shaped = true ∧ 4 ≤ k.toNat
      ∧ k.toNat ≤ 9 ∧ (s.hw.cfg k.toNat).hostSw = true ∧ s.hw.seq.state = .run ∧ s.hw.faults.forces = [] ∧ (s.hw.out
      k.toNat).shed = false) ∧
    (∃ (s : State) (o : Origin) (k : Byte) (u : Byte) (v : Byte) (f : Byte), s.hw.carries (.supervisorSet o k u v f) =
      true ∧ s.hw.shaped = true ∧ k.toNat ≤ 17 ∧ u.toNat ≤ 36 ∧ v.toNat ≤ 36 ∧ f.toNat ≤ 10) ∧
    (∃ (s : State) (o : Origin) (p : Byte) (w : Byte), s.hw.carries (.poolAssign o p w) = true ∧ 1 ≤ p.toNat ∧ p.toNat
      ≤ 8 ∧ w.toNat ≤ 4 ∧ (s.hw.phase (p.toNat - 1)).owner = w.toNat) ∧
    (∃ (s : State) (o : Origin) (p : Byte) (w : Byte), s.hw.carries (.poolAssign o p w) = true ∧ s.hw.shaped = true ∧
      1 ≤ p.toNat ∧ p.toNat ≤ 8 ∧ w.toNat ≤ 4 ∧ (s.hw.phase (p.toNat - 1)).owner ≠ w.toNat ∧ s.hw.assignRefused
      (p.toNat - 1) w.toNat = none ∧ (s.hw.phase (p.toNat - 1)).cond = .standby) ∧
    (∃ (s : State) (o : Origin) (p : Byte) (i : Byte), s.hw.carries (.portSet o p 0 i) = true ∧ s.hw.shaped = true ∧
      s.hw.seq.state ≠ .faultLatched ∧ s.hw.serviceReady = false ∧ 1 ≤ p.toNat ∧ p.toNat ≤ 6 ∧ ((i.toNat ≤ 16 ∨ i =
      0xFF))) ∧
    (∃ (s : State) (o : Origin) (p : Byte) (i : Byte), s.hw.carries (.portSet o p 1 i) = true ∧ s.hw.shaped = true ∧
      s.hw.seq.state ≠ .faultLatched ∧ s.hw.serviceReady = false ∧ 1 ≤ p.toNat ∧ p.toNat ≤ 6 ∧ ((i.toNat ≤ 16 ∨ i =
      0xFF))) ∧
    (∃ (s : State) (o : Origin) (v : Half) (b : Half) (c : Byte), s.hw.carries (.budgetSet o v b c) = true ∧ 10 ≤
      v.toNat ∧ v.toNat ≤ 1500 ∧ 5 ≤ b.toNat ∧ b.toNat ≤ 60 ∧ 1 ≤ c.toNat ∧ c.toNat ≤ 100) :=
  ⟨⟨live [fun h => bring (.powerUp .A) h, fun h => { h with seq := { h.seq with state := .faultLatched } }], .A, by
    decide +kernel⟩,
   ⟨live [fun h => bring (.powerUp .A) h, fun h => { h with ins := { h.ins with storeReady := false } }], .A, by
     decide +kernel⟩,
   ⟨live [fun h => bring (.powerUp .A) h, fun h => { h with seq := { h.seq with state := .off } }, fun h =>
     { h with ins := { h.ins with storeReady := true } }, fun h => { h with lines := { h.lines with en := true } },
     fun h => { h with faults := { h.faults with forces := [] } }], .A, by decide +kernel⟩,
   ⟨live [fun h => bring (.powerUp .A) h, fun h => { h with seq := { h.seq with state := .run } }, fun h =>
     { h with ins := { h.ins with storeReady := true } }, fun h => { h with lines := { h.lines with en := true } }],
     .A, by decide +kernel⟩,
   ⟨live [fun h => bring (.powerDown .A) h, fun h => { h with seq := { h.seq with state := .run } }], .A, by
     decide +kernel⟩,
   ⟨live [fun h => bring (.powerDown .A) h, fun h => { h with seq := { h.seq with state := .off } }], .A, by
     decide +kernel⟩,
   ⟨live [fun h => bring (.clearFault .A) h], .A, by decide +kernel⟩,
   ⟨live [fun h => bring (.clearFault .A) h, fun h => { h with seq := { h.seq with state := .faultLatched } }], .A, by
     decide +kernel⟩,
   ⟨live [fun h => bring (.clearFault .A) h, fun h => { h with seq := { h.seq with state := .faultLatched } }, fun h
     => { h with therm := { h.therm with hold := true } }, fun h =>
     { h with therm := { h.therm with nodes := List.replicate 16 (degrees 200) } }], .A, by decide +kernel⟩,
   ⟨live [fun h => bring (.clearFault .A) h, fun h => { h with prm := { h.prm with role := .lead } }, fun h =>
     { h with prm := { h.prm with clearJob := none } }], .A, by decide +kernel⟩,
   ⟨live [fun h => bring (.clearFault .A) h, fun h => { h with prm := { h.prm with role := .lead } }, fun h =>
     { h with seq := { h.seq with state := .faultLatched } }, fun h =>
     { h with prm := { h.prm with clearJob := none } }], .A, by decide +kernel⟩,
   ⟨live [fun h => bring (.railSet .A 11 460) h], .A, 11, 460, by decide +kernel⟩,
   ⟨live [fun h => bring (.railSet .A 11 460) h, fun h => { h with seq := { h.seq with state := .seqDown } }], .A, 11,
     460, by decide +kernel⟩,
   ⟨live [fun h => bring (.railSet .A 0 0) h, fun h => { h with seq := { h.seq with state := .faultLatched } }], .A,
     0, 0, by decide +kernel⟩,
   ⟨live [fun h => bring (.railEnable .A 11 0) h, fun h => { h with seq := { h.seq with state := .run } }, fun h =>
     { h with faults := { h.faults with forces := [] } }, fun h =>
     { h with image := { h.image with outs := h.image.outs.modify 11 (fun y => { y with hostSw := true }) } }], .A,
     11, by decide +kernel⟩,
   ⟨live [fun h => bring (.railEnable .A 9 1) h, fun h => { h with seq := { h.seq with state := .run } }, fun h =>
     { h with faults := { h.faults with forces := [] } }, fun h => h.modOut (9 : Byte).toNat (fun y =>
     { y with shed := false }), fun h =>
     { h with image := { h.image with outs := h.image.outs.modify 9 (fun y => { y with hostSw := true }) } }], .A, 9,
     by decide +kernel⟩,
   ⟨live [fun h => bring (.supervisorSet .A 17 36 36 10) h], .A, 17, 36, 36, 10, by decide +kernel⟩,
   ⟨live [fun h => bring (.poolAssign .A 8 0) h, fun h => h.modPhase ((8 : Byte).toNat - 1) (fun y =>
     { y with owner := (0 : Byte).toNat })], .A, 8, 0, by decide +kernel⟩,
   ⟨live [fun h => bring (.poolAssign .A 8 1) h, fun h => h.modPhase ((8 : Byte).toNat - 1) (fun y =>
     { y with cond := .standby }), fun h => h.modPhase 7 (fun y => { y with cond := .standby })], .A, 8, 1, by
     decide +kernel⟩,
   ⟨live [fun h => bring (.portSet .A 6 0 16) h], .A, 6, 16, by decide +kernel⟩,
   ⟨live [fun h => bring (.portSet .A 6 1 0xFF) h], .A, 6, 0xFF, by decide +kernel⟩,
   ⟨live [fun h => bring (.budgetSet .A 1500 60 100) h], .A, 1500, 60, 100, by decide +kernel⟩⟩

theorem meets_MeteringCommandsAct :
    (∃ (s : State) (o : Origin) (m : DWord) (i : Byte) (r : Byte) (a : Half), s.hw.carries (.adcScanSet o m i r a) =
      true ∧ 1 ≤ i.toNat ∧ i.toNat ≤ 50 ∧ r.toNat ≤ 1 ∧ 1 ≤ a.toNat ∧ a.toNat ≤ 10000) ∧
    (∃ (s : State) (o : Origin) (m : Half) (sid : List Byte), s.hw.carries (.openSession o m sid) = true ∧ sid.length
      = 16 ∧ s.hw.openRefused m = none) ∧
    (∃ (s : State) (o : Origin) (m : Half) (sid : List Byte), s.hw.carries (.openSession o m sid) = true ∧ sid.length
      = 16 ∧ s.hw.sealed = false) ∧
    (∃ (s : State) (o : Origin) (m : Half) (sid : List Byte), s.hw.carries (.openSession o m sid) = true ∧ sid.length
      = 16 ∧ s.hw.sealed = true ∧ s.hw.ins.storeReady = false) ∧
    (∃ (s : State) (o : Origin) (m : Half) (sid : List Byte), s.hw.carries (.openSession o m sid) = true ∧ sid.length
      = 16 ∧ s.hw.sealed = true ∧ s.hw.ins.storeReady = true ∧ ((s.hw.serviceReady = true ∨ s.hw.seq.state = .standby
      ∨ s.hw.inLimp = true))) ∧
    (∃ (s : State) (o : Origin) (m : Half) (sid : List Byte), s.hw.carries (.openSession o m sid) = true ∧ sid.length
      = 16 ∧ s.hw.sealed = true ∧ s.hw.ins.storeReady = true ∧ s.hw.serviceReady = false ∧ s.hw.seq.state ≠ .standby ∧
      s.hw.inLimp = false ∧ s.hw.seq.state = .faultLatched) ∧
    (∃ (s : State) (o : Origin) (m : Half) (sid : List Byte), s.hw.carries (.openSession o m sid) = true ∧ sid.length
      = 16 ∧ s.hw.sealed = true ∧ s.hw.ins.storeReady = true ∧ s.hw.serviceReady = false ∧ s.hw.seq.state ≠ .standby ∧
      s.hw.inLimp = false ∧ s.hw.seq.state ≠ .faultLatched ∧ ¬s.hw.MaskFits m) ∧
    (∃ (s : State) (o : Origin) (m : Half) (sid : List Byte), s.hw.carries (.openSession o m sid) = true ∧ sid.length
      = 16 ∧ s.hw.sealed = true ∧ s.hw.ins.storeReady = true ∧ s.hw.serviceReady = false ∧ s.hw.seq.state ≠ .standby ∧
      s.hw.inLimp = false ∧ s.hw.seq.state ≠ .faultLatched ∧ s.hw.MaskFits m ∧ (∃ c < 8, m.getLsbD c = true ∧
      (s.hw.chan c).held = true)) ∧
    (∃ (s : State) (o : Origin) (m : Half) (sid : List Byte), s.hw.carries (.openSession o m sid) = true ∧ sid.length
      = 16 ∧ s.hw.sealed = true ∧ s.hw.ins.storeReady = true ∧ s.hw.serviceReady = false ∧ s.hw.seq.state ≠ .standby ∧
      s.hw.inLimp = false ∧ s.hw.seq.state ≠ .faultLatched ∧ s.hw.MaskFits m ∧ (∀ c < 8, m.getLsbD c = true →
      (s.hw.chan c).held = false) ∧ s.hw.InOpenSlot m) ∧
    (∃ (s : State) (o : Origin) (m : Half) (sid : List Byte), s.hw.carries (.openSession o m sid) = true ∧ sid.length
      = 16 ∧ s.hw.sealed = true ∧ s.hw.ins.storeReady = true ∧ s.hw.serviceReady = false ∧ s.hw.seq.state ≠ .standby ∧
      s.hw.inLimp = false ∧ s.hw.seq.state ≠ .faultLatched ∧ s.hw.MaskFits m ∧ (∀ c < 8, m.getLsbD c = true →
      (s.hw.chan c).held = false) ∧ ¬s.hw.InOpenSlot m ∧ s.hw.lodge.status = .invalid ∧ s.hw.image.allowUnsync =
      false) ∧
    (∃ (s : State) (o : Origin) (m : Half) (sid : List Byte), s.hw.carries (.openSession o m sid) = true ∧ sid.length
      = 16 ∧ s.hw.sealed = true ∧ s.hw.ins.storeReady = true ∧ s.hw.serviceReady = false ∧ s.hw.seq.state ≠ .standby ∧
      s.hw.inLimp = false ∧ s.hw.seq.state ≠ .faultLatched ∧ s.hw.MaskFits m ∧ (∀ c < 8, m.getLsbD c = true →
      (s.hw.chan c).held = false) ∧ ¬s.hw.InOpenSlot m ∧ (s.hw.lodge.status = .invalid → s.hw.image.allowUnsync =
      true) ∧ (∀ x ∈ s.hw.slots, x.st ≠ .free)) ∧
    (∃ (s : State) (o : Origin) (m : Half) (sid : List Byte), s.hw.carries (.openSession o m sid) = true ∧ sid.length
      = 16 ∧ s.hw.sealed = true ∧ s.hw.ins.storeReady = true ∧ s.hw.serviceReady = false ∧ s.hw.seq.state ≠ .standby ∧
      s.hw.inLimp = false ∧ s.hw.seq.state ≠ .faultLatched ∧ s.hw.MaskFits m ∧ (∀ c < 8, m.getLsbD c = true →
      (s.hw.chan c).held = false) ∧ ¬s.hw.InOpenSlot m ∧ (s.hw.lodge.status = .invalid → s.hw.image.allowUnsync =
      true) ∧ (∃ x ∈ s.hw.slots, x.st = .free) ∧ s.hw.logSpace < 34) ∧
    (∃ (s : State) (o : Origin) (m : Half) (sid : List Byte), s.hw.carries (.openSession o m sid) = true ∧ sid.length
      = 16 ∧ s.hw.sealed = true ∧ s.hw.ins.storeReady = true ∧ s.hw.serviceReady = false ∧ s.hw.seq.state ≠ .standby ∧
      s.hw.inLimp = false ∧ s.hw.seq.state ≠ .faultLatched ∧ s.hw.MaskFits m ∧ (∀ c < 8, m.getLsbD c = true →
      (s.hw.chan c).held = false) ∧ ¬s.hw.InOpenSlot m ∧ (s.hw.lodge.status = .invalid → s.hw.image.allowUnsync =
      true) ∧ (∃ x ∈ s.hw.slots, x.st = .free) ∧ 34 ≤ s.hw.logSpace ∧ s.hw.logErased < 3) ∧
    (∃ (s : State) (o : Origin) (m : Half) (sid : List Byte), s.hw.carries (.openSession o m sid) = true ∧ sid.length
      = 16 ∧ s.hw.sealed = true ∧ s.hw.ins.storeReady = true ∧ s.hw.serviceReady = false ∧ s.hw.seq.state ≠ .standby ∧
      s.hw.inLimp = false ∧ s.hw.seq.state ≠ .faultLatched ∧ s.hw.MaskFits m ∧ (∀ c < 8, m.getLsbD c = true →
      (s.hw.chan c).held = false) ∧ ¬s.hw.InOpenSlot m ∧ (s.hw.lodge.status = .invalid → s.hw.image.allowUnsync =
      true) ∧ (∃ x ∈ s.hw.slots, x.st = .free) ∧ 34 ≤ s.hw.logSpace ∧ 3 ≤ s.hw.logErased) ∧
    (∃ (s : State) (o : Origin) (n : Byte) (sid : List Byte), s.hw.carries (.closeSession o n sid) = true ∧ n.toNat ≤
      127 ∧ (s.hw.slot n.toNat).open? = true ∧ (s.hw.slot n.toNat).sid = sid ∧ (s.hw.slot n.toNat).closeJob = none ∧
      (s.hw.slot n.toNat).closePending = false) ∧
    (∃ (s : State) (o : Origin) (n : Word), s.hw.carries (.recordAck o n) = true ∧ n.toNat ≤ s.hw.log.lastSeq ∧
      s.hw.ackSeq < n.toNat) ∧
    (∃ (s : State) (o : Origin) (n : Word), s.hw.carries (.recordAck o n) = true ∧ n.toNat ≤ s.hw.log.lastSeq ∧
      n.toNat ≤ s.hw.ackSeq) ∧
    (∃ (s : State) (o : Origin) (c : Byte) (b : List Byte), s.hw.carries (.calWrite o c 0 b) = true ∧ b.length = 48 ∧
      chanOk c = true ∧ calCrcOk b = true ∧ calInRange b = true ∧ s.hw.slots.any (fun x => x.open? && x.mask.getLsbD
      (c.toNat - 1)) = false ∧ s.hw.metro.calJob = none ∧ s.hw.logRefuses 18 = none) ∧
    (∃ (s : State) (o : Origin), s.hw.carries (.seal o) = true ∧ s.hw.sealRefused = none ∧ FusesInRange s.hw.life) ∧
    (∃ (s : State) (o : Origin) (st : Nat), s.hw.carries (.seal o) = true ∧ s.hw.sealRefused = some st) :=
  ⟨⟨live [fun h => bring (.adcScanSet .A 0 50 1 10000) h], .A, 0, 50, 1, 10000, by decide +kernel⟩,
   ⟨live [fun h => bring (.openSession .A 0x80 (List.replicate 16 0 : List Byte)) h, fun h =>
     { h with life := { h.life with seals := 1 } }, fun h => h.modChan 7 (fun y => { y with calP := calOn })], .A,
     0x80, List.replicate 16 0, by decide +kernel⟩,
   ⟨live [fun h => bring (.openSession .A 0x80 (List.replicate 16 0 : List Byte)) h], .A, 0x80, List.replicate 16 0,
     by decide +kernel⟩,
   ⟨live [fun h => bring (.openSession .A 0x80 (List.replicate 16 0 : List Byte)) h, fun h =>
     { h with life := { h.life with seals := 1 } }, fun h => { h with ins := { h.ins with storeReady := false } }, fun
     h => { h with life := { h.life with seals := 1 } }, fun h => h.modChan 7 (fun y => { y with calP := calOn })],
     .A, 0x80, List.replicate 16 0, by decide +kernel⟩,
   ⟨live [fun h => bring (.openSession .A 0x80 (List.replicate 16 0 : List Byte)) h, fun h =>
     { h with life := { h.life with seals := 1 } }, fun h => { h with ins := { h.ins with storeReady := true } }, fun
     h => { h with life := { h.life with seals := 1 } }, fun h => h.modChan 7 (fun y => { y with calP := calOn }), fun
     h => { h with seq := { h.seq with service := { h.seq.service with ready := true } } }], .A, 0x80, List.replicate
     16 0, by decide +kernel⟩,
   ⟨live [fun h => bring (.openSession .A 0x80 (List.replicate 16 0 : List Byte)) h, fun h =>
     { h with life := { h.life with seals := 1 } }, fun h => { h with ins := { h.ins with storeReady := true } }, fun
     h => { h with seq := { h.seq with state := .faultLatched } }, fun h =>
     { h with life := { h.life with seals := 1 } }, fun h => h.modChan 7 (fun y => { y with calP := calOn })], .A,
     0x80, List.replicate 16 0, by decide +kernel⟩,
   ⟨live [fun h => bring (.openSession .A 0x80 (List.replicate 16 0 : List Byte)) h, fun h =>
     { h with life := { h.life with seals := 1 } }, fun h => { h with ins := { h.ins with storeReady := true } }, fun
     h => { h with life := { h.life with seals := 1 } }, fun h => h.modChan 7 (fun y => { y with calP := calOn }), fun
     h => h.modChan 7 (fun y => { y with calP := [] })], .A, 0x80, List.replicate 16 0, by decide +kernel, by
     decide +kernel, by decide +kernel, by decide +kernel, by decide +kernel, by decide +kernel, by decide +kernel, by
     decide +kernel, by unfold Hw.MaskFits; decide +kernel⟩,
   ⟨live [fun h => bring (.openSession .A 0x80 (List.replicate 16 0 : List Byte)) h, fun h =>
     { h with life := { h.life with seals := 1 } }, fun h => { h with ins := { h.ins with storeReady := true } }, fun
     h => { h with life := { h.life with seals := 1 } }, fun h => h.modChan 7 (fun y => { y with calP := calOn }), fun
     h => h.modChan 7 (fun y => { y with diverge := true })], .A, 0x80, List.replicate 16 0, by decide +kernel, by
     decide +kernel, by decide +kernel, by decide +kernel, by decide +kernel, by decide +kernel, by decide +kernel, by
     decide +kernel, by unfold Hw.MaskFits; decide +kernel, by decide +kernel⟩,
   ⟨live [fun h => bring (.openSession .A 0x80 (List.replicate 16 0 : List Byte)) h, fun h =>
     { h with life := { h.life with seals := 1 } }, fun h => { h with ins := { h.ins with storeReady := true } }, fun
     h => { h with life := { h.life with seals := 1 } }, fun h => h.modChan 7 (fun y => { y with calP := calOn }), fun
     h => h.modSlot 127 (fun y => { y with st := .opened, mask := 0x80 })], .A, 0x80, List.replicate 16 0, by
     decide +kernel, by decide +kernel, by decide +kernel, by decide +kernel, by decide +kernel, by decide +kernel, by
     decide +kernel, by decide +kernel, by unfold Hw.MaskFits; decide +kernel, by decide +kernel,
     by unfold Hw.InOpenSlot; decide +kernel⟩,
   ⟨live [fun h => bring (.openSession .A 0x80 (List.replicate 16 0 : List Byte)) h, fun h =>
     { h with life := { h.life with seals := 1 } }, fun h => { h with ins := { h.ins with storeReady := true } }, fun
     h => { h with lodge := { h.lodge with status := .invalid } }, fun h =>
     { h with image := { h.image with allowUnsync := false } }, fun h =>
     { h with life := { h.life with seals := 1 } }, fun h => h.modChan 7 (fun y => { y with calP := calOn }), fun h =>
     { h with image := { h.image with allowUnsync := false } }], .A, 0x80, List.replicate 16 0, by decide +kernel, by
     decide +kernel, by decide +kernel, by decide +kernel, by decide +kernel, by decide +kernel, by decide +kernel, by
     decide +kernel, by unfold Hw.MaskFits; decide +kernel, by decide +kernel,
     by unfold Hw.InOpenSlot; decide +kernel, by decide +kernel, by decide +kernel⟩,
   ⟨live [fun h => bring (.openSession .A 0x80 (List.replicate 16 0 : List Byte)) h, fun h =>
     { h with life := { h.life with seals := 1 } }, fun h => { h with ins := { h.ins with storeReady := true } }, fun
     h => { h with life := { h.life with seals := 1 } }, fun h => h.modChan 7 (fun y => { y with calP := calOn }), fun
     h => { h with slots := h.slots.map (fun x => { x with st := .closed }) }, id], .A, 0x80, List.replicate 16 0, by
     decide +kernel, by decide +kernel, by decide +kernel, by decide +kernel, by decide +kernel, by decide +kernel, by
     decide +kernel, by decide +kernel, by unfold Hw.MaskFits; decide +kernel, by decide +kernel,
     by unfold Hw.InOpenSlot; decide +kernel, by decide +kernel, by decide +kernel⟩,
   ⟨live [fun h => bring (.openSession .A 0x80 (List.replicate 16 0 : List Byte)) h, fun h =>
     { h with life := { h.life with seals := 1 } }, fun h => { h with ins := { h.ins with storeReady := true } }, fun
     h => { h with life := { h.life with seals := 1 } }, fun h => h.modChan 7 (fun y => { y with calP := calOn }), fun
     h =>
     { h with log := { h.log with erased := 33, wpos := 65503, lastSeq := 1, entries := [{ pos := 0, seq := 1, bytes := [], committed := true, signed := true, damaged := false }] } }],
     .A, 0x80, List.replicate 16 0, by decide +kernel, by decide +kernel, by decide +kernel, by decide +kernel, by
     decide +kernel, by decide +kernel, by decide +kernel, by decide +kernel, by unfold Hw.MaskFits; decide +kernel,
     by decide +kernel, by unfold Hw.InOpenSlot; decide +kernel, by decide +kernel, by decide +kernel, by
     decide +kernel⟩,
   ⟨live [fun h => bring (.openSession .A 0x80 (List.replicate 16 0 : List Byte)) h, fun h =>
     { h with life := { h.life with seals := 1 } }, fun h => { h with ins := { h.ins with storeReady := true } }, fun
     h => { h with life := { h.life with seals := 1 } }, fun h => h.modChan 7 (fun y => { y with calP := calOn }), fun
     h => { h with log := { h.log with erased := 2 } }], .A, 0x80, List.replicate 16 0, by decide +kernel, by
     decide +kernel, by decide +kernel, by decide +kernel, by decide +kernel, by decide +kernel, by decide +kernel, by
     decide +kernel, by unfold Hw.MaskFits; decide +kernel, by decide +kernel,
     by unfold Hw.InOpenSlot; decide +kernel, by decide +kernel, by decide +kernel, by decide +kernel, by
     decide +kernel⟩,
   ⟨live [fun h => bring (.openSession .A 0x80 (List.replicate 16 0 : List Byte)) h, fun h =>
     { h with life := { h.life with seals := 1 } }, fun h => { h with ins := { h.ins with storeReady := true } }, fun
     h => { h with life := { h.life with seals := 1 } }, fun h => h.modChan 7 (fun y => { y with calP := calOn })],
     .A, 0x80, List.replicate 16 0, by decide +kernel, by decide +kernel, by decide +kernel, by decide +kernel, by
     decide +kernel, by decide +kernel, by decide +kernel, by decide +kernel, by unfold Hw.MaskFits; decide +kernel,
     by decide +kernel, by unfold Hw.InOpenSlot; decide +kernel, by decide +kernel, by decide +kernel, by
     decide +kernel, by decide +kernel⟩,
   ⟨live [fun h => bring (.closeSession .A 127 ([] : List Byte)) h, fun h => h.modSlot (127 : Byte).toNat (fun y =>
     { y with sid := ([] : List Byte) }), fun h => h.modSlot (127 : Byte).toNat (fun y =>
     { y with closeJob := none }), fun h => h.modSlot (127 : Byte).toNat (fun y => { y with closePending := false }),
     fun h => h.modSlot 127 (fun y => { y with st := .opened })], .A, 127, [], by decide +kernel⟩,
   ⟨live [fun h => bring (.recordAck .A 1) h, fun h => { h with log := { h.log with lastSeq := 1 } }], .A, 1, by
     decide +kernel⟩,
   ⟨live [fun h => bring (.recordAck .A 0) h], .A, 0, by decide +kernel⟩,
   ⟨live [fun h => bring (.calWrite .A 8 0 calOff) h, fun h => { h with metro := { h.metro with calJob := none } },
     fun h => { h with lines := { h.lines with calenLow := true } }], .A, 8, calOff, by decide +kernel⟩,
   ⟨live [fun h => bring (.seal .A) h], .A, by unfold FusesInRange; decide +kernel⟩,
   ⟨live [fun h => bring (.seal .A) h, fun h =>
     { h with metro := { h.metro with calJob := some { chan := 0, job := 7, written := false } } }], .A, stWrongState,
     by decide +kernel⟩⟩

theorem meets_BatteryTimeAndStoreCommandsAct :
    (∃ (s : State) (o : Origin) (a : Byte) (b : Byte) (c : Byte) (i : Half) (d : Byte) (e : Byte) (q : ChargeCfg),
      s.hw.carries (.chargerSet o a b c i d e) = true ∧ chargerParams a b c i d e = some q) ∧
    (∃ (a : Byte) (b : Byte) (c : Byte) (d : Byte) (e : Byte) (i : Half), chargerParams a b c i d e = none) ∧
    (∃ (s : State) (o : Origin), s.hw.carries (.chargerKeepalive o) = true) ∧
    (∃ (s : State) (o : Origin), s.hw.carries (.gaugeResetLearn o) = true) ∧
    (∃ (s : State) (o : Origin) (ps : List (Half × Half)), s.hw.carries (.gaugeTableLoad o ps) = true ∧ ps.length = 32
      ∧ s.hw.gauge.tableJob = none ∧ tableOk (ps.map (fun p => (p.1.toNat, p.2.toNat))) = true) ∧
    (∃ (s : State) (o : Origin) (ps : List (Half × Half)), s.hw.carries (.gaugeTableLoad o ps) = true ∧ ps.length = 32
      ∧ s.hw.gauge.tableJob.isSome = true) ∧
    (∃ (s : State) (o : Origin) (e : Byte) (v : Half) (l : Byte) (u : Byte) (c : Byte) (q : BackupCfg), s.hw.carries
      (.backupSet o e v l u c) = true ∧ backupParams s.hw.image.chem e v l u c = some q) ∧
    (∃ (s : State) (o : Origin) (v : DWord) (f : Byte), s.hw.carries (.timeSet o v f) = true ∧ s.hw.timeRefused v f =
      none) ∧
    (∃ (s : State) (o : Origin) (v : DWord) (f : Byte) (st : Nat), s.hw.carries (.timeSet o v f) = true ∧
      s.hw.timeRefused v f = some st) ∧
    (∃ (s : State) (o : Origin) (w : Half) (b : List Byte), s.hw.carries (.trimSet o w b) = true ∧ b.length = 8 ∧
      s.hw.lodge.lock = false ∧ trimOk (sint 16 w.toNat) = true) ∧
    (∃ (s : State) (o : Origin) (a : Byte) (f : Byte) (v : DWord), s.hw.carries (.alarmSet o a 1 f 0 v) = true ∧
      s.hw.lodge.status ≠ .invalid ∧ s.hw.lodge.lock = false ∧ ((a = 1 ∨ a = 2)) ∧ f.toNat ≤ 1 ∧ timeOk v = true ∧
      s.hw.lodge.ticks < ticksOf v.toNat ∧ s.hw.lodge.alarms.length = 2) ∧
    (∃ (s : State) (o : Origin) (a : Byte) (f : Byte) (r : Byte) (v : DWord), s.hw.carries (.alarmSet o a 0 f r v) =
      true ∧ s.hw.lodge.status ≠ .invalid ∧ s.hw.lodge.lock = false ∧ ((a = 1 ∨ a = 2))) ∧
    (∃ (s : State) (o : Origin) (m : DWord), s.hw.carries (.eventCountersClear o m) = true) ∧
    (∃ (s : State) (o : Origin) (c : Byte) (r : Byte), s.hw.carries (.faultPolicySet o c r) = true ∧ 1 ≤ c.toNat ∧
      c.toNat ≤ 13 ∧ reactionOk c.toNat r.toNat = true) ∧
    (∃ (s : State) (o : Origin) (k : Half) (n : Byte) (p : List Byte), s.hw.carries (.storeWrite o k n 0 p) = true ∧
      p.length = n.toNat ∧ hostKey k = true ∧ n.toNat ≤ 240 ∧ s.hw.halfShort = false) ∧
    (∃ (s : State) (o : Origin) (k : Half) (n : Byte) (p : List Byte), s.hw.carries (.storeWrite o k n 0 p) = true ∧
      p.length = n.toNat ∧ hostKey k = true ∧ n.toNat ≤ 240 ∧ s.hw.halfShort = true) ∧
    (∃ (s : State) (o : Origin) (a : Word) (n : Byte) (d : List Byte), s.hw.carries (.configWrite o a n 0 d) = true ∧
      d.length = n.toNat ∧ 1 ≤ n.toNat ∧ n.toNat ≤ 240 ∧ a.toNat + n.toNat ≤ 32768 ∧ s.hw.buffersOk = true) ∧
    (∃ (s : State) (o : Origin) (n : Word) (crc : Word), s.hw.carries (.configCommit o n crc) = true ∧ 64 ≤ n.toNat ∧
      n.toNat ≤ 32768 ∧ crc32 (Cells.read 0xFF s.hw.store.staging 0 n.toNat) = crc) ∧
    (∃ (s : State) (o : Origin) (n : Word) (crc : Word), s.hw.carries (.configCommit o n crc) = true ∧ 64 ≤ n.toNat ∧
      n.toNat ≤ 32768 ∧ crc32 (Cells.read 0xFF s.hw.store.staging 0 n.toNat) ≠ crc) ∧
    (∀ i ∈ ([.chargerSet .A 2 0 0 0 0 0] : List Instr), ∃ s : State, s.hw.carries i = true) :=
  ⟨⟨live [fun h => bring (.chargerSet .A 1 38 30 1000 60 30) h], .A, 1, 38, 30, 1000, 60, 30,
    { en := true, iChg := 2000, cvReduce := 300, iTerm := some 1000, tTopoff := 60, vRech := 300 }, by
    decide +kernel⟩,
   ⟨2, 0, 0, 0, 0, 0, by decide +kernel⟩,
   ⟨live [fun h => bring (.chargerKeepalive .A) h], .A, by decide +kernel⟩,
   ⟨live [fun h => bring (.gaugeResetLearn .A) h], .A, by decide +kernel⟩,
   ⟨live [fun h => bring (.gaugeTableLoad .A ((List.range 31).map (fun i => (BitVec.ofNat 16 (300 * i), BitVec.ofNat
     16 (3000 + 10 * i))) ++ [(10000, 4000)] : List (Half × Half))) h, fun h =>
     { h with gauge := { h.gauge with tableJob := none } }], .A, (List.range 31).map (fun i => (BitVec.ofNat 16 (300 *
     i), BitVec.ofNat 16 (3000 + 10 * i))) ++ [(10000, 4000)], by decide +kernel⟩,
   ⟨live [fun h => bring (.gaugeTableLoad .A (List.replicate 32 (0, 0) : List (Half × Half))) h, fun h =>
     { h with gauge := { h.gauge with tableJob := some 1 } }], .A, List.replicate 32 (0, 0), by decide +kernel⟩,
   ⟨live [fun h => bring (.backupSet .A 1 3400 0xE2 70 50) h], .A, 1, 3400, 0xE2, 70, 50,
     { en := true, vCut := 3400, tMin := -30, tMax := 70, lowSoc := 50 }, by decide +kernel⟩,
   ⟨live [fun h => bring (.timeSet .A 0x0000000001000000 1) h], .A, 0x0000000001000000, 1, by decide +kernel⟩,
   ⟨live [fun h => bring (.timeSet .A 1 1) h], .A, 1, 1, stBadParam, by decide +kernel⟩,
   ⟨live [fun h => bring (.trimSet .A 511 (List.replicate 8 0 : List Byte)) h, fun h =>
     { h with lodge := { h.lodge with lock := false } }], .A, 511, List.replicate 8 0, by decide +kernel⟩,
   ⟨live [fun h => bring (.alarmSet .A 2 1 1 0 0x0000000001000000) h, fun h =>
     { h with lodge := { h.lodge with lock := false } }], .A, 2, 1, 0x0000000001000000, by decide +kernel⟩,
   ⟨live [fun h => bring (.alarmSet .A 2 0 0 0 0) h, fun h => { h with lodge := { h.lodge with lock := false } }], .A,
     2, 0, 0, 0, by decide +kernel⟩,
   ⟨live [fun h => bring (.eventCountersClear .A 0) h], .A, 0, by decide +kernel⟩,
   ⟨live [fun h => bring (.faultPolicySet .A 13 1) h], .A, 13, 1, by decide +kernel⟩,
   ⟨live [fun h => bring (.storeWrite .A 0x803F 2 0 ([1, 2] : List Byte)) h, roomy], .A, 0x803F, 2, [1, 2], by
     decide +kernel⟩,
   ⟨live [fun h => bring (.storeWrite .A 0x803F 2 0 ([1, 2] : List Byte)) h, fun h =>
     { h with store := { h.store with half0 := ⟨[], [], 0⟩ } }], .A, 0x803F, 2, [1, 2], by decide +kernel⟩,
   ⟨live [fun h => bring (.configWrite .A 32767 1 0 ([1] : List Byte)) h], .A, 32767, 1, [1], by decide +kernel⟩,
   ⟨live [fun h => bring (.configCommit .A 64 0xa21e790f) h], .A, 64, 0xa21e790f, by decide +kernel, by
     decide +kernel, by decide +kernel, blank64_crc⟩,
   ⟨live [fun h => bring (.configCommit .A 64 0) h], .A, 64, 0, by decide +kernel, by decide +kernel, by
     decide +kernel, blank64_crc.trans_ne (by decide)⟩,
   fun i h => ⟨live [fun h => { h with lines := { h.lines with calenLow := true } }, bring i], (by decide +kernel : ∀
     i ∈ ([.chargerSet .A 2 0 0 0 0 0] : List Instr), (live [fun h =>
     { h with lines := { h.lines with calenLow := true } }, bring i]).hw.carries i = true) i h⟩⟩

theorem meets_LifeAndDiagnosticCommandsAct :
    (∃ (s : State) (o : Origin), s.hw.carries (.lifecycleAdvance o 2) = true ∧ s.hw.life.state = 1 ∧ s.hw.metering =
      true ∧ s.hw.lines.calenLow = true) ∧
    (∃ (s : State) (o : Origin), s.hw.carries (.lifecycleAdvance o 2) = true ∧ s.hw.life.state = 1 ∧ s.hw.metering =
      true ∧ s.hw.lines.calenLow = false) ∧
    (∃ (s : State) (o : Origin), s.hw.carries (.lifecycleAdvance o 3) = true ∧ s.hw.life.state = 1 ∧ s.hw.metering =
      false ∧ s.hw.life.seals < 32 ∧ FusesInRange s.hw.life) ∧
    (∃ (s : State) (o : Origin) (n : Byte) (d : List Byte), s.hw.carries (.fwStage o 0 n 0 d) = true ∧ d.length =
      n.toNat ∧ n ≠ 0 ∧ n.toNat ≤ 240 ∧ s.hw.life.retired = false ∧ s.hw.hit 0x0F = false) ∧
    (∃ (s : State) (o : Origin) (a : Word) (n : Byte) (d : List Byte), s.hw.carries (.fwStage o a n 0 d) = true ∧
      d.length = n.toNat ∧ n ≠ 0 ∧ n.toNat ≤ 240 ∧ s.hw.life.retired = false ∧ a ≠ 0 ∧ a.toNat = (s.hw.fw.slot
      (!s.hw.fw.runB)).staged ∧ a.toNat + n.toNat ≤ 2097152 ∧ s.hw.hit 0x0F = false) ∧
    (∃ (s : State) (o : Origin) (a : Word) (n : Byte) (d : List Byte), s.hw.carries (.fwStage o a n 0 d) = true ∧
      d.length = n.toNat ∧ s.hw.life.retired = true) ∧
    (∃ (s : State) (o : Origin) (n : Word), s.hw.carries (.fwVerify o n) = true ∧ (s.hw.fw.slot
      (!s.hw.fw.runB)).staged ≠ 0 ∧ s.hw.faults.inject = List.replicate 15 (0, false)) ∧
    (∃ (s : State) (o : Origin) (f : Byte), s.hw.carries (.fwActivate o f) = true ∧ s.hw.fw.stagedValid = true ∧
      f.toNat ≤ 1) ∧
    (∃ (s : State) (_ok : Bool), s.hw.fw.programming = true ∧ s.hw.ins.mainOn = true ∧ s.hw.pwr.commit = none) ∧
    (∃ (s : State) (o : Origin) (f : Byte), s.hw.carries (.fwActivate o f) = true ∧ s.hw.fw.stagedValid = false) ∧
    (∃ (s : State) (o : Origin) (f : Byte), s.hw.carries (.retire o f) = true ∧ s.hw.retireRefused f = none) ∧
    (∃ (s : State) (o : Origin) (f : Byte) (st : Nat), s.hw.carries (.retire o f) = true ∧ s.hw.retireRefused f = some
      st) ∧
    (∃ (s : State) (o : Origin) (m : Half) (p : Byte), s.hw.carries (.promAdmitPolicy o m p) = true ∧ s.hw.prm.role ≠
      .follower ∧ m.getLsbD 0 = false ∧ p.toNat ≤ 1) ∧
    (∃ (s : State) (o : Origin) (m : Half) (p : Byte), s.hw.carries (.promAdmitPolicy o m p) = true ∧ s.hw.prm.role =
      .follower) ∧
    (∃ (s : State) (o : Origin) (c : Byte) (n : Byte), s.hw.carries (.follyInject o c n) = true ∧ 1 ≤ c.toNat % 128 ∧
      c.toNat % 128 ≤ 15 ∧ (c.getLsbD 7 = true → c.toNat % 128 ≤ 7) ∧ n ≠ 0 ∧ (s.hw.sealed && sealedChecker (c.toNat %
      128)) = false) ∧
    (∃ (s : State) (o : Origin) (c : Byte), s.hw.carries (.follyForce o c 0) = true ∧ forceSource c.toNat = true ∧
      ((s.hw.sealed = false ∨ c.toNat < 0x50))) ∧
    (∃ (s : State) (o : Origin), s.hw.carries (.follyForce o 0x42 1) = true ∧ s.hw.ins.state ≠ .ready) ∧
    (∃ (s : State) (o : Origin), s.hw.carries (.follyForce o 0x40 1) = true ∧ s.hw.seq.state = .run ∧ s.hw.gone =
      false ∧ s.hw.faults.forces = []) ∧
    (∃ (s : State) (o : Origin) (r : Byte) (q : Word) (n : Half), s.hw.carries (.diagCompare o 0 r q n) = true ∧ 1 ≤
      r.toNat ∧ r.toNat ≤ 5 ∧ 1 ≤ n.toNat ∧ n.toNat ≤ 4096 ∧ q.toNat + n.toNat ≤ regionSectors r.toNat ∧
      s.hw.bulk.diag = none) ∧
    (∃ (s : State) (o : Origin) (m : Byte) (r : Byte) (q : Word) (n : Half), s.hw.carries (.diagCompare o m r q n) =
      true ∧ s.hw.bulk.diag.isSome = true) ∧
    (∃ (h : Hw) (d : Diag), h.bulk.diag = some d ∧ d.copies = false ∧ h.ins.booted = true ∧ h.flashBusy = false ∧
      h.pwr.commit = none ∧ h.life.retireLeft = 0 ∧ h.faults.inject = List.replicate 15 (0, false)) ∧
    (∃ (s : State) (o : Origin) (x : Byte), s.hw.carries (.diagSelftest o x) = true ∧ 1 ≤ x.toNat ∧ x.toNat ≤ 8 ∧
      s.hw.phaseInUse (x.toNat - 1) = false) ∧
    (∃ (s : State) (o : Origin) (x : Byte), s.hw.carries (.diagSelftest o x) = true ∧ 1 ≤ x.toNat ∧ x.toNat ≤ 8 ∧
      s.hw.phaseInUse (x.toNat - 1) = true) :=
  ⟨⟨live [fun h => bring (.lifecycleAdvance .A 2) h, fun h => { h with lines := { h.lines with calenLow := true } },
    fun h => { h with life := { h.life with calEntered := false } }], .A, by decide +kernel⟩,
   ⟨live [fun h => bring (.lifecycleAdvance .A 2) h, fun h => { h with lines := { h.lines with calenLow := false } },
     fun h => { h with life := { h.life with calEntered := false } }], .A, by decide +kernel⟩,
   ⟨live [fun h => bring (.lifecycleAdvance .A 3) h, fun h => { h with factory := { h.factory with variant := .P } },
     fun h => { h with life := { h.life with calEntered := false } }], .A, by unfold FusesInRange; decide +kernel⟩,
   ⟨live [fun h => bring (.fwStage .A 0 240 0 (List.replicate 240 0 : List Byte)) h, fun h =>
     { h with life := { h.life with retired := false } }], .A, 240, List.replicate 240 0, by decide +kernel⟩,
   ⟨live [fun h => bring (.fwStage .A 2096912 240 0 (List.replicate 240 0 : List Byte)) h, fun h =>
     { h with life := { h.life with retired := false } }, fun h =>
     { h with fw := { h.fw with slotB := { h.fw.slotB with staged := 2096912 } } }], .A, 2096912, 240, List.replicate
     240 0, by decide +kernel⟩,
   ⟨live [fun h => bring (.fwStage .A 0 0 0 ([] : List Byte)) h, fun h =>
     { h with life := { h.life with retired := true } }], .A, 0, 0, [], by decide +kernel⟩,
   ⟨live [fun h => bring (.fwVerify .A 128) h, fun h =>
     { h with faults := { h.faults with inject := List.replicate 15 (0, false) } }, fun h =>
     { h with fw := { h.fw with slotB := { h.fw.slotB with staged := 128 } } }], .A, 128, by decide +kernel⟩,
   ⟨live [fun h => bring (.fwActivate .A 1) h, fun h => { h with fw := { h.fw with stagedValid := true } }], .A, 1, by
     decide +kernel⟩,
   ⟨live [fun h => { h with fw := { h.fw with programming := true } }, fun h =>
     { h with ins := { h.ins with mainOn := true } }, fun h => { h with pwr := { h.pwr with commit := none } }],
     false, by decide +kernel⟩,
   ⟨live [fun h => bring (.fwActivate .A 0) h, fun h => { h with fw := { h.fw with stagedValid := false } }], .A, 0,
     by decide +kernel⟩,
   ⟨live [fun h => bring (.retire .A 1) h], .A, 1, by decide +kernel⟩,
   ⟨live [fun h => bring (.retire .A 2) h], .A, 2, stBadParam, by decide +kernel⟩,
   ⟨live [fun h => bring (.promAdmitPolicy .A 0xFFFE 1) h], .A, 0xFFFE, 1, by decide +kernel⟩,
   ⟨live [fun h => bring (.promAdmitPolicy .A 0 0) h, fun h => { h with prm := { h.prm with role := .follower } }],
     .A, 0, 0, by decide +kernel⟩,
   ⟨live [fun h => bring (.follyInject .A 0x87 255) h], .A, 0x87, 255, by decide +kernel⟩,
   ⟨live [fun h => bring (.follyForce .A 0x57 0) h], .A, 0x57, by decide +kernel⟩,
   ⟨live [fun h => bring (.follyForce .A 0x42 1) h, fun h => { h with ins := { h.ins with state := .waitVin } }], .A,
     by decide +kernel⟩,
   ⟨live [fun h => bring (.follyForce .A 0x40 1) h, fun h => { h with seq := { h.seq with state := .run } }, fun h =>
     { h with faults := { h.faults with forces := [] } }], .A, by decide +kernel⟩,
   ⟨live [fun h => bring (.diagCompare .A 0 5 1023 1) h, fun h => { h with bulk := { h.bulk with diag := none } }],
     .A, 5, 1023, 1, by decide +kernel⟩,
   ⟨live [fun h => bring (.diagCompare .A 0 0 0 0) h, fun h =>
     { h with bulk := { h.bulk with diag := some { job := 7, copies := false, region := 1, next := 0, left := 1, count := 1 } } }],
     .A, 0, 0, 0, 0, by decide +kernel⟩,
   ⟨(live [fun h =>
     { h with bulk := { h.bulk with diag := some ({ job := 7, copies := false, region := 5, next := 1023, left := 1, count := 1 } : Diag) } },
     fun h => { h with ins := { h.ins with booted := true } }, fun h =>
     { h with pwr := { h.pwr with commit := none } }, fun h => { h with life := { h.life with retireLeft := 0 } }, fun
     h => { h with faults := { h.faults with inject := List.replicate 15 (0, false) } }]).hw,
     { job := 7, copies := false, region := 5, next := 1023, left := 1, count := 1 }, by decide +kernel⟩,
   ⟨live [fun h => bring (.diagSelftest .A 8) h], .A, 8, by decide +kernel⟩,
   ⟨live [fun h => bring (.diagSelftest .A 1) h, fun h => h.modPhase 0 (fun y =>
     { y with cond := .active, serving := 1 }), fun h => h.modOut 0 (fun y => { y with on := true })], .A, 1, by
     decide +kernel⟩⟩

/-! ## Well-formedness refuses -/

theorem test_wf_bootSample : (Instr.bootComplete { phaseFail := 0, sliceFail := 0, temps := [0], weak := [] }).wellFormed = false := by decide
theorem test_wf_portCurrents : (Instr.governorEvaluate ⟨0, 0, 0, 0, 48000, [1, 2]⟩).wellFormed = false := by decide
theorem test_wf_portCurrentsAtWake : (Instr.governorComparatorWake ⟨0, 0, 0, 0, 48000, []⟩).wellFormed = false := by decide
theorem test_wf_descriptor : (Instr.descReadComplete 0 (some (List.replicate 17 0))).wellFormed = false := by decide
theorem test_wf_frames :
    (Instr.leadFrame 0 ⟨[1], 0⟩).wellFormed = false ∧ (Instr.statusFrame 1 [2]).wellFormed = false ∧
      (Instr.join 1 []).wellFormed = false ∧ (Instr.leave 1 [4, 1, 200, 0]).wellFormed = false := by decide
theorem test_wf_scanTwice : (Instr.scanComplete [⟨3, 0⟩, ⟨3, 0⟩] 0).wellFormed = false := by decide
theorem test_wf_blockChannels : (Instr.blockEnd []).wellFormed = false := by decide
theorem test_wf_busWrites :
    (Instr.hostBusWrite 0x58 0x1000 []).wellFormed = false ∧ (Instr.evtPendWrite 0x58 0x80 []).wellFormed = false := by decide
theorem test_wf_mac : (Instr.configUnlockResponse .A [1]).wellFormed = false := by decide
theorem test_wf_sessionIds :
    (Instr.openSession .A 1 [1]).wellFormed = false ∧ (Instr.closeSession .A 1 [1]).wellFormed = false := by decide
theorem test_wf_calBlock : (Instr.calWrite .A 1 0 []).wellFormed = false := by decide
theorem test_wf_gaugeTable : (Instr.gaugeTableLoad .A []).wellFormed = false := by decide
theorem test_wf_bands : (Instr.trimSet .A 0 [1]).wellFormed = false := by decide
theorem test_wf_lengths :
    (Instr.storeWrite .A 0x8000 2 0 [1]).wellFormed = false ∧ (Instr.configWrite .A 0 2 0 [1]).wellFormed = false ∧
      (Instr.fwStage .A 0 2 0 [1]).wellFormed = false := by decide
theorem test_wf_accepts :
    (Instr.descReadComplete 0 (some (List.replicate 16 0))).wellFormed = true ∧ (Instr.enRise).wellFormed = true ∧
      (Instr.storeWrite .A 0x8000 1 0 [1]).wellFormed = true := by decide

/-! ## The manual's worked examples -/

/-- "A SETV frame": the CRC of the request is 0x4, that of the response 0xA. -/
theorem test_vclCrcs :
    crc4 (requestBits 1 0 false 0x80A0) = 0x4 ∧
      crc4 (natBits 3 0 ++ natBits 4 4 ++ natBits 16 0x80A0) = 0xA := by decide +kernel

/-- The same frame: the module answers ACK with SLEWING and DATA 0x80A0. -/
theorem test_setvExample :
    ((after (execSetv 0 false 0x80A0 0x4
      (live [fun h => h.modOut 0 (fun y => { y with on := true, stepDone := true, ref := 1300, tgt := 100 })]))).vcl.resp).map
        (fun r => (r.resp, r.flags, r.data)) = some (0, 4, 0x80A0) := by decide +kernel

/-- "IDENT from address A": the CRC of 01 07 00 00 is 0x77E4. -/
theorem test_packetCrc : crc16 [0x01, 0x07, 0x00, 0x00] = 0x77E4 := by decide +kernel

/-- "The host writes 8 bytes from pointer 0x103C": the last four wrap to the page's start. -/
theorem test_pageWrap : (List.range 8).map (pageAddr 0x103C) = [0x103C, 0x103D, 0x103E, 0x103F, 0x1000, 0x1001, 0x1002, 0x1003] := by
  decide

/-- CAPS of a K4820-M reads 0x0000081D. -/
theorem test_capsOfM : ({ Hw.reset with factory := { Hw.reset.factory with variant := .M } } : Hw).caps = 0x0000081D := by
  decide +kernel

/-! ## Single steps -/

theorem test_idleTick : step State.reset = .next { State.reset with hw := State.reset.hw.advance 1 } := rfl

/-- Beyond 80 V no figure of the manual covers the module (R536). -/
theorem test_beyondMaximum : exec (.vinUnusable 80001) State.reset = .fault .beyondAbsoluteMaximum := rfl

/-- The table gives its rows no bits, so no word spells a command. -/
theorem test_noWordSpellsACommand : decodeTableWord 16 0x0001 = none := rfl


end Sys2Proof.Machine
end

section
/-! SUPPORT. The rows that serve a packet: what one answers when its unit is absent (R3), and that one that is carried out is its
own effect and nothing else (R407, R413, R416). -/

namespace Sys2Proof.Machine

/-! ## Rows that serve a packet -/

/-- A command's row serves a packet of an address with an opcode, and its own effect is `body`. -/
def ServedBy (i : Instr) (o : Origin) (op : Nat) (body : Hw → Hw) : Prop :=
  (∃ ps, packetOf i = some (o, op, ps)) ∧ ∀ s, exec i s = s.upd (fun h => h.serve i body)

/-- R3 comes before privilege, LIMP and the command's own checks. -/
theorem Hw.serve_absent (h : Hw) (i : Instr) (o : Origin) (op : Nat) (ps : List Byte) (body : Hw → Hw) (c : CmdInfo)
    (hp : packetOf i = some (o, op, ps)) (hc : cmdInfo op = some c) (hu : h.unitAbsent c.unit = true)
    (hs : h.reaches i = true) (hcommit : h.pwr.commit = none) (hboot : h.bootWork = false) :
    h.serve i body = h.respond o stAbsent [] := by
  rw [Hw.serve_reached h i o op ps body c hp hc hs]
  simp [hcommit, hboot, hu]

/-- A served command of an absent unit that reaches its checks answers UNIT_ABSENT, and its reply is all that changes. -/
theorem ServedBy.completes_absent {i : Instr} {o : Origin} {op : Nat} {body : Hw → Hw} {c : CmdInfo}
    (hi : ServedBy i o op body) (hc : cmdInfo op = some c) (s : State) (hu : s.hw.unitAbsent c.unit = true)
    (hs : s.hw.reaches i = true) (hcommit : s.hw.pwr.commit = none) (hboot : s.hw.bootWork = false) :
    Completes i s (fun t => t = s.hw.respond o stAbsent []) := by
  obtain ⟨⟨ps, hp⟩, he⟩ := hi
  exact ⟨_, he s, rfl, Hw.serve_absent s.hw i o op ps body c hp hc hu hs hcommit hboot⟩

/-- A served command of a class other than CONFIGURE that is carried out is its own effect. -/
theorem ServedBy.completes {i : Instr} {o : Origin} {op : Nat} {body : Hw → Hw} {c : CmdInfo} (hi : ServedBy i o op body)
    (hc : cmdInfo op = some c) (hcl : c.cls ≠ .configure) (s : State) (hs : s.hw.carries i = true) :
    Completes i s (fun t => t = body s.hw) := by
  obtain ⟨⟨ps, hp⟩, he⟩ := hi
  exact ⟨_, he s, rfl, Hw.serve_body s.hw i o op ps body c hp hc hcl hs⟩

/-! ## The commands of the units (R3, R427, R434, R439) -/

theorem metro_servedBy {o : Origin} {i : Instr}
    (h : (∃ b, i = .metroStatus o b) ∨ (∃ b, i = .metroRead o b) ∨ (∃ m, i = .registerRead o m) ∨
      (∃ m d, i = .openSession o m d) ∨ (∃ n d, i = .closeSession o n d) ∨ (∃ n, i = .sessionStatus o n) ∨
      (∃ g, i = .publicKeyRead o g) ∨ (∃ b r d, i = .calWrite o b r d) ∨ (∃ b, i = .calRead o b) ∨ i = .seal o) :
    ∃ op body c, ServedBy i o op body ∧ cmdInfo op = some c ∧ c.unit = .metro := by
  rcases h with ⟨b, rfl⟩ | ⟨b, rfl⟩ | ⟨m, rfl⟩ | ⟨m, d, rfl⟩ | ⟨n, d, rfl⟩ | ⟨n, rfl⟩ | ⟨g, rfl⟩ | ⟨b, r, d, rfl⟩ |
    ⟨b, rfl⟩ | rfl
  all_goals exact ⟨_, _, _, ⟨⟨_, rfl⟩, fun _ => rfl⟩, rfl, rfl⟩

theorem holdup_servedBy {o : Origin} {i : Instr}
    (h : (∃ a b d e f g, i = .chargerSet o a b d e f g) ∨ i = .chargerKeepalive o ∨ i = .chargerStatus o ∨
      i = .gaugeRead o ∨ i = .gaugeResetLearn o ∨ (∃ p, i = .gaugeTableLoad o p) ∨
      (∃ e v l u f, i = .backupSet o e v l u f) ∨ (∃ a, i = .enterIcehouse o a)) :
    ∃ op body c, ServedBy i o op body ∧ cmdInfo op = some c ∧ c.unit = .holdup := by
  rcases h with ⟨a, b, d, e, f, g, rfl⟩ | rfl | rfl | rfl | rfl | ⟨p, rfl⟩ | ⟨e, v, l, u, f, rfl⟩ | ⟨a, rfl⟩
  all_goals exact ⟨_, _, _, ⟨⟨_, rfl⟩, fun _ => rfl⟩, rfl, rfl⟩

/-- Settles O7: presence of the unit is judged before all that a command's own row does. -/
theorem absentUnitsAnswer : Obligations.AbsentUnitsAnswer := by
  refine ⟨fun s o i hi hu hs hcommit hboot => ?_, fun s o i hi hu hs hcommit hboot => ?_, rfl, rfl⟩
  · obtain ⟨op, body, c, hserved, hc, hunit⟩ := metro_servedBy hi
    exact hserved.completes_absent hc s (by simp [hunit, Hw.unitAbsent, hu]) hs hcommit hboot
  · obtain ⟨op, body, c, hserved, hc, hunit⟩ := holdup_servedBy hi
    exact hserved.completes_absent hc s (by simp [hunit, Hw.unitAbsent, hu]) hs hcommit hboot

end Sys2Proof.Machine
end

section
/-! SUPPORT. What the power path, the sequencer and the reactions to a fault leave alone: the mailboxes, the relay and the role on
the link, the event masks, the watchdog and the fault collector. One frame lemma an operation; a reply and a captured error are
read through them. -/

namespace Sys2Proof.Machine

/-- The parts of the hardware that requests, replies and captured errors stand in. -/
structure Desk where
  a : Mailbox
  v : Mailbox
  role : PrmRole
  relay : Option Relay
  mask : BitVec 64
  wdt : Wdt
  faults : Faults

def Hw.desk (h : Hw) : Desk :=
  { a := h.proto.a, v := h.proto.v, role := h.prm.role, relay := h.prm.relay, mask := h.evt.mask, wdt := h.wdt,
    faults := h.faults }

section
variable {g h : Hw} (e : g.desk = h.desk)
include e

theorem mbx_of_desk (o : Origin) : g.mbx o = h.mbx o := by
  cases o
  · exact congrArg Desk.a e
  · exact congrArg Desk.v e

theorem role_of_desk : g.prm.role = h.prm.role := congrArg Desk.role e
theorem relay_of_desk : g.prm.relay = h.prm.relay := congrArg Desk.relay e
theorem mask_of_desk : g.evt.mask = h.evt.mask := congrArg Desk.mask e
theorem wdt_of_desk : g.wdt = h.wdt := congrArg Desk.wdt e
theorem faults_of_desk : g.faults = h.faults := congrArg Desk.faults e

end

theorem foldl_desk {α : Type} (f : Hw → α → Hw) (H : ∀ h x, (f h x).desk = h.desk) (l : List α) (h : Hw) :
    (l.foldl f h).desk = h.desk := by
  induction l generalizing h with
  | nil => rfl
  | cons x l ih => exact (ih _).trans (H h x)

theorem ite_desk {p : Prop} [Decidable p] {a b : Hw} {d : Desk} (ha : a.desk = d) (hb : b.desk = d) :
    (if p then a else b).desk = d := by
  split <;> assumption

/-! ## Events, jobs, the accessory bus -/

@[simp] theorem Hw.modOut_desk (h : Hw) (k : Nat) (f : Output → Output) : (h.modOut k f).desk = h.desk := rfl
@[simp] theorem Hw.modPort_desk (h : Hw) (k : Nat) (f : Port → Port) : (h.modPort k f).desk = h.desk := rfl
@[simp] theorem Hw.modRail_desk (h : Hw) (k : Nat) (f : VpRail → VpRail) : (h.modRail k f).desk = h.desk := rfl
@[simp] theorem Hw.modPhase_desk (h : Hw) (k : Nat) (f : Phase → Phase) : (h.modPhase k f).desk = h.desk := rfl

@[simp] theorem Hw.wake_desk (h : Hw) : h.wake.desk = h.desk := by unfold Hw.wake; split <;> rfl

@[simp] theorem Hw.raise_desk (h : Hw) (k : Nat) : (h.raise k).desk = h.desk := by
  unfold Hw.raise
  split
  · rfl
  · exact h.wake_desk

@[simp] theorem Hw.raiseIf_desk (h : Hw) (c : Bool) (k : Nat) : (h.raiseIf c k).desk = h.desk := by
  unfold Hw.raiseIf; split <;> simp

@[simp] theorem Hw.endJob?_desk (h : Hw) (n : Option Nat) (st r : Nat) (d : List Byte) :
    (h.endJob? n st r d).desk = h.desk := by
  cases n <;> rfl

@[simp] theorem Hw.startRead_desk (h : Hw) : h.startRead.desk = h.desk := by unfold Hw.startRead; split <;> rfl

@[simp] theorem Hw.freeBus_desk (h : Hw) (p : Nat) : (h.freeBus p).desk = h.desk := by
  unfold Hw.freeBus
  split
  · exact Hw.startRead_desk _
  · rfl

/-! ## Turning off -/

@[simp] theorem Hw.turnOff_desk (h : Hw) (c : OffCause) (k : Nat) : (h.turnOff c k).desk = h.desk := by
  unfold Hw.turnOff
  exact ite_desk rfl (ite_desk (Hw.freeBus_desk _ _) (ite_desk rfl (ite_desk rfl rfl)))

@[simp] theorem Hw.turnOffAll_desk (h : Hw) (c : OffCause) : (h.turnOffAll c).desk = h.desk :=
  foldl_desk _ (fun h k => h.turnOff_desk c k) _ h

@[simp] theorem Hw.endMove_desk (h : Hw) (r : Nat) : (h.endMove r).desk = h.desk := by unfold Hw.endMove; split <;> rfl

@[simp] theorem Hw.govEnd_desk (h : Hw) : h.govEnd.desk = h.desk := rfl

@[simp] theorem Hw.evalPgood_desk (h : Hw) : h.evalPgood.desk = h.desk := h.raiseIf_desk _ _

@[simp] theorem Hw.pgoodLow_desk (h : Hw) : h.pgoodLow.desk = h.desk := h.raiseIf_desk _ _

@[simp] theorem Hw.hrstFalls_desk (h : Hw) : h.hrstFalls.desk = h.desk := by
  unfold Hw.hrstFalls
  exact ite_desk rfl rfl

@[simp] theorem Hw.markOff_desk (h : Hw) (c : OffCause) : (h.markOff c).desk = h.desk := rfl

/-! ## The reactions to an error -/

@[simp] theorem Hw.enterLatched_desk (h : Hw) (c : Nat) : (h.enterLatched c).desk = h.desk := by
  unfold Hw.enterLatched
  refine Eq.trans (b := (Hw.endJob? _ _ 0 3 []).desk) rfl ?_
  rw [Hw.endJob?_desk, Hw.endJob?_desk]
  split <;> rfl

@[simp] theorem Hw.safeState_desk (h : Hw) : h.safeState.desk = h.desk := by
  have hoff : ((((h.markOff .safeState).endMove 3).turnOffAll .safeState).govEnd.hrstFalls).desk = h.desk := by simp
  unfold Hw.safeState
  split
  · rfl
  dsimp only
  split
  · rw [Hw.evalPgood_desk, hoff]
  · rw [Hw.evalPgood_desk]
    exact (Hw.enterLatched_desk _ 12).trans hoff

@[simp] theorem Hw.askCoreReset_desk (h : Hw) (c : Nat) : (h.askCoreReset c).desk = h.desk := by
  unfold Hw.askCoreReset; split <;> rfl

@[simp] theorem Hw.react_desk (h : Hw) (r : Nat) : (h.react r).desk = h.desk := by
  unfold Hw.react
  split <;> split <;> simp

@[simp] theorem Hw.warn_desk (h : Hw) (src r : Nat) : (h.warn src r).desk = h.desk := by
  unfold Hw.warn
  exact ite_desk rfl (ite_desk (h.raise_desk 54) (ite_desk (h.raise_desk 55) rfl))

/-! ## Capture and report of an error -/

theorem Faults.note_cap (f : Faults) (c : Capture) (r : Nat) (d : List Byte) (clk : Nat) :
    (f.note c r d clk).cap = f.cap := by
  unfold Faults.note
  dsimp only
  split
  · simp only [apply_ite Faults.cap, ite_self]
  · split <;> simp only [apply_ite Faults.cap, ite_self]

/-- The hardware after an error, but for the collector's own state. -/
def Desk.withFaults (d : Desk) (f : Faults) : Desk := { d with faults := f }

theorem Hw.setFaults_desk (h : Hw) (f : Faults) : ({ h with faults := f } : Hw).desk = h.desk.withFaults f := rfl

theorem Hw.capture_desk (h : Hw) (c : Capture) : ∃ f, (h.capture c).desk = h.desk.withFaults f := by
  unfold Hw.capture
  split
  · exact ⟨h.faults, rfl⟩
  split
  · exact ⟨_, (Hw.raise_desk _ 48).trans (h.setFaults_desk _)⟩
  · exact ⟨_, h.setFaults_desk _⟩

theorem Hw.collect_desk (h : Hw) (src addr master access : Nat) (d : List Byte) :
    ∃ f, (h.collect src addr master access d).desk = h.desk.withFaults f := by
  unfold Hw.collect
  dsimp only
  obtain ⟨f, hf⟩ := h.capture_desk
    { source := src, addr := addr, master := master, access := access, time := h.now, micros := h.micros }
  exact ⟨_, by rw [Hw.warn_desk, Hw.setFaults_desk, hf]; rfl⟩

theorem Hw.report_desk (h : Hw) (src addr master access : Nat) (d : List Byte) :
    ∃ f, (h.report src addr master access d).desk = h.desk.withFaults f := by
  unfold Hw.report
  rw [Hw.react_desk]
  exact h.collect_desk src addr master access d

section
variable (h : Hw) (src addr master access : Nat) (d : List Byte)

@[simp] theorem Hw.report_mbx (o : Origin) : (h.report src addr master access d).mbx o = h.mbx o := by
  obtain ⟨f, hf⟩ := h.report_desk src addr master access d
  cases o
  · exact congrArg Desk.a hf
  · exact congrArg Desk.v hf

@[simp] theorem Hw.report_role : (h.report src addr master access d).prm.role = h.prm.role :=
  (h.report_desk src addr master access d).elim fun _ hf => congrArg Desk.role hf

@[simp] theorem Hw.report_relay : (h.report src addr master access d).prm.relay = h.prm.relay :=
  (h.report_desk src addr master access d).elim fun _ hf => congrArg Desk.relay hf

@[simp] theorem Hw.report_mask : (h.report src addr master access d).evt.mask = h.evt.mask :=
  (h.report_desk src addr master access d).elim fun _ hf => congrArg Desk.mask hf

@[simp] theorem Hw.report_wdt : (h.report src addr master access d).wdt = h.wdt :=
  (h.report_desk src addr master access d).elim fun _ hf => congrArg Desk.wdt hf

/-- The first error since the capture was emptied is captured as it is reported (R470). -/
theorem Hw.report_cap (hcap : h.faults.cap = none) (hsrc : src ≠ 0x93) :
    (h.report src addr master access d).faults.cap =
      some { source := src, addr := addr, master := master, access := access, time := h.now, micros := h.micros } := by
  unfold Hw.report
  rw [faults_of_desk (Hw.react_desk _ _)]
  unfold Hw.collect
  dsimp only
  rw [faults_of_desk (Hw.warn_desk _ _ _)]
  dsimp only
  rw [Faults.note_cap]
  unfold Hw.capture
  rw [if_neg hsrc, hcap]
  exact congrArg Faults.cap (faults_of_desk (Hw.raise_desk _ 48))

end

/-! ## Errors whose reaction is LOG or WARN leave the outputs as they are (R474) -/

@[simp] theorem Hw.wake_outs (h : Hw) : h.wake.outs = h.outs := by unfold Hw.wake; split <;> rfl

@[simp] theorem Hw.raise_outs (h : Hw) (k : Nat) : (h.raise k).outs = h.outs := by
  unfold Hw.raise
  split
  · rfl
  · exact h.wake_outs

@[simp] theorem Hw.capture_outs (h : Hw) (c : Capture) : (h.capture c).outs = h.outs := by
  unfold Hw.capture
  split
  · rfl
  split
  · exact Hw.raise_outs _ 48
  · rfl

@[simp] theorem Hw.warn_outs (h : Hw) (src r : Nat) : (h.warn src r).outs = h.outs := by
  unfold Hw.warn
  simp only [apply_ite Hw.outs, Hw.raise_outs, ite_self]

theorem Hw.react_of_le_one (h : Hw) {r : Nat} (hr : r ≤ 1) : h.react r = h := by
  unfold Hw.react
  rw [if_neg (show ¬ 2 ≤ r by omega), if_neg (show ¬ 3 ≤ r by omega)]

theorem Hw.report_outs (h : Hw) (src addr master access : Nat) (d : List Byte) (hr : h.reaction src ≤ 1) :
    (h.report src addr master access d).outs = h.outs := by
  unfold Hw.report
  rw [Hw.react_of_le_one _ hr]
  unfold Hw.collect
  simp

end Sys2Proof.Machine
end

section
/-! SUPPORT. The layout of a reply (R406), and the checks of a packet before its command, one equation an outcome (R404, R407,
R409, R413). -/

namespace Sys2Proof.Machine

/-! ## The bytes of a reply -/

theorem be_one (v : Nat) : be 1 v = [BitVec.ofNat 8 v] := by simp [be]

/-- Status, TAG, MODULE and LEN (R406). -/
theorem replyBytes_take_four (st : Nat) (tag md : Byte) (d : List Byte) :
    (replyBytes st tag md d).take 4 = [BitVec.ofNat 8 st, tag, md, BitVec.ofNat 8 d.length] := by
  simp [replyBytes, be_one]

theorem replyBytes_data (st : Nat) (tag md : Byte) (d : List Byte) : slice (replyBytes st tag md d) 4 d.length = d := by
  simp [replyBytes, be_one, slice]

theorem replyBytes_crc (st : Nat) (tag md : Byte) (d : List Byte) :
    (replyBytes st tag md d).drop (4 + d.length) =
      be 2 (crc16 ((replyBytes st tag md d).take (4 + d.length))).toNat := by
  have hlen : (be 1 st ++ [tag, md] ++ be 1 d.length ++ d).length = 4 + d.length := by simp; omega
  unfold replyBytes
  rw [List.drop_left' hlen, List.take_left' hlen]

/-! ## What a reply is made from -/

theorem Replied.of_same {g h t : Hw} {o : Origin} {st : Nat} {d : List Byte} (hr : g.relayed o = h.relayed o)
    (hp : g.packet o = h.packet o) (hg : Replied g t o st d) : Replied h t o st d := by
  unfold Replied at *
  rwa [← hr, ← hp]

theorem Hw.relayed_congr {g h : Hw} {o : Origin} (hm : (g.mbx o).inProc = (h.mbx o).inProc)
    (hrole : g.prm.role = h.prm.role) (hrelay : g.prm.relay = h.prm.relay) : g.relayed o = h.relayed o := by
  unfold Hw.relayed
  rw [hm, hrole, hrelay]

theorem Hw.packet_congr {g h : Hw} {o : Origin} (hm : (g.mbx o).inProc = (h.mbx o).inProc)
    (hrole : g.prm.role = h.prm.role) (hrelay : g.prm.relay = h.prm.relay) : g.packet o = h.packet o := by
  unfold Hw.packet
  rw [hm, hrelay, Hw.relayed_congr hm hrole hrelay]

/-- A reply is the same whatever else has changed since the packet came. -/
theorem Hw.respond_replied_of {g h : Hw} {o : Origin} (hm : (g.mbx o).inProc = (h.mbx o).inProc)
    (hrole : g.prm.role = h.prm.role) (hrelay : g.prm.relay = h.prm.relay) (st : Nat) (d : List Byte) :
    Replied h (g.respond o st d) o st d :=
  (g.respond_replied o st d).of_same (Hw.relayed_congr hm hrole hrelay) (Hw.packet_congr hm hrole hrelay)

theorem Hw.report_respond_replied (h : Hw) (src addr master access : Nat) (e : List Byte) (o : Origin) (st : Nat)
    (d : List Byte) : Replied h ((h.report src addr master access e).respond o st d) o st d :=
  Hw.respond_replied_of (by simp) (by simp) (by simp) st d

@[simp] theorem Hw.respond_mbx_other (h : Hw) (o : Origin) (st : Nat) (d : List Byte) :
    (h.respond o st d).mbx (Origin.other o) = h.mbx (Origin.other o) := by
  unfold Hw.respond
  dsimp only
  split
  · cases o <;> rfl
  · simp

/-! ## Checkers that nothing inverts -/

theorem Faults.take_quiet (f : Faults) (id : Nat) (hq : (f.take id).2.1 = false) : (f.take id).1 = f := by
  unfold Faults.take at *
  split <;> simp_all

theorem Hw.take_quiet (h : Hw) (id : Nat) (hq : h.hit id = false) : h.take id = h := by
  unfold Hw.take
  rw [Faults.take_quiet h.faults id hq]

@[simp] theorem Hw.take_mbx (h : Hw) (id : Nat) (o : Origin) : (h.take id).mbx o = h.mbx o := by cases o <;> rfl
@[simp] theorem Hw.take_prm (h : Hw) (id : Nat) : (h.take id).prm = h.prm := rfl

@[simp] theorem Hw.take_cap (h : Hw) (id : Nat) : (h.take id).faults.cap = h.faults.cap := by
  unfold Hw.take Faults.take
  dsimp only
  split <;> rfl

/-! ## Before the command is known (R407) -/

section
variable (h : Hw) (o : Origin) (pkt : List Byte)

/-- A submission whose tag did not match holds no packet of its own (R409). -/
theorem Hw.badPacket_of_short (hs : pkt.length < 4) :
    h.badPacket o pkt = (h.report 0x41 ((pkt.getD 0 0).toNat * 65536 + 1) (masterOf o) 3 []).respond o stBadCrc [] := by
  unfold Hw.badPacket
  rw [if_pos hs]

theorem Hw.badPacket_of_long (hs : 4 ≤ pkt.length) (hl : 250 < (pkt.getD 3 0).toNat) :
    h.badPacket o pkt = h.respond o stBadLength [] := by
  unfold Hw.badPacket
  rw [if_neg (by omega)]
  exact if_pos hl

/-- A wrong CRC-16, found or injected, is captured at its offset. -/
theorem Hw.badPacket_of_crc (hs : 4 ≤ pkt.length) (hl : (pkt.getD 3 0).toNat ≤ 250)
    (hc : slice pkt (4 + (pkt.getD 3 0).toNat) 2 ≠ be 2 (crc16 (pkt.take (4 + (pkt.getD 3 0).toNat))).toNat) :
    ∃ e, h.badPacket o pkt = ((h.take 0x0A).report 0x41
      ((pkt.getD 0 0).toNat * 65536 + (4 + (pkt.getD 3 0).toNat)) (masterOf o) 3 e).respond o stBadCrc [] := by
  unfold Hw.badPacket
  rw [if_neg (by omega), if_neg (by omega)]
  dsimp only
  rw [if_pos (Bool.or_eq_true_iff.mpr (Or.inr (bne_iff_ne.mpr hc)))]
  exact ⟨_, rfl⟩

section
variable (hs : 4 ≤ pkt.length) (hl : (pkt.getD 3 0).toNat ≤ 250)
  (hc : slice pkt (4 + (pkt.getD 3 0).toNat) 2 = be 2 (crc16 (pkt.take (4 + (pkt.getD 3 0).toNat))).toNat)
  (hq : h.hit 0x0A = false)
include hs hl hc hq

theorem Hw.badPacket_of_unknown (hop : cmdInfo (pkt.getD 0 0).toNat = none) :
    h.badPacket o pkt = h.respond o stBadOpcode [] := by
  unfold Hw.badPacket
  rw [if_neg (by omega), if_neg (by omega)]
  dsimp only
  rw [if_neg (by rw [hq, bne_eq_false_iff_eq.mpr hc]; decide), h.take_quiet 0x0A hq, hop]

/-- A packet of right length and CRC and of a known opcode is judged by its parameter length and its MODULE. -/
theorem Hw.badPacket_of_known (c : CmdInfo) (hop : cmdInfo (pkt.getD 0 0).toNat = some c) :
    h.badPacket o pkt =
      if (pkt.getD 3 0).toNat ≠ c.lenIn pkt then h.respond o stBadLength []
      else if (pkt.getD 2 0).toNat = 0 then h
      else if h.prm.role != .lead || 16 ≤ (pkt.getD 2 0).toNat || !h.prm.roster.getLsbD (pkt.getD 2 0).toNat then
        h.respond o stBadModule []
      else if h.inLimp then h.respond o stWrongState []
      else h := by
  unfold Hw.badPacket
  rw [if_neg (by omega), if_neg (by omega)]
  dsimp only
  rw [if_neg (by rw [hq, bne_eq_false_iff_eq.mpr hc]; decide), h.take_quiet 0x0A hq, hop]

end

end

/-! ## Judging (R407, R410, R412) -/

/-- The packet in process at an address counts as judged. -/
def Hw.markJudged (h : Hw) (o : Origin) : Hw := h.modMbx o (fun x => { x with judged := true })

@[simp] theorem Hw.markJudged_mbx_same (h : Hw) (o : Origin) :
    (h.markJudged o).mbx o = { h.mbx o with judged := true } := Hw.modMbx_mbx_same h o _

@[simp] theorem Hw.markJudged_prm (h : Hw) (o : Origin) : (h.markJudged o).prm = h.prm := Hw.modMbx_prm h o _

@[simp] theorem Hw.markJudged_inLimp (h : Hw) (o : Origin) : (h.markJudged o).inLimp = h.inLimp := by cases o <;> rfl

/-- A reply that judging makes is one to the packet that came. -/
theorem Hw.markJudged_replied {h t : Hw} {o : Origin} {st : Nat} {d : List Byte} (ht : Replied (h.markJudged o) t o st d) :
    Replied h t o st d :=
  ht.of_same (Hw.relayed_congr (by simp) (by simp) (by simp)) (Hw.packet_congr (by simp) (by simp) (by simp))

section
variable {h : Hw} {o : Origin} {p : Nat × List Byte} (hp : (h.mbx o).inProc = some p) (hj : (h.mbx o).judged = false)
  (hserves : h.serves = true) (hturn : h.turn o = true)
include hp hj hserves hturn

/-- A tag that did not match is judged whatever else holds (R409). -/
theorem Hw.judge_of_short (hs : p.2.length < 4) : h.judge o = (h.markJudged o).badPacket o p.2 := by
  unfold Hw.judge
  simp [hp, hj, hserves, hturn, hs, Hw.markJudged]

/-- With nothing of R413 in the way the packet meets the checks of R407. -/
theorem Hw.judge_of_quiet (hcommit : h.pwr.commit = none) (hboot : h.bootWork = false) :
    h.judge o = (h.markJudged o).badPacket o p.2 := by
  have hboot' : (h.markJudged o).bootWork = false := by
    rw [← hboot]
    cases o <;> rfl
  unfold Hw.judge
  unfold Hw.markJudged at *
  simp [hp, hj, hserves, hturn, hcommit, hboot']

/-- BAD_CRC of a tag that did not match, captured with the offset of TAG. -/
theorem Hw.judge_tagMismatch (hs : p.2.length < 4) :
    Replied h (h.judge o) o 0x10 [] ∧
    (h.faults.cap = none → (h.judge o).faults.cap.map (fun e => (e.source, e.addr, e.master, e.access)) =
      some (0x41, (p.2.getD 0 0).toNat * 65536 + 1, masterOf o, 3)) := by
  rw [Hw.judge_of_short hp hj hserves hturn hs, Hw.badPacket_of_short _ _ _ hs]
  refine ⟨Hw.markJudged_replied (Hw.report_respond_replied ..), fun hcap => ?_⟩
  rw [Hw.respond_faults, Hw.report_cap _ _ _ _ _ _ (by simpa [Hw.markJudged] using hcap) (by decide)]
  rfl

section
variable (hcommit : h.pwr.commit = none) (hboot : h.bootWork = false) (h4 : 4 ≤ p.2.length)
include hcommit hboot h4

theorem Hw.judge_tooLong (hl : 250 < (p.2.getD 3 0).toNat) : h.judge o = (h.markJudged o).respond o 0x11 [] := by
  rw [Hw.judge_of_quiet hp hj hserves hturn hcommit hboot, Hw.badPacket_of_long _ _ _ h4 hl]
  rfl

theorem Hw.judge_badCrc (hl : (p.2.getD 3 0).toNat ≤ 250)
    (hc : slice p.2 (4 + (p.2.getD 3 0).toNat) 2 ≠ be 2 (crc16 (p.2.take (4 + (p.2.getD 3 0).toNat))).toNat) :
    Replied h (h.judge o) o 0x10 [] ∧
    (h.faults.cap = none → (h.judge o).faults.cap.map (fun e => (e.source, e.addr, e.master, e.access)) =
      some (0x41, (p.2.getD 0 0).toNat * 65536 + (4 + (p.2.getD 3 0).toNat), masterOf o, 3)) := by
  obtain ⟨e, he⟩ := Hw.badPacket_of_crc (h.markJudged o) o p.2 h4 hl hc
  rw [Hw.judge_of_quiet hp hj hserves hturn hcommit hboot, he]
  refine ⟨Hw.markJudged_replied (Hw.respond_replied_of (by simp) (by simp) (by simp) _ _), fun hcap => ?_⟩
  rw [Hw.respond_faults, Hw.report_cap _ _ _ _ _ _ (by simpa [Hw.markJudged] using hcap) (by decide)]
  rfl

section
variable (hl : (p.2.getD 3 0).toNat ≤ 250)
  (hc : slice p.2 (4 + (p.2.getD 3 0).toNat) 2 = be 2 (crc16 (p.2.take (4 + (p.2.getD 3 0).toNat))).toNat)
  (hq : h.hit 0x0A = false)
include hl hc hq

theorem Hw.judge_unknown (hop : cmdInfo (p.2.getD 0 0).toNat = none) :
    Replied h (h.judge o) o 0x12 [] ∧ (h.judge o).outs = h.outs := by
  rw [Hw.judge_of_quiet hp hj hserves hturn hcommit hboot,
    Hw.badPacket_of_unknown _ _ _ h4 hl hc (by simpa [Hw.markJudged, Hw.hit] using hq) hop]
  exact ⟨Hw.markJudged_replied (Hw.respond_replied ..), by simp [Hw.markJudged]⟩

/-- What the parameter length and MODULE of a known opcode decide. -/
theorem Hw.judge_known (c : CmdInfo) (hop : cmdInfo (p.2.getD 0 0).toNat = some c) :
    h.judge o =
      if (p.2.getD 3 0).toNat ≠ c.lenIn p.2 then (h.markJudged o).respond o stBadLength []
      else if (p.2.getD 2 0).toNat = 0 then h.markJudged o
      else if h.prm.role != .lead || 16 ≤ (p.2.getD 2 0).toNat || !h.prm.roster.getLsbD (p.2.getD 2 0).toNat then
        (h.markJudged o).respond o stBadModule []
      else if h.inLimp then (h.markJudged o).respond o stWrongState []
      else h.markJudged o := by
  rw [Hw.judge_of_quiet hp hj hserves hturn hcommit hboot,
    Hw.badPacket_of_known _ _ _ h4 hl hc (by simpa [Hw.markJudged, Hw.hit] using hq) c hop,
    Hw.markJudged_prm, Hw.markJudged_inLimp]

end
end

end

/-! ## Serving a packet that another row spells, or in a module that is not held in number -/

/-- A row that the packet does not spell leaves it as judged (DESIGN CHOICE, log 2). -/
theorem Hw.serve_of_not_spelled (h : Hw) (i : Instr) (o : Origin) (op : Nat) (ps : List Byte) (body : Hw → Hw)
    (hp : packetOf i = some (o, op, ps)) (hs : (h.judge o).spelled o op ps = false) : h.serve i body = h.judge o := by
  unfold Hw.serve
  rw [hp]
  dsimp only
  split
  · rfl
  · rw [if_pos (by simp [hs])]

/-- An inconsistency is captured with the opcode as address (R424; DESIGN CHOICE, log 44). -/
theorem Hw.internalError_captured (h : Hw) (o : Origin) (op : Nat) :
    Replied h (h.internalError o op) o 0xFF [] ∧
      (h.faults.cap = none → (h.internalError o op).faults.cap.map (fun e => (e.source, e.addr, e.master, e.access)) =
        some (0x33, op * 65536, masterOf o, 3)) := by
  refine ⟨Hw.report_respond_replied .., fun hcap => ?_⟩
  unfold Hw.internalError
  rw [Hw.respond_faults, Hw.report_cap _ _ _ _ _ _ hcap (by decide)]
  rfl

/-- Settles O11: one equation an outcome of judging, and the frame of a reply. -/
theorem repliesKeepTheirLayout : Obligations.RepliesKeepTheirLayout := by
  refine ⟨fun st g m d => ⟨replyBytes_length st g m d, replyBytes_take_four st g m d, replyBytes_data st g m d,
      replyBytes_crc st g m d⟩,
    fun h o st d => ⟨h.respond_replied o st d, by simp, by simp, by simp, by simp, by simp, by simp, by simp⟩,
    fun h o p op len md m hp hj hserves hturn hcommit hboot h4 hop hmd hlen hm => ?_,
    fun h o p hp hj hserves hturn hs => Hw.judge_tagMismatch hp hj hserves hturn hs,
    fun h i o op ps body hp hs => h.serve_of_not_spelled i o op ps body hp hs,
    fun h i o op ps body c hp hc hs hcommit hboot hunit hcls hlimp hshape => ?_⟩
  · subst hop hmd hlen hm
    refine ⟨fun hl => Hw.judge_tooLong hp hj hserves hturn hcommit hboot h4 hl,
      fun hl hc => Hw.judge_badCrc hp hj hserves hturn hcommit hboot h4 hl hc, fun hl hc hq =>
      ⟨fun hop => Hw.judge_unknown hp hj hserves hturn hcommit hboot h4 hl hc hq hop, fun c hop => ?_⟩⟩
    rw [Hw.judge_known hp hj hserves hturn hcommit hboot h4 hl hc hq c hop]
    refine ⟨fun hne => ?_, fun heq hmd hno => ?_, fun heq hyes => ?_⟩
    · rw [if_pos hne]
      exact ⟨Hw.markJudged_replied (Hw.respond_replied ..), by simp [Hw.markJudged]⟩
    · rw [if_neg (not_not_intro heq), if_neg hmd, if_pos (by simpa [or_assoc] using hno)]
      exact ⟨Hw.markJudged_replied (Hw.respond_replied ..), by simp [Hw.markJudged]⟩
    · have hpass : ∀ g : Hw, g = h.markJudged o → (g.mbx o).judged = true ∧ (g.mbx o).ready = (h.mbx o).ready ∧
          g.outs = h.outs ∧ g.seq = h.seq ∧ g.life = h.life := by
        rintro g rfl
        exact ⟨by simp, by simp, by simp [Hw.markJudged], by simp [Hw.markJudged], by simp [Hw.markJudged]⟩
      apply hpass
      rw [if_neg (not_not_intro heq)]
      rcases hyes with hmd | ⟨hrole, hlt, hroster, hlimp⟩
      · rw [if_pos hmd]
      · split
        · rfl
        rw [if_neg (by rw [hrole, hroster, decide_eq_false (Nat.not_le.mpr hlt)]; decide), if_neg (by simp [hlimp])]
  · rw [Hw.serve_reached h i o op ps body c hp hc hs]
    simpa [hcommit, hboot, hunit, hcls, hlimp, hshape] using h.internalError_captured o op

end Sys2Proof.Machine
end

section
/-! SUPPORT. Where the parts of a reply lie in its data (R406, R415, R426, R429–R432, R436, R440, R445, R446, R448). -/

namespace Sys2Proof.Machine

/-! ## Lengths of the parts -/

@[simp] theorem beInt_length (n : Nat) (v : Int) : (beInt n v).length = n := be_length n _

@[simp] theorem zeros_length (n : Nat) : (zeros n).length = n := List.length_replicate

@[simp] theorem fit_length (n : Nat) (d : Byte) (bs : List Byte) : (fit n d bs).length = n := by
  simp [fit]
  omega

/-! ## Bytes from an offset -/

theorem slice_append_left {a : List Byte} (b : List Byte) {off n : Nat} (h : off + n ≤ a.length) :
    slice (a ++ b) off n = slice a off n := by
  unfold slice
  rw [List.drop_append_of_le_length (by omega), List.take_append_of_le_length (by simp; omega)]

theorem slice_append_right (a b : List Byte) (off n : Nat) : slice (a ++ b) (a.length + off) n = slice b off n := by
  unfold slice
  rw [← List.drop_drop, List.drop_left]

theorem slice_self (a : List Byte) : slice a 0 a.length = a := by simp [slice]

/-- In a row of blocks of one length, bytes within a block lie in that block. -/
theorem slice_flatMap_range {f : Nat → List Byte} {m : Nat} (hf : ∀ i, (f i).length = m) {n p : Nat} (hp : p < n)
    {off k : Nat}
    (hk : off + k ≤ m) : slice ((List.range n).flatMap f) (m * p + off) k = slice (f p) off k := by
  have hlen : ∀ n, ((List.range n).flatMap f).length = m * n := fun n => by
    simp [List.length_flatMap, hf, Nat.mul_comm]
  induction n with
  | zero => omega
  | succ n ih =>
    rw [List.range_succ, List.flatMap_append, List.flatMap_singleton]
    rcases Nat.lt_or_ge p n with hlt | hge
    · have hle : m * p + m ≤ m * n := by rw [← Nat.mul_succ]; exact Nat.mul_le_mul_left m hlt
      rw [slice_append_left _ (by rw [hlen]; omega), ih hlt]
    · obtain rfl : p = n := by omega
      rw [← hlen p, slice_append_right]

/-! ## Parts that follow each other without a gap -/

/-- Fields follow each other from an offset to an end. -/
def Tiles : Nat → List (Nat × List Byte) → Nat → Prop
  | a, [], e => a = e
  | a, f :: fs, e => f.1 = a ∧ Tiles (a + f.2.length) fs e

theorem slice_of_tiles (fs : List (Nat × List Byte)) (pre : List Byte) (a e : Nat) (ht : Tiles (a + pre.length) fs e) :
    a + (pre ++ fs.flatMap Prod.snd).length = e ∧
      ∀ f ∈ fs, slice (pre ++ fs.flatMap Prod.snd) (f.1 - a) f.2.length = f.2 := by
  induction fs generalizing pre with
  | nil => simpa [Tiles] using ht
  | cons f fs ih =>
    obtain ⟨hf, hrest⟩ := ht
    have hassoc : pre ++ (f :: fs).flatMap Prod.snd = pre ++ f.2 ++ fs.flatMap Prod.snd := by simp
    obtain ⟨hlen, hslices⟩ := ih (pre ++ f.2) (by simpa [Nat.add_assoc] using hrest)
    rw [hassoc]
    refine ⟨hlen, List.forall_mem_cons.mpr ⟨?_, hslices⟩⟩
    rw [hf, Nat.add_sub_cancel_left, slice_append_left _ (by simp)]
    exact (slice_append_right pre f.2 0 _).trans (slice_self f.2)

/-- Data are laid out as their parts where these fill them without a gap. -/
theorem laidOut_of_tiles {data : List Byte} {len : Nat} {fs : List (Nat × List Byte)} (hd : data = fs.flatMap Prod.snd)
    (ht : Tiles 4 fs (4 + len)) : LaidOut data len fs := by
  obtain ⟨hlen, hslices⟩ := slice_of_tiles fs [] 4 _ ht
  rw [List.nil_append, ← hd] at hlen hslices
  exact ⟨by omega, hslices⟩

/-- A table that names some of the fields. -/
theorem LaidOut.sub {data : List Byte} {len : Nat} {fs gs : List (Nat × List Byte)} (h : LaidOut data len fs) (hs : gs ⊆ fs) :
    LaidOut data len gs :=
  ⟨h.1, fun f hf => h.2 f (hs hf)⟩

/-! ## Flags in a byte -/

theorem bits_two (a b : Bool) : bits [a, b] = b2n a + 2 * b2n b := by simp [bits]
theorem bits_three (a b c : Bool) : bits [a, b, c] = b2n a + 2 * b2n b + 4 * b2n c := by simp [bits]; omega
theorem bits_four (a b c d : Bool) : bits [a, b, c, d] = b2n a + 2 * b2n b + 4 * b2n c + 8 * b2n d := by simp [bits]; omega
theorem bits_seven (a b c d e f g : Bool) : bits [a, b, c, d, e, f, g] =
    b2n a + 2 * b2n b + 4 * b2n c + 8 * b2n d + 16 * b2n e + 32 * b2n f + 64 * b2n g := by
  simp [bits]; omega


/-! ## Rows that answer at once -/

/-- A row of another class than CONFIGURE whose effect is a reply with data reads. -/
theorem readsOut_of_row {c : Origin → Instr} {op : Nat} {body : Origin → Hw → Hw} {i : CmdInfo} {data : Hw → List Byte}
    (hs : ∀ o, ServedBy (c o) o op (body o)) (hc : cmdInfo op = some i) (hcl : i.cls ≠ .configure)
    (hb : ∀ o h, body o h = h.ok o (data h)) : ReadsOut c data := by
  intro s o hcar
  rw [← hb o s.hw]
  exact (hs o).completes hc hcl s hcar

/-- A row of another class than CONFIGURE whose effect is a status alone refuses. -/
theorem refusedWith_of_row {c : Origin → Instr} {op : Nat} {body : Origin → Hw → Hw} {i : CmdInfo} {st : Nat}
    (hs : ∀ o, ServedBy (c o) o op (body o)) (hc : cmdInfo op = some i) (hcl : i.cls ≠ .configure)
    (hb : ∀ o h, body o h = h.respond o st []) : RefusedWith c st := by
  intro s o hcar
  rw [← hb o s.hw]
  exact (hs o).completes hc hcl s hcar

/-- One row in one state. -/
theorem completes_of_row {c : Instr} {o : Origin} {op : Nat} {body : Hw → Hw} {i : CmdInfo} {s : State} {t : Hw}
    (hs : ServedBy c o op body) (hc : cmdInfo op = some i) (hcl : i.cls ≠ .configure) (hcar : s.hw.carries c = true)
    (hb : body s.hw = t) : Completes c s (fun u => u = t) := by
  subst hb
  exact hs.completes hc hcl s hcar

end Sys2Proof.Machine
end

section
/-! SUPPORT. The replies of the reading commands, and the settlement of their statement. -/

namespace Sys2Proof.Machine

/-! ## Tables of which the statements name parts -/

/-- The registers from 0x0000 on, as IDENT and SEQ_STATUS take them over (R425). -/
def Hw.lowFields (h : Hw) : List (Nat × List Byte) :=
  [(0x00, h.idRegs), (0x08, be 4 h.caps), (0x0C, be 1 h.straps.code), (0x0D, be 1 h.seating), (0x0E, be 1 h.epseat),
    (0x0F, be 1 h.holdupReg), (0x10, be 2 h.governorReg), (0x12, (List.range 8).flatMap (fun p => be 1 (h.phase p).code)),
    (0x1A, (List.range 4).flatMap (fun k => be 2 (h.vclReg k))),
    (0x22, (List.range 8).flatMap (fun k => be 1 (h.railstat (4 + k)))), (0x2A, be 2 h.seqReg),
    (0x2C, be 3 h.railgood.toNat), (0x2F, be 1 h.seq.cause), (0x30, be 2 h.promReg), (0x32, be 2 h.prm.roster.toNat),
    (0x34, be 1 h.cabReg), (0x35, be 2 h.metrostat), (0x37, be 1 h.sessReg), (0x38, be 4 h.log.lastSeq), (0x3C, be 4 h.ackSeq)]

@[simp] theorem Hw.idRegs_length (h : Hw) : h.idRegs.length = 8 := by simp [Hw.idRegs]

theorem Hw.lowRegs_slice (h : Hw) {a : Nat} {bs : List Byte} (hf : (a, bs) ∈ h.lowFields) :
    slice h.lowRegs a bs.length = bs := by
  have hd : h.lowRegs = h.lowFields.flatMap Prod.snd := by
    unfold Hw.lowRegs Hw.lowFields
    simp only [List.flatMap_cons, List.flatMap_nil, List.append_nil, List.append_assoc]
  have ht : Tiles 0 h.lowFields 0x40 := by simp [Hw.lowFields, Tiles]
  rw [hd]
  exact (slice_of_tiles h.lowFields [] 0 0x40 ht).2 _ hf

theorem Hw.lowRegs_take (h : Hw) : h.lowRegs.take 8 = h.idRegs := by
  simpa [slice] using h.lowRegs_slice (a := 0) (bs := h.idRegs) (by simp [Hw.lowFields])

theorem Hw.lowRegs_seqReg (h : Hw) : slice h.lowRegs 0x2A 2 = be 2 h.seqReg := by
  simpa using h.lowRegs_slice (a := 0x2A) (bs := be 2 h.seqReg) (by simp [Hw.lowFields])

theorem Hw.lowRegs_railgood (h : Hw) : slice h.lowRegs 0x2C 3 = be 3 h.railgood.toNat := by
  simpa using h.lowRegs_slice (a := 0x2C) (bs := be 3 h.railgood.toNat) (by simp [Hw.lowFields])

theorem Hw.lowRegs_cause (h : Hw) : slice h.lowRegs 0x2F 1 = be 1 h.seq.cause := by
  simpa using h.lowRegs_slice (a := 0x2F) (bs := be 1 h.seq.cause) (by simp [Hw.lowFields])

/-- The whole table of RAIL_GET (R429). -/
theorem Hw.railData_laidOut (h : Hw) (k : Nat) : LaidOut (h.railData k) 20 [(4, be 1 k), (5, be 1 (h.railState k)),
    (6, be 2 (h.target k)), (8, be 2 (h.cfg k).vSet), (10, be 2 (if (h.out k).on then h.refNow k else h.target k)),
    (12, be 1 (h.railFlags k)), (13, be 1 ((h.out k).sup.code + 4 * b2n (h.out k).good)), (14, be 1 (h.cfg k).prio),
    (15, be 1 (h.cfg k).safe.code), (16, be 1 (h.out k).uv), (17, be 1 (h.out k).ov), (18, be 1 (h.out k).filt),
    (19, be 1 (if isVp k then 0 else (h.cfg k).ripple)), (20, be 2 h.vcl.ok), (22, be 2 h.vcl.bad)] :=
  laidOut_of_tiles (by simp [Hw.railData]) (by simp [Tiles])

/-- The whole table of SESSION_STATUS of a slot that is not free (R432). -/
theorem Hw.slotData_laidOut (h : Hw) (n : Nat) (hst : (h.slot n).st ≠ .free) : 
  LaidOut (h.slotData n) 74 [(4, be 1 n), (5, be 1 (h.slot n).st.code), 
    (6, be 1 (b2n (h.slot n).startPending + 2 * b2n (h.slot n).closePending)), (7, be 1 (h.slot n).reason),
    (8, be 2 (h.slot n).mask.toNat), (10, fit 16 0 (h.slot n).sid), (26, be 8 (h.slot n).tStart.toNat),
    (34, be 8 (h.slot n).impStart), (42, be 8 (h.slot n).expStart), (50, be 4 (if (h.slot n).open? then 0 else (h.slot n).seq)),
    (54, be 8 (if (h.slot n).startPending then 0 else
      (if (h.slot n).open? && !(h.slot n).captured then h.regSum (h.slot n).mask (·.imp) else (h.slot n).impStop) -
        (h.slot n).impStart)),
    (62, be 8 (if (h.slot n).startPending then 0 else
      (if (h.slot n).open? && !(h.slot n).captured then h.regSum (h.slot n).mask (·.exp) else (h.slot n).expStop) -
        (h.slot n).expStart)),
    (70, be 4 h.recordsLost), (74, be 4 (h.slot n).metro.toNat)] := by
  refine laidOut_of_tiles ?_ (by simp [Tiles])
  unfold Hw.slotData
  dsimp only
  rw [if_neg (by simpa using hst)]
  simp


/-- The whole table of GAUGE_READ (R436). -/
theorem Hw.gaugeData_laidOut (h : Hw) : LaidOut h.gaugeData 20
    [(4, be 2 (min 10000 (h.gauge.soc / 100000))), (6, be 2 (min 65535 (h.gauge.u / 100000))),
    (8, be 2 (h.gauge.fcc * h.gauge.soc / 1000000000)), (10, be 2 h.gauge.fcc), (12, be 2 h.image.designCap),
    (14, be 2 (min 65535 h.gauge.cycles)), (16, be 2 (h.resOf h.gauge.resBand)), (18, be 2 h.timeToEmpty),
    (20, be 2 (min 65535 ((h.clk - h.gauge.refAt) / 3600000000))),
    (22, be 1 (if h.gauge.active.isSome then 2 else h.image.chem.code)),
    (23, be 1 (b2n h.gauge.noRest + 2 * b2n h.gauge.learning))] :=
  laidOut_of_tiles (by simp [Hw.gaugeData, Hw.remaining, bits_two, hourUs]) (by simp [Tiles])

/-- A condition that a phase or an output of POOL_STATUS shows lies in its block of the table (R430). -/
theorem Hw.poolData_phase (h : Hw) {p : Nat} (hp : p < 8) : h.poolData.length = 104 ∧ slice h.poolData (6 * p) 2 =
    be 1 (h.phase p).code ++ be 1 (if (h.phase p).cond = .oos then (h.phase p).oosReason else 0) := by
  refine ⟨by simp [Hw.poolData, List.length_flatMap], ?_⟩
  unfold Hw.poolData
  rw [slice_append_left _ (by simp [List.length_flatMap]; omega)]
  refine (slice_flatMap_range (off := 0) (k := 2) (m := 6) (fun i => by simp) hp (by decide)).trans ?_
  rw [slice_append_left _ (by simp)]
  simp [slice]

theorem Hw.poolData_rail (h : Hw) {k : Nat} (hk : k < 4) : slice h.poolData (48 + 14 * k) 14 =
    be 1 (h.cfg k).minPh ++ be 1 (h.cfg k).maxPh ++ be 1 (h.pool.active k) ++ be 1 (h.pool.lent k) ++
      be 1 (b2n (h.rail k).degraded) ++ [0] ++ be 2 (h.rail k).add ++ be 2 (h.rail k).shed ++ be 2 (h.rail k).cancel ++
      be 2 (h.rail k).denied := by
  have hphases : ((List.range 8).flatMap fun p => be 1 (h.phase p).code ++
      be 1 (if (h.phase p).cond == .oos then (h.phase p).oosReason else 0) ++
        beInt 4 (Config.freeInt (h.free + p))).length = 48 := by simp [List.length_flatMap]
  unfold Hw.poolData
  rw [← hphases, slice_append_right]
  refine (slice_flatMap_range (off := 0) (k := 14) (m := 14) (fun i => by simp) hk (by decide)).trans ?_
  simp [slice]

/-- TELEM_READ knows the blocks of the outputs, the supplies and the converter alone (R431). -/
theorem Hw.telemBlock_none (h : Hw) {b : Byte} (hb : 18 ≤ b.toNat) (h40 : b ≠ 0x40) (h41 : b ≠ 0x41) :
    h.telemBlock b.toNat = none := by
  have hne : ∀ c : Byte, b ≠ c → b.toNat ≠ c.toNat := fun c hc hn => hc (BitVec.eq_of_toNat_eq hn)
  unfold Hw.telemBlock
  rw [if_neg (by omega), if_neg (show ¬b.toNat = 0x40 from hne 0x40 h40), if_neg (show ¬b.toNat = 0x41 from hne 0x41 h41)]

/-- Settles O54: each row is its reply, and each reply's parts fill its data in the order of its table. -/
theorem readCommandsOnlyReply : Obligations.ReadCommandsOnlyReply := by
  refine ⟨?_, ?_, ?_, fun n => ?_, fun k hk => ?_, fun p h0 hp => ?_, ?_, fun b hb => ?_, ?_, ?_,
    fun s o f n hcar hready h1 h16 hsum h63 => ?_, fun s o f n hcar hready => ?_, ?_, fun c hc => ?_, fun m h0 hm => ?_,
    fun n hn => ?_, fun s o g k hcar hk => ?_, fun c hc => ?_, ?_, ?_, ?_, ?_, ?_, fun s o a n hcar h1 h240 ha => ?_, ?_,
    fun f n h1 h8 hf hsum => ?_,
    fun h => ?_, fun h n j hj => ?_, fun h n hj => ?_, fun h k => ?_, fun h k hk hon => ?_, fun h k h4 h11 => ?_,
    fun h k hoff => ?_, fun h p hp => h.poolData_phase hp, fun h k hk => h.poolData_rail hk, fun h p => ?_, fun h => ?_,
    fun h n hst => ?_, fun h n hst => ?_, fun h n hopen hcap hstart => ?_, fun h => ?_, fun h => ?_, fun h hn => ?_, fun h => ?_,
    fun h => ?_, fun h => ?_, fun h i p hrole hp => ?_,
    fun k hk => ?_, fun p hp => ?_, fun b hb h40 h41 => ?_, fun k hk => ?_, fun c hc => ?_, fun c hc => ?_, fun m hm => ?_,
    fun n hn => ?_, fun c hc => ?_, fun k hk => ?_, fun f n hfn => ?_, fun v b t hvbt => ?_, fun s o n hcar hn => ?_,
    fun k hk => ?_, fun k hk => ?_⟩
  · exact readsOut_of_row (fun _ => ⟨⟨_, rfl⟩, fun _ => rfl⟩) rfl (by decide) (fun _ _ => rfl)
  · exact readsOut_of_row (fun _ => ⟨⟨_, rfl⟩, fun _ => rfl⟩) rfl (by decide) (fun _ _ => rfl)
  · exact readsOut_of_row (fun _ => ⟨⟨_, rfl⟩, fun _ => rfl⟩) rfl (by decide) (fun _ _ => rfl)
  · exact readsOut_of_row (fun _ => ⟨⟨_, rfl⟩, fun _ => rfl⟩) rfl (by decide) (fun _ _ => rfl)
  · exact readsOut_of_row (fun _ => ⟨⟨_, rfl⟩, fun _ => rfl⟩) rfl (by decide) (fun _ _ => if_neg (by omega))
  · exact readsOut_of_row (fun _ => ⟨⟨_, rfl⟩, fun _ => rfl⟩) rfl (by decide)
      (fun _ _ => if_neg (by simpa using ⟨h0, hp⟩))
  · exact readsOut_of_row (fun _ => ⟨⟨_, rfl⟩, fun _ => rfl⟩) rfl (by decide) (fun _ _ => rfl)
  · exact readsOut_of_row (fun _ => ⟨⟨_, rfl⟩, fun _ => rfl⟩) rfl (by decide) (fun _ h => by simp [Hw.telemBlock, hb])
  · exact readsOut_of_row (fun _ => ⟨⟨_, rfl⟩, fun _ => rfl⟩) rfl (by decide) (fun _ _ => rfl)
  · exact readsOut_of_row (fun _ => ⟨⟨_, rfl⟩, fun _ => rfl⟩) rfl (by decide) (fun _ _ => rfl)
  · exact completes_of_row ⟨⟨_, rfl⟩, fun _ => rfl⟩ rfl (by decide) hcar (by simp [hready]; omega)
  · exact completes_of_row ⟨⟨_, rfl⟩, fun _ => rfl⟩ rfl (by decide) hcar (if_pos (by simp [hready]))
  · exact readsOut_of_row (fun _ => ⟨⟨_, rfl⟩, fun _ => rfl⟩) rfl (by decide) (fun _ _ => rfl)
  · exact readsOut_of_row (fun _ => ⟨⟨_, rfl⟩, fun _ => rfl⟩) rfl (by decide) (fun _ _ => if_pos hc)
  · exact readsOut_of_row (fun _ => ⟨⟨_, rfl⟩, fun _ => rfl⟩) rfl (by decide)
      (fun _ _ => if_neg (by simpa using ⟨h0, hm⟩))
  · exact readsOut_of_row (fun _ => ⟨⟨_, rfl⟩, fun _ => rfl⟩) rfl (by decide) (fun _ _ => if_neg (by omega))
  · exact completes_of_row ⟨⟨_, rfl⟩, fun _ => rfl⟩ rfl (by decide) hcar (by simp only [hk])
  · exact readsOut_of_row (fun _ => ⟨⟨_, rfl⟩, fun _ => rfl⟩) rfl (by decide) (fun _ _ => if_pos hc)
  · exact readsOut_of_row (fun _ => ⟨⟨_, rfl⟩, fun _ => rfl⟩) rfl (by decide) (fun _ _ => rfl)
  · exact readsOut_of_row (fun _ => ⟨⟨_, rfl⟩, fun _ => rfl⟩) rfl (by decide) (fun _ _ => rfl)
  · exact readsOut_of_row (fun _ => ⟨⟨_, rfl⟩, fun _ => rfl⟩) rfl (by decide) (fun _ _ => rfl)
  · exact readsOut_of_row (fun _ => ⟨⟨_, rfl⟩, fun _ => rfl⟩) rfl (by decide) (fun _ _ => rfl)
  · exact readsOut_of_row (fun _ => ⟨⟨_, rfl⟩, fun _ => rfl⟩) rfl (by decide) (fun _ _ => rfl)
  · exact completes_of_row ⟨⟨_, rfl⟩, fun _ => rfl⟩ rfl (by decide) hcar (if_neg (by simp; omega))
  · exact readsOut_of_row (fun _ => ⟨⟨_, rfl⟩, fun _ => rfl⟩) rfl (by decide) (fun _ _ => rfl)
  · exact readsOut_of_row (fun _ => ⟨⟨_, rfl⟩, fun _ => rfl⟩) rfl (by decide) (fun _ _ => if_neg (by simp; omega))
  · rw [h.lowRegs_take]
    exact laidOut_of_tiles (by simp [Hw.identData]) (by simp [Tiles])
  · refine laidOut_of_tiles ?_ (by simp [Tiles]; omega)
    unfold Hw.jobData
    rw [hj]
    cases hst : j.state <;> simp [hst, JobState.code, be_one]
  · exact laidOut_of_tiles (by simp [Hw.jobData, hj]) (by simp [Tiles])
  · exact (h.railData_laidOut k).sub (by simp)
  · have hvp : isVp k = true := decide_eq_true hk
    refine (h.railData_laidOut k).sub ?_
    have hstate : be 1 (h.railState k) = [if (h.rail k).slewing then 1 else 2] := by
      cases hs : (h.rail k).slewing <;> simp [Hw.railState, hon, hvp, hs, be_one]
    cases (h.out k).sup <;> cases (h.cfg k).safe <;>
      simp [hstate, Hw.railFlags, hon, hvp, bits_seven, be_one, b2n, Sup.code, Safe.code]
  · have hvp : isVp k = false := decide_eq_false (by omega)
    exact (h.railData_laidOut k).sub (by simp [Hw.railFlags, hvp])
  · refine (h.railData_laidOut k).sub ?_
    have hstate : be 1 (h.railState k) =
        [if (h.out k).shed then 3 else if (h.out k).battOff then 4 else if (h.out k).faultOff then 5 else 0] := by
      cases hs : (h.out k).shed <;> cases hb : (h.out k).battOff <;> cases hf : (h.out k).faultOff <;>
        simp [Hw.railState, hoff, hs, hb, hf, be_one]
    simp [hstate]
  · refine laidOut_of_tiles ?_ (by simp [Tiles])
    unfold Hw.portData
    cases h.portMode p <;> simp [bits_four, DescMode.code, be_one]
  · rw [h.lowRegs_seqReg, h.lowRegs_railgood, h.lowRegs_cause]
    refine laidOut_of_tiles ?_ (by simp [Tiles])
    unfold Hw.seqData
    rcases h.seq.toDir with _ | (_ | _ | _) <;> simp [be_one]
  · exact laidOut_of_tiles (by simp [Hw.slotData, hst]) (by simp [Tiles])
  · refine (h.slotData_laidOut n hst).sub ?_
    cases (h.slot n).st <;> simp [SlotState.code, be_one]
  · have hst : (h.slot n).st ≠ .free := fun hf => by simp [Slot.open?, hf] at hopen
    exact (h.slotData_laidOut n hst).sub (by simp [hopen, hcap, hstart])
  · exact laidOut_of_tiles (by simp [Hw.chargerData, Hw.packMa, bits_three]) (by simp [Tiles])
  · refine laidOut_of_tiles ?_ (by simp [Tiles])
    unfold Hw.gaugeData
    cases h.image.chem <;> cases ha : h.gauge.active <;>
      simp [ha, Hw.remaining, bits_two, be_one, hourUs, Chem.code]
  · have hempty : h.timeToEmpty = 0xFFFF := if_neg (Int.not_lt.mpr hn)
    have hfield := (h.gaugeData_laidOut).2 (18, be 2 h.timeToEmpty) (by simp)
    rw [hempty] at hfield
    exact hfield
  · exact laidOut_of_tiles (by simp [Hw.storeData]) (by simp [Tiles])
  · exact laidOut_of_tiles (by simp [Hw.lifeData]) (by simp [Tiles])
  · exact laidOut_of_tiles (by simp [Hw.promData]) (by simp [Tiles])
  · have hpeer : h.peerOf i = p := by simp [Hw.peerOf, hrole, List.getD, hp]
    exact ⟨by simp [Hw.peerData], by simp [Hw.peerData, hpeer]⟩
  · exact refusedWith_of_row (fun _ => ⟨⟨_, rfl⟩, fun _ => rfl⟩) rfl (by decide) (fun _ _ => if_pos hk)
  · exact refusedWith_of_row (fun _ => ⟨⟨_, rfl⟩, fun _ => rfl⟩) rfl (by decide) (fun _ _ => if_pos (by simpa using hp))
  · exact refusedWith_of_row (fun _ => ⟨⟨_, rfl⟩, fun _ => rfl⟩) rfl (by decide) (fun _ h => by
      rw [h.telemBlock_none hb h40 h41])
  · exact refusedWith_of_row (fun _ => ⟨⟨_, rfl⟩, fun _ => rfl⟩) rfl (by decide) (fun _ _ => if_pos hk)
  · exact refusedWith_of_row (fun _ => ⟨⟨_, rfl⟩, fun _ => rfl⟩) rfl (by decide) (fun _ _ => if_neg (by simp [hc]))
  · exact refusedWith_of_row (fun _ => ⟨⟨_, rfl⟩, fun _ => rfl⟩) rfl (by decide) (fun _ _ => if_neg (by simp [hc]))
  · exact refusedWith_of_row (fun _ => ⟨⟨_, rfl⟩, fun _ => rfl⟩) rfl (by decide) (fun _ _ => if_pos (by simpa using hm))
  · exact refusedWith_of_row (fun _ => ⟨⟨_, rfl⟩, fun _ => rfl⟩) rfl (by decide) (fun _ _ => if_pos hn)
  · exact refusedWith_of_row (fun _ => ⟨⟨_, rfl⟩, fun _ => rfl⟩) rfl (by decide) (fun _ _ => if_neg (by simp [hc]))
  · exact refusedWith_of_row (fun _ => ⟨⟨_, rfl⟩, fun _ => rfl⟩) rfl (by decide) (fun _ _ => if_neg (by simp [hk]))
  · exact refusedWith_of_row (fun _ => ⟨⟨_, rfl⟩, fun _ => rfl⟩) rfl (by decide)
      (fun _ _ => if_pos (by simpa [or_assoc] using hfn))
  · exact refusedWith_of_row (fun _ => ⟨⟨_, rfl⟩, fun _ => rfl⟩) rfl (by decide)
      (fun _ _ => if_pos (by simpa [or_assoc] using hvbt))
  · exact completes_of_row ⟨⟨_, rfl⟩, fun _ => rfl⟩ rfl (by decide) hcar (if_pos hn)
  · exact refusedWith_of_row (fun _ => ⟨⟨_, rfl⟩, fun _ => rfl⟩) rfl (by decide) (fun _ _ => if_neg hk)
  · exact refusedWith_of_row (fun _ => ⟨⟨_, rfl⟩, fun _ => rfl⟩) rfl (by decide) (fun _ _ => if_neg hk)

end Sys2Proof.Machine
end

section
/-! SUPPORT. The sequencer leaves the mailboxes, the relay, the event masks, the watchdog and the fault collector alone; a host
restart sets the watchdog besides. -/

namespace Sys2Proof.Machine

/-! ## The phase pool -/

@[simp] theorem Hw.endMoveOf_desk (h : Hw) (p r : Nat) : (h.endMoveOf p r).desk = h.desk := by
  unfold Hw.endMoveOf
  exact ite_desk (h.endMove_desk r) rfl

@[simp] theorem Hw.activate_desk (h : Hw) (k p : Nat) : (h.activate k p).desk = h.desk := h.endMoveOf_desk p 1

@[simp] theorem Hw.substitute_desk (h : Hw) (k : Nat) : (h.substitute k).desk = h.desk := by
  unfold Hw.substitute
  refine ite_desk ?_ ?_
  · rw [Hw.raise_desk, Hw.modRail_desk]
    exact foldl_desk _ (fun g _ => ite_desk (by split <;> rfl) rfl) _ h
  · rw [Hw.modRail_desk]
    exact foldl_desk _ (fun g _ => ite_desk (by split <;> rfl) rfl) _ h

@[simp] theorem Hw.startPhases_desk (h : Hw) (k : Nat) : (h.startPhases k).desk = h.desk := by
  unfold Hw.startPhases
  refine (foldl_desk _ (fun g _ => ite_desk ?_ rfl) _ _).trans (h.substitute_desk k)
  split
  · exact Hw.activate_desk _ _ _
  · rfl

/-! ## Outputs on and off -/

@[simp] theorem Hw.startRamp_desk (h : Hw) (k : Nat) (i : Bool) : (h.startRamp k i).desk = h.desk := by
  unfold Hw.startRamp
  exact ite_desk (Hw.startPhases_desk _ k) (ite_desk rfl rfl)

@[simp] theorem Hw.turnOn_desk (h : Hw) (k : Nat) (i : Bool) : (h.turnOn k i).desk = h.desk := by
  unfold Hw.turnOn
  exact ite_desk rfl (ite_desk rfl (ite_desk rfl (ite_desk rfl (h.startRamp_desk k i))))

@[simp] theorem Hw.disable_desk (h : Hw) (k : Nat) : (h.disable k).desk = h.desk := by
  unfold Hw.disable
  refine ite_desk ?_ ?_
  · rw [Hw.modPort_desk, Hw.modOut_desk, Hw.turnOff_desk]
  · rw [Hw.modOut_desk, Hw.turnOff_desk]

theorem Hw.setPool_desk (h : Hw) (po : Pool) : ({ h with pool := po } : Hw).desk = h.desk := rfl

@[simp] theorem Hw.holdRamps_desk (h : Hw) : h.holdRamps.desk = h.desk := by
  unfold Hw.holdRamps
  dsimp only
  rw [Hw.setPool_desk]
  refine (foldl_desk _ (fun g k => ?_) _ _).trans (foldl_desk _ (fun g p => ?_) _ h)
  · exact ite_desk rfl rfl
  · exact ite_desk rfl (g.turnOff_desk .command _)

/-! ## Steps and requests -/

theorem Hw.cabStart_desk (n : Nat) (h : Hw) : (Hw.cabStart n h).desk = h.desk := by
  induction n generalizing h with
  | zero => rfl
  | succ n ih =>
    unfold Hw.cabStart
    refine ite_desk rfl ?_
    split
    · rfl
    · exact ite_desk rfl (ite_desk (Hw.raise_desk _ 63) ((ih _).trans (Hw.raise_desk _ 63)))

@[simp] theorem Hw.cabBegin_desk (h : Hw) (d : Bool) : (h.cabBegin d).desk = h.desk := by
  unfold Hw.cabBegin
  exact ite_desk (Hw.cabStart_desk 32 _) rfl

@[simp] theorem Hw.beginStep_desk (h : Hw) : h.beginStep.desk = h.desk := by
  unfold Hw.beginStep
  dsimp only
  rw [Hw.evalPgood_desk, foldl_desk _ (fun g k => g.turnOn_desk k true)]
  refine (ite_desk ?_ ?_)
  all_goals exact (foldl_desk _ (fun g k => g.disable_desk k) _ _).trans h.wake_desk

@[simp] theorem Hw.dropPend_desk (h : Hw) (r : Nat) : (h.dropPend r).desk = h.desk := h.endJob?_desk h.seq.onJob 0 r []

@[simp] theorem Hw.startUp_desk (h : Hw) (j : Option Nat) : (h.startUp j).desk = h.desk := by
  unfold Hw.startUp
  dsimp only
  rw [Hw.beginStep_desk, Hw.cabBegin_desk]
  split <;> rfl

@[simp] theorem Hw.tryPend_desk (h : Hw) : h.tryPend.desk = h.desk := by
  unfold Hw.tryPend
  exact ite_desk (h.startUp_desk _) rfl

@[simp] theorem Hw.onRequest_desk (h : Hw) (j : Option Nat) : (h.onRequest j).desk = h.desk := by
  unfold Hw.onRequest
  refine ite_desk rfl ?_
  split
  · exact (Hw.tryPend_desk _).trans (h.dropPend_desk 1)
  · exact (Hw.tryPend_desk _).trans (h.dropPend_desk 1)
  · rfl

@[simp] theorem Hw.startDown_desk (h : Hw) (s : Nat) (j : Option Nat) : (h.startDown s j).desk = h.desk := by
  unfold Hw.startDown
  dsimp only
  rw [Hw.beginStep_desk, Hw.cabBegin_desk, Hw.govEnd_desk, Hw.pgoodLow_desk]
  exact h.endJob?_desk h.seq.job 0 1 []

@[simp] theorem Hw.endKeep_desk (h : Hw) : h.endKeep.desk = h.desk := rfl

@[simp] theorem Hw.offRequest_desk (h : Hw) (j : Option Nat) : (h.offRequest j).desk = h.desk := by
  unfold Hw.offRequest
  dsimp only
  split
  · rw [Hw.startDown_desk, Hw.endKeep_desk, Hw.holdRamps_desk, Hw.dropPend_desk]
  · rw [Hw.startDown_desk, Hw.endKeep_desk, Hw.dropPend_desk]
  · exact h.dropPend_desk 1

/-! ## The watchdog -/

/-- The hardware, but for the registers of the watchdog. -/
def Desk.withWdt (d : Desk) (w : Wdt) : Desk := { d with wdt := w }

theorem Hw.setWdt_desk (h : Hw) (w : Wdt) : ({ h with wdt := w } : Hw).desk = h.desk.withWdt w := rfl

theorem Hw.hostRestart_desk (h : Hw) : ∃ w, h.hostRestart.desk = h.desk.withWdt w := by
  refine ⟨{ (h.raise 45).wdt with
    restartCount := min 255 ((h.raise 45).wdt.restartCount + 1), restarting := true, start := (h.raise 45).clk }, ?_⟩
  rw [← h.raise_desk 45, ← Hw.setWdt_desk]
  unfold Hw.hostRestart
  dsimp only
  split
  · refine ite_desk rfl ?_
    rw [Hw.beginStep_desk]
    rfl
  · rw [Hw.onRequest_desk, Hw.offRequest_desk]
  · rfl

end Sys2Proof.Machine
end

section
/-! SUPPORT. A bus transaction as its controller sees it: acknowledge, pointer, reply window and stretch of a mailbox stay as they
are whatever its bytes set going (R388–R392, R404). -/

namespace Sys2Proof.Machine

/-- What a controller sees of a mailbox at its transaction: the acknowledge, the pointer, the reply window, the stretch. -/
def Mailbox.line (m : Mailbox) : Bool × Nat × Cells × Bool := (m.acked, m.ptr, m.rep, m.stretching)

def Hw.line (h : Hw) (o : Origin) : Bool × Nat × Cells × Bool := (h.mbx o).line

theorem line_of_mbx {g h : Hw} {o : Origin} (e : g.mbx o = h.mbx o) : g.line o = h.line o := congrArg Mailbox.line e

theorem line_of_desk {g h : Hw} (e : g.desk = h.desk) (o : Origin) : g.line o = h.line o := line_of_mbx (mbx_of_desk e o)

theorem ite_line {p : Prop} [Decidable p] {a b : Hw} {o : Origin} {l : Bool × Nat × Cells × Bool} (ha : a.line o = l)
    (hb : b.line o = l) : (if p then a else b).line o = l := by
  split <;> assumption

theorem Hw.modMbx_line (h : Hw) (p o : Origin) {f : Mailbox → Mailbox} (hf : ∀ m, (f m).line = m.line) :
    (h.modMbx p f).line o = h.line o := by
  cases p <;> cases o
  · exact hf h.proto.a
  · rfl
  · rfl
  · exact hf h.proto.v

@[simp] theorem Hw.report_line (h : Hw) (src addr master access : Nat) (d : List Byte) (o : Origin) :
    (h.report src addr master access d).line o = h.line o := line_of_mbx (by simp)

@[simp] theorem Hw.respond_line (h : Hw) (p : Origin) (st : Nat) (d : List Byte) (o : Origin) :
    (h.respond p st d).line o = h.line o := by
  unfold Hw.respond
  exact ite_line (by cases o <;> rfl) (Hw.modMbx_line h p o fun _ => rfl)

@[simp] theorem Hw.take_line (h : Hw) (id : Nat) (o : Origin) : (h.take id).line o = h.line o := line_of_mbx (by simp)

@[simp] theorem Hw.draw_line (h : Hw) (o : Origin) : h.draw.line o = h.line o := by cases o <;> rfl

@[simp] theorem Hw.wake_line (h : Hw) (o : Origin) : h.wake.line o = h.line o := line_of_desk h.wake_desk o

/-! ## Submissions -/

@[simp] theorem Hw.transfer_line (h : Hw) (c n : Nat) (o : Origin) : (h.transfer c n).1.line o = h.line o := by
  unfold Hw.transfer
  dsimp only
  split
  · rfl
  · split <;> simp

@[simp] theorem Hw.badPacket_line (h : Hw) (p : Origin) (pkt : List Byte) (o : Origin) :
    (h.badPacket p pkt).line o = h.line o := by
  unfold Hw.badPacket
  dsimp only
  refine ite_line (by simp) (ite_line (by simp) (ite_line (by simp) ?_))
  split
  · simp
  · exact ite_line (by simp) (ite_line (by simp) (ite_line (by simp) (ite_line (by simp) (by simp))))

@[simp] theorem Hw.judge_line (h : Hw) (p o : Origin) : (h.judge p).line o = h.line o := by
  have hmark : (h.modMbx p (fun m => { m with judged := true })).line o = h.line o := Hw.modMbx_line h p o fun _ => rfl
  unfold Hw.judge
  dsimp only
  split
  · refine ite_line rfl (ite_line ?_ (ite_line ?_ (ite_line ?_ ?_)))
    all_goals simp [hmark]
  · rfl

@[simp] theorem Hw.judgeDue_line (h : Hw) (o : Origin) : h.judgeDue.line o = h.line o := by simp [Hw.judgeDue]

/-- What a relay starts at the lead: its request goes out, or MODULE names no member of the roster (R226, R407). -/
theorem Hw.startRelay_line (h : Hw) (o : Origin) : h.startRelay.line o = h.line o := by
  unfold Hw.startRelay
  extract_lets one
  have hone : ∀ g, (one g).line o = g.line o := by
    intro g
    refine ite_line rfl ?_
    split
    · exact ite_line (by cases o <;> rfl) (by simp)
    · rfl
  exact (hone _).trans (hone h)

theorem Hw.setSubmissions_line (h : Hw) (n : Nat) (o : Origin) :
    ({ h with proto := { h.proto with submissions := n } } : Hw).line o = h.line o := by
  cases o <;> rfl

@[simp] theorem Hw.submit_line (h : Hw) (p : Origin) (tag : Byte) (o : Origin) : (h.submit p tag).line o = h.line o := by
  unfold Hw.submit
  dsimp only
  refine ite_line rfl (ite_line (Hw.modMbx_line h p o fun _ => rfl) ?_)
  have htaken : Hw.line (if (h.mbx p).tagMatches tag then h.wake.transfer 0 ((h.mbx p).entry tag).length
      else (h.wake, true)).1 o = h.line o := by
    split <;> simp
  generalize (if (h.mbx p).tagMatches tag then h.wake.transfer 0 ((h.mbx p).entry tag).length else (h.wake, true)) = t
    at htaken ⊢
  have hcounted := (t.1.setSubmissions_line (t.1.proto.submissions + 1) o).trans htaken
  refine ite_line ?_ ?_
  · refine (Hw.modMbx_line _ p o ?_).trans hcounted
    exact fun _ => rfl
  · rw [Hw.startRelay_line, Hw.judgeDue_line]
    refine (Hw.modMbx_line _ p o ?_).trans hcounted
    exact fun _ => rfl

/-! ## The commit of the bytes -/

@[simp] theorem Hw.wdtExpire_line (h : Hw) (o : Origin) : h.wdtExpire.line o = h.line o := by
  unfold Hw.wdtExpire
  refine ite_line ?_ (line_of_mbx ?_)
  · obtain ⟨w, hw⟩ := Hw.hostRestart_desk ({ h with wdt := { h.wdt with warn := false, grace := false } })
    cases o
    · exact congrArg (fun d : Desk => d.a.line) hw
    · exact congrArg (fun d : Desk => d.v.line) hw
  · rw [mbx_of_desk (Hw.raise_desk _ 44)]
    cases o <;> rfl

@[simp] theorem Hw.wdtService_line (h : Hw) (b : Byte) (o : Origin) : (h.wdtService b).line o = h.line o := by
  have hset : ∀ w : Wdt, ({ h with wdt := w } : Hw).line o = h.line o := fun w => by cases o <;> rfl
  unfold Hw.wdtService
  refine ite_line (hset _) (ite_line (hset _) (ite_line (hset _) ?_))
  unfold Hw.wdtViolation
  rw [Hw.wdtExpire_line, line_of_desk (Hw.raise_desk _ 46), hset]

@[simp] theorem Hw.wdtCommit_line (h : Hw) (w : Wdt) (o : Origin) : (h.wdtCommit w).line o = h.line o := by cases o <;> rfl

@[simp] theorem Hw.evtByte_line (h : Hw) (a : Nat) (b : Byte) (o : Origin) : (h.evtByte a b).line o = h.line o := by
  unfold Hw.evtByte
  exact ite_line (by cases o <;> rfl) (by cases o <;> rfl)

@[simp] theorem Hw.putByte_line (h : Hw) (p : Origin) (a : Nat) (b : Byte) (o : Origin) :
    (h.putByte p a b).line o = h.line o := by
  unfold Hw.putByte
  exact ite_line (by simp) (ite_line (Hw.modMbx_line h p o fun _ => rfl) (ite_line (by simp) (ite_line (by simp) rfl)))

@[simp] theorem Hw.putBytes_line (h : Hw) (p : Origin) (ptr i : Nat) (bs : List Byte) (o : Origin) :
    (h.putBytes p ptr i bs).line o = h.line o := by
  induction bs generalizing h i with
  | nil => rfl
  | cons b bs ih => exact (ih _ _).trans (h.putByte_line p _ b o)

end Sys2Proof.Machine
end

section
/-! SUPPORT. A write transaction, one equation an outcome: unanswered, refused, accepted (R388–R390, R396, R453, R551). -/

namespace Sys2Proof.Machine

/-! ## The start of a transaction -/

/-- Waking the fast clock touches the IDLE state and the reference alone. -/
theorem Hw.wake_eq (h : Hw) : h.wake = { h with idle := h.wake.idle, adc := h.wake.adc } := by
  unfold Hw.wake
  split <;> rfl

section
variable (h : Hw) (o : Origin)

@[simp] theorem Hw.start_mbx : (h.start o).mbx o =
    { h.mbx o with ptr := if (h.mbx o).ptrReset then 0 else (h.mbx o).ptr, ptrReset := false, stretching := false } := by
  unfold Hw.start
  rw [Hw.modMbx_mbx_same, mbx_of_desk h.wake_desk]

@[simp] theorem Hw.start_ins : (h.start o).ins = h.ins := by unfold Hw.start; rw [Hw.modMbx_ins, Hw.wake_eq]
@[simp] theorem Hw.start_factory : (h.start o).factory = h.factory := by unfold Hw.start; rw [Hw.modMbx_factory, Hw.wake_eq]
@[simp] theorem Hw.start_pwr : (h.start o).pwr = h.pwr := by unfold Hw.start; rw [Hw.modMbx_pwr, Hw.wake_eq]
@[simp] theorem Hw.start_seq : (h.start o).seq = h.seq := by unfold Hw.start; rw [Hw.modMbx_seq, Hw.wake_eq]
@[simp] theorem Hw.start_clk : (h.start o).clk = h.clk := by unfold Hw.start; rw [Hw.modMbx_clk, Hw.wake_eq]
@[simp] theorem Hw.start_evt : (h.start o).evt = h.evt := by unfold Hw.start; rw [Hw.modMbx_evt, Hw.wake_eq]
@[simp] theorem Hw.start_wdt : (h.start o).wdt = h.wdt := by unfold Hw.start; rw [Hw.modMbx_wdt, Hw.wake_eq]
@[simp] theorem Hw.start_outs : (h.start o).outs = h.outs := by unfold Hw.start; rw [Hw.modMbx_outs, Hw.wake_outs]
@[simp] theorem Hw.start_faults : (h.start o).faults = h.faults := by unfold Hw.start; rw [Hw.modMbx_faults, Hw.wake_eq]

@[simp] theorem Hw.start_wdtOpen : (h.start o).wdtOpen = h.wdtOpen := by
  simp [Hw.wdtOpen, Hw.wdtCount, Hw.wdtCounts]

@[simp] theorem Hw.start_reaction (src : Nat) : (h.start o).reaction src = h.reaction src := by
  simp [Hw.reaction, Hw.inLimp]

end

/-! ## The outcomes of a write -/

/-- The write at o has been acknowledged and its pointer has moved on; its bytes are still to be put. -/
def Hw.acknowledged (h : Hw) (o : Origin) (p : Nat) : Hw :=
  (h.start o).modMbx o (fun m => { m with ptr := p, acked := true })

section
variable (h : Hw) (o : Origin) (ptr : Nat) (data : List Byte)

theorem Hw.commitWrite_down (hup : h.busUp = false) : h.commitWrite o ptr data = h.unanswered o id := by
  unfold Hw.commitWrite
  rw [hup]
  rfl

theorem Hw.commitWrite_refused {a : Nat} {nack : Bool} (hup : h.busUp = true)
    (hc : checkBytes o h.wdtOpen ptr 0 data { w := h.wdt, high := none } = .error (a, nack)) :
    h.commitWrite o ptr data =
      ((h.start o).report (violation o a) a (masterOf o) 1 []).modMbx o (fun m => { m with acked := !nack }) := by
  unfold Hw.commitWrite
  rw [if_neg (by simp [hup])]
  dsimp only
  rw [Hw.start_wdtOpen, Hw.start_wdt, hc]

theorem Hw.commitWrite_accepted {v : WdtView} (hup : h.busUp = true)
    (hc : checkBytes o h.wdtOpen ptr 0 data { w := h.wdt, high := none } = .ok v) :
    h.commitWrite o ptr data =
      (if v.w = h.wdt then h.acknowledged o (if data.isEmpty then ptr else pageAddr ptr data.length)
        else (h.acknowledged o (if data.isEmpty then ptr else pageAddr ptr data.length)).wdtCommit v.w).putBytes o ptr 0
        data := by
  unfold Hw.commitWrite
  rw [if_neg (by simp [hup])]
  dsimp only
  rw [Hw.start_wdtOpen, Hw.start_wdt, hc]
  dsimp only
  rw [Hw.modMbx_wdt, Hw.start_wdt]
  rfl

/-- Bytes that none of the watchdog's registers take leave the watchdog's view as it was. -/
theorem checkBytes_of_writable (opened : Bool) (w : Wdt) (i : Nat)
    (hw : ∀ j < data.length, writable o (pageAddr ptr (i + j)) = true) :
    checkBytes o opened ptr i data { w := w, high := none } = .ok { w := w, high := none } := by
  induction data generalizing i with
  | nil => rfl
  | cons b bs ih =>
    have hfirst : writable o (pageAddr ptr i) = true := hw 0 (Nat.zero_lt_succ _)
    unfold checkBytes
    dsimp only
    rw [if_pos hfirst]
    refine ih (i + 1) fun j hj => ?_
    rw [Nat.add_assoc, Nat.add_comm 1 j]
    exact hw (j + 1) (Nat.succ_lt_succ hj)

/-- A write to the mailbox window or the event registers alone is accepted and puts its bytes. -/
theorem Hw.commitWrite_of_writable (hup : h.busUp = true)
    (hw : ∀ j < data.length, writable o (pageAddr ptr j) = true) :
    h.commitWrite o ptr data =
      (h.acknowledged o (if data.isEmpty then ptr else pageAddr ptr data.length)).putBytes o ptr 0 data := by
  rw [h.commitWrite_accepted o ptr data hup (checkBytes_of_writable o ptr data h.wdtOpen h.wdt 0 (by simpa using hw))]
  exact congrArg (Hw.putBytes · o ptr 0 data) (if_pos rfl)

/-- A first byte at an address that takes no write is refused there, with a NACK (R387, R458). -/
theorem checkBytes_first_refused (opened : Bool) (b : Byte) (v : WdtView) (hw : writable o (pageAddr ptr 0) = false)
    (hout : pageAddr ptr 0 < 0x100 ∨ 0x110 ≤ pageAddr ptr 0 ∨ o = .V) :
    checkBytes o opened ptr 0 (b :: data) v = .error (pageAddr ptr 0, true) := by
  have hwdt : (o == .A && 0x100 ≤ pageAddr ptr 0 && pageAddr ptr 0 < 0x110 : Bool) = false := by
    rcases hout with hlt | hge | rfl
    · simp [show ¬ 0x100 ≤ pageAddr ptr 0 by omega]
    · simp [show ¬ pageAddr ptr 0 < 0x110 by omega]
    · rfl
  unfold checkBytes
  dsimp only
  rw [hw, if_neg Bool.false_ne_true, hwdt, if_neg Bool.false_ne_true]

end

/-! ## The commands of a write -/

section
variable {c : Instr} {adr : BitVec 7} {ptr : Half} {data : List Byte}
  (hc : c = .hostBusWrite adr ptr data ∨ c = .evtPendWrite adr ptr data) {s : State} {post : Hw → Prop}
include hc

theorem completes_busWrite_addressed (hp : post (s.hw.addressed adr fun o => s.hw.commitWrite o ptr.toNat data)) :
    Completes c s post := by
  rcases hc with rfl | rfl
  · exact ⟨_, rfl, rfl, hp⟩
  · exact ⟨_, rfl, rfl, hp⟩

theorem completes_busWrite {o : Origin} (ho : s.hw.straps.origin adr = some o)
    (hp : post (s.hw.commitWrite o ptr.toNat data)) : Completes c s post := by
  refine completes_busWrite_addressed hc ?_
  unfold Hw.addressed
  rwa [ho]

theorem completes_busWrite_elsewhere (ho : s.hw.straps.origin adr = none) : Completes c s (fun t => t = s.hw) := by
  refine completes_busWrite_addressed hc ?_
  unfold Hw.addressed
  rw [ho]

end

/-! ## What a refused write leaves -/

/-- The state after a write of which one byte was refused, as the address's controller and the supervisor see it (R390). -/
structure Refused (h t : Hw) (o : Origin) (a : Nat) (nack : Bool) : Prop where
  acked : (t.mbx o).acked = !nack
  ptr : (t.mbx o).ptr = if (h.mbx o).ptrReset = true then 0 else (h.mbx o).ptr
  cmd : (t.mbx o).cmd = (h.mbx o).cmd
  inProc : (t.mbx o).inProc = (h.mbx o).inProc
  queued : (t.mbx o).queued = (h.mbx o).queued
  wdt : t.wdt = h.wdt
  mask : t.evt.mask = h.evt.mask
  outs : h.reaction (violation o a) ≤ 1 → t.outs = h.outs
  cap : h.faults.cap = none → t.faults.cap.map (fun c => (c.source, c.addr, c.master)) = some (violation o a, a, masterOf o)

theorem violation_ne_masked (o : Origin) (a : Nat) : violation o a ≠ 0x93 := by unfold violation; split <;> decide

theorem violation_eq (o : Origin) (a : Nat) :
    violation o a = if o = .V ∧ 0x100 ≤ a ∧ a < 0x110 then 0x32 else 0x30 := by
  simp [violation, and_assoc]

theorem Hw.commitWrite_refused_leaves (h : Hw) (o : Origin) (ptr : Nat) (data : List Byte) {a : Nat} {nack : Bool}
    (hup : h.busUp = true)
    (hc : checkBytes o h.wdtOpen ptr 0 data { w := h.wdt, high := none } = .error (a, nack)) :
    Refused h (h.commitWrite o ptr data) o a nack := by
  rw [h.commitWrite_refused o ptr data hup hc]
  constructor
  case outs =>
    intro hr
    rw [Hw.modMbx_outs, Hw.report_outs _ _ _ _ _ _ (by simpa using hr), Hw.start_outs]
  case cap =>
    intro hcap
    rw [Hw.modMbx_faults, Hw.report_cap _ _ _ _ _ _ (by simpa using hcap) (violation_ne_masked o a)]
    rfl
  all_goals simp

end Sys2Proof.Machine
end

section
/-! SUPPORT. What an accepted write puts: the bytes of the command mailbox and of the event registers (R388, R404, R453, R454);
and what a write that finds the module in STANDBY starts (R396, R516). -/

namespace Sys2Proof.Machine

/-! ## Acknowledged -/

section
variable (h : Hw) (o : Origin) (p : Nat)

theorem Hw.acknowledged_line : (h.acknowledged o p).line o = (true, p, (h.mbx o).rep, false) := by
  unfold Hw.acknowledged Hw.line
  rw [Hw.modMbx_mbx_same, Hw.start_mbx]
  rfl

@[simp] theorem Hw.acknowledged_mbx_cmd : ((h.acknowledged o p).mbx o).cmd = (h.mbx o).cmd := by simp [Hw.acknowledged]
@[simp] theorem Hw.acknowledged_evt : (h.acknowledged o p).evt = h.evt := by simp [Hw.acknowledged]
@[simp] theorem Hw.acknowledged_wdt : (h.acknowledged o p).wdt = h.wdt := by simp [Hw.acknowledged]
@[simp] theorem Hw.acknowledged_outs : (h.acknowledged o p).outs = h.outs := by simp [Hw.acknowledged]
@[simp] theorem Hw.acknowledged_mute (k : Nat) : (h.acknowledged o p).mute k = h.mute k := by
  simp [Hw.acknowledged, Hw.mute, Hw.metering, Hw.holdup]

/-- An accepted write acknowledges and leaves the pointer behind its bytes, whatever they set going. -/
theorem Hw.commitWrite_accepted_line (ptr : Nat) (data : List Byte) {v : WdtView} (hup : h.busUp = true)
    (hc : checkBytes o h.wdtOpen ptr 0 data { w := h.wdt, high := none } = .ok v) :
    (h.commitWrite o ptr data).line o =
      (true, if data.isEmpty then ptr else pageAddr ptr data.length, (h.mbx o).rep, false) := by
  rw [h.commitWrite_accepted o ptr data hup hc, Hw.putBytes_line]
  exact ite_line (h.acknowledged_line o _) ((Hw.wdtCommit_line _ v.w o).trans (h.acknowledged_line o _))

theorem Hw.acked_of_line {l : Bool × Nat × Cells × Bool} {t : Hw} (hl : t.line o = l) : (t.mbx o).acked = l.1 :=
  congrArg Prod.fst hl

end

/-! ## The pages of the pointer (R388) -/

theorem pageAddr_self (ptr : Nat) : pageAddr ptr 0 = ptr := by unfold pageAddr; omega

theorem pageAddr_inj {ptr i j : Nat} (hij : i < j + 64) (hji : j < i + 64) (h : pageAddr ptr i = pageAddr ptr j) :
    i = j := by
  unfold pageAddr at h
  omega

/-- The four pages of the command mailbox keep their pointers within it. -/
theorem pageAddr_window {ptr : Nat} (i : Nat) (hlo : 0x1000 ≤ ptr) (hhi : ptr < 0x1100) :
    0x1000 ≤ pageAddr ptr i ∧ pageAddr ptr i < 0x1100 := by
  unfold pageAddr
  omega

theorem writable_window (o : Origin) {a : Nat} (hlo : 0x1000 ≤ a) (hhi : a < 0x1100) : writable o a = true := by
  simp [writable, hlo, hhi]

theorem writable_events {a : Nat} (hlo : 0x80 ≤ a) (hhi : a < 0x90) : writable .A a = true := by
  simp [writable, hlo, hhi]

/-! ## The command mailbox -/

/-- The cells of a command mailbox after a write's bytes from the i-th on. -/
def Cells.putPage (ptr : Nat) (m : Cells) : Nat → List Byte → Cells
  | _, [] => m
  | i, b :: bs => Cells.putPage ptr (Cells.put 0 m (pageAddr ptr i - 0x1000) b) (i + 1) bs

theorem Hw.modMbx_modMbx (h : Hw) (o : Origin) (f g : Mailbox → Mailbox) :
    (h.modMbx o f).modMbx o g = h.modMbx o (fun m => g (f m)) := by
  cases o <;> rfl

/-- Bytes at pointers of the window change its cells and nothing else. -/
theorem Hw.putBytes_window (h : Hw) (o : Origin) {ptr : Nat} (i : Nat) (bs : List Byte) (hlo : 0x1000 ≤ ptr)
    (hhi : ptr < 0x1100) :
    h.putBytes o ptr i bs = h.modMbx o (fun m => { m with cmd := Cells.putPage ptr m.cmd i bs }) := by
  induction bs generalizing h i with
  | nil => cases o <;> rfl
  | cons b bs ih =>
    obtain ⟨hge, hlt⟩ := pageAddr_window i hlo hhi
    have hput : h.putByte o (pageAddr ptr i) b =
        h.modMbx o (fun m => { m with cmd := Cells.put 0 m.cmd (pageAddr ptr i - 0x1000) b }) := by
      unfold Hw.putByte
      rw [if_neg (by omega), if_pos (by simp [hge, hlt])]
    unfold Hw.putBytes
    rw [ih, hput, Hw.modMbx_modMbx]
    rfl

theorem Cells.get_putPage_other {ptr a : Nat} (m : Cells) (i : Nat) (bs : List Byte) (hm : Cells.wf 0 m = true)
    (ha : ∀ j < bs.length, a ≠ pageAddr ptr (i + j) - 0x1000) :
    Cells.get 0 (Cells.putPage ptr m i bs) a = Cells.get 0 m a := by
  induction bs generalizing m i with
  | nil => rfl
  | cons b bs ih =>
    have hrest : ∀ j < bs.length, a ≠ pageAddr ptr (i + 1 + j) - 0x1000 := by
      intro j hj
      rw [Nat.add_assoc, Nat.add_comm 1 j]
      exact ha (j + 1) (Nat.succ_lt_succ hj)
    exact (ih _ _ (Cells.wf_put 0 m _ b hm) hrest).trans (Cells.get_put_other 0 m _ a b (ha 0 (Nat.zero_lt_succ _)) hm)

/-- No more bytes than a page holds, so none overwrites another. -/
theorem Cells.get_putPage {ptr : Nat} (m : Cells) (i j : Nat) (bs : List Byte) {b : Byte} (hlo : 0x1000 ≤ ptr)
    (hhi : ptr < 0x1100) (hm : Cells.wf 0 m = true) (hlen : bs.length ≤ 64) (hb : bs[j]? = some b) :
    Cells.get 0 (Cells.putPage ptr m i bs) (pageAddr ptr (i + j) - 0x1000) = b := by
  induction bs generalizing m i j with
  | nil => simp at hb
  | cons c bs ih =>
    rw [List.length_cons] at hlen
    cases j with
    | zero =>
      obtain rfl : c = b := by simpa using hb
      refine (Cells.get_putPage_other _ (i + 1) bs (Cells.wf_put 0 m _ c hm) fun j hj heq => ?_).trans
        (Cells.get_put 0 m _ c hm)
      have hi := pageAddr_window (i + 0) hlo hhi
      have hj' := pageAddr_window (i + 1 + j) hlo hhi
      have := pageAddr_inj (i := i + 0) (j := i + 1 + j) (ptr := ptr) (by omega) (by omega) (by omega)
      omega
    | succ j =>
      rw [show i + (j + 1) = i + 1 + j by omega]
      exact ih _ (i + 1) j (Cells.wf_put 0 m _ c hm) (by omega) (by simpa using hb)

theorem wf_cmd_of_buffersOk {h : Hw} (hb : h.buffersOk = true) (o : Origin) : Cells.wf 0 (h.mbx o).cmd = true := by
  simp only [Hw.buffersOk, Bool.and_eq_true] at hb
  obtain ⟨⟨⟨⟨⟨⟨⟨⟨ha, -⟩, hv⟩, -⟩, -⟩, -⟩, -⟩, -⟩, -⟩ := hb
  cases o
  · exact ha
  · exact hv

/-! ## The event registers -/

theorem getLsbD_byteMask (n k : Nat) : ((0xFF : BitVec 64) <<< n).getLsbD k =
    (decide (k < 64) && decide (n ≤ k) && decide (k < n + 8)) := by
  have h255 : (0xFF : BitVec 64).getLsbD (k - n) = decide (k - n < 8) := by
    by_cases hk : k - n < 64
    · rw [show (0xFF : BitVec 64) = BitVec.ofNat 64 (2 ^ 8 - 1) from rfl, BitVec.getLsbD_ofNat, Nat.testBit_two_pow_sub_one]
      simp [hk]
    · rw [BitVec.getLsbD_of_ge _ _ (by omega)]
      simp; omega
  rw [BitVec.getLsbD_shiftLeft, h255]
  by_cases hn : n ≤ k
  · simp [hn, show (k - n < 8) = (k < n + 8) by grind, show ¬ k < n by omega]
  · simp [hn]

/-- Bits that a fold sets one by one. -/
theorem getLsbD_foldl_set (c : Nat → Bool) (n : Nat) (l : List Nat) (m : BitVec 64) {k : Nat} (hk : k < 64) :
    (l.foldl (fun (m : BitVec 64) i => if c i then m ||| ((1 : BitVec 64) <<< (n + i)) else m) m).getLsbD k =
      (m.getLsbD k || l.any (fun i => c i && k == n + i)) := by
  induction l generalizing m with
  | nil => simp
  | cons i l ih =>
    have hone : ((1 : BitVec 64) <<< (n + i)).getLsbD k = (k == n + i) := by
      rw [Bool.eq_iff_iff]
      simp
      omega
    rw [List.foldl_cons, ih, List.any_cons]
    by_cases hc : c i = true
    · rw [if_pos hc, BitVec.getLsbD_or, hone, hc, Bool.true_and, Bool.or_assoc]
    · simp [hc]

/-- Eight bits at place n of a register take new values, the others stay. -/
theorem getLsbD_setByte (c : Nat → Bool) (n : Nat) (old : BitVec 64) {k : Nat} (hk : k < 64) :
    ((old &&& ~~~ ((0xFF : BitVec 64) <<< n)) ||| (List.range 8).foldl (fun (m : BitVec 64) i =>
        if c i then m ||| ((1 : BitVec 64) <<< (n + i)) else m) 0).getLsbD k =
      if n ≤ k ∧ k < n + 8 then c (k - n) else old.getLsbD k := by
  rw [BitVec.getLsbD_or, BitVec.getLsbD_and, BitVec.getLsbD_not, getLsbD_byteMask, getLsbD_foldl_set c n _ _ hk]
  have hany : (List.range 8).any (fun i => c i && k == n + i) = (decide (n ≤ k ∧ k < n + 8) && c (k - n)) := by
    rw [Bool.eq_iff_iff, List.any_eq_true, Bool.and_eq_true, decide_eq_true_iff]
    constructor
    · rintro ⟨i, hi, hc⟩
      rw [Bool.and_eq_true, beq_iff_eq] at hc
      obtain ⟨hc, rfl⟩ := hc
      rw [List.mem_range] at hi
      exact ⟨by omega, by simpa using hc⟩
    · rintro ⟨hin, hc⟩
      exact ⟨k - n, List.mem_range.mpr (by omega), by simp [hc]; omega⟩
  rw [hany]
  by_cases hin : n ≤ k ∧ k < n + 8
  · simp [hin, hk]
  · rw [if_neg hin]
    simp [hin, hk]
    intro; omega

end Sys2Proof.Machine
end

section
/-! SUPPORT. One byte of the event registers, then several; the wake of STANDBY; and with them what a bus write does (R23, R387–R390,
R396, R452–R454, R516). -/

namespace Sys2Proof.Machine

/-! ## One byte of EVT_PEND, one of EVT_MASK (R453, R454) -/

section
variable (h : Hw) (b : Byte) {a k : Nat}

theorem Hw.evtByte_pend (ha : a < 0x88) (hk : k < 64) :
    (h.evtByte a b).evt.pend.getLsbD k =
      if k / 8 = 7 - a % 8 then b.getLsbD (k % 8) && !h.mute k else h.evt.pend.getLsbD k := by
  unfold Hw.evtByte
  dsimp only
  rw [if_pos ha]
  refine (getLsbD_setByte _ (8 * (7 - a % 8)) h.evt.pend hk).trans ?_
  by_cases hin : k / 8 = 7 - a % 8
  · rw [if_pos hin, if_pos (by omega), if_pos ha, show k - 8 * (7 - a % 8) = k % 8 by omega,
      show 8 * (7 - a % 8) + k % 8 = k by omega]
  · rw [if_neg hin, if_neg (by omega)]

theorem Hw.evtByte_mask (ha : 0x88 ≤ a) (hk : k < 64) :
    (h.evtByte a b).evt.mask.getLsbD k =
      if k / 8 = 7 - a % 8 then b.getLsbD (k % 8) && !reservedEvents.getLsbD k else h.evt.mask.getLsbD k := by
  unfold Hw.evtByte
  dsimp only
  rw [if_neg (by omega)]
  refine (getLsbD_setByte _ (8 * (7 - a % 8)) h.evt.mask hk).trans ?_
  by_cases hin : k / 8 = 7 - a % 8
  · rw [if_pos hin, if_pos (by omega), if_neg (by omega), show k - 8 * (7 - a % 8) = k % 8 by omega,
      show 8 * (7 - a % 8) + k % 8 = k by omega]
  · rw [if_neg hin, if_neg (by omega)]

theorem Hw.evtByte_keeps_mask (ha : a < 0x88) : (h.evtByte a b).evt.mask = h.evt.mask := by
  unfold Hw.evtByte
  dsimp only
  rw [if_pos ha]

theorem Hw.evtByte_keeps_pend (ha : 0x88 ≤ a) : (h.evtByte a b).evt.pend = h.evt.pend := by
  unfold Hw.evtByte
  dsimp only
  rw [if_neg (Nat.not_lt.mpr ha)]

@[simp] theorem Hw.evtByte_core : (h.evtByte a b).evt.core = h.evt.core := by unfold Hw.evtByte; dsimp only; split <;> rfl
@[simp] theorem Hw.evtByte_cnt : (h.evtByte a b).evt.cnt = h.evt.cnt := by unfold Hw.evtByte; dsimp only; split <;> rfl
@[simp] theorem Hw.evtByte_outs : (h.evtByte a b).outs = h.outs := by unfold Hw.evtByte; dsimp only; split <;> rfl

@[simp] theorem Hw.evtByte_mute (n : Nat) : (h.evtByte a b).mute n = h.mute n := by
  unfold Hw.evtByte
  dsimp only
  split <;> rfl

theorem Hw.putByte_events (o : Origin) (hlo : 0x80 ≤ a) (hhi : a < 0x90) : h.putByte o a b = h.evtByte a b := by
  unfold Hw.putByte
  rw [if_neg (by omega), if_neg (by simp; omega), if_pos (by simp [hlo, hhi])]

end

/-! ## A write of one byte, a write of all eight -/

theorem pageAddr_events {i : Nat} (hi : i < 8) : pageAddr 0x80 i = 0x80 + i := by unfold pageAddr; omega

theorem toNat_eventPtr {n : Nat} (hn : n < 16) : (BitVec.ofNat 16 (0x80 + n)).toNat = 0x80 + n := by
  rw [BitVec.toNat_ofNat]
  omega

/-- A write of one byte to the event registers. -/
theorem Hw.commitWrite_event (h : Hw) (b : Byte) {a : Nat} (hup : h.busUp = true) (hlo : 0x80 ≤ a) (hhi : a < 0x90) :
    h.commitWrite .A a [b] = (h.acknowledged .A (pageAddr a 1)).evtByte a b := by
  have hw : ∀ j < [b].length, writable .A (pageAddr a j) = true := by
    intro j hj
    obtain rfl : j = 0 := by simpa using hj
    rw [pageAddr_self]
    exact writable_events hlo hhi
  rw [h.commitWrite_of_writable .A a [b] hup hw]
  unfold Hw.putBytes Hw.putBytes
  rw [pageAddr_self, Hw.putByte_events _ b .A hlo hhi]
  rfl

section
variable (h : Hw) (i : Nat) (bs : List Byte) (hlen : i + bs.length ≤ 8)
include hlen

/-- The bytes of a write from the i-th of EVT_PEND on, each at its place. -/
theorem Hw.putBytes_pend {k : Nat} (hk : k < 64) :
    (h.putBytes .A 0x80 i bs).evt.pend.getLsbD k =
      if i ≤ 7 - k / 8 ∧ 7 - k / 8 < i + bs.length then (bs.getD (7 - k / 8 - i) 0).getLsbD (k % 8) && !h.mute k
      else h.evt.pend.getLsbD k := by
  induction bs generalizing h i with
  | nil => rw [if_neg (by simp)]; rfl
  | cons b bs ih =>
    rw [List.length_cons] at hlen ⊢
    unfold Hw.putBytes
    rw [ih _ (i + 1) (by omega), pageAddr_events (by omega), Hw.putByte_events h b .A (by omega) (by omega),
      Hw.evtByte_mute, Hw.evtByte_pend h b (by omega) hk]
    rcases Nat.lt_trichotomy (7 - k / 8) i with hlt | heq | hgt
    · rw [if_neg (by omega), if_neg (by omega), if_neg (by omega)]
    · rw [if_neg (by omega), if_pos (by omega), if_pos (by omega), show 7 - k / 8 - i = 0 by omega]
      rfl
    · rw [if_neg (show ¬ k / 8 = 7 - (0x80 + i) % 8 by omega), show 7 - k / 8 - i = 7 - k / 8 - (i + 1) + 1 by omega]
      refine if_congr (by omega) rfl rfl

theorem Hw.putBytes_pend_keeps :
    (h.putBytes .A 0x80 i bs).evt.core = h.evt.core ∧ (h.putBytes .A 0x80 i bs).evt.mask = h.evt.mask := by
  induction bs generalizing h i with
  | nil => exact ⟨rfl, rfl⟩
  | cons b bs ih =>
    rw [List.length_cons] at hlen
    have hbyte : h.putByte .A (pageAddr 0x80 i) b = h.evtByte (0x80 + i) b := by
      rw [pageAddr_events (by omega), Hw.putByte_events h b .A (by omega) (by omega)]
    unfold Hw.putBytes
    rw [hbyte]
    obtain ⟨hcore, hmask⟩ := ih (h.evtByte (0x80 + i) b) (i + 1) (by omega)
    exact ⟨hcore.trans (h.evtByte_core b), hmask.trans (h.evtByte_keeps_mask b (by omega))⟩

end

/-! ## The wake of STANDBY -/

/-- The insertion, the sequencer and the reset cause, which turning the outputs off leaves alone. -/
def Hw.ground (h : Hw) : Insertion × Seq × Resets := (h.ins, h.seq, h.rst)

@[simp] theorem Hw.startRead_ground (h : Hw) : h.startRead.ground = h.ground := by unfold Hw.startRead; split <;> rfl

@[simp] theorem Hw.freeBus_ground (h : Hw) (p : Nat) : (h.freeBus p).ground = h.ground := by
  unfold Hw.freeBus
  split
  · exact Hw.startRead_ground _
  · rfl

@[simp] theorem Hw.turnOff_ground (h : Hw) (c : OffCause) (k : Nat) : (h.turnOff c k).ground = h.ground := by
  unfold Hw.turnOff
  split
  · rfl
  split
  · exact Hw.freeBus_ground _ _
  · dsimp only
    split
    · rfl
    · split <;> rfl

theorem Hw.turnOffAll_ground (h : Hw) (c : OffCause) : (h.turnOffAll c).ground = h.ground := by
  unfold Hw.turnOffAll
  induction List.range 18 generalizing h with
  | nil => rfl
  | cons k l ih => exact (ih _).trans (h.turnOff_ground c k)

@[simp] theorem Hw.revert_ground (h : Hw) : h.revert.ground = h.ground := h.turnOffAll_ground .command
@[simp] theorem Hw.startMetro_ground (h : Hw) (b : Bool) : (h.startMetro b).ground = h.ground := rfl
@[simp] theorem Hw.startAdc_ground (h : Hw) : h.startAdc.ground = h.ground := rfl
@[simp] theorem Hw.revert_desk (h : Hw) : h.revert.desk = h.desk := h.turnOffAll_desk .command
@[simp] theorem Hw.startMetro_desk (h : Hw) (b : Bool) : (h.startMetro b).desk = h.desk := rfl
@[simp] theorem Hw.startAdc_desk (h : Hw) : h.startAdc.desk = h.desk := rfl

/-- The core of a module that leaves STANDBY (R516): in OFF, the main domain powered, the boot ahead. -/
theorem Hw.exitStandby_ground (h : Hw) : h.exitStandby.ground =
    ({ h.ins with mainOn := true, booted := false, storeReady := false, scrubDue := true },
      { h.seq with state := .off, retries := 0 }, { h.rst with cause := 9 }) := by
  unfold Hw.exitStandby
  dsimp only
  rw [Hw.startAdc_ground, Hw.startMetro_ground, Hw.revert_ground]
  rfl

theorem Hw.exitStandby_desk (h : Hw) : ∃ f, h.exitStandby.desk = h.desk.withFaults f := by
  refine ⟨{ h.faults with inject := List.replicate 15 (0, false), arming := [] }, ?_⟩
  unfold Hw.exitStandby
  dsimp only
  rw [Hw.startAdc_desk, Hw.startMetro_desk, Hw.revert_desk]
  rfl

section
variable (h : Hw) (o : Origin)

theorem Hw.exitStandby_mbx : h.exitStandby.mbx o = h.mbx o := by
  obtain ⟨f, hf⟩ := h.exitStandby_desk
  cases o
  · exact congrArg Desk.a hf
  · exact congrArg Desk.v hf

theorem Hw.exitStandby_mask : h.exitStandby.evt.mask = h.evt.mask :=
  h.exitStandby_desk.elim fun _ hf => congrArg Desk.mask hf

/-- A bus interface that is down acknowledges nothing and takes nothing. -/
theorem Hw.unanswered_leaves : ((h.unanswered o id).mbx o).acked = false ∧ ((h.unanswered o id).mbx o).cmd = (h.mbx o).cmd ∧
    (h.unanswered o id).evt.mask = h.evt.mask := by
  unfold Hw.unanswered
  rw [Hw.modMbx_mbx_same, Hw.modMbx_evt]
  by_cases hw : h.wakes = true
  · have hcmd : (h.exitStandby.mbx o).cmd = (h.mbx o).cmd := congrArg Mailbox.cmd (h.exitStandby_mbx o)
    rw [if_pos hw]
    exact ⟨rfl, hcmd, h.exitStandby_mask⟩
  · rw [if_neg hw]
    exact ⟨rfl, rfl, rfl⟩

theorem Hw.unanswered_of_not_wakes (hw : h.wakes = false) :
    h.unanswered o id = h.modMbx o (fun m => { m with acked := false, stretching := false }) := by
  unfold Hw.unanswered
  rw [hw]
  rfl

theorem Hw.unanswered_of_wakes (hw : h.wakes = true) : (h.unanswered o id).ins.mainOn = true ∧
    (h.unanswered o id).ins.booted = false ∧ (h.unanswered o id).seq.state = .off ∧ (h.unanswered o id).rst.cause = 9 := by
  have hground := h.exitStandby_ground
  simp only [Hw.ground, Prod.mk.injEq] at hground
  obtain ⟨hins, hseq, hrst⟩ := hground
  unfold Hw.unanswered
  simp [hw, hins, hseq, hrst]

end

/-! ## The writes of the obligation -/

/-- One byte to EVT_PEND at address A. -/
theorem Hw.commitWrite_pend (h : Hw) (i : Nat) (b : Byte) (hi : i < 8) (hup : h.busUp = true) :
    let t := h.commitWrite .A (0x80 + i) [b]
    (∀ k < 64, t.evt.pend.getLsbD k = if k / 8 = 7 - i then b.getLsbD (k % 8) && !h.mute k else h.evt.pend.getLsbD k) ∧
      t.evt.core = h.evt.core ∧ t.evt.mask = h.evt.mask ∧ t.evt.cnt = h.evt.cnt ∧ t.outs = h.outs := by
  dsimp only
  rw [h.commitWrite_event b hup (by omega) (by omega)]
  refine ⟨fun k hk => ?_, by simp, ?_, by simp, by simp⟩
  · rw [Hw.evtByte_pend _ b (by omega) hk, Hw.acknowledged_mute, Hw.acknowledged_evt, show (0x80 + i) % 8 = i by omega]
  · rw [Hw.evtByte_keeps_mask _ b (by omega), Hw.acknowledged_evt]

/-- One byte to EVT_MASK at address A. -/
theorem Hw.commitWrite_mask (h : Hw) (i : Nat) (b : Byte) (hi : i < 8) (hup : h.busUp = true) :
    let t := h.commitWrite .A (0x88 + i) [b]
    (∀ k < 64, t.evt.mask.getLsbD k =
        if k / 8 = 7 - i then b.getLsbD (k % 8) && !reservedEvents.getLsbD k else h.evt.mask.getLsbD k) ∧
      t.evt.core = h.evt.core ∧ t.evt.pend = h.evt.pend ∧ t.evt.cnt = h.evt.cnt ∧ t.outs = h.outs := by
  dsimp only
  rw [h.commitWrite_event b hup (by omega) (by omega)]
  refine ⟨fun k hk => ?_, by simp, ?_, by simp, by simp⟩
  · rw [Hw.evtByte_mask _ b (by omega) hk, Hw.acknowledged_evt, show (0x88 + i) % 8 = i by omega]
  · rw [Hw.evtByte_keeps_pend _ b (by omega), Hw.acknowledged_evt]

/-- All eight bytes of EVT_PEND at address A. -/
theorem Hw.commitWrite_pend_all (h : Hw) (data : List Byte) (hup : h.busUp = true) (hlen : data.length = 8) :
    let t := h.commitWrite .A 0x80 data
    (t.mbx .A).acked = true ∧ t.evt.core = h.evt.core ∧ t.evt.mask = h.evt.mask ∧
      ∀ i < 8, ∀ j < 8, t.evt.pend.getLsbD (8 * (7 - i) + j) =
        ((data.getD i 0).getLsbD j && !h.mute (8 * (7 - i) + j)) := by
  have hw : ∀ j < data.length, writable .A (pageAddr 0x80 j) = true := by
    intro j hj
    rw [pageAddr_events (by omega)]
    exact writable_events (by omega) (by omega)
  obtain ⟨hcore, hmask⟩ := (h.acknowledged .A (if data.isEmpty then 0x80 else pageAddr 0x80 data.length)).putBytes_pend_keeps
    0 data (by omega)
  dsimp only
  rw [h.commitWrite_of_writable .A 0x80 data hup hw]
  refine ⟨Hw.acked_of_line .A ((Hw.putBytes_line _ _ _ _ _ _).trans (h.acknowledged_line .A _)),
    by rw [hcore, Hw.acknowledged_evt], by rw [hmask, Hw.acknowledged_evt], fun i hi j hj => ?_⟩
  rw [Hw.putBytes_pend _ 0 data (by omega) (by omega), if_pos (by omega), Hw.acknowledged_mute,
    show 7 - (8 * (7 - i) + j) / 8 - 0 = i by omega, show (8 * (7 - i) + j) % 8 = j by omega]

/-- A write to the command mailbox. -/
theorem Hw.commitWrite_window (h : Hw) (o : Origin) {ptr : Nat} (data : List Byte) (hup : h.busUp = true)
    (hbuf : h.buffersOk = true) (hlo : 0x1000 ≤ ptr) (hhi : ptr < 0x1100) (hlen : data.length ≤ 64) :
    let t := h.commitWrite o ptr data
    (t.mbx o).acked = true ∧
      (∀ i b, data[i]? = some b → Cells.get 0 (t.mbx o).cmd (pageAddr ptr i - 0x1000) = b) ∧
      (∀ a, (∀ i, i < data.length → a ≠ pageAddr ptr i - 0x1000) →
        Cells.get 0 (t.mbx o).cmd a = Cells.get 0 (h.mbx o).cmd a) ∧
      t.evt.pend = h.evt.pend ∧ t.wdt = h.wdt ∧ t.outs = h.outs := by
  have hw : ∀ j < data.length, writable o (pageAddr ptr j) = true := fun j _ =>
    writable_window o (pageAddr_window j hlo hhi).1 (pageAddr_window j hlo hhi).2
  have hwf := wf_cmd_of_buffersOk hbuf o
  dsimp only
  rw [h.commitWrite_of_writable o ptr data hup hw, Hw.putBytes_window _ o 0 data hlo hhi]
  simp only [Hw.modMbx_mbx_same, Hw.modMbx_evt, Hw.modMbx_wdt, Hw.modMbx_outs, Hw.acknowledged_mbx_cmd,
    Hw.acknowledged_evt, Hw.acknowledged_wdt, Hw.acknowledged_outs]
  refine ⟨Hw.acked_of_line o (h.acknowledged_line o _), fun i b hb => ?_, fun a ha => ?_, trivial, trivial, trivial⟩
  · have hget := Cells.get_putPage (h.mbx o).cmd 0 i data hlo hhi hwf hlen hb
    rwa [Nat.zero_add] at hget
  · exact Cells.get_putPage_other (h.mbx o).cmd 0 data hwf (by simpa using ha)

/-- At address V the event registers take no write. -/
theorem not_writable_events_V {a : Nat} (hlo : 0x80 ≤ a) (hhi : a < 0x90) : writable .V a = false := by
  simp [writable]
  omega

theorem Straps.origin_eq (p : Straps) (adr : BitVec 7) : p.origin adr =
    (if adr = 0x58 + 2 * p.addr.setWidth 7 then some .A else if adr = 0x59 + 2 * p.addr.setWidth 7 then some .V else none) :=
  rfl

/-- Settles O46: each outcome of a write is one equation, and the bytes that it puts are read back one at a time. -/
theorem busWritesReachTheirBytes : Obligations.BusWritesReachTheirBytes := by
  refine ⟨fun s adr ptr data c hc ho => completes_busWrite_elsewhere hc ho,
    fun s adr o ptr data v c hc ho hup hv => ?_, fun s adr o ptr data a nack c hc ho hup he => ?_,
    fun s adr o ptr data c hc ho hdown => ?_, fun s adr o ptr data ho hup hbuf hlo hhi hlen => ?_,
    fun s adr o ptr b bs ho hup hw hout => ?_, Straps.origin_eq, fun s adr i b ho hup => ?_, fun s adr i b ho hup => ?_,
    fun s adr data ho hup hlen => ?_, fun s adr i b ho hup => ?_⟩
  · have hline := s.hw.commitWrite_accepted_line o ptr.toNat data hup hv
    simp only [Hw.line, Mailbox.line, Prod.mk.injEq, List.isEmpty_iff] at hline
    exact completes_busWrite hc ho hline
  · obtain ⟨hacked, hptr, hcmd, hin, hq, hwdt, hmask, houts, hcap⟩ := s.hw.commitWrite_refused_leaves o ptr.toNat data hup he
    rw [violation_eq] at hcap
    exact completes_busWrite hc ho ⟨hacked, hptr, hcmd, hin, hq, hwdt, hmask, houts, hcap⟩
  · refine completes_busWrite hc ho ?_
    rw [s.hw.commitWrite_down o ptr.toNat data hdown]
    obtain ⟨hacked, hcmd, hmask⟩ := s.hw.unanswered_leaves o
    refine ⟨hacked, hcmd, hmask, fun hw => ?_, fun hw => s.hw.unanswered_of_wakes o hw⟩
    rw [s.hw.unanswered_of_not_wakes o hw]
    simp
  · exact completes_busWrite (.inl rfl) ho (s.hw.commitWrite_window o data hup hbuf hlo hhi hlen)
  · have hleft := s.hw.commitWrite_refused_leaves o ptr.toNat (b :: bs) hup
      (checkBytes_first_refused o ptr.toNat bs _ b _ hw hout)
    exact completes_busWrite (.inl rfl) ho ⟨hleft.acked, hleft.cmd, hleft.wdt, hleft.mask⟩
  · obtain ⟨hbits, hkeep⟩ := s.hw.commitWrite_pend i b i.isLt hup
    refine completes_busWrite (.inr rfl) ho ?_
    rw [toNat_eventPtr (by omega)]
    refine ⟨fun j => ?_, fun k hk => ?_, hkeep⟩
    · rw [hbits _ (by omega), if_pos (by omega), show (8 * (7 - i.val) + j.val) % 8 = j.val by omega]
    · exact (hbits k k.isLt).trans (if_neg hk)
  · obtain ⟨hbits, hkeep⟩ := s.hw.commitWrite_mask i b i.isLt hup
    refine completes_busWrite (.inl rfl) ho ?_
    rw [show (BitVec.ofNat 16 (0x88 + i.val)).toNat = 0x88 + i.val by rw [BitVec.toNat_ofNat]; omega]
    refine ⟨fun j => ?_, fun k hk => ?_, hkeep⟩
    · rw [hbits _ (by omega), if_pos (by omega), show (8 * (7 - i.val) + j.val) % 8 = j.val by omega]
    · exact (hbits k k.isLt).trans (if_neg hk)
  · obtain ⟨hacked, hcore, hmask, hbits⟩ := s.hw.commitWrite_pend_all data hup hlen
    exact completes_busWrite (.inr rfl) ho ⟨hacked, hcore, hmask, fun i j => hbits i i.isLt j j.isLt⟩
  · have ha : pageAddr (0x80 + i.val) 0 = 0x80 + i.val := pageAddr_self _
    have hleft := s.hw.commitWrite_refused_leaves .V (0x80 + i.val) [b] hup
      (checkBytes_first_refused .V _ [] _ b _ (by rw [ha]; exact not_writable_events_V (by omega) (by omega)) (.inr (.inr rfl)))
    refine completes_busWrite (.inr rfl) ho ?_
    rw [toNat_eventPtr i.isLt]
    refine ⟨hleft.acked, hleft.mask, fun hcap => ?_⟩
    rw [hleft.cap hcap, ha, violation_eq, if_neg (by omega)]
    rfl

end Sys2Proof.Machine
end

section
/-! SUPPORT. The input path from the seating to the store charge, and its retries on battery (R22, R31–R37, R42, R342, R363). -/

namespace Sys2Proof.Machine

/-! ## Each command on the input path, in the state that takes it -/

section
variable (h : Hw)

/-- The input path at the start of a pre-charge, its source of reset cause included (R31, R363). -/
theorem Hw.leaveIcehouse_path : h.leaveIcehouse.ins.inputSwitch = h.ins.inputSwitch ∧
    h.leaveIcehouse.ins.porCause = (if h.pwr.icehouse then 8 else h.ins.porCause) ∧ h.leaveIcehouse.outs = h.outs ∧
    h.leaveIcehouse.seq = h.seq := by
  unfold Hw.leaveIcehouse
  by_cases hice : h.pwr.icehouse = true
  · rw [if_pos hice, if_pos hice]
    exact ⟨rfl, rfl, rfl, rfl⟩
  · rw [if_neg hice, if_neg hice]
    exact ⟨rfl, rfl, rfl, rfl⟩

/-- When the straps are sampled (R22). -/
theorem Hw.samples_straps_iff :
    (h.unheld && !h.ins.booted && !h.ins.strapsDone && (h.ins.porCause != 0 || h.rst.cause == 2)) = true ↔
      h.ins.mainOn = true ∧ h.ins.booted = false ∧ h.lines.rstLow = false ∧ h.ins.strapsDone = false ∧
        (h.ins.porCause ≠ 0 ∨ h.rst.cause = 2) := by
  unfold Hw.unheld
  cases h.ins.booted <;> simp [and_assoc]

/-- A POR leaves the insertion as the closing of the input switch has set it (R34, R513). -/
theorem Hw.mainUp_ins : h.mainUp.ins =
    { h.ins with state := .storeCharge, inputSwitch := true, path33 := false, fails := 0, mainOn := true, booted := false,
                 storeReady := false, strapsDone := false, scrubDue := false,
                 vbatSwitch := if h.holdup then .closed else .opened } := rfl

/-- The end of the hold-off, with the return that waits for it (R32, R342). -/
theorem Hw.holdoffEnd_eq : (if h.pwr.onBattery && h.pwr.ret == .held && h.pwr.commit.isNone then
      ({ h with ins := { h.ins with holdoff := false } } : Hw).returnPrecharge
    else { h with ins := { h.ins with holdoff := false } }) =
    if h.pwr.onBattery = true ∧ h.pwr.ret = .held ∧ h.pwr.commit = none ∧ h.ins.fails < 3 then
      { h with ins := { h.ins with holdoff := false, path33 := true }, pwr := { h.pwr with ret := .precharge } }
    else { h with ins := { h.ins with holdoff := false } } := by
  unfold Hw.returnPrecharge
  by_cases hfails : h.ins.fails < 3 <;> simp [hfails, and_assoc]

end

theorem completes_inputSwitchClose_of_return {s : State} (hst : s.hw.ins.state = .ready) (hret : s.hw.pwr.ret = .precharge) :
    Completes .inputSwitchClose s (fun t => t = { s.hw with
      ins := { s.hw.ins with inputSwitch := true, path33 := false, fails := 0 }, pwr := { s.hw.pwr with ret := .balance } }) :=
  ⟨_, rfl, rfl, by simp [hst, hret]⟩

theorem completes_inputPrechargeTimeout_of_return {s : State} (hst : s.hw.ins.state = .ready)
    (hret : s.hw.pwr.ret = .precharge) :
    Completes .inputPrechargeTimeout s (fun t => t = { s.hw with
      ins := { s.hw.ins with path33 := false, holdoff := true, fails := s.hw.ins.fails + 1 }
      pwr := { s.hw.pwr with ret := .counting } }) :=
  ⟨_, rfl, rfl, by simp [hst, hret]⟩

/-- Settles O12: each command is its own function, read in the state that takes it. -/
theorem insertionReachesTheStoreCharge : Obligations.InsertionReachesTheStoreCharge := by
  refine ⟨fun s hst => ⟨_, rfl, rfl, ?_⟩, fun s hst hhold => ⟨_, rfl, rfl, ?_⟩, fun s => ⟨_, rfl, rfl, ?_⟩,
    fun s addr idx lead => ⟨_, rfl, rfl, ?_⟩, fun s hst => ⟨_, rfl, rfl, ?_⟩, fun s hst hfails => ⟨_, rfl, rfl, ?_⟩,
    fun s hst hfails => ⟨_, rfl, rfl, ?_⟩,
    fun s hst hret => ⟨completes_inputSwitchClose_of_return hst hret, completes_inputPrechargeTimeout_of_return hst hret⟩,
    fun s hst hbatt hret hcommit hopen hhold hfails hforce => ⟨_, rfl, rfl, ?_⟩⟩
  case refine_1 => rcases hst with hst | hst <;> simp [hst]
  case refine_2 =>
    obtain ⟨hswitch, hcause, houts, hseq⟩ := s.hw.leaveIcehouse_path
    simp [hst, hhold, hswitch, hcause, houts, hseq]
  case refine_3 => exact s.hw.holdoffEnd_eq
  case refine_4 => exact if_congr (s.hw.samples_straps_iff) rfl rfl
  case refine_5 => simp [hst, Hw.mainUp_ins]
  case refine_6 => simp [hst, Nat.not_le.mpr hfails]
  case refine_7 => simp [hst, hfails]
  case refine_8 => simp [hbatt, hret, hcommit, hopen, hhold, hforce, Hw.returnPrecharge, Nat.not_lt.mpr hfails]

end Sys2Proof.Machine
end

section
/-! SUPPORT. What an event, an error whose class asks for no more than a warning, and the accessory bus write, each as one equation: the
fields that it does not name stay. -/

namespace Sys2Proof.Machine

section
variable (h : Hw)

theorem Hw.raise_eq (k : Nat) :
    h.raise k = { h with idle := (h.raise k).idle, adc := (h.raise k).adc, evt := (h.raise k).evt } := by
  unfold Hw.raise
  by_cases hm : h.mute k = true
  · rw [if_pos hm]
  · rw [if_neg hm, h.wake_eq]

theorem Hw.warn_eq (src r : Nat) :
    h.warn src r = { h with idle := (h.warn src r).idle, adc := (h.warn src r).adc, evt := (h.warn src r).evt } := by
  unfold Hw.warn
  by_cases hr : r = 0
  · rw [if_pos hr]
  by_cases hecc : (src / 16 = 1 || src / 16 = 2 : Bool) = true
  · rw [if_neg hr, if_pos hecc]
    exact h.raise_eq 54
  by_cases hacc : src / 16 = 3
  · rw [if_neg hr, if_neg hecc, if_pos hacc]
    exact h.raise_eq 55
  · rw [if_neg hr, if_neg hecc, if_neg hacc]

theorem Hw.capture_eq (c : Capture) : h.capture c = { h with
    idle := (h.capture c).idle, adc := (h.capture c).adc, evt := (h.capture c).evt, faults := (h.capture c).faults } := by
  unfold Hw.capture
  by_cases hmask : c.source = 0x93
  · rw [if_pos hmask]
  · rw [if_neg hmask]
    cases h.faults.cap with
    | none => dsimp only; rw [Hw.raise_eq]
    | some _ => rfl

theorem Hw.collect_eq (src addr master access : Nat) (d : List Byte) : h.collect src addr master access d = { h with
    idle := (h.collect src addr master access d).idle, adc := (h.collect src addr master access d).adc
    evt := (h.collect src addr master access d).evt, faults := (h.collect src addr master access d).faults } := by
  unfold Hw.collect
  dsimp only
  rw [Hw.warn_eq, Hw.capture_eq]

/-- An error of a class that warns at most (R474). -/
theorem Hw.report_of_le_one {src : Nat} (hr : h.reaction src ≤ 1) (addr master access : Nat) (d : List Byte) :
    h.report src addr master access d = h.collect src addr master access d :=
  Hw.react_of_le_one _ hr

@[simp] theorem Hw.wake_idle : h.wake.idle.idle = false := by
  unfold Hw.wake
  by_cases hidle : h.idle.idle = true
  · rw [if_pos hidle]
  · rw [if_neg hidle]
    simpa using hidle

@[simp] theorem Hw.wake_seq : h.wake.seq = h.seq := by rw [Hw.wake_eq]

@[simp] theorem Hw.raise_ports (k : Nat) : (h.raise k).ports = h.ports := by rw [Hw.raise_eq]
@[simp] theorem Hw.wake_ports : h.wake.ports = h.ports := by rw [Hw.wake_eq]

theorem Hw.startRead_eq : h.startRead = { h with acc := h.startRead.acc } := by
  unfold Hw.startRead
  cases h.reading <;> cases h.nextRead <;> rfl

theorem Hw.freeBus_eq (p : Nat) : h.freeBus p = { h with acc := (h.freeBus p).acc } := by
  unfold Hw.freeBus
  by_cases hp : (h.acc.port == some p) = true
  · rw [if_pos hp, Hw.startRead_eq]
  · rw [if_neg hp]

@[simp] theorem Hw.startRead_ports : h.startRead.ports = h.ports := by rw [Hw.startRead_eq]
@[simp] theorem Hw.startRead_outs : h.startRead.outs = h.outs := by rw [Hw.startRead_eq]
@[simp] theorem Hw.freeBus_ports (p : Nat) : (h.freeBus p).ports = h.ports := by rw [Hw.freeBus_eq]
@[simp] theorem Hw.freeBus_faults (p : Nat) : (h.freeBus p).faults = h.faults := by rw [Hw.freeBus_eq]

end

end Sys2Proof.Machine
end

section
/-! SUPPORT. A read transaction, a protocol error and the wake at an address match, one equation an outcome (R391–R396, R516). -/

namespace Sys2Proof.Machine

section
variable (h : Hw) (o : Origin)

/-! ## A transaction with the bus interface down -/

theorem Hw.unanswered_mbx (f : Mailbox → Mailbox) :
    (h.unanswered o f).mbx o = { f (h.mbx o) with acked := false, stretching := false } := by
  have hwoken : (if h.wakes then h.exitStandby else h).mbx o = h.mbx o := by
    split
    · exact h.exitStandby_mbx o
    · rfl
  unfold Hw.unanswered
  rw [Hw.modMbx_mbx_same, hwoken]

theorem Hw.modMbx_ground (f : Mailbox → Mailbox) : (h.modMbx o f).ground = h.ground := by simp [Hw.ground]

/-- What a read takes from the module that it wakes does not depend on what the mailbox keeps of it. -/
theorem Hw.unanswered_ground (f : Mailbox → Mailbox) : (h.unanswered o f).ground = (h.unanswered o id).ground :=
  (Hw.modMbx_ground _ o _).trans (Hw.modMbx_ground _ o _).symm

/-- In STANDBY the matched address starts the boot, also of a transaction that is not answered (R395, R516). -/
theorem Hw.unanswered_boots (f : Mailbox → Mailbox) (hw : h.wakes = true) : (h.unanswered o f).ins.mainOn = true ∧
    (h.unanswered o f).seq.state = .off ∧ (h.unanswered o f).rst.cause = 9 := by
  have hsame := h.unanswered_ground o f
  simp only [Hw.ground, Prod.mk.injEq] at hsame
  obtain ⟨hins, hseq, hrst⟩ := hsame
  obtain ⟨hmain, -, hoff, hcause⟩ := h.unanswered_of_wakes o hw
  exact ⟨hins ▸ hmain, hseq ▸ hoff, hrst ▸ hcause⟩

/-- Elsewhere it leaves events and insertion alone. -/
theorem Hw.unanswered_keeps (f : Mailbox → Mailbox) (hw : h.wakes = false) :
    (h.unanswered o f).evt = h.evt ∧ (h.unanswered o f).ins = h.ins := by
  simp [Hw.unanswered, hw]

/-! ## A read -/

theorem Hw.readBus_down (p : Option Half) (n : Nat) (hup : h.busUp = false) :
    h.readBus o p n = h.unanswered o (fun m => { m with readBytes := List.replicate n 0xFF }) := by
  unfold Hw.readBus
  rw [if_pos (by simp [hup])]

/-- The pointer from which a read delivers: its own, or the one the transaction before has left (R391, R403). -/
def Mailbox.readFrom (m : Mailbox) (p : Option Half) : Nat := p.elim (if m.ptrReset then 0 else m.ptr) BitVec.toNat

theorem Hw.readBus_up (p : Option Half) (n : Nat) (hup : h.busUp = true) :
    h.readBus o p n = (h.start o).modMbx o (fun m =>
      { m with ptr := ((h.mbx o).readFrom p + n) % 65536, acked := true
               readBytes := (List.range n).map (fun i => (h.start o).readByte o (((h.mbx o).readFrom p + i) % 65536)) }) := by
  unfold Hw.readBus
  rw [if_neg (by simp [hup])]
  cases p with
  | some p => rfl
  | none =>
    dsimp only
    rw [Hw.start_mbx]
    rfl

/-- What stands at the reserved addresses reads 0 (R387). -/
theorem Hw.readByte_reserved {p : Nat} (hlo : 0x50 ≤ p) (hhi : p < 0x80) : h.readByte o p = 0 := by
  unfold Hw.readByte
  rw [if_neg (by omega), if_neg (by omega), if_pos hhi]

theorem Hw.readByte_beyond {p : Nat} (hp : 0x2800 ≤ p) : h.readByte o p = 0 := by
  unfold Hw.readByte
  simp [show ¬ p < 0x40 by omega, show ¬ p < 0x50 by omega, show ¬ p < 0x80 by omega, show ¬ p < 0x90 by omega,
    show ¬ p < 0xC0 by omega, show ¬ p < 0x100 by omega, show ¬ p < 0x110 by omega, show ¬ p < 0x1000 by omega,
    show ¬ p < 0x1100 by omega, show ¬ p < 0x1200 by omega, show ¬ p < 0x2000 by omega, show ¬ p < 0x2800 by omega]

theorem Hw.readByte_wdt_V {p : Nat} (hlo : 0x100 ≤ p) (hhi : p < 0x110) : h.readByte .V p = 0 := by
  unfold Hw.readByte
  simp [show ¬ p < 0x40 by omega, show ¬ p < 0x50 by omega, show ¬ p < 0x80 by omega, show ¬ p < 0x90 by omega,
    show ¬ p < 0xC0 by omega, show ¬ p < 0x100 by omega, hhi]

/-! ## A protocol error -/

theorem Hw.busError_down (p : Nat) (hup : h.busUp = false) : h.busError o p = h := by
  unfold Hw.busError
  rw [if_neg (by simp [hup])]

theorem Hw.busError_up (p : Nat) (hup : h.busUp = true) :
    h.busError o p = ((h.start o).report 0x40 p (masterOf o) 4 []).modMbx o (fun m => { m with acked := false }) := by
  unfold Hw.busError
  rw [if_pos hup]

/-- A protocol error leaves the mailbox but for the pointer that a core reset has cleared. -/
theorem Hw.busError_mbx (p : Nat) (hup : h.busUp = true) : (h.busError o p).mbx o = { h.mbx o with
    ptr := if (h.mbx o).ptrReset then 0 else (h.mbx o).ptr, ptrReset := false, stretching := false, acked := false } := by
  rw [h.busError_up o p hup, Hw.modMbx_mbx_same, Hw.report_mbx, Hw.start_mbx]

theorem Hw.busError_keeps (p : Nat) (hup : h.busUp = true) : (h.busError o p).evt.mask = h.evt.mask ∧
    (h.busError o p).wdt = h.wdt ∧ (h.busError o p).life = h.life := by
  rw [h.busError_up o p hup]
  simp

theorem Hw.busError_cap (p : Nat) (hup : h.busUp = true) (hcap : h.faults.cap = none) :
    (h.busError o p).faults.cap.map (fun c => (c.source, c.addr, c.master)) = some (0x40, p, masterOf o) := by
  rw [h.busError_up o p hup, Hw.modMbx_faults, Hw.report_cap _ _ _ _ _ _ (by simpa using hcap) (by decide)]
  rfl

end

/-! ## The address match (R395, R516) -/

/-- What a match of the address at o does. -/
def Hw.matched (h : Hw) (o : Origin) : Hw :=
  if h.wakes then h.exitStandby.modMbx o (fun m => { m with stretching := true })
  else if h.idle.idle && h.busUp then h.wake.modMbx o (fun m => { m with stretching := true })
  else h

/-- A module that answers is not in STANDBY. -/
theorem Hw.wakes_of_busUp {h : Hw} (hup : h.busUp = true) : h.wakes = false := by
  have hon : h.ins.mainOn = true := by
    simp only [Hw.busUp, Hw.live, Bool.and_eq_true] at hup
    exact hup.1.1
  simp [Hw.wakes, hon]

theorem Hw.matched_of_wakes {h : Hw} (o : Origin) (hw : h.wakes = true) : (h.matched o).ins.mainOn = true ∧
    (h.matched o).ins.booted = false ∧ (h.matched o).seq.state = .off ∧ (h.matched o).rst.cause = 9 ∧
    ((h.matched o).mbx o).stretching = true := by
  have hground := h.exitStandby_ground
  simp only [Hw.ground, Prod.mk.injEq] at hground
  obtain ⟨hins, hseq, hrst⟩ := hground
  unfold Hw.matched
  simp [hw, hins, hseq, hrst]

theorem Hw.matched_of_idle {h : Hw} (o : Origin) (hidle : h.idle.idle = true) (hup : h.busUp = true) :
    (h.matched o).idle.idle = false ∧ ((h.matched o).mbx o).stretching = true ∧ (h.matched o).seq = h.seq ∧
    (h.matched o).outs = h.outs := by
  unfold Hw.matched
  rw [Hw.wakes_of_busUp hup, if_neg Bool.false_ne_true, if_pos (by simp [hidle, hup])]
  simp

/-! ## The commands -/

theorem Hw.addressed_of_some {h : Hw} {adr : BitVec 7} {o : Origin} (ho : h.straps.origin adr = some o)
    (f : Origin → Hw) :
    h.addressed adr f = f o := by
  unfold Hw.addressed
  rw [ho]

theorem Hw.addressed_of_none {h : Hw} {adr : BitVec 7} (ho : h.straps.origin adr = none) (f : Origin → Hw) :
    h.addressed adr f = h := by
  unfold Hw.addressed
  rw [ho]

section
variable {s : State} {post : Hw → Prop} {adr : BitVec 7} {o : Origin}

theorem completes_readSnapshot (ho : s.hw.straps.origin adr = some o) (p : Option Half) (n : Nat)
    (hp : post (s.hw.readBus o p n)) : Completes (.readSnapshot adr p n) s post :=
  ⟨_, rfl, rfl, (congrArg post (Hw.addressed_of_some ho _)).mpr hp⟩

/-- Four commands report a protocol error with the pointer that they name. -/
theorem completes_busError {c : Instr} {p : Half} (hc : c = .repeatedStartInAck o p ∨ c = .startInsideByte o p ∨
    c = .stopInsideByte o p ∨ c = .stalledTransaction o p) (hp : post (s.hw.busError o p.toNat)) : Completes c s post := by
  rcases hc with rfl | rfl | rfl | rfl <;> exact ⟨_, rfl, rfl, hp⟩

theorem completes_addressMatchWake (ho : s.hw.straps.origin adr = some o)
    (hp : post (s.hw.matched o)) : Completes (.addressMatchWake adr) s post :=
  ⟨_, rfl, rfl, (congrArg post (Hw.addressed_of_some ho _)).mpr hp⟩

end

/-- Settles O47: a read, a protocol error and a wake each have one equation with the interface up and one with it down. -/
theorem busReadsAndErrors : Obligations.BusReadsAndErrors := by
  refine ⟨fun s adr p n ho => ⟨_, rfl, rfl, ?_⟩, fun s adr o p n ho hup => ?_, fun s adr o n ho hup => ?_,
    fun s adr o p n ho hup => ?_, fun h o p hlo hhi => h.readByte_reserved o hlo hhi, fun h o p hp => h.readByte_beyond o hp,
    fun h p hlo hhi => h.readByte_wdt_V hlo hhi, fun s o p c hc hup => ?_, fun s o hup hptr => ⟨_, rfl, rfl, ?_⟩,
    fun s o p c hc hup => ?_, fun s adr o ho hw => ?_, fun s adr o ho hidle hup => ?_,
    fun s adr ho => ⟨_, rfl, rfl, ?_⟩, fun s o hst => ⟨_, rfl, rfl, ?_⟩⟩
  case refine_1 => exact Hw.addressed_of_none ho _
  case refine_2 =>
    refine completes_readSnapshot ho _ _ ?_
    rw [s.hw.readBus_up o (some p) n hup]
    simp [Mailbox.readFrom]
  case refine_3 =>
    refine completes_readSnapshot ho _ _ ?_
    rw [s.hw.readBus_up o none n hup]
    simp [Mailbox.readFrom]
  case refine_4 =>
    refine completes_readSnapshot ho _ _ ?_
    rw [s.hw.readBus_down o p n hup, Hw.unanswered_mbx]
    exact ⟨rfl, rfl, s.hw.unanswered_keeps o _, s.hw.unanswered_boots o _⟩
  case refine_5 =>
    refine completes_busError hc ?_
    obtain ⟨hmask, hwdt, hlife⟩ := s.hw.busError_keeps o p.toNat hup
    rw [s.hw.busError_mbx o p.toNat hup]
    exact ⟨rfl, rfl, rfl, hmask, hwdt, hlife, s.hw.busError_cap o _ hup⟩
  case refine_6 =>
    obtain ⟨-, hwdt, -⟩ := s.hw.busError_keeps o (s.hw.mbx o).ptr hup
    simp only [hptr, Bool.false_eq_true, if_false, s.hw.busError_mbx o _ hup]
    exact ⟨trivial, trivial, trivial, hwdt, s.hw.busError_cap o _ hup⟩
  case refine_7 =>
    have hsame : ∀ p, s.hw.busError o p = s.hw := fun p => s.hw.busError_down o p hup
    rcases hc with rfl | rfl | rfl | rfl | rfl <;> exact ⟨_, rfl, rfl, hsame _⟩
  case refine_8 => exact completes_addressMatchWake ho (Hw.matched_of_wakes o hw)
  case refine_9 => exact completes_addressMatchWake ho (Hw.matched_of_idle o hidle hup)
  case refine_10 => exact Hw.addressed_of_none ho _
  case refine_11 =>
    simp only [hst, if_true, Hw.modMbx_mbx_same, Hw.modMbx_outs]
    exact ⟨trivial, trivial, ⟨_, rfl⟩, by cases o <;> rfl, rfl⟩

end Sys2Proof.Machine
end

section
/-! SUPPORT. What the rows of a port leave in its record: the seating, the descriptor's verdict, the request of a pre-charge
(R48–R52, R57, R398–R402). -/

namespace Sys2Proof.Machine

/-! ## The record of a port -/

theorem Hw.port_of_ports {h g : Hw} (hp : h.ports = g.ports) (p : Nat) : h.port p = g.port p :=
  congrArg (·.getD p Port.empty) hp

section
variable (h : Hw) {p : Nat}

@[simp] theorem Hw.raise_port (k q : Nat) : (h.raise k).port q = h.port q := Hw.port_of_ports (h.raise_ports k) q
@[simp] theorem Hw.wake_port (q : Nat) : h.wake.port q = h.port q := Hw.port_of_ports h.wake_ports q
@[simp] theorem Hw.startRead_port (q : Nat) : h.startRead.port q = h.port q := Hw.port_of_ports h.startRead_ports q
@[simp] theorem Hw.freeBus_port (k q : Nat) : (h.freeBus k).port q = h.port q := Hw.port_of_ports (h.freeBus_ports k) q

@[simp] theorem Hw.modPort_ports_length (k : Nat) (f : Port → Port) : (h.modPort k f).ports.length = h.ports.length :=
  List.length_modify _ _ _

@[simp] theorem Hw.modPort_port_other {k q : Nat} (hq : q ≠ k) (f : Port → Port) : (h.modPort k f).port q = h.port q := by
  rw [Hw.port_modPort, if_neg (fun hc => hq hc.1.symm)]

variable (hlt : p < h.ports.length)
include hlt

@[simp] theorem Hw.modPort_port_same (f : Port → Port) : (h.modPort p f).port p = f (h.port p) := by
  rw [Hw.port_modPort, if_pos ⟨rfl, hlt⟩]

theorem Hw.refuseBoard_port (reason : Nat) :
    (h.refuseBoard p reason).port p = { h.port p with state := .refused, reason := reason, reread := false } := by
  unfold Hw.refuseBoard
  rw [Hw.raise_port, Hw.modPort_port_same h hlt]

theorem Hw.beginPrecharge_port : (h.beginPrecharge p).port p =
    { h.port p with state := .precharge, waiting := false, spacing := true, reread := false } :=
  Hw.modPort_port_same h hlt _

/-- A pre-charge that is asked for begins, or waits for the end of the 2 s (R52); either way nothing of the board changes. -/
theorem Hw.askPrecharge_board : ∃ st w sp r,
    (h.askPrecharge p).port p = { h.port p with state := st, waiting := w, spacing := sp, reread := r } := by
  unfold Hw.askPrecharge
  by_cases hsp : (h.port p).spacing = true
  · rw [if_pos hsp, Hw.modPort_port_same h hlt]
    exact ⟨_, true, _, _, rfl⟩
  · rw [if_neg hsp, h.beginPrecharge_port hlt]
    exact ⟨_, _, _, _, rfl⟩

/-- An accepted board keeps what its descriptor has said. -/
theorem Hw.acceptBoard_board : ∃ st w sp r, (h.acceptBoard p).port p =
    { h.port p with accepted := true, state := st, waiting := w, spacing := sp, reread := r } := by
  unfold Hw.acceptBoard
  obtain ⟨st, w, sp, r, hport⟩ := Hw.askPrecharge_board (h.modPort p (fun x => { x with accepted := true })) (by simpa using hlt)
  exact ⟨st, w, sp, r, by rw [hport, Hw.modPort_port_same h hlt]⟩

/-- Outside the 2 s after the last one, an accepted board's pre-charge begins at once. -/
theorem Hw.acceptBoard_starts (hsp : (h.port p).spacing = false) :
    ((h.acceptBoard p).port p).state = .precharge ∧ ((h.acceptBoard p).port p).accepted = true := by
  unfold Hw.acceptBoard Hw.askPrecharge
  rw [Hw.modPort_port_same h hlt, if_neg (by simp [hsp]), Hw.beginPrecharge_port _ (by simpa using hlt),
    Hw.modPort_port_same h hlt]
  exact ⟨rfl, rfl⟩

/-- No descriptor: REQUIRED refuses the board, the other modes accept it (R51). -/
theorem Hw.descAbsent_port :
    (h.portMode p = .required → ((h.descAbsent p).port p).state = .refused ∧ ((h.descAbsent p).port p).reason = 0x10) ∧
    (h.portMode p ≠ .required → ((h.descAbsent p).port p).accepted = true) := by
  unfold Hw.descAbsent
  refine ⟨fun hm => ?_, fun hm => ?_⟩
  · rw [if_pos (by simp [hm]), h.refuseBoard_port hlt]
    exact ⟨rfl, rfl⟩
  · rw [if_neg (by simpa using hm)]
    obtain ⟨st, w, sp, r, hport⟩ := Hw.acceptBoard_board (h.modPort p (fun x => { x with reread := false })) (by simpa using hlt)
    rw [hport]

/-! ## A descriptor of 16 bytes (R51) -/

omit hlt in
theorem Hw.judgeDesc_of_bad {d : List Byte} (hd : descOk d = false) :
    h.judgeDesc p d = (h.take 0x0E).refuseBoard p 0x11 := by
  unfold Hw.judgeDesc
  rw [if_neg (by simp [hd])]

/-- A valid descriptor is stored, and judged by the currents and the capacitance that it declares. -/
theorem Hw.judgeDesc_port {d : List Byte} (hhit : h.hit 0x0E = false) (hd : descOk d = true) :
    let x := (h.judgeDesc p d).port p
    x.descValid = true ∧ x.iDecl = ube (slice d 4 2) ∧ x.boardId = slice d 8 4 ∧
      (ilimMa (h.port p).ilim < ube (slice d 4 2) → x.state = .refused ∧ x.reason = 0x12) ∧
      (ube (slice d 4 2) ≤ ilimMa (h.port p).ilim → 220 < ube (slice d 6 2) → x.state = .refused ∧ x.reason = 0x13) ∧
      (ube (slice d 4 2) ≤ ilimMa (h.port p).ilim → ube (slice d 6 2) ≤ 220 → x.accepted = true) := by
  have hlt' : p < ((h.take 0x0E).modPort p (fun x => { x with
      descValid := true, iDecl := ube (slice d 4 2), cDecl := ube (slice d 6 2), boardId := slice d 8 4 })).ports.length := by
    rw [Hw.modPort_ports_length]
    exact hlt
  have hsame := Hw.modPort_port_same (h.take 0x0E) hlt (fun x => { x with
    descValid := true, iDecl := ube (slice d 4 2), cDecl := ube (slice d 6 2), boardId := slice d 8 4 })
  have hport : (h.take 0x0E).port p = h.port p := rfl
  unfold Hw.judgeDesc
  dsimp only
  rw [if_pos (by simp [hd, hhit]), hsame, hport]
  by_cases hi : ilimMa (h.port p).ilim < ube (slice d 4 2)
  · rw [if_pos hi, Hw.refuseBoard_port _ hlt', hsame]
    simp [hi, Nat.not_le.mpr hi]
  by_cases hc : 220 < ube (slice d 6 2)
  · rw [if_neg hi, if_pos hc, Hw.refuseBoard_port _ hlt', hsame]
    simp [hi, hc]
  · obtain ⟨st, w, sp, r, hacc⟩ := Hw.acceptBoard_board _ hlt'
    rw [if_neg hi, if_neg hc, hacc, hsame]
    simp [hi, hc]

end

/-! ## A read left short (R50, R401, R402) -/

theorem Hw.accError_ports (h : Hw) (hr : h.reaction 0x42 ≤ 1) : h.accError.ports = h.ports := by
  unfold Hw.accError
  rw [h.report_of_le_one hr, Hw.collect_eq]

/-- The port of a failed read starts its read again, where the error's class asks for no more than a warning. -/
theorem Hw.failRead_port (h : Hw) {p : Nat} (hlt : p < h.ports.length) :
    (h.failRead p).port p = { h.port p with reread := true } := by
  unfold Hw.failRead
  rw [Hw.freeBus_port, Hw.modPort_port_same h hlt]

theorem Hw.accError_failRead_cap (h : Hw) (p : Nat) (hcap : h.faults.cap = none) :
    (h.accError.failRead p).faults.cap.map (fun c => (c.source, c.addr, c.master, c.access)) =
      some (0x42, h.accAddr, 7, 4) := by
  unfold Hw.failRead Hw.accError
  rw [Hw.freeBus_faults, Hw.modPort_faults, Hw.report_cap _ _ _ _ _ _ hcap (by decide)]
  rfl

/-! ## The rows -/

theorem Hw.port_lt_of_state (h : Hw) {p : Nat} {st : PortState} (hst : (h.port p).state = st) (hne : st ≠ .empty) :
    p < h.ports.length :=
  h.port_lt (hst ▸ hne)

section
variable {s : State} {p : Fin 6} {post : Hw → Prop}

/-- A port that may start and whose board has been seated long enough goes on, with its descriptor or without (R57). -/
theorem completes_epSeatingStable (hst : (s.hw.port p).state = .seating) (hlow : (s.hw.port p).eppresLow = true)
    (hw : (s.hw.port p).waiting = false) (hal : s.hw.portAllowed p = true)
    (hp : post (if s.hw.portMode p == .off then s.hw.acceptBoard p
      else (s.hw.modPort p (fun x => { x with state := .descCheck, reread := false })).startRead)) :
    Completes (.epSeatingStable p) s post :=
  ⟨_, rfl, rfl, by simpa [hst, hlow, hw, hal] using hp⟩

variable (hst : (s.hw.port p).state = .descCheck) (hread : s.hw.reading = some p.val) (hw : s.hw.acc.waiting = false)
include hst hread hw

/-- A read of the port that holds the bus ends with bytes. -/
theorem completes_descReadComplete_some (d : List Byte)
    (hp : post (if d.length = 16 then (s.hw.judgeDesc p d).freeBus p else s.hw.accError.failRead p)) :
    Completes (.descReadComplete p (some d)) s post :=
  ⟨_, rfl, rfl, by simpa [hst, hread, hw] using hp⟩

/-- It ends with an address that was not acknowledged. -/
theorem completes_descReadComplete_none
    (hp : post (if s.hw.acc.nacks < 2 then s.hw else (s.hw.descAbsent p).freeBus p)) :
    Completes (.descReadComplete p none) s post :=
  ⟨_, rfl, rfl, by simpa [hst, hread, hw] using hp⟩

end

/-- Settles O18: the row of each judgement, and the port's record after it. -/
theorem portsJudgeTheirBoards : Obligations.PortsJudgeTheirBoards := by
  refine ⟨fun s p hlt hst hlive => ⟨_, rfl, rfl, ?_⟩, fun s p hlive => ⟨_, rfl, rfl, ?_⟩,
    fun s p hst hlow hw hal hmode => ?_, fun s p hst hlow hw hal hmode hsp => ?_, fun s p hst hre => ⟨_, rfl, rfl, ?_⟩,
    fun s p d hst hread hw hlen hhit => ?_, fun s p d hst hread hw hlen hcap => ?_, fun s p hst hread hw hn => ?_,
    fun s p hst hread hw hn => ?_, fun s p hst hw => ⟨_, rfl, rfl, ?_⟩⟩
  case refine_1 =>
    have hlive' : (s.hw.modPort p (fun x => { x with eppresLow := true })).live = true := hlive
    dsimp only
    rw [if_pos hlive']
    simp +contextual [hlt, hst]
  case refine_2 => exact if_neg (by simpa [Hw.live] using hlive)
  case refine_3 =>
    have hlt := s.hw.port_lt_of_state hst (by decide)
    refine completes_epSeatingStable hst hlow hw hal ?_
    rw [if_neg (by simpa using hmode), Hw.startRead_port, Hw.modPort_port_same _ hlt, Hw.startRead_outs]
    exact ⟨rfl, rfl, rfl⟩
  case refine_4 =>
    have hlt := s.hw.port_lt_of_state hst (by decide)
    refine completes_epSeatingStable hst hlow hw hal ?_
    rw [if_pos (by simp [hmode])]
    exact s.hw.acceptBoard_starts hlt hsp
  case refine_5 =>
    have hlt := s.hw.port_lt_of_state hst (by decide)
    simp [hst, hre, hlt]
  case refine_6 =>
    have hlt := s.hw.port_lt_of_state hst (by decide)
    refine completes_descReadComplete_some hst hread hw d ?_
    rw [if_pos hlen, Hw.freeBus_port]
    refine ⟨fun hd => ?_, s.hw.judgeDesc_port hlt hhit⟩
    rw [s.hw.judgeDesc_of_bad hd, Hw.refuseBoard_port (s.hw.take 0x0E) hlt]
    exact ⟨rfl, rfl⟩
  case refine_7 =>
    have hlt := s.hw.port_lt_of_state hst (by decide)
    refine completes_descReadComplete_some hst hread hw d ?_
    rw [if_neg hlen]
    refine ⟨fun hr => ?_, s.hw.accError_failRead_cap p hcap⟩
    have hports := s.hw.accError_ports hr
    rw [Hw.failRead_port _ (by rwa [hports]), Hw.port_of_ports hports]
    exact ⟨hst, rfl⟩
  case refine_8 =>
    exact completes_descReadComplete_none hst hread hw (if_pos hn)
  case refine_9 =>
    have hlt := s.hw.port_lt_of_state hst (by decide)
    refine completes_descReadComplete_none hst hread hw ?_
    rw [if_neg (by omega), Hw.freeBus_port]
    exact s.hw.descAbsent_port hlt
  case refine_10 =>
    have hlt := s.hw.port_lt_of_state hst (by decide)
    simpa [hst, hw] using s.hw.descAbsent_port hlt

end Sys2Proof.Machine
end

section
/-! SUPPORT. A seal break whose fuse record meets a flash error (R286, R323, R469, R474, R477): the class reaction closes the sessions
before the break does. -/

namespace Sys2Proof.Machine

/-- The oldest sector of the half that takes the next record holds a live record of the open set, and the newest takes no more:
the record of the burned fuse cannot be written before the oldest is compacted (R323). -/
def crowdedHalf : RingSt :=
  { liveHw.store.half0 with secs := [⟨1, 0, [mkRec 0x200 1 false []], false⟩, ⟨2, 0, [], true⟩], blank := [] }

/-- A SEALED module in RUN with one session open; class 2 answers with SAFE_STATE, class 12 with WARN as by default, and Folly has armed one
uncorrectable error for the next read of a parameters record (R477). -/
def sealedWithErrorArmed : Hw :=
  { liveHw with
    life := { liveHw.life with prov := true, seals := 1 }
    slots := liveHw.slots.set 0 { Slot.none with st := .opened }
    faults := { liveHw.faults with policies := defaultPolicies.set 1 2
                                   inject := (List.replicate 15 (0, false)).set 4 (1, true) }
    store := { liveHw.store with half0 := crowdedHalf } }

/-- The compaction that the fuse record needs meets the error: SAFE_STATE asks the session to close with reason FAULT, and the first
request fixes the reason (R281). -/
theorem sealBreak_after_error_armed :
    ((after (exec (.sealBreak .falls) ⟨sealedWithErrorArmed, []⟩)).slot 0).reason = 4 := by decide +kernel

/-- Refutes O52: a session that a flash error's SAFE_STATE has asked to close, within the break, does not read SEAL_BREAK. -/
theorem not_sealBreakLeavesSealed : ¬ Obligations.SealBreakLeavesSealed := by
  unfold Obligations.SealBreakLeavesSealed
  rintro ⟨-, -, -, -, -, -, -, -, hclose⟩
  obtain ⟨t, hrun, -, hpost⟩ := hclose ⟨sealedWithErrorArmed, []⟩ (by decide +kernel) (by decide +kernel) (by decide +kernel)
    (by decide +kernel) (by decide +kernel) (by decide +kernel)
  obtain ⟨-, hsix⟩ := hpost 0 (by decide +kernel) (by decide +kernel)
  have hfour := sealBreak_after_error_armed
  rw [hrun] at hfour
  exact absurd (hfour.symm.trans hsix) (by decide)

end Sys2Proof.Machine
end

section
/-! SUPPORT. What the operations of the outputs and of the sequencer leave alone (R185–R206): clock, insertion, contacts, resets,
session slots, totalizers, session log, the module's place on the link, and the sequencer but for the marks of its step. -/

namespace Sys2Proof.Machine

/-- Of the hardware, what no operation of the outputs, the sequencer or the store writes. -/
structure Ledger where
  clk : Nat
  ins : Insertion
  lines : Lines
  chans : List Chan
  ticks : Nat
  log : Log
  queue : List StoreWrite
  roster : BitVec 16
  orphanExpired : Bool
  conflict : Bool
  tx : List Byte

def Hw.ledger (h : Hw) : Ledger :=
  { clk := h.clk, ins := h.ins, lines := h.lines, chans := h.metro.chans, ticks := h.lodge.ticks, log := h.log
    queue := h.store.queue, roster := h.prm.roster, orphanExpired := h.prm.orphanExpired, conflict := h.prm.conflict
    tx := h.prm.tx }

/-- The sequencer but for the marks of the step in progress and PGOOD, which steps set as they go. -/
def Seq.plan (q : Seq) : Seq := { q with stepAt := 0, passing := false, hostOff := 0, pgood := false }

def Hw.rest (h : Hw) : Ledger × Resets × List Slot × Seq := (h.ledger, h.rst, h.slots, h.seq.plan)

section
variable {g h : Hw} (e : g.rest = h.rest)
include e

theorem ledger_of_rest : g.ledger = h.ledger := congrArg (·.1) e
theorem rst_of_rest : g.rst = h.rst := congrArg (·.2.1) e
theorem slots_of_rest : g.slots = h.slots := congrArg (·.2.2.1) e
theorem plan_of_rest : g.seq.plan = h.seq.plan := congrArg (·.2.2.2) e
theorem state_of_rest : g.seq.state = h.seq.state := congrArg (fun r => r.2.2.2.state) e

end

/-- A sequencer that has come to a plan agrees with it in all but the marks of the step. -/
theorem seq_of_rest {g : Hw} {l : Ledger} {r : Resets} {c : List Slot} {q : Seq} (e : g.rest = (l, r, c, q.plan)) :
    g.seq.state = q.state ∧ g.seq.step = q.step ∧ g.seq.dir = q.dir ∧ g.seq.retries = q.retries ∧ g.seq.cause = q.cause ∧
      g.seq.fltDrive = q.fltDrive ∧ g.seq.clearTest = q.clearTest := by
  have hplan : g.seq.plan = q.plan := congrArg (fun r => r.2.2.2) e
  exact ⟨congrArg (fun p => p.state) hplan, congrArg (fun p => p.step) hplan, congrArg (fun p => p.dir) hplan,
    congrArg (fun p => p.retries) hplan, congrArg (fun p => p.cause) hplan, congrArg (fun p => p.fltDrive) hplan,
    congrArg (fun p => p.clearTest) hplan⟩

theorem foldl_rest {α : Type} (f : Hw → α → Hw) (H : ∀ h x, (f h x).rest = h.rest) (l : List α) (h : Hw) :
    (l.foldl f h).rest = h.rest := by
  induction l generalizing h with
  | nil => rfl
  | cons x l ih => exact (ih _).trans (H h x)

theorem ite_rest {p : Prop} [Decidable p] {a b : Hw} {d : Ledger × Resets × List Slot × Seq} (ha : a.rest = d)
    (hb : b.rest = d) : (if p then a else b).rest = d := by
  split <;> assumption

/-! ## Events, jobs, the accessory bus -/

section
variable (h : Hw)

@[simp] theorem Hw.wake_rest : h.wake.rest = h.rest := by rw [Hw.wake_eq]; rfl
@[simp] theorem Hw.raise_rest (k : Nat) : (h.raise k).rest = h.rest := by rw [Hw.raise_eq]; rfl
@[simp] theorem Hw.raiseIf_rest (c : Bool) (k : Nat) : (h.raiseIf c k).rest = h.rest := ite_rest (h.raise_rest k) rfl
@[simp] theorem Hw.freeBus_rest (p : Nat) : (h.freeBus p).rest = h.rest := by rw [Hw.freeBus_eq]; rfl
@[simp] theorem Hw.modOut_rest (k : Nat) (f : Output → Output) : (h.modOut k f).rest = h.rest := rfl
@[simp] theorem Hw.modPort_rest (k : Nat) (f : Port → Port) : (h.modPort k f).rest = h.rest := rfl
@[simp] theorem Hw.modRail_rest (k : Nat) (f : VpRail → VpRail) : (h.modRail k f).rest = h.rest := rfl

@[simp] theorem Hw.endJob?_rest (n : Option Nat) (st r : Nat) (d : List Byte) : (h.endJob? n st r d).rest = h.rest := by
  cases n <;> rfl

@[simp] theorem Hw.evalPgood_rest : h.evalPgood.rest = h.rest := h.raiseIf_rest (h.seq.pgood && !h.pgoodLevel) 22
@[simp] theorem Hw.pgoodLow_rest : h.pgoodLow.rest = h.rest := h.raiseIf_rest h.seq.pgood 22
@[simp] theorem Hw.govEnd_rest : h.govEnd.rest = h.rest := rfl

@[simp] theorem Hw.endMove_rest (r : Nat) : (h.endMove r).rest = h.rest := by unfold Hw.endMove; split <;> rfl

/-! ## Outputs on and off -/

@[simp] theorem Hw.turnOff_rest (c : OffCause) (k : Nat) : (h.turnOff c k).rest = h.rest := by
  unfold Hw.turnOff
  exact ite_rest rfl (ite_rest (Hw.freeBus_rest _ _) (ite_rest rfl (ite_rest rfl rfl)))

@[simp] theorem Hw.turnOffAll_rest (c : OffCause) : (h.turnOffAll c).rest = h.rest :=
  foldl_rest _ (fun h k => h.turnOff_rest c k) _ h

@[simp] theorem Hw.revert_rest : h.revert.rest = h.rest := h.turnOffAll_rest .command

@[simp] theorem Hw.activate_rest (k p : Nat) : (h.activate k p).rest = h.rest :=
  ite_rest (a := h.endMove 1) (h.endMove_rest 1) rfl

@[simp] theorem Hw.substitute_rest (k : Nat) : (h.substitute k).rest = h.rest := by
  unfold Hw.substitute
  refine ite_rest ?_ ?_
  · rw [Hw.raise_rest, Hw.modRail_rest]
    exact foldl_rest _ (fun g _ => ite_rest (by split <;> rfl) rfl) _ h
  · rw [Hw.modRail_rest]
    exact foldl_rest _ (fun g _ => ite_rest (by split <;> rfl) rfl) _ h

@[simp] theorem Hw.startPhases_rest (k : Nat) : (h.startPhases k).rest = h.rest := by
  unfold Hw.startPhases
  refine (foldl_rest _ (fun g _ => ite_rest ?_ rfl) _ _).trans (h.substitute_rest k)
  split
  · exact Hw.activate_rest _ _ _
  · rfl

@[simp] theorem Hw.startRamp_rest (k : Nat) (i : Bool) : (h.startRamp k i).rest = h.rest := by
  unfold Hw.startRamp
  exact ite_rest (Hw.startPhases_rest _ k) (ite_rest rfl rfl)

@[simp] theorem Hw.turnOn_rest (k : Nat) (i : Bool) : (h.turnOn k i).rest = h.rest := by
  unfold Hw.turnOn
  exact ite_rest rfl (ite_rest rfl (ite_rest rfl (ite_rest rfl (h.startRamp_rest k i))))

@[simp] theorem Hw.disable_rest (k : Nat) : (h.disable k).rest = h.rest := by
  unfold Hw.disable
  exact ite_rest (h.turnOff_rest .command k) (h.turnOff_rest .command k)

theorem Hw.setPool_rest (po : Pool) : ({ h with pool := po } : Hw).rest = h.rest := rfl

@[simp] theorem Hw.holdRamps_rest : h.holdRamps.rest = h.rest := by
  unfold Hw.holdRamps
  dsimp only
  rw [Hw.setPool_rest]
  refine (foldl_rest _ (fun g k => ?_) _ _).trans (foldl_rest _ (fun g p => ?_) _ h)
  · exact ite_rest rfl rfl
  · exact ite_rest rfl (g.turnOff_rest .command _)

/-! ## Steps and requests -/

theorem Hw.cabStart_rest (n : Nat) : (Hw.cabStart n h).rest = h.rest := by
  induction n generalizing h with
  | zero => rfl
  | succ n ih =>
    unfold Hw.cabStart
    refine ite_rest rfl ?_
    split
    · rfl
    · exact ite_rest rfl (ite_rest (Hw.raise_rest _ 63) ((ih _).trans (Hw.raise_rest _ 63)))

@[simp] theorem Hw.cabBegin_rest (d : Bool) : (h.cabBegin d).rest = h.rest := ite_rest (Hw.cabStart_rest _ 32) rfl

@[simp] theorem Hw.cabNext_rest : h.cabNext.rest = h.rest := by
  unfold Hw.cabNext
  split
  · exact ite_rest rfl (Hw.cabStart_rest _ 32)
  · rfl

@[simp] theorem Hw.beginStep_rest : h.beginStep.rest = h.rest := by
  unfold Hw.beginStep
  dsimp only
  rw [Hw.evalPgood_rest, foldl_rest _ (fun g k => g.turnOn_rest k true)]
  refine ite_rest ?_ ?_
  all_goals exact (foldl_rest _ (fun g k => g.disable_rest k) _ _).trans h.wake_rest

/-! ## What a request does to the sequencer -/

theorem Hw.dropPend_rest (r : Nat) :
    (h.dropPend r).rest = (h.ledger, h.rst, h.slots, { h.seq with pendOn := false, onJob := none }.plan) := by
  unfold Hw.dropPend
  cases h.seq.onJob <;> rfl

/-- The sequencer at the start of POWER_UP. -/
theorem Hw.startUp_rest (j : Option Nat) : (h.startUp j).rest = (h.ledger, h.rst, h.slots,
    { h.seq.enter .seqUp with active := true, dir := .up, step := 0, pendOn := false, onJob := none, job := j, doneStep := none
                              doneDown := false, hostOff := 0, limpEnLow := false }.plan) := by
  unfold Hw.startUp
  dsimp only
  rw [Hw.beginStep_rest, Hw.cabBegin_rest]
  split <;> rfl

/-- The sequencer at the start of POWER_DOWN. -/
theorem Hw.startDown_rest (n : Nat) (j : Option Nat) : (h.startDown n j).rest = (h.ledger, h.rst, h.slots,
    { h.seq.enter .seqDown with active := true, dir := .down, step := n, job := j, doneStep := none, doneDown := true
                                hrst := false, hostStepsDone := false }.plan) := by
  unfold Hw.startDown
  dsimp only
  rw [Hw.beginStep_rest, Hw.cabBegin_rest, Hw.govEnd_rest, Hw.pgoodLow_rest]
  cases h.seq.job <;> rfl

/-- What a request leaves alone. -/
def Hw.aside (h : Hw) : Ledger × Resets × List Slot := (h.ledger, h.rst, h.slots)

theorem aside_of_rest {g : Hw} {q : Seq} (e : g.rest = (h.ledger, h.rst, h.slots, q)) : g.aside = h.aside :=
  congrArg (fun r => (r.1, r.2.1, r.2.2.1)) e

theorem Hw.dropPend_aside (r : Nat) : (h.dropPend r).aside = h.aside := aside_of_rest h (h.dropPend_rest r)

theorem Hw.holdRamps_aside : h.holdRamps.aside = h.aside := aside_of_rest h h.holdRamps_rest

theorem Hw.endKeep_startDown_aside (n : Nat) (j : Option Nat) : (h.endKeep.startDown n j).aside = h.aside :=
  aside_of_rest h (h.endKeep.startDown_rest n j)

theorem Hw.offRequest_aside (j : Option Nat) : (h.offRequest j).aside = h.aside := by
  unfold Hw.offRequest
  dsimp only
  split
  · rw [Hw.endKeep_startDown_aside, Hw.holdRamps_aside, Hw.dropPend_aside]
  · rw [Hw.endKeep_startDown_aside, Hw.dropPend_aside]
  · exact h.dropPend_aside 1

/-- An off request in RUN starts POWER_DOWN (R194). -/
theorem Hw.offRequest_of_run (j : Option Nat) (hrun : h.seq.state = .run) : (h.offRequest j).seq.state = .seqDown := by
  have hstate : (h.dropPend 1).seq.state = .run := (congrArg (fun r => r.2.2.2.state) (h.dropPend_rest 1)).trans hrun
  have heff : (h.dropPend 1).eff = .run := by simp [Hw.eff, Seq.eff, hstate]
  have hdown := congrArg (fun r => r.2.2.2.state) ((h.dropPend 1).endKeep.startDown_rest 0 j)
  unfold Hw.offRequest
  dsimp only
  rw [heff]
  refine hdown.trans ?_
  simp [Hw.endKeep, Seq.enter, Seq.plan, hstate]

/-! ## What an error and its reaction leave alone (R472–R476) -/

theorem Hw.hrstFalls_ledger : h.hrstFalls.ledger = h.ledger := by
  unfold Hw.hrstFalls
  simp only [apply_ite Hw.ledger]
  exact ite_self _

theorem Hw.enterLatched_ledger (c : Nat) : (h.enterLatched c).ledger = h.ledger := by
  unfold Hw.enterLatched
  refine (ledger_of_rest (Hw.endJob?_rest _ _ 0 3 [])).trans ((ledger_of_rest (Hw.endJob?_rest _ _ 0 3 [])).trans ?_)
  split <;> rfl

@[simp] theorem Hw.safeState_ledger : h.safeState.ledger = h.ledger := by
  have hoff : ((((h.markOff .safeState).endMove 3).turnOffAll .safeState).govEnd.hrstFalls).ledger = h.ledger := by
    rw [Hw.hrstFalls_ledger, ledger_of_rest (Hw.govEnd_rest _), ledger_of_rest (Hw.turnOffAll_rest _ _),
      ledger_of_rest (Hw.endMove_rest _ _)]
    rfl
  unfold Hw.safeState
  split
  · rfl
  dsimp only
  generalize (((h.markOff .safeState).endMove 3).turnOffAll .safeState).govEnd.hrstFalls = g at hoff ⊢
  split
  · exact (ledger_of_rest g.evalPgood_rest).trans hoff
  · exact (ledger_of_rest (Hw.evalPgood_rest _)).trans ((g.enterLatched_ledger 12).trans hoff)

@[simp] theorem Hw.react_ledger (r : Nat) : (h.react r).ledger = h.ledger := by
  have hsafe : (if 2 ≤ r then h.safeState else h).ledger = h.ledger := by
    split
    · exact h.safeState_ledger
    · rfl
  have hask : ∀ g : Hw, (g.askCoreReset 4).ledger = g.ledger := fun g => by unfold Hw.askCoreReset; split <;> rfl
  unfold Hw.react
  dsimp only
  split
  · exact (hask _).trans hsafe
  · exact hsafe

@[simp] theorem Hw.report_ledger (src addr master access : Nat) (d : List Byte) :
    (h.report src addr master access d).ledger = h.ledger := by
  unfold Hw.report
  rw [Hw.react_ledger, Hw.collect_eq]
  rfl

end

end Sys2Proof.Machine
end

section
/-! SUPPORT. The fault restart, what Folly's forces find where none is held, the replies of CLEAR_FAULT, and the edges of XEV inputs
(R203, R204, R457, R479). -/

namespace Sys2Proof.Machine

section
variable (h : Hw)

/-! ## The clock -/

@[simp] theorem Hw.reach_clk (t : Nat) : (h.reach t).clk = max h.clk t := by
  show h.clk + (t - h.clk) = max h.clk t
  omega

/-! ## The fault restart (R203) -/

theorem Hw.faultRestart_rest : h.faultRestart.rest = (h.ledger, h.rst, h.slots,
    { h.seq.enter .off with fltDrive := false, hrst := false, retryWait := false, retryReleased := false, limpFault := false
                            active := false }.plan) := by
  have hrest : (h.revert.ledger, h.revert.rst, h.revert.slots) = h.aside := aside_of_rest h h.revert_rest
  have hseq : h.revert.seq = h.seq := by
    have hground := h.revert_ground
    simp only [Hw.ground, Prod.mk.injEq] at hground
    exact hground.2.1
  unfold Hw.faultRestart
  dsimp only
  rw [Hw.evalPgood_rest, hseq]
  exact congrArg (fun r => (r.1, r.2.1, r.2.2, _)) hrest

@[simp] theorem Hw.faultRestart_desk : h.faultRestart.desk = h.desk :=
  (Hw.evalPgood_desk _).trans h.revert_desk

/-- A fault restart leaves FAULT_LATCHED for OFF and keeps the cause. -/
theorem Hw.faultRestart_seq (hst : h.seq.state = .faultLatched) : h.faultRestart.seq.state = .off ∧
    h.faultRestart.seq.retries = h.seq.retries ∧ h.faultRestart.seq.fltDrive = false ∧
    h.faultRestart.seq.cause = h.seq.cause ∧ h.faultRestart.seq.clearTest = h.seq.clearTest := by
  have henter : h.seq.enter .off = { h.seq with state := .off } := by simp [Seq.enter, hst]
  obtain ⟨hstate, -, -, hretries, hcause, hflt, hct⟩ := seq_of_rest h.faultRestart_rest
  rw [henter] at *
  exact ⟨hstate, hretries, hflt, hcause, hct⟩

/-- POWER_UP from OFF. -/
theorem Hw.startUp_seq (j : Option Nat) (hst : h.seq.state = .off) : (h.startUp j).seq.state = .seqUp ∧
    (h.startUp j).seq.step = 0 ∧ (h.startUp j).seq.dir = .up ∧ (h.startUp j).seq.retries = h.seq.retries ∧
    (h.startUp j).seq.cause = h.seq.cause := by
  have henter : h.seq.enter .seqUp = { h.seq with state := .seqUp } := by simp [Seq.enter, hst]
  obtain ⟨hstate, hstep, hdir, hretries, hcause, -, -⟩ := seq_of_rest (h.startUp_rest j)
  rw [henter] at *
  exact ⟨hstate, hstep, hdir, hretries, hcause⟩

/-! ## Folly holds no detector (R479) -/

theorem Hw.railFaults_nil : h.railFaults [] = h := Hw.react_of_le_one h (Nat.zero_le 1)

theorem Hw.forced_of_no_forces (hf : h.faults.forces = []) : h.forced = h := by
  unfold Hw.forced Hw.forcedErrs
  simp [hf, Hw.railFaults_nil]

/-- The retry counts (R203). -/
def Hw.countRetry (h : Hw) : Hw :=
  { h with seq := { h.seq with retries := h.seq.retries + 1 }, prm := { h.prm with clearRetry := false } }

/-- A retry: the fault restart, and POWER_UP from the OFF that it leads to. -/
theorem Hw.retry_seq (hst : h.seq.state = .faultLatched) (hf : h.faults.forces = []) :
    let t := (h.countRetry.faultRestart.startUp none).forced
    t.seq.state = .seqUp ∧ t.seq.step = 0 ∧ t.seq.dir = .up ∧ t.seq.retries = h.seq.retries + 1 ∧ t.seq.cause = h.seq.cause := by
  obtain ⟨hoff, hretries, -, hcause, -⟩ := h.countRetry.faultRestart_seq hst
  obtain ⟨hup, hstep, hdir, hretries', hcause'⟩ := h.countRetry.faultRestart.startUp_seq none hoff
  have hdesk : (h.countRetry.faultRestart.startUp none).desk = h.countRetry.desk := by simp
  have hnone : (h.countRetry.faultRestart.startUp none).faults.forces = [] :=
    (congrArg Faults.forces (faults_of_desk hdesk)).trans hf
  dsimp only
  rw [Hw.forced_of_no_forces _ hnone]
  exact ⟨hup, hstep, hdir, hretries'.trans hretries, hcause'.trans hcause⟩

/-! ## Replies -/

/-- A reply is the same whatever else has changed, where the mailboxes and the relay have not. -/
theorem Hw.respond_replied_of_desk {g h : Hw} (e : g.desk = h.desk) (o : Origin) (st : Nat) (d : List Byte) :
    Replied h (g.respond o st d) o st d :=
  Hw.respond_replied_of (congrArg Mailbox.inProc (mbx_of_desk e o)) (role_of_desk e) (relay_of_desk e) st d

/-! ## The line test (R204) -/

/-- The module after the line test has found FLTn high: the retries are cleared and the latch is left. -/
def Hw.lineClear (h : Hw) : Hw :=
  ({ h with seq := { h.seq with clearTest := [], retries := 0 }, lines := { h.lines with fltLow := false } } : Hw).faultRestart

theorem Hw.lineClear_seq (hst : h.seq.state = .faultLatched) : h.lineClear.seq.state = .off ∧ h.lineClear.seq.retries = 0 ∧
    h.lineClear.seq.fltDrive = false ∧ h.lineClear.seq.cause = h.seq.cause ∧ h.lineClear.seq.clearTest = [] :=
  Hw.faultRestart_seq _ hst

theorem Hw.lineClear_desk : h.lineClear.desk = h.desk := Hw.faultRestart_desk _

/-- The module after it has found the line low: another module holds it, unless this one drives it again. -/
def Hw.lineHeld (h : Hw) : Hw :=
  ({ h with seq := { h.seq with clearTest := [], cause := if h.seq.fltDrive then h.seq.cause else 10 }
            lines := { h.lines with fltLow := true } } : Hw).evalPgood

theorem Hw.lineHeld_seq (hflt : h.seq.fltDrive = false) : h.lineHeld.seq.state = h.seq.state ∧ h.lineHeld.seq.cause = 10 := by
  obtain ⟨hstate, -, -, -, hcause, -, -⟩ := seq_of_rest (Hw.evalPgood_rest
    { h with seq := { h.seq with clearTest := [], cause := if h.seq.fltDrive then h.seq.cause else 10 }
             lines := { h.lines with fltLow := true } })
  exact ⟨hstate, hcause.trans (if_neg (by simp [hflt]))⟩

theorem Hw.lineHeld_desk : h.lineHeld.desk = h.desk := Hw.evalPgood_desk _

end

/-- The answer to a request of CLEAR_FAULT: one that CAB_CMD brought has none. -/
def Hw.answer (h : Hw) (o : Option Origin) (st : Nat) : Hw :=
  match o with
  | some o => h.respond o st []
  | none => h

section
variable {s : State} {post : Hw → Prop} {o : Option Origin} {later : List (Option Origin)}

theorem completes_clearFaultLineTest_high (hct : s.hw.seq.clearTest = [o]) (hst : s.hw.seq.state = .faultLatched)
    (hflt : s.hw.seq.fltDrive = false) (hp : post (s.hw.lineClear.answer o stOk)) :
    Completes (.clearFaultLineTest true) s post := by
  refine ⟨_, rfl, rfl, ?_⟩
  dsimp only
  rw [hct]
  dsimp only
  rw [if_neg (by simp [hst]), if_pos (by simp [hflt])]
  cases o <;> exact hp

theorem completes_clearFaultLineTest_low (hct : s.hw.seq.clearTest = [o]) (hst : s.hw.seq.state = .faultLatched)
    (hp : post (s.hw.lineHeld.answer o stWrongState)) : Completes (.clearFaultLineTest false) s post := by
  refine ⟨_, rfl, rfl, ?_⟩
  dsimp only
  rw [hct]
  dsimp only
  rw [if_neg (by simp [hst]), if_neg (by simp)]
  cases o <;> exact hp

theorem completes_clearFaultLineTest_left (high : Bool) (hct : s.hw.seq.clearTest = o :: later)
    (hst : s.hw.seq.state ≠ .faultLatched)
    (hp : post (({ s.hw with seq := { s.hw.seq with clearTest := later } } : Hw).answer o stOk)) :
    Completes (.clearFaultLineTest high) s post := by
  refine ⟨_, rfl, rfl, ?_⟩
  dsimp only
  rw [hct]
  dsimp only
  rw [if_pos (by simpa using hst)]
  cases o <;> exact hp

end

/-! ## The events of the XEV inputs (R451, R457) -/

theorem Evt.fire_pend (e : Evt) (k : Nat) (hk : k < 64) : (e.fire k).pend.getLsbD k = true := by
  unfold Evt.fire
  rw [BitVec.getLsbD_or, BitVec.natCast_eq_ofNat, BitVec.getLsbD_ofNat, Nat.testBit_shiftLeft]
  simp [hk]

theorem Hw.raise_pend_of_not_mute (h : Hw) {k : Nat} (hm : h.mute k = false) (hk : k < 64) :
    (h.raise k).evt.pend.getLsbD k = true := by
  unfold Hw.raise
  rw [if_neg (by simp [hm])]
  exact Evt.fire_pend _ k hk

section
variable (h : Hw) (x : Fin 4) (level : Bool)

/-- An XEV input at its new level, and the event of the edges that XEV_EDGE selects. -/
def Hw.xevChange (h : Hw) (x : Fin 4) (level : Bool) : Hw :=
  ({ h with lines := { h.lines with xev := h.lines.xev.set x level } } : Hw).raiseIf
    (if level then h.image.xevEdge.getD x 0 = 1 || h.image.xevEdge.getD x 0 = 3
      else h.image.xevEdge.getD x 0 = 2 || h.image.xevEdge.getD x 0 = 3) (56 + x)

/-- No variant lacks an XEV input. -/
theorem Hw.xev_not_mute : h.mute (56 + x) = false := by
  have hx := x.isLt
  simp [Hw.mute]
  omega

theorem Hw.xevChange_spec : (h.xevChange x level).lines.xev = h.lines.xev.set x level ∧
    (h.xevChange x level).outs = h.outs ∧ (h.xevChange x level).seq = h.seq ∧
    (h.image.xevEdge.getD x 0 = 3 ∨ h.image.xevEdge.getD x 0 = (if level then 1 else 2) →
      (h.xevChange x level).evt.pend.getLsbD (56 + x) = true) ∧
    (h.image.xevEdge.getD x 0 = 0 → (h.xevChange x level).evt = h.evt) := by
  unfold Hw.xevChange Hw.raiseIf
  by_cases hsel : (if level then h.image.xevEdge.getD x 0 = 1 || h.image.xevEdge.getD x 0 = 3
      else h.image.xevEdge.getD x 0 = 2 || h.image.xevEdge.getD x 0 = 3 : Bool) = true
  · rw [if_pos hsel]
    refine ⟨by rw [Hw.raise_eq], Hw.raise_outs _ _, by rw [Hw.raise_eq], fun _ => ?_, fun hz => ?_⟩
    · exact Hw.raise_pend_of_not_mute _ (Hw.xev_not_mute _ x) (by omega)
    · rw [hz] at hsel
      cases level <;> simp at hsel
  · rw [if_neg hsel]
    refine ⟨rfl, rfl, rfl, fun he => ?_, fun _ => rfl⟩
    exact absurd (by cases level <;> simpa [or_comm] using he) hsel

end

/-- Settles O33: each row in the state that takes it, with the fault restart and POWER_UP read off the sequencer's plan. -/
theorem retriesClearsAndEdges : Obligations.RetriesClearsAndEdges := by
  refine ⟨fun s hst hwait hrel => ⟨_, rfl, rfl, ?_⟩,
    fun s hst hrel hen hlow hoff hth hcl hgone hcommit hjob hready hforce hct hcj => ⟨_, rfl, rfl, ?_⟩,
    fun s hrun => ⟨_, rfl, rfl, if_pos (by simp [hrun])⟩, fun s hct hst hflt => ?_, fun s o hct hst hflt => ?_,
    fun s o later high hct hst => ?_, fun s o hct hst hflt => ?_, fun s x level hne hlive => ⟨_, rfl, rfl, ?_⟩,
    fun s x level hlive => ⟨_, rfl, rfl, if_pos (by simp [hlive])⟩⟩
  case refine_1 =>
    dsimp only
    rw [if_pos (by simp [hst, hwait, hrel])]
    by_cases hrole : s.hw.prm.role = .lead
    · rw [if_pos (by simpa using! hrole)]
      exact ⟨rfl, Hw.reach_clk _ _, fun _ => rfl⟩
    · rw [if_neg (by simpa using! hrole)]
      exact ⟨rfl, Hw.reach_clk _ _, fun hc => absurd hc hrole⟩
  case refine_2 =>
    dsimp only
    rw [if_pos (by simp [hst, hrel, hen, hlow, hoff, hth, hcl, hgone, hcommit, hjob, hready, hct, hcj])]
    exact s.hw.retry_seq hst hforce
  case refine_3 => exact completes_clearFaultLineTest_high hct hst hflt (s.hw.lineClear_seq hst)
  case refine_4 =>
    have hreply : Replied s.hw (s.hw.lineClear.answer (some o) stOk) o stOk [] :=
      Hw.respond_replied_of_desk s.hw.lineClear_desk o stOk []
    refine completes_clearFaultLineTest_high hct hst hflt ⟨?_, hreply⟩
    exact (congrArg Seq.state (Hw.respond_seq _ o stOk [])).trans (s.hw.lineClear_seq hst).1
  case refine_5 =>
    have hdesk : ({ s.hw with seq := { s.hw.seq with clearTest := later } } : Hw).desk = s.hw.desk := rfl
    exact completes_clearFaultLineTest_left high hct hst
      ⟨Hw.respond_seq _ o stOk [], Hw.respond_outs _ o stOk [], Hw.respond_replied_of_desk hdesk o stOk []⟩
  case refine_6 =>
    obtain ⟨hstate, hcause⟩ := s.hw.lineHeld_seq hflt
    have hseq := s.hw.lineHeld.respond_seq o stWrongState []
    exact completes_clearFaultLineTest_low hct hst
      ⟨(congrArg Seq.state hseq).trans (hstate.trans hst), (congrArg Seq.cause hseq).trans hcause,
        Hw.respond_replied_of_desk s.hw.lineHeld_desk o stWrongState []⟩
  case refine_7 =>
    dsimp only
    rw [if_neg (by simpa [hlive] using hne)]
    exact s.hw.xevChange_spec x level

end Sys2Proof.Machine
end

section
/-! SUPPORT. Events that are pending stay pending, whatever an error's reaction does; the index conflict, the orphan hold, and the
follower that leaves the roster (R216, R219, R234, R451, R474). -/

namespace Sys2Proof.Machine

/-! ## Pending events -/

theorem Evt.fire_pend_mono (e : Evt) (k : Nat) {n : Nat} (hp : e.pend.getLsbD n = true) : (e.fire k).pend.getLsbD n = true := by
  unfold Evt.fire
  rw [BitVec.getLsbD_or, hp, Bool.true_or]

section
variable (h : Hw) {n : Nat}

theorem Hw.raise_pend_mono (k : Nat) (hp : h.evt.pend.getLsbD n = true) : (h.raise k).evt.pend.getLsbD n = true := by
  unfold Hw.raise
  split
  · exact hp
  · refine Evt.fire_pend_mono _ k ?_
    rwa [Hw.wake_eq]

theorem Hw.raiseIf_pend_mono (c : Bool) (k : Nat) (hp : h.evt.pend.getLsbD n = true) :
    (h.raiseIf c k).evt.pend.getLsbD n = true := by
  unfold Hw.raiseIf
  split
  · exact h.raise_pend_mono k hp
  · exact hp

theorem Hw.evalPgood_pend_mono (hp : h.evt.pend.getLsbD n = true) : h.evalPgood.evt.pend.getLsbD n = true :=
  h.raiseIf_pend_mono _ 22 hp

theorem foldl_evt {α : Type} (f : Hw → α → Hw) (H : ∀ h x, (f h x).evt = h.evt) (l : List α) (h : Hw) :
    (l.foldl f h).evt = h.evt := by
  induction l generalizing h with
  | nil => rfl
  | cons x l ih => exact (ih _).trans (H h x)

@[simp] theorem Hw.turnOff_evt (c : OffCause) (k : Nat) : (h.turnOff c k).evt = h.evt := by
  unfold Hw.turnOff
  by_cases hh : h.holds c k = true
  · rw [if_pos hh]
  rw [if_neg hh]
  by_cases hep : isEp k = true
  · rw [if_pos hep, Hw.freeBus_eq]
    rfl
  · rw [if_neg hep]
    dsimp only
    split
    · rfl
    · split <;> rfl

@[simp] theorem Hw.turnOffAll_evt (c : OffCause) : (h.turnOffAll c).evt = h.evt := foldl_evt _ (fun h k => h.turnOff_evt c k) _ h

@[simp] theorem Hw.endMove_evt (r : Nat) : (h.endMove r).evt = h.evt := by unfold Hw.endMove; split <;> rfl

@[simp] theorem Hw.markOff_evt (c : OffCause) : (h.markOff c).evt = h.evt := rfl
@[simp] theorem Hw.govEnd_evt : h.govEnd.evt = h.evt := rfl

@[simp] theorem Hw.hrstFalls_evt : h.hrstFalls.evt = h.evt := by
  unfold Hw.hrstFalls
  simp only [apply_ite Hw.evt, ite_self]

@[simp] theorem Hw.endJob?_evt (j : Option Nat) (st r : Nat) (d : List Byte) : (h.endJob? j st r d).evt = h.evt := by
  cases j <;> rfl

@[simp] theorem Hw.enterLatched_evt (c : Nat) : (h.enterLatched c).evt = h.evt := by
  unfold Hw.enterLatched
  refine (Hw.endJob?_evt _ _ 0 3 []).trans ((Hw.endJob?_evt _ _ 0 3 []).trans ?_)
  split <;> rfl

theorem Hw.safeState_pend_mono (hp : h.evt.pend.getLsbD n = true) : h.safeState.evt.pend.getLsbD n = true := by
  have hevt : ((((h.markOff .safeState).endMove 3).turnOffAll .safeState).govEnd.hrstFalls).evt = h.evt := by simp
  unfold Hw.safeState
  split
  · exact hp
  dsimp only
  generalize (((h.markOff .safeState).endMove 3).turnOffAll .safeState).govEnd.hrstFalls = g at hevt ⊢
  split
  · exact g.evalPgood_pend_mono (by rwa [hevt])
  · have hlatched : (g.enterLatched 12).evt.pend.getLsbD n = true := by rwa [Hw.enterLatched_evt, hevt]
    exact Hw.evalPgood_pend_mono _ hlatched

theorem Hw.react_pend_mono (r : Nat) (hp : h.evt.pend.getLsbD n = true) : (h.react r).evt.pend.getLsbD n = true := by
  have hsafe : (if 2 ≤ r then h.safeState else h).evt.pend.getLsbD n = true := by
    split
    · exact h.safeState_pend_mono hp
    · exact hp
  have hask : ∀ g : Hw, (g.askCoreReset 4).evt = g.evt := fun g => by unfold Hw.askCoreReset; split <;> rfl
  unfold Hw.react
  dsimp only
  split
  · rwa [hask]
  · exact hsafe

theorem Hw.warn_pend_mono (src r : Nat) (hp : h.evt.pend.getLsbD n = true) : (h.warn src r).evt.pend.getLsbD n = true := by
  unfold Hw.warn
  split
  · exact hp
  split
  · exact h.raise_pend_mono 54 hp
  split
  · exact h.raise_pend_mono 55 hp
  · exact hp

theorem Hw.capture_pend_mono (c : Capture) (hp : h.evt.pend.getLsbD n = true) : (h.capture c).evt.pend.getLsbD n = true := by
  unfold Hw.capture
  split
  · exact hp
  split
  · exact Hw.raise_pend_mono _ 48 hp
  · exact hp

/-- An error's capture, log and reaction clear no pending event. -/
theorem Hw.report_pend_mono (src addr master access : Nat) (d : List Byte) (hp : h.evt.pend.getLsbD n = true) :
    (h.report src addr master access d).evt.pend.getLsbD n = true :=
  Hw.react_pend_mono _ _ (Hw.warn_pend_mono _ src _ (h.capture_pend_mono _ hp))

end

/-! ## The index conflict (R216, R218) -/

section
variable (h : Hw)

/-- The module has found its index in use: it is silent, and INDEX_CONFLICT is pending. -/
def Hw.conflicted (t : Hw) : Prop :=
  t.prm.conflict = true ∧ t.prm.role = .silent ∧ t.prm.tx = [] ∧ t.evt.pend.getLsbD 60 = true

theorem Hw.indexConflict_conflicted (ty : Nat) : (h.indexConflict ty).conflicted := by
  have hledger := (Hw.report_ledger (({ h with prm := { h.prm with conflict := true, role := .silent, tx := [] } } : Hw).raise 60)
    0xB1 (ty * 256 + if h.prm.role == .lead then 0 else h.ownIndex) 4 4 []).trans (ledger_of_rest (Hw.raise_rest _ 60))
  refine ⟨congrArg Ledger.conflict hledger, ?_, congrArg Ledger.tx hledger, ?_⟩
  · unfold Hw.indexConflict
    rw [Hw.report_role, Hw.raise_eq]
  · exact Hw.report_pend_mono _ _ _ _ _ _ (Hw.raise_pend_of_not_mute _ (by simp [Hw.mute]) (by omega))

theorem Hw.acceptFrame_conflicted {slot : Nat} {f : List Byte} (d : Nat) (hrival : h.hearsRival slot (frameType f) = true) :
    (h.acceptFrame slot f d).conflicted := by
  have hsame : ∀ p : Peer → Peer, (h.modPeer slot p).hearsRival slot (frameType f) = true := fun _ => hrival
  unfold Hw.acceptFrame
  dsimp only
  rw [if_pos (hsame _)]
  exact Hw.indexConflict_conflicted _ _

/-- A frame of another module in the own slot. -/
theorem Hw.frame_conflicted {slot : Nat} {f : List Byte} (d : Nat) (hruns : h.linkRuns = true) (hhit : h.hit 0x0C = false)
    (hok : frameOk f slot = true) (hrival : h.hearsRival slot (frameType f) = true) : (h.frame slot f d).conflicted := by
  have hrival' : (h.take 0x0C).hearsRival slot (frameType f) = true := hrival
  unfold Hw.frame
  rw [if_pos hruns]
  dsimp only
  rw [if_pos (by simp [hok, hhit])]
  exact Hw.acceptFrame_conflicted _ d hrival'

/-- Every module that listens hears a rival where R216 names it. -/
theorem Hw.hearsRival_of {slot : Fin 16} {ty : Nat} (hruns : h.linkRuns = true) (hboot : h.ins.booted = true)
    (hlink : h.prm.link = .listening) (hlead : h.prm.role = .lead → slot = 0 ∧ ty = 1)
    (hfollow : h.prm.role = .follower → slot.val = h.ownIndex) : h.hearsRival slot ty = true := by
  unfold Hw.hearsRival
  simp only [Hw.linkRuns, Bool.and_eq_true, Bool.or_eq_true, beq_iff_eq] at hruns
  obtain ⟨-, hrole | hrole⟩ := hruns
  · obtain ⟨rfl, rfl⟩ := hlead hrole
    simp [hboot, hlink, hrole]
  · simp [hboot, hlink, hrole, hfollow hrole]

theorem completes_frame {s : State} {slot : Fin 16} {f : List Byte} {c : Instr} {post : Hw → Prop}
    (hc : (∃ d, c = .leadFrame slot ⟨f, d⟩) ∨ c = .statusFrame slot f ∨ c = .join slot f ∨ c = .leave slot f)
    (hp : ∀ d, post (s.hw.frame slot f d)) : Completes c s post := by
  rcases hc with ⟨d, rfl⟩ | rfl | rfl | rfl
  · exact ⟨_, rfl, rfl, hp _⟩
  · exact ⟨_, rfl, rfl, hp _⟩
  · exact ⟨_, rfl, rfl, hp _⟩
  · exact ⟨_, rfl, rfl, hp _⟩

/-! ## A follower leaves the roster (R219) -/

@[simp] theorem Hw.respond_ledger (o : Origin) (st : Nat) (d : List Byte) : (h.respond o st d).ledger = h.ledger := by
  unfold Hw.respond
  dsimp only
  split
  · rfl
  · cases o <;> rfl

/-- The relay that the lead takes up changes neither the roster nor the events. -/
theorem Hw.startRelay_keeps : h.startRelay.ledger = h.ledger ∧ h.startRelay.evt = h.evt := by
  unfold Hw.startRelay
  extract_lets one
  have hone : ∀ g : Hw, (one g).ledger = g.ledger ∧ (one g).evt = g.evt := by
    intro g
    unfold one
    split
    · exact ⟨rfl, rfl⟩
    split
    · dsimp only
      split
      · exact ⟨rfl, rfl⟩
      · exact ⟨Hw.respond_ledger _ _ _ _, Hw.respond_evt _ _ _ _⟩
    · exact ⟨rfl, rfl⟩
  exact ⟨(hone _).1.trans (hone h).1, (hone _).2.trans (hone h).2⟩

theorem Hw.relayTimeout_keeps : h.relayTimeout.ledger = h.ledger ∧ h.relayTimeout.evt = h.evt := by
  unfold Hw.relayTimeout
  split
  · rename_i r _
    obtain ⟨hledger, hevt⟩ :=
      (({ h with prm := { h.prm with relay := none } } : Hw).respond r.origin stRelayTimeout []).startRelay_keeps
    exact ⟨hledger.trans (Hw.respond_ledger _ _ _ _), hevt.trans (Hw.respond_evt _ _ _ _)⟩
  · exact ⟨rfl, rfl⟩

theorem Hw.cabStart_pend_mono (n : Nat) {k : Nat} (hp : h.evt.pend.getLsbD k = true) :
    (Hw.cabStart n h).evt.pend.getLsbD k = true := by
  induction n generalizing h with
  | zero => exact hp
  | succ n ih =>
    unfold Hw.cabStart
    split
    · exact hp
    split
    · exact hp
    dsimp only
    split
    · exact hp
    split
    · exact Hw.raise_pend_mono _ 63 hp
    · exact ih _ (Hw.raise_pend_mono _ 63 hp)

theorem Hw.cabNext_pend_mono {k : Nat} (hp : h.evt.pend.getLsbD k = true) : h.cabNext.evt.pend.getLsbD k = true := by
  unfold Hw.cabNext
  split
  · split
    · exact hp
    · exact Hw.cabStart_pend_mono _ 32 hp
  · exact hp

/-- A relay to a follower that leaves is ended, another goes on. -/
theorem Hw.endRelayTo_keeps (c : Bool) : (if c then h.relayTimeout else h).ledger = h.ledger ∧
    (if c then h.relayTimeout else h).evt = h.evt := by
  cases c
  · exact ⟨rfl, rfl⟩
  · exact h.relayTimeout_keeps

/-- The entry of the cabinet list that names it completes. -/
theorem Hw.skipEntry_keeps (c : Bool) {k : Nat} (hp : h.evt.pend.getLsbD k = true) :
    (if c then (h.raise 63).cabNext else h).ledger = h.ledger ∧
      (if c then (h.raise 63).cabNext else h).evt.pend.getLsbD k = true := by
  cases c
  · exact ⟨rfl, hp⟩
  · exact ⟨(ledger_of_rest (Hw.cabNext_rest _)).trans (ledger_of_rest (h.raise_rest 63)),
      Hw.cabNext_pend_mono _ (h.raise_pend_mono 63 hp)⟩

theorem Hw.dropFollower_spec (i : Nat) (hin : h.prm.roster.getLsbD i = true) :
    (h.dropFollower i).prm.roster = h.prm.roster &&& ~~~ ((1 : BitVec 16) <<< i) ∧
      (h.dropFollower i).evt.pend.getLsbD 62 = true := by
  unfold Hw.dropFollower
  rw [if_pos hin]
  dsimp only
  generalize hgone : ({ h with prm := { h.prm with
    roster := h.prm.roster &&& ~~~ ((1 : BitVec 16) <<< i), joins := h.prm.joins.filter (· != i) } } : Hw) = g
  have hpend : (g.raise 62).evt.pend.getLsbD 62 = true := g.raise_pend_of_not_mute (by simp [Hw.mute]) (by omega)
  obtain ⟨hledger, hevt⟩ := (g.raise 62).endRelayTo_keeps ((g.raise 62).prm.relay.any (fun r => r.index = i))
  generalize (if (g.raise 62).prm.relay.any (fun r => r.index = i) then (g.raise 62).relayTimeout else g.raise 62) = k at *
  obtain ⟨hledger', hpend'⟩ := k.skipEntry_keeps (k := 62) (k.prm.cabRunning && k.cabEntry.any (fun e => e.index = i))
    (by rw [hevt]; exact hpend)
  refine ⟨?_, hpend'⟩
  have hroster : g.prm.roster = h.prm.roster &&& ~~~ ((1 : BitVec 16) <<< i) := by rw [← hgone]
  exact (congrArg Ledger.roster (hledger'.trans (hledger.trans (ledger_of_rest (g.raise_rest 62))))).trans hroster

/-! ## The orphan (R234) -/

/-- A module that may lose its lead, and has not yet. -/
theorem Hw.orphan_spec (hmay : h.prm.role = .follower ∨ h.strapSilent = true) (hlink : h.prm.link ≠ .orphan) :
    h.orphan.prm.link = .orphan ∧ h.orphan.prm.orphanAt = h.clk ∧ h.orphan.prm.token = h.prm.token ∧ h.orphan.seq = h.seq ∧
      h.orphan.outs = h.outs ∧ h.orphan.evt.pend.getLsbD 61 = true := by
  unfold Hw.orphan
  rw [if_pos (by simpa [hlink] using hmay)]
  refine ⟨by rw [Hw.raise_eq], by rw [Hw.raise_eq], by rw [Hw.raise_eq], by rw [Hw.raise_eq], Hw.raise_outs _ 61, ?_⟩
  exact Hw.raise_pend_of_not_mute _ (by simp [Hw.mute]) (by omega)

/-- The clock at ORPHAN_TIMEOUT, with the timeout on record. -/
def Hw.orphanExpiry (h : Hw) : Hw :=
  let g := h.reach (h.prm.orphanAt + 1000000 * h.image.prm.orphanTimeout)
  { g with prm := { g.prm with orphanExpired := true } }

theorem Hw.orphanExpiry_spec (hrun : h.seq.state = .run) : (h.orphanExpiry.offRequest none).prm.orphanExpired = true ∧
    (h.orphanExpiry.offRequest none).seq.state = .seqDown ∧
    (h.orphanExpiry.offRequest none).clk = max h.clk (h.prm.orphanAt + 1000000 * h.image.prm.orphanTimeout) := by
  have hledger : (h.orphanExpiry.offRequest none).ledger = h.orphanExpiry.ledger :=
    congrArg (·.1) (h.orphanExpiry.offRequest_aside none)
  exact ⟨congrArg Ledger.orphanExpired hledger, h.orphanExpiry.offRequest_of_run none hrun,
    (congrArg Ledger.clk hledger).trans (h.reach_clk _)⟩

end

theorem completes_orphanHold {s : State} {post : Hw → Prop} (hmay : s.hw.linkRuns = true ∨ s.hw.strapSilent = true)
    (hp : post s.hw.orphan) : Completes .orphanHold s post :=
  ⟨_, rfl, rfl, (congrArg post (if_pos (by simpa using hmay))).mpr hp⟩

/-- Settles O35: each way to lose or to join the link, with what an error's reaction and a request leave of it. -/
theorem linkAdmissionAndLoss : Obligations.LinkAdmissionAndLoss := by
  refine ⟨fun s hruns hlink hboot hready => ⟨_, rfl, rfl, ?_⟩, fun s ty hruns hlink hboot => ⟨_, rfl, rfl, ?_⟩,
    fun s slot f c hruns hboot hlink hhit hok hlead hfollow hc => ?_,
    fun s hruns hlink hwait => ⟨_, rfl, rfl, if_pos (by simp [hruns, hlink, hwait])⟩,
    fun s i hruns hrole hi hin => ⟨_, rfl, rfl, ?_⟩, fun s hruns hrole hlink => ?_, fun s hon hconf hrole hlink => ?_,
    fun s hlink ht hrun => ⟨_, rfl, rfl, ?_⟩⟩
  case refine_1 =>
    by_cases hrole : s.hw.prm.role = .lead <;> simp [hruns, hlink, hboot, hready, hrole]
  case refine_2 =>
    dsimp only
    rw [if_pos (by simp [hruns, hlink, hboot])]
    exact s.hw.indexConflict_conflicted ty.toNat
  case refine_3 =>
    exact completes_frame hc
      (fun d => s.hw.frame_conflicted d hruns hhit hok (s.hw.hearsRival_of hruns hboot hlink hlead hfollow))
  case refine_4 =>
    dsimp only
    rw [if_pos (by simpa [hruns, hrole] using hi)]
    exact s.hw.dropFollower_spec i hin
  case refine_5 => exact completes_orphanHold (.inl hruns) (s.hw.orphan_spec (.inl hrole) hlink)
  case refine_6 =>
    have hsilent : s.hw.strapSilent = true := by simp [Hw.strapSilent, hon, hconf, hrole]
    obtain ⟨horphan, hat, -, hkept⟩ := s.hw.orphan_spec (.inr hsilent) (by simp [hlink])
    exact completes_orphanHold (.inr hsilent) ⟨horphan, hat, hkept⟩
  case refine_7 =>
    dsimp only
    rw [if_pos (by simp [hlink, ht])]
    exact s.hw.orphanExpiry_spec hrun

end Sys2Proof.Machine
end

section
/-! SUPPORT. What the cut of the store's work leaves alone (R302, R305, R323, R329, R473): the ledger, but for the log and the store's
queue, which the cut of a log record, of a reclaim and of the queue itself alone write. -/

namespace Sys2Proof.Machine

/-- The ledger without the session log and the store's queue. -/
def Hw.deep (h : Hw) : Ledger := { h.ledger with log := Hw.reset.log, queue := [] }

theorem deep_of_ledger {g h : Hw} (e : g.ledger = h.ledger) : g.deep = h.deep :=
  congrArg (fun l => { l with log := Hw.reset.log, queue := [] }) e

theorem foldl_ledger {α : Type} (f : Hw → α → Hw) (H : ∀ h x, (f h x).ledger = h.ledger) (l : List α) (h : Hw) :
    (l.foldl f h).ledger = h.ledger := by
  induction l generalizing h with
  | nil => rfl
  | cons x l ih => exact (ih _).trans (H h x)

section
variable (h : Hw)

/-! ## Flash reads, and records at the head of a ring -/

theorem Hw.flashCheck_ledger (id region key : Nat) : (h.flashCheck id region key).1.ledger = h.ledger := by
  unfold Hw.flashCheck
  split
  · exact Hw.report_ledger _ _ _ _ _ _
  · rfl

theorem Hw.regionCheck_ledger (region key : Nat) : (h.regionCheck region key).1.ledger = h.ledger := by
  unfold Hw.regionCheck
  split
  · exact h.flashCheck_ledger _ region key
  · rfl

/-- The checks of a list of records, whatever is kept of them. -/
theorem foldl_regionCheck_ledger (region : Nat) (xs : List Rec) (keep : List Rec → Rec → List Rec) (a : Hw × List Rec) :
    (xs.foldl (fun (a : Hw × List Rec) x =>
      ((a.1.regionCheck region x.key).1, if (a.1.regionCheck region x.key).2 then keep a.2 x else a.2)) a).1.ledger =
      a.1.ledger := by
  induction xs generalizing a with
  | nil => rfl
  | cons x xs ih => exact (ih _).trans (a.1.regionCheck_ledger region x.key)

theorem Hw.copyChecks_ledger (r : Ring) : (h.copyChecks r).1.ledger = h.ledger := by
  unfold Hw.copyChecks
  split
  · exact foldl_regionCheck_ledger _ _ (fun l x => l ++ [x]) (h, [])
  · rfl

theorem Hw.place_ledger (r : Ring) (x : Rec) : (h.place r x).ledger = h.ledger := by cases r <;> rfl

theorem Hw.copyOldest_ledger (r : Ring) : (h.copyOldest r).ledger = h.ledger := by
  unfold Hw.copyOldest
  refine (foldl_ledger _ (fun g x => ?_) _ _).trans (h.copyChecks_ledger r)
  exact g.place_ledger r x

theorem Hw.forgetFaults_ledger (r : Ring) : (h.forgetFaults r).ledger = h.ledger := by
  unfold Hw.forgetFaults
  split <;> rfl

theorem Hw.eraseNow_ledger (r : Ring) : (h.eraseNow r).ledger = h.ledger := by
  cases r <;> exact h.forgetFaults_ledger _

theorem Hw.compactNow_ledger (r : Ring) : (h.compactNow r).ledger = h.ledger := by
  unfold Hw.compactNow
  split
  · exact h.eraseNow_ledger r
  · exact (Hw.eraseNow_ledger _ r).trans (h.copyOldest_ledger r)

/-! ## Images and fault log entries -/

theorem Hw.addConfig_ledger (x : Rec) : (h.addConfig x).ledger = h.ledger := by
  have hroom : (if h.store.config.free < 32768 && 2 ≤ h.store.config.secs.length then h.compactNow .config else h).ledger =
      h.ledger := by
    split
    · exact h.compactNow_ledger .config
    · rfl
  exact hroom

theorem Hw.recordImage_ledger (bytes : List Byte) : (h.recordImage bytes).ledger = h.ledger :=
  foldl_ledger _ (fun g _ => g.addConfig_ledger _) _ h

theorem Hw.putImage_ledger (bytes : List Byte) (img : Image) (done : Bool) : (h.putImage bytes img done).ledger = h.ledger := by
  have hput := (Hw.addConfig_ledger (h.recordImage bytes) { mkRec 2 0 false (be 4 bytes.length) with committed := done }).trans
    (h.recordImage_ledger bytes)
  unfold Hw.putImage
  dsimp only
  split
  · exact hput
  · exact hput

theorem Hw.roomForFaults_ledger : h.roomForFaults.ledger = h.ledger := by
  unfold Hw.roomForFaults
  split
  · split
    · exact h.eraseNow_ledger .faultLog
    · rfl
  · rfl

theorem Hw.writeFault_ledger : h.writeFault.ledger = h.ledger := by
  unfold Hw.writeFault
  split
  · rfl
  · exact h.roomForFaults_ledger

theorem Hw.emptyCapture_ledger : h.emptyCapture.ledger = h.ledger := foldl_ledger _ (fun g _ => g.writeFault_ledger) _ h

/-! ## The cut (R329) -/

theorem Hw.dropWrites_ledger (ws : List StoreWrite) : (h.dropWrites ws).ledger = h.ledger :=
  foldl_ledger _ (fun g w => by cases w.purpose <;> rfl) _ h

theorem Hw.setAside_deep : h.setAside.deep = h.deep := by
  unfold Hw.setAside
  split
  · split
    · rename_i w ws _ _
      have hdrop : (h.dropWrites [w]).deep = h.deep := deep_of_ledger (h.dropWrites_ledger [w])
      exact hdrop
    · rfl
  · rfl

theorem Hw.setAside_of_idle (hq : h.store.queue = []) : h.setAside = h := by
  unfold Hw.setAside
  rw [hq]

theorem Hw.reclaim_deep : h.reclaim.deep = h.deep := by
  unfold Hw.reclaim
  split <;> rfl

theorem Hw.beginLog_deep (w : StoreWrite) : (h.beginLog w).1.deep = h.deep := by
  unfold Hw.beginLog
  refine (deep_of_ledger (ledger_of_rest (Hw.raiseIf_rest _ _ 29))).trans ((Hw.reclaim_deep _).trans ?_)
  rfl

theorem Hw.cutLog_deep (w : StoreWrite) : (h.cutLog w).deep = h.deep := by
  unfold Hw.cutLog
  split
  · split
    · rfl
    split
    · rfl
    · exact h.beginLog_deep w
  · unfold Hw.timeCommitted
    split <;> rfl

theorem Hw.cutCopy_ledger (w : StoreWrite) (done : Bool) : (h.cutCopy w done).ledger = h.ledger := by
  unfold Hw.cutCopy
  split
  · exact h.putImage_ledger _ _ done
  · exact h.place_ledger _ _

theorem Hw.cutWrites_of_idle (hq : h.store.queue = []) : h.cutWrites = h := by
  unfold Hw.cutWrites
  rw [hq]

theorem Hw.cutWrites_deep : h.cutWrites.deep = h.deep := by
  unfold Hw.cutWrites
  split
  · rfl
  · rename_i w ws _
    have hdrop : (h.dropWrites (w :: ws)).deep = h.deep := deep_of_ledger (h.dropWrites_ledger _)
    generalize h.dropWrites (w :: ws) = g at hdrop ⊢
    have hcut : (if w.isLog then g.cutLog w else g.cutCopy w (w.phase % 2 = 1 || copyShort w.payload.length)).deep = h.deep := by
      split
      · exact (g.cutLog_deep w).trans hdrop
      · exact (deep_of_ledger (g.cutCopy_ledger w _)).trans hdrop
    exact hcut

/-- The erase in progress is cut; the reclaim of the log's oldest sector alone takes entries with it. -/
theorem Hw.cutErase_deep : h.cutErase.deep = h.deep := by
  unfold Hw.cutErase
  cases h.store.erase with
  | none => rfl
  | some e =>
    have hforget : (h.forgetFaults e.ring).deep = h.deep := deep_of_ledger (h.forgetFaults_ledger e.ring)
    exact hforget

theorem Store.setRing_queue (s : Store) (r : Ring) (x : RingSt) : (s.setRing r x).queue = s.queue := by cases r <;> rfl

theorem Hw.forgetFaults_store (r : Ring) : (h.forgetFaults r).store = h.store := by
  unfold Hw.forgetFaults
  split <;> rfl

theorem Hw.cutErase_queue : h.cutErase.store.queue = h.store.queue := by
  unfold Hw.cutErase
  cases he : h.store.erase with
  | none =>
    dsimp only
    rw [he]
  | some e =>
    dsimp only
    rw [h.forgetFaults_store, he]
    exact Store.setRing_queue _ _ _

/-- Without a reclaim in progress the log stands. -/
theorem Hw.cutErase_log (hr : h.log.reclaiming = false) : h.cutErase.log = h.log := by
  unfold Hw.cutErase
  dsimp only
  cases h.store.erase with
  | none => exact if_neg (by simp [hr])
  | some e =>
    have hlog : (h.forgetFaults e.ring).log = h.log := congrArg Ledger.log (h.forgetFaults_ledger e.ring)
    dsimp only
    rw [hlog, if_neg (by simp [hr])]

end

end Sys2Proof.Machine
end

section
/-! SUPPORT. The request of a restart, the reset of the main domain and the exit from STANDBY: what they set, and what they keep
(R511, R512, R516, R517). -/

namespace Sys2Proof.Machine

/-! ## The request (R511) -/

theorem getD_map_apply {α β : Type} (l : List α) (f : α → α) (p : α → β) (hf : ∀ x, p (f x) = p x) (i : Nat) (d : α) :
    p ((l.map f).getD i d) = p (l.getD i d) := by
  by_cases hi : i < l.length
  · simp [List.getD, hi, hf]
  · simp [List.getD, hi]

section
variable (h : Hw)

/-- A slot that is open and not yet closing takes the reason of the request (R281). -/
theorem Hw.slot_closeAll (reason : Nat) (flags : BitVec 16) {n : Nat} (hopen : (h.slot n).open? = true)
    (hpend : (h.slot n).closePending = false) :
    ((h.closeAll reason flags).slot n).closePending = true ∧ ((h.closeAll reason flags).slot n).reason = reason := by
  have hlt : n < h.slots.length := lt_of_getD_ne (d := Slot.none) (fun e => by
    unfold Hw.slot at hopen
    rw [e] at hopen
    exact absurd hopen (by decide))
  have hslot : (h.closeAll reason flags).slot n = (h.slot n).askClose reason flags := by
    unfold Hw.closeAll Hw.slot
    simp [List.getD, hlt]
  rw [hslot]
  unfold Slot.askClose
  rw [if_pos (by simp [hopen, hpend])]
  exact ⟨rfl, rfl⟩

/-- The restart is on record, the sessions are asked to close and the fast clock runs; the off request is still to come. -/
def Hw.restartAsked (h : Hw) (k : RestartKind) : Hw :=
  { (h.closeAll 0x04 0x20).wake with rst := { (h.closeAll 0x04 0x20).wake.rst with restart := some k } }

theorem Hw.restartAsked_rest (k : RestartKind) : (h.restartAsked k).rest =
    (h.ledger, { h.rst with restart := some k }, (h.closeAll 0x04 0x20).slots, h.seq.plan) := by
  unfold Hw.restartAsked
  rw [Hw.wake_eq]
  rfl

theorem Hw.askRestart_eq {k : RestartKind} (hcommit : h.pwr.commit = none) (hgone : h.gone = false)
    (hre : h.rst.restart ≠ some .rstn) : h.askRestart k = (h.restartAsked k).offRequest none := by
  unfold Hw.askRestart
  rw [if_neg (by simpa [hcommit, hgone] using hre)]
  rfl

/-- The off request of a restart leaves its record, the slots and the contacts as the request has set them. -/
theorem Hw.askRestart_aside {k : RestartKind} (hcommit : h.pwr.commit = none) (hgone : h.gone = false)
    (hre : h.rst.restart ≠ some .rstn) : (h.askRestart k).aside =
      (h.ledger, { h.rst with restart := some k }, (h.closeAll 0x04 0x20).slots) := by
  rw [h.askRestart_eq hcommit hgone hre, Hw.offRequest_aside]
  exact congrArg (fun r => (r.1, r.2.1, r.2.2.1)) (h.restartAsked_rest k)

theorem Hw.askRestart_of_run {k : RestartKind} (hcommit : h.pwr.commit = none) (hgone : h.gone = false)
    (hre : h.rst.restart ≠ some .rstn) (hrun : h.seq.state = .run) : (h.askRestart k).seq.state = .seqDown := by
  rw [h.askRestart_eq hcommit hgone hre]
  refine Hw.offRequest_of_run _ none ?_
  exact (congrArg (fun r => r.2.2.2.state) (h.restartAsked_rest k)).trans hrun

/-! ## The reset of the main domain (R511, R512, R517) -/

/-- The main domain with its outputs off and the work of the store cut, as its reset finds it. -/
def Hw.settled (h : Hw) : Hw :=
  let g := (((((h.turnOffAll .removal).govEnd).cutErase).setAside).cutWrites).emptyCapture
  if g.fw.programming then g.activated true else g

theorem Hw.activated_ledger (ok : Bool) : (h.activated ok).ledger = h.ledger := rfl

theorem Hw.settled_deep : h.settled.deep = h.deep := by
  have hcut : (((((h.turnOffAll .removal).govEnd).cutErase).setAside).cutWrites).emptyCapture.deep = h.deep := by
    rw [deep_of_ledger (Hw.emptyCapture_ledger _), Hw.cutWrites_deep, Hw.setAside_deep,
      Hw.cutErase_deep, deep_of_ledger (ledger_of_rest (Hw.govEnd_rest _)), deep_of_ledger (ledger_of_rest (h.turnOffAll_rest _))]
  unfold Hw.settled
  dsimp only
  split
  · exact (deep_of_ledger (Hw.activated_ledger _ true)).trans hcut
  · exact hcut

theorem Hw.settled_life : h.settled.life = h.life := by
  unfold Hw.settled
  dsimp only
  split <;> simp

/-- With no write and no reclaim in progress the log stands. -/
theorem Hw.settled_log (hq : h.store.queue = []) (hr : h.log.reclaiming = false) : h.settled.log = h.log := by
  have hoff : (h.turnOffAll .removal).govEnd.ledger = h.ledger :=
    (ledger_of_rest (Hw.govEnd_rest _)).trans (ledger_of_rest (h.turnOffAll_rest _))
  have hlog : (h.turnOffAll .removal).govEnd.log = h.log := congrArg Ledger.log hoff
  have hqueue : (h.turnOffAll .removal).govEnd.store.queue = [] := (congrArg Ledger.queue hoff).trans hq
  have hcut : (h.turnOffAll .removal).govEnd.cutErase.log = h.log :=
    (Hw.cutErase_log _ (by rw [hlog, hr])).trans hlog
  have hqueue' : (h.turnOffAll .removal).govEnd.cutErase.store.queue = [] := (Hw.cutErase_queue _).trans hqueue
  have hend : (((((h.turnOffAll .removal).govEnd).cutErase).setAside).cutWrites).emptyCapture.log = h.log := by
    rw [Hw.setAside_of_idle _ hqueue', Hw.cutWrites_of_idle _ hqueue']
    exact (congrArg Ledger.log (Hw.emptyCapture_ledger _)).trans hcut
  unfold Hw.settled
  dsimp only
  split
  · exact (congrArg Ledger.log (Hw.activated_ledger _ true)).trans hend
  · exact hend

variable (rstn : Bool)

/-- What the reset sets, whatever it finds. -/
theorem Hw.mainReset_sets : (h.mainReset rstn).ins.mainOn = true ∧ (h.mainReset rstn).ins.booted = false ∧
    (h.mainReset rstn).rst.cause = (if rstn then 2 else 3) ∧ (h.mainReset rstn).rst.restart = none ∧
    (h.mainReset rstn).seq.state = .off ∧ (h.mainReset rstn).seq.hrst = false ∧ (h.mainReset rstn).proto.jobs = [] ∧
    (h.mainReset rstn).evt = Hw.reset.evt := by
  unfold Hw.mainReset
  dsimp only
  cases rstn <;> exact ⟨rfl, rfl, rfl, rfl, rfl, rfl, rfl, rfl⟩

/-- What it keeps of what it finds: the contacts, the totals, the log, the Lodge's count and the life cycle. -/
theorem Hw.mainReset_keeps : (h.mainReset rstn).lines = h.settled.lines ∧
    (h.mainReset rstn).metro.chans = h.settled.metro.chans.map (fun x => x.restart true) ∧
    (h.mainReset rstn).log = h.settled.log ∧ (h.mainReset rstn).lodge.ticks = h.settled.lodge.ticks ∧
    (h.mainReset rstn).life = { h.settled.life with breakDue := none } := by
  unfold Hw.mainReset
  extract_lets +onlyGivenNames cut g
  have hg : h.settled = g := rfl
  rw [hg]
  clear_value g
  cases rstn <;> exact ⟨rfl, rfl, rfl, rfl, rfl⟩

/-- The outputs are those of the stored image, off. -/
theorem Hw.mainReset_outs : ∃ f : Nat → Output → Bool, (h.mainReset rstn).outs =
    (h.settled.storedImage.outs.map Output.loaded).mapIdx (fun k o => { o with halfFreq := f k o }) := by
  unfold Hw.mainReset
  extract_lets +onlyGivenNames cut g
  have hg : h.settled = g := rfl
  rw [hg]
  clear_value g
  cases rstn <;> exact ⟨_, rfl⟩

/-- Every output is off. -/
theorem Hw.mainReset_out_off (k : Nat) : ((h.mainReset rstn).out k).on = false := by
  obtain ⟨f, hf⟩ := h.mainReset_outs rstn
  unfold Hw.out
  rw [hf]
  by_cases hk : k < h.settled.storedImage.outs.length
  · simp [List.getD, hk, Output.loaded, Output.off]
  · simp [List.getD, hk, Output.off]

/-- The totals of every channel stand. -/
theorem Hw.mainReset_totals (c : Nat) : ((h.mainReset rstn).chan c).imp = (h.chan c).imp ∧
    ((h.mainReset rstn).chan c).exp = (h.chan c).exp := by
  have hchans : h.settled.metro.chans = h.metro.chans := congrArg Ledger.chans h.settled_deep
  have hrestart : (h.mainReset rstn).metro.chans = h.metro.chans.map (fun x => x.restart true) := by
    obtain ⟨-, hmap, -⟩ := h.mainReset_keeps rstn
    rw [hmap, hchans]
  unfold Hw.chan
  rw [hrestart]
  exact ⟨getD_map_apply h.metro.chans (·.restart true) Chan.imp (fun _ => rfl) c Chan.blank,
    getD_map_apply h.metro.chans (·.restart true) Chan.exp (fun _ => rfl) c Chan.blank⟩

end

/-! ## The contacts of a module in reset (R17) -/

section
variable {h : Hw} (hboot : h.ins.booted = false)
include hboot

theorem Hw.not_live : h.live = false := by simp [Hw.live, hboot]

/-- Out of service, every contact takes the level that R17 gives it in reset. -/
theorem Hw.reset_contacts : (∀ k, h.outDrive k = .highZ) ∧ h.hrstDriven = h.powered ∧ h.pgoodDriven = h.powered ∧
    h.fltDriven = false ∧ (∀ b, h.meterClock b = (if h.metering && h.powered then .low else .highZ)) ∧ h.busUp = false := by
  have hlive := Hw.not_live hboot
  refine ⟨fun k => ?_, ?_, ?_, ?_, fun b => ?_, ?_⟩
  · simp [Hw.outDrive, hlive]
  · simp [Hw.hrstDriven, hlive]
  · simp [Hw.pgoodDriven, hlive]
  · simp [Hw.fltDriven, hlive]
  · unfold Hw.meterClock
    cases h.metering <;> cases h.powered <;> simp [hlive]
  · simp [Hw.busUp, hlive]

end

/-- The module after a restart has reset it (R511, R517). -/
theorem Hw.mainReset_spec (h : Hw) (k : RestartKind) :
    let t := h.mainReset (k == .rstn)
    t.ins.mainOn = true ∧ t.ins.booted = false ∧ t.rst.cause = (if k = .rstn then 2 else 3) ∧ t.rst.restart = none ∧
      t.seq.state = .off ∧ t.seq.hrst = false ∧ (∀ j, (t.out j).on = false ∧ t.outDrive j = .highZ) ∧
      t.hrstDriven = t.powered ∧ t.pgoodDriven = t.powered ∧ t.fltDriven = false ∧
      (∀ b, t.meterClock b = (if t.metering && t.powered then .low else .highZ)) ∧ t.busUp = false ∧ t.proto.jobs = [] ∧
      t.evt.pend = 0 ∧ t.evt.mask = Hw.reset.evt.mask ∧
      (∀ c, (t.chan c).imp = (h.chan c).imp ∧ (t.chan c).exp = (h.chan c).exp) ∧ t.life = { h.life with breakDue := none } ∧
      (h.store.queue = [] → h.log.reclaiming = false → t.log.entries = h.log.entries) ∧ t.lodge.ticks = h.lodge.ticks := by
  obtain ⟨hon, hboot, hcause, hre, hoff, hhrst, hjobs, hevt⟩ := h.mainReset_sets (k == .rstn)
  obtain ⟨-, -, hlog, hticks, hlife⟩ := h.mainReset_keeps (k == .rstn)
  obtain ⟨hdrive, hhrstn, hpgood, hflt, hclock, hbus⟩ := Hw.reset_contacts hboot
  rw [h.settled_life] at hlife
  refine ⟨hon, hboot, ?_, hre, hoff, hhrst, fun j => ⟨h.mainReset_out_off _ j, hdrive j⟩, hhrstn, hpgood, hflt, hclock, hbus, hjobs,
    congrArg Evt.pend hevt, congrArg Evt.mask hevt, h.mainReset_totals _, hlife, fun hq hr => ?_,
    hticks.trans (congrArg Ledger.ticks h.settled_deep)⟩
  · rw [hcause]
    cases k <;> rfl
  · rw [hlog, h.settled_log hq hr]

/-! ## The exit from STANDBY (R516) -/

section
variable (h : Hw)

theorem Hw.startAdc_of_startMetro_log (cold : Bool) : ((h.startMetro cold).startAdc).log = h.log := rfl

theorem Hw.revert_log : h.revert.log = h.log := congrArg Ledger.log (ledger_of_rest h.revert_rest)

theorem Hw.exitStandby_log : h.exitStandby.log = h.log := by
  unfold Hw.exitStandby
  exact (Hw.startAdc_of_startMetro_log _ false).trans (Hw.revert_log _)

theorem Hw.exitStandby_life : h.exitStandby.life = { h.life with breakDue := none } := by
  unfold Hw.exitStandby
  simp

theorem Hw.exitStandby_spec : h.exitStandby.ins.mainOn = true ∧ h.exitStandby.ins.booted = false ∧
    h.exitStandby.seq.state = .off ∧ h.exitStandby.rst.cause = 9 ∧ h.exitStandby.life = { h.life with breakDue := none } ∧
    h.exitStandby.log = h.log := by
  have hground := h.exitStandby_ground
  simp only [Hw.ground, Prod.mk.injEq] at hground
  obtain ⟨hins, hseq, hrst⟩ := hground
  rw [hins, hseq, hrst]
  exact ⟨rfl, rfl, rfl, rfl, h.exitStandby_life, h.exitStandby_log⟩

theorem Hw.wakes_of_standby (hst : h.seq.state = .standby) (hcommit : h.pwr.commit = none) (hon : h.ins.mainOn = false)
    (hleave : h.leaving = false) : h.wakes = true := by
  simp [Hw.wakes, hst, hcommit, hon, hleave]

end

/-! ## The row of RSTn (R512) -/

/-- RSTn has fallen. -/
def Hw.rstFalls (h : Hw) : Hw := { h with lines := { h.lines with rstLow := true } }

/-- What the module does as RSTn falls. -/
def Hw.meetsRstn (h : Hw) : Hw :=
  if h.wakes then h.mainReset true
  else if !h.ins.mainOn then h
  else if !h.ins.booted then
    (if h.gone || h.pwr.commit.isSome then h
     else if h.ins.porCause = 0 then h.mainReset true
     else ({ h with ins := { h.ins with strapsDone := false } } : Hw).startAdc)
  else h.askRestart .rstn

theorem completes_rstn {s : State} {post : Hw → Prop} (hlow : s.hw.lines.rstLow = false)
    (hp : post s.hw.rstFalls.meetsRstn) : Completes .rstn s post :=
  ⟨_, rfl, rfl, (congrArg post (if_neg (by simp [hlow]))).mpr hp⟩

section
variable {h : Hw}

theorem Hw.meetsRstn_live (hon : h.ins.mainOn = true) (hboot : h.ins.booted = true) :
    h.meetsRstn = h.askRestart .rstn := by
  simp [Hw.meetsRstn, Hw.wakes, hon, hboot]

theorem Hw.meetsRstn_standby (hw : h.wakes = true) : h.meetsRstn = h.mainReset true := if_pos hw

/-- In the boot after a POR the reference is held off and the straps are to be sampled again. -/
theorem Hw.meetsRstn_boot (hw : h.wakes = false) (hon : h.ins.mainOn = true) (hboot : h.ins.booted = false)
    (hpor : h.ins.porCause ≠ 0) (hcommit : h.pwr.commit = none) (hgone : h.gone = false) :
    h.meetsRstn = ({ h with ins := { h.ins with strapsDone := false } } : Hw).startAdc := by
  unfold Hw.meetsRstn
  rw [if_neg (by simp [hw]), if_neg (by simp [hon]), if_pos (by simp [hboot]), if_neg (by simp [hgone, hcommit]), if_neg hpor]

end

theorem completes_restartMainReset {s : State} {post : Hw → Prop} {k : RestartKind} (hre : s.hw.rst.restart = some k)
    (hn : s.hw.nRes = 0) (hst : s.hw.seq.state = .off) (hbreak : s.hw.life.breaking = none) (hcommit : s.hw.pwr.commit = none)
    (hgone : s.hw.gone = false) (hp : post (s.hw.mainReset (k == .rstn))) : Completes .restartMainReset s post := by
  refine ⟨_, rfl, rfl, ?_⟩
  dsimp only
  rw [hre]
  dsimp only
  rw [if_pos (by simp [hn, hbreak, hcommit, hgone, Hw.eff, Seq.eff, hst])]
  exact hp

/-- Settles O50: the request leaves what the off request leaves, and the reset is read off what it finds settled. -/
theorem restartsResetTheMainDomain : Obligations.RestartsResetTheMainDomain := by
  refine ⟨fun s hlow hon hboot hcommit hgone hre => ?_, fun s hlow hst hcommit hon hleave => ?_,
    fun s hlow hw hon hboot hpor hcommit hgone => ?_, fun s => ⟨_, rfl, rfl, ?_⟩,
    fun s k hre hn hst hbreak hcommit hgone =>
      completes_restartMainReset hre hn hst hbreak hcommit hgone (s.hw.mainReset_spec k),
    fun s w hst hcommit hon hleave hsel => ⟨_, rfl, rfl, ?_⟩, fun s w hst hcommit hon hleave hsel => ⟨_, rfl, rfl, ?_⟩⟩
  case refine_1 =>
    have hgone' : s.hw.rstFalls.gone = false := hgone
    have haside := s.hw.rstFalls.askRestart_aside hcommit hgone' hre (k := .rstn)
    simp only [Hw.aside, Prod.mk.injEq] at haside
    obtain ⟨hledger, hrst, hslots⟩ := haside
    refine completes_rstn hlow ?_
    rw [Hw.meetsRstn_live (h := s.hw.rstFalls) hon hboot]
    refine ⟨congrArg (·.lines.rstLow) hledger, congrArg Resets.restart hrst, (congrArg (·.ins.booted) hledger).trans hboot,
      fun n hopen hpend => ?_,
      s.hw.rstFalls.askRestart_of_run hcommit hgone' hre, s.hw.rstFalls.askRestart_life .rstn⟩
    have hslot : (s.hw.rstFalls.askRestart .rstn).slot n = (s.hw.rstFalls.closeAll 0x04 0x20).slot n :=
      congrArg (·.getD n Slot.none) hslots
    rw [hslot]
    exact s.hw.rstFalls.slot_closeAll 0x04 0x20 hopen hpend
  case refine_2 =>
    have hlines : (s.hw.rstFalls.mainReset true).lines = s.hw.rstFalls.lines :=
      (s.hw.rstFalls.mainReset_keeps true).1.trans (congrArg Ledger.lines s.hw.rstFalls.settled_deep)
    obtain ⟨hon', hboot, hcause, -, hoff, -⟩ := s.hw.rstFalls.mainReset_sets true
    refine completes_rstn hlow ?_
    rw [Hw.meetsRstn_standby (h := s.hw.rstFalls) (s.hw.wakes_of_standby hst hcommit hon hleave)]
    exact ⟨congrArg Lines.rstLow hlines, hon', hboot, hcause, hoff⟩
  case refine_3 =>
    refine completes_rstn hlow ?_
    rw [Hw.meetsRstn_boot (h := s.hw.rstFalls) hw hon hboot hpor hcommit hgone]
    exact ⟨rfl, rfl, rfl, rfl, rfl⟩
  case refine_4 =>
    dsimp only
    by_cases hheld : s.hw.ins.mainOn = true ∧ s.hw.adc.ref = .off
    · obtain ⟨hon, hoff⟩ := hheld
      rw [if_pos (by simp [hon, hoff])]
      exact ⟨rfl, rfl, rfl, rfl, fun _ _ => rfl, fun hnot => by simp [hon, hoff] at hnot⟩
    · rw [if_neg (by simpa using hheld)]
      exact ⟨rfl, rfl, rfl, rfl, fun hon hoff => absurd ⟨hon, hoff⟩ hheld, fun _ => ⟨rfl, rfl⟩⟩
  case refine_5 =>
    dsimp only
    rw [if_pos (s.hw.wakes_of_standby hst hcommit hon hleave)]
    rcases hsel with rfl | ⟨rfl, hsel⟩ | ⟨rfl, hsel⟩
    · exact s.hw.exitStandby_spec
    · dsimp only
      rw [if_pos hsel]
      exact Hw.exitStandby_spec _
    · dsimp only
      rw [if_pos hsel]
      exact s.hw.exitStandby_spec
  case refine_6 =>
    dsimp only
    rw [if_pos (s.hw.wakes_of_standby hst hcommit hon hleave)]
    rcases hsel with ⟨rfl, hsel⟩ | ⟨rfl, hsel⟩
    · exact if_neg (by rw [hsel]; exact Bool.false_ne_true)
    · exact if_neg (by rw [hsel]; exact Bool.false_ne_true)

end Sys2Proof.Machine
end

section
/-! SUPPORT. States in which a statement of the insertion, the power path, the measurement, the sequencer or the power commands fails:
each a module in service but for what its description names, and what the command makes of it. -/

namespace Sys2Proof.Machine

/-- What a command that completes leaves is what its evaluation gives. -/
theorem Completes.after_exec {c : Instr} {s : State} {post : Hw → Prop} (hc : Completes c s post) : post (after (exec c s)) := by
  obtain ⟨t, hrun, -, hpost⟩ := hc
  rw [hrun]
  exact hpost

/-! ## The charged store (R33, R479) -/

/-- In STORE_CHARGE before the end of the boot, with VIN held unusable by Folly. -/
def chargingUnderForce : Hw :=
  { liveHw with
    ins := { liveHw.ins with state := .storeCharge, storeReady := false, booted := false }
    faults := { liveHw.faults with forces := [0x42] } }

/-- The forced VIN sends the module back to WAIT_VIN, with the main domain off, in the step that finds the store charged. -/
theorem storeReady_under_force : (after (exec .storeReady ⟨chargingUnderForce, []⟩)).ins.storeReady = false := by decide +kernel

/-- Refutes O13: where Folly holds VIN unusable, the charged store ends in WAIT_VIN, and STORE_READY reads 0. The statement asks for no
state without that force; no run holds it in STORE_CHARGE, since a POR ends all forces. -/
theorem not_bootServesWithAChargedStore : ¬ Obligations.BootServesWithAChargedStore := by
  unfold Obligations.BootServesWithAChargedStore
  rintro ⟨hcharged, -⟩
  obtain ⟨hready, -⟩ := (hcharged ⟨chargingUnderForce, []⟩ (by decide +kernel) (by decide +kernel)).after_exec
  exact absurd (storeReady_under_force.symm.trans hready) (by decide)

/-! ## The removal (R39, R206, R329, R469, R475) -/

/-- A configuration ring that has no erased sector left, its oldest sector with a live record. -/
def crowdedConfig : RingSt := { crowdedHalf with secs := [⟨1, 0, [mkRec 1 1 false []], false⟩, ⟨2, 0, [], true⟩] }

/-- The final record of an image, its COMMIT under way. -/
def imageUnderWay : StoreWrite :=
  { key := 2, payload := [], isLog := false, signed := false, phase := 1, seq := 1, half := false, purpose := .image 1 Image.default }

/-- In RUN while an image is being recorded; its PGOOD_SET in force names no output but a reserved bit, class 2 answers with SAFE_STATE,
and Folly has armed one uncorrectable error for the next read of a configuration record (R477). -/
def recordingImage : Hw :=
  { liveHw with
    image := { liveHw.image with pgoodSet := 0x100000 }
    faults := { liveHw.faults with policies := defaultPolicies.set 1 2
                                   inject := (List.replicate 15 (0, false)).set 3 (1, true) }
    store := { liveHw.store with config := crowdedConfig, queue := [imageUnderWay] } }

/-- The commit of the removal finishes the image; the compaction that it needs meets the error, and SAFE_STATE judges PGOOD again, by a
set that asks for nothing. -/
theorem removal_with_error_armed : (after (exec .removalProcedure ⟨recordingImage, []⟩)).seq.pgood = true := by decide +kernel

/-- Refutes O14: PGOOD, which the removal has driven low, is driven high again by an error's reaction within the commit, where PGOOD_SET
has reserved bits alone, which CONFIG_COMMIT does not refuse (`Image.ok`). -/
theorem not_removalPowersOff : ¬ Obligations.RemovalPowersOff := by
  unfold Obligations.RemovalPowersOff
  rintro ⟨hremoved, -⟩
  obtain ⟨-, -, -, -, -, hlow, -⟩ := (hremoved ⟨recordingImage, []⟩ (by decide +kernel) (by decide +kernel) (by decide +kernel)
    (by decide +kernel)).after_exec
  exact absurd (removal_with_error_armed.symm.trans hlow) (by decide)

/-! ## The loss of VIN in STANDBY (R325, R515) -/

/-- A committed entry of the session log. -/
def loggedEntry : LogEntry := { pos := 0, seq := 1, bytes := [], committed := true, signed := true, damaged := false }

/-- In STANDBY without a pack, while the oldest sector of the session log is being reclaimed. -/
def standbyReclaiming : Hw :=
  { liveHw with
    seq := { liveHw.seq with state := .standby }
    pwr := { liveHw.pwr with battAbsent := true }
    log := { liveHw.log with entries := [loggedEntry], wpos := 1, erased := liveHw.log.size - 1, reclaiming := true } }

/-- The power-off cuts the erase half-way, and the sector's entries go with it. -/
theorem vinLoss_while_reclaiming : (after (exec (.vinUnusable 0) ⟨standbyReclaiming, []⟩)).log.entries = [] := by decide +kernel

/-- Refutes O15: a reclaim erase in progress in STANDBY loses the entries of its sector with VIN. The statement does not ask for a log
at rest, as that of RestartsResetTheMainDomain does; the entry to STANDBY leaves one. -/
theorem not_vinLossIsJudged : ¬ Obligations.VinLossIsJudged := by
  unfold Obligations.VinLossIsJudged
  rintro ⟨-, hloss, -⟩
  obtain ⟨-, -, -, -, hstandby⟩ := (hloss ⟨standbyReclaiming, []⟩ 0 (.inl (by decide)) (by decide)).after_exec
  obtain ⟨-, -, -, hentries⟩ := hstandby (by decide +kernel) (by decide +kernel) (by decide +kernel) (by decide +kernel)
    (by decide +kernel) (by decide +kernel) (by decide +kernel)
  exact absurd (vinLoss_while_reclaiming.symm.trans hentries) (by decide +kernel)

/-! ## The checkpoint of the output energies (R323, R326, R469, R474, R477) -/

/-- In RUN with VM1 on; the half that takes the next record is full, class 2 answers with SAFE_STATE, and Folly has armed one
uncorrectable error for the next read of a parameters record. -/
def regulatingWithErrorArmed : Hw :=
  { liveHw with
    outs := liveHw.outs.modify 4 (fun o => { o with on := true })
    faults := { liveHw.faults with policies := defaultPolicies.set 1 2
                                   inject := (List.replicate 15 (0, false)).set 4 (1, true) }
    store := { liveHw.store with half0 := crowdedHalf } }

/-- The compaction that the pair needs meets the error, and SAFE_STATE turns the output off. -/
theorem checkpoint_with_error_armed : ((after (exec .outputEnergyCheckpoint ⟨regulatingWithErrorArmed, []⟩)).out 4).on = false := by
  decide +kernel

/-- Refutes O29: the write of the output energies may turn outputs off, by the reaction to a flash error that its compaction meets. -/
theorem not_slicesWindowsAndReference : ¬ Obligations.SlicesWindowsAndReference := by
  unfold Obligations.SlicesWindowsAndReference
  rintro ⟨-, -, -, -, -, -, -, hwrite⟩
  obtain ⟨-, houts, -⟩ := (hwrite ⟨regulatingWithErrorArmed, []⟩ (by decide +kernel) (by decide +kernel) (by decide +kernel)).after_exec
  have hon : (after (exec .outputEnergyCheckpoint ⟨regulatingWithErrorArmed, []⟩)).out 4 = regulatingWithErrorArmed.out 4 :=
    congrArg (·.getD 4 Output.off) houts
  exact absurd (checkpoint_with_error_armed.symm.trans (congrArg Output.on hon)) (by decide +kernel)

/-! ## The timeout of a step (R191, R192) -/

/-- The only step of POWER_DOWN: it waits for a level of XEV1, and for no longer than its start. -/
def impatientStep : Step := { Step.blank with last := true, xevSel := 1, xevLevel := true, timeout := 0 }

/-- In SEQ_DOWN at a step that starts only 1 µs from now, with its outputs off already. -/
def stepAhead : Hw :=
  { liveHw with
    image := { liveHw.image with down := [impatientStep] }
    seq := { liveHw.seq with state := .seqDown, dir := .down, active := true, step := 0, stepAt := 1, passing := true } }

/-- Nothing lies below 10 %. -/
def nothingLow : LowSample := { below := 0, stable := 0 }

/-- At the TIMEOUT, which is its start, the step passes. -/
theorem seqTimeout_at_start : (after (exec (.seqTimeout nothingLow) ⟨stepAhead, []⟩)).seq.state = .off := by decide +kernel

/-- Refutes O31: a step whose conditions do not hold yet passes as the clock reaches its start. The statement does not ask for a start
that has been, which every run has, nor for a TIMEOUT of 1 ms at least, which CONFIG_COMMIT does (R187). -/
theorem not_timeoutsAndBreachesLatch : ¬ Obligations.TimeoutsAndBreachesLatch := by
  unfold Obligations.TimeoutsAndBreachesLatch
  rintro ⟨htimeout, -⟩
  obtain ⟨hlatched, -⟩ := (htimeout ⟨stepAhead, []⟩ nothingLow (by decide +kernel) (by decide +kernel)
    (.inr (.inl (by decide +kernel))) (by decide +kernel)).after_exec
  exact absurd (seqTimeout_at_start.symm.trans hlatched) (by decide)

/-! ## The owner of a phase (R85, R101) -/

/-- VP1 has released PH1 and PH2 and owns MIN_PH phases; the packet asks it for PH3. -/
def releasingThird : Hw :=
  bring (.poolAssign .A 3 0)
    { liveHw with pool := { liveHw.pool with phases := liveHw.pool.phases.mapIdx (fun i p => if i < 2 then Phase.parked 0 else p) } }

/-- The command is refused: VP1 would be left with fewer phases than MIN_PH. -/
theorem poolAssign_below_minPh : (after (exec (.poolAssign .A 3 0) ⟨releasingThird, []⟩)).pool.move = none := by decide +kernel

/-- Refutes O57: the refusal of POOL_ASSIGN that the statement rules out is that of PHASE − 1, which the table of R101 numbers from 1;
that of the phase itself may stand. -/
theorem not_powerCommandsAct : ¬ Obligations.PowerCommandsAct := by
  unfold Obligations.PowerCommandsAct
  rintro ⟨-, -, -, -, -, -, -, -, -, -, -, -, -, -, -, -, -, -, hassign, -⟩
  obtain ⟨-, hmove, -⟩ := (hassign ⟨releasingThird, []⟩ .A 3 0 (by decide +kernel) (by decide +kernel) (by decide +kernel)
    (by decide +kernel) (by decide +kernel) (by decide +kernel) (by decide +kernel) (by decide +kernel)).after_exec
  exact absurd (poolAssign_below_minPh.symm.trans hmove) (Option.some_ne_none _).symm

end Sys2Proof.Machine
end

section
/-! SUPPORT. PGOOD as one equation; a port's start-up and its protections (R52–R57, R206). -/

namespace Sys2Proof.Machine

section
variable (h : Hw)

theorem Hw.raiseIf_eq (c : Bool) (k : Nat) :
    h.raiseIf c k = { h with idle := (h.raiseIf c k).idle, adc := (h.raiseIf c k).adc, evt := (h.raiseIf c k).evt } := by
  unfold Hw.raiseIf
  cases c
  · rfl
  · exact h.raise_eq k

theorem Hw.evalPgood_eq : h.evalPgood = { h with
    idle := h.evalPgood.idle, adc := h.evalPgood.adc, evt := h.evalPgood.evt, seq := { h.seq with pgood := h.pgoodLevel } } := by
  unfold Hw.evalPgood
  dsimp only
  rw [Hw.raiseIf_eq]

@[simp] theorem Hw.evalPgood_outs : h.evalPgood.outs = h.outs := by rw [Hw.evalPgood_eq]
@[simp] theorem Hw.evalPgood_ports : h.evalPgood.ports = h.ports := by rw [Hw.evalPgood_eq]
@[simp] theorem Hw.evalPgood_port (p : Nat) : h.evalPgood.port p = h.port p := Hw.port_of_ports h.evalPgood_ports p

/-! ## Outputs as entries of their list -/

theorem Hw.out_of_outs {h g : Hw} (ho : h.outs = g.outs) (k : Nat) : h.out k = g.out k := congrArg (·.getD k Output.off) ho

@[simp] theorem Hw.evalPgood_out (k : Nat) : h.evalPgood.out k = h.out k := Hw.out_of_outs h.evalPgood_outs k
@[simp] theorem Hw.raise_out (n k : Nat) : (h.raise n).out k = h.out k := Hw.out_of_outs (h.raise_outs n) k
@[simp] theorem Hw.modPort_out (p k : Nat) (f : Port → Port) : (h.modPort p f).out k = h.out k := rfl
@[simp] theorem Hw.modOut_port (k p : Nat) (f : Output → Output) : (h.modOut k f).port p = h.port p := rfl

theorem Hw.modOut_out_other {j k : Nat} (hj : j ≠ k) (f : Output → Output) : (h.modOut k f).out j = h.out j := by
  rw [Hw.out_modOut, if_neg (fun hc => hj hc.1.symm)]

/-- An output that a change turns off is off; one that the list does not hold is off already. -/
theorem Hw.modOut_out_off (k : Nat) {f : Output → Output} (hf : (f (h.out k)).on = false) :
    ((h.modOut k f).out k).on = false := by
  rw [Hw.out_modOut]
  split
  · exact hf
  · rename_i hk
    cases hon : (h.out k).on with
    | false => rfl
    | true => exact absurd ⟨rfl, h.out_lt hon⟩ hk

/-! ## Start-up and protections -/

/-- What a protection leaves: its own port latched with the reason, and switched off (R54, R57). -/
theorem Hw.latchPort_spec {p : Nat} (hlt : p < h.ports.length) (reason : Nat) :
    let t := h.latchPort p reason
    (t.port p).state = .latched ∧ (t.port p).reason = reason ∧ (t.out (12 + p)).on = false ∧ t.evt.pend.getLsbD 4 = true ∧
      (∀ q, q ≠ p → t.port q = h.port q) ∧ (∀ k, k ≠ 12 + p → t.out k = h.out k) ∧ t.life = h.life := by
  unfold Hw.latchPort
  dsimp only
  refine ⟨?_, ?_, ?_, ?_, fun q hq => ?_, fun k hk => ?_, by simp⟩
  · simp [hlt]
  · simp [hlt]
  · rw [Hw.evalPgood_out, Hw.raise_out]
    exact Hw.modOut_out_off _ _ rfl
  · exact Hw.evalPgood_pend_mono _ (Hw.raise_pend_of_not_mute _ (by simp [Hw.mute]) (by omega))
  · simp [hq]
  · rw [Hw.evalPgood_out, Hw.raise_out, Hw.modOut_out_other _ hk, Hw.modPort_out]

end

/-- A start that waited begins with the end of the 2 s (R52). -/
theorem Hw.beginPrecharge_of_interval_end (h : Hw) {p : Nat} (hw : (h.port p).waiting = true) :
    let t := (h.modPort p (fun x => { x with spacing := false })).beginPrecharge p
    (t.port p).state = .precharge ∧ (t.port p).waiting = false ∧ (t.port p).spacing = true := by
  have hlt : p < h.ports.length := lt_of_getD_ne (d := Port.empty) (fun e => by
    unfold Hw.port at hw
    rw [e] at hw
    exact absurd hw (by decide))
  dsimp only
  rw [Hw.beginPrecharge_port _ (by simpa using hlt)]
  exact ⟨rfl, rfl, rfl⟩

/-- Whether a port may start does not turn on its 2 s. -/
theorem Hw.portAllowed_modPort_spacing (h : Hw) (p : Nat) :
    (h.modPort p (fun x => { x with spacing := false })).portAllowed p = h.portAllowed p := by
  unfold Hw.portAllowed
  rw [Hw.port_modPort]
  split <;> rfl

/-- The port's request waits whether the 2 s run or not. -/
theorem Hw.waiting_modPort_spacing (h : Hw) (p : Nat) :
    ((h.modPort p (fun x => { x with spacing := false })).port p).waiting = (h.port p).waiting := by
  rw [Hw.port_modPort]
  split <;> rfl

section
variable {s : State} {p : Fin 6} {c : Instr} {reason : Nat}

/-- The row of a protection, in the states in which it acts. -/
theorem completes_protection {post : Hw → Prop} (hc : (c = .prechargeTimeout p ∧ reason = 4 ∧ (s.hw.port p).state = .precharge) ∨
      (c = .startupFail p ∧ reason = 3 ∧ (s.hw.port p).state = .startup) ∨
      (c = .ocSustained p ∧ reason = 2 ∧ (s.hw.port p).state = .on) ∨
      (c = .ocFast p ∧ reason = 1 ∧
        ((s.hw.port p).state = .precharge ∨ (s.hw.port p).state = .startup ∨ (s.hw.port p).state = .on)) ∨
      (c = .reverse p ∧ reason = 5 ∧
        ((s.hw.port p).state = .precharge ∨ (s.hw.port p).state = .startup ∨ (s.hw.port p).state = .on)))
    (hp : (s.hw.port p).state ≠ .empty → post (s.hw.latchPort p reason)) : Completes c s post := by
  rcases hc with ⟨rfl, rfl, hst⟩ | ⟨rfl, rfl, hst⟩ | ⟨rfl, rfl, hst⟩ | ⟨rfl, rfl, hst⟩ | ⟨rfl, rfl, hst⟩
  · exact ⟨_, rfl, rfl, by simpa [hst] using hp⟩
  · exact ⟨_, rfl, rfl, by simpa [hst] using hp⟩
  · exact ⟨_, rfl, rfl, by simpa [hst] using hp⟩
  · exact ⟨_, rfl, rfl, by rcases hst with hst | hst | hst <;> simpa [hst, Port.closed, Port.isOff] using hp⟩
  · exact ⟨_, rfl, rfl, by rcases hst with hst | hst | hst <;> simpa [hst, Port.closed, Port.isOff] using hp⟩

end

/-- Settles O19: the row of each protection latches its port, by one lemma for all five. -/
theorem portsStartUpAndLatch : Obligations.PortsStartUpAndLatch := by
  refine ⟨fun s p hst => ⟨_, rfl, rfl, if_pos (by simp [hst])⟩, fun s p hw hal => ⟨_, rfl, rfl, ?_⟩,
    fun s p hw => ⟨_, rfl, rfl, ?_⟩, fun s p hst hforce => ⟨_, rfl, rfl, ?_⟩,
    fun s p c reason hc => completes_protection hc (fun hne => s.hw.latchPort_spec (s.hw.port_lt hne) reason)⟩
  case refine_1 =>
    dsimp only
    rw [if_pos (by rw [Hw.waiting_modPort_spacing, hw]), if_pos (by rw [Hw.portAllowed_modPort_spacing, hal])]
    exact s.hw.beginPrecharge_of_interval_end hw
  case refine_2 =>
    dsimp only
    rw [if_neg (by simp [Hw.waiting_modPort_spacing, hw])]
  case refine_3 =>
    have hlt := s.hw.port_lt_of_state hst (by decide)
    dsimp only
    rw [if_pos (by simp [hst]), Hw.forced_of_no_forces _ (by simpa using hforce)]
    exact ⟨by simp [hlt], rfl⟩

end Sys2Proof.Machine
end

section
/-! SUPPORT. The accessory bus and the ports that wait for it: what starts a read, what a failed one leaves, whatever the reaction to
its error (R48, R57, R398–R402). -/

namespace Sys2Proof.Machine

section
variable (h : Hw)

@[simp] theorem Hw.freeBus_out (p k : Nat) : (h.freeBus p).out k = h.out k :=
  Hw.out_of_outs (by rw [Hw.freeBus_eq]) k

/-! ## No reaction to an error changes how many ports there are -/

@[simp] theorem Hw.turnOff_ports_length (c : OffCause) (k : Nat) : (h.turnOff c k).ports.length = h.ports.length := by
  unfold Hw.turnOff
  by_cases hh : h.holds c k = true
  · rw [if_pos hh]
  rw [if_neg hh]
  by_cases hep : isEp k = true
  · rw [if_pos hep]
    simp
  · rw [if_neg hep]
    dsimp only
    split
    · rfl
    · split <;> rfl

@[simp] theorem Hw.turnOffAll_ports_length (c : OffCause) : (h.turnOffAll c).ports.length = h.ports.length := by
  have hfold : ∀ (l : List Nat) (g : Hw), (l.foldl (fun g k => g.turnOff c k) g).ports.length = g.ports.length := by
    intro l
    induction l with
    | nil => exact fun _ => rfl
    | cons k l ih => exact fun g => (ih _).trans (g.turnOff_ports_length c k)
  exact hfold _ h

@[simp] theorem Hw.endMove_ports (r : Nat) : (h.endMove r).ports = h.ports := by unfold Hw.endMove; split <;> rfl

@[simp] theorem Hw.hrstFalls_ports : h.hrstFalls.ports = h.ports := by
  unfold Hw.hrstFalls
  simp only [apply_ite Hw.ports, ite_self]

@[simp] theorem Hw.endJob?_ports (n : Option Nat) (st r : Nat) (d : List Byte) : (h.endJob? n st r d).ports = h.ports := by
  cases n <;> rfl

@[simp] theorem Hw.enterLatched_ports (c : Nat) : (h.enterLatched c).ports = h.ports := by
  unfold Hw.enterLatched
  refine (Hw.endJob?_ports _ _ 0 3 []).trans ((Hw.endJob?_ports _ _ 0 3 []).trans ?_)
  split <;> rfl

@[simp] theorem Hw.safeState_ports_length : h.safeState.ports.length = h.ports.length := by
  have hoff : ((((h.markOff .safeState).endMove 3).turnOffAll .safeState).govEnd.hrstFalls).ports.length = h.ports.length := by
    simp [Hw.govEnd, Hw.markOff]
  unfold Hw.safeState
  split
  · rfl
  dsimp only
  generalize (((h.markOff .safeState).endMove 3).turnOffAll .safeState).govEnd.hrstFalls = g at hoff ⊢
  split
  · rwa [Hw.evalPgood_ports]
  · rw [Hw.evalPgood_ports]
    exact (congrArg List.length (g.enterLatched_ports 12)).trans hoff

@[simp] theorem Hw.report_ports_length (src addr master access : Nat) (d : List Byte) :
    (h.report src addr master access d).ports.length = h.ports.length := by
  have hask : ∀ g : Hw, (g.askCoreReset 4).ports = g.ports := fun g => by unfold Hw.askCoreReset; split <;> rfl
  have hcollect : (h.collect src addr master access d).ports = h.ports := by rw [Hw.collect_eq]
  unfold Hw.report Hw.react
  dsimp only
  rw [apply_ite Hw.ports, hask, ite_self, apply_ite Hw.ports, apply_ite List.length, Hw.safeState_ports_length, ite_self, hcollect]

/-! ## Who reads -/

theorem Hw.reading_state {p : Nat} (hread : h.reading = some p) : (h.port p).state = .descCheck := by
  unfold Hw.reading at hread
  simp only [Option.filter_eq_some_iff, Bool.and_eq_true, beq_iff_eq] at hread
  exact hread.2.1

theorem Hw.reading_lt {p : Nat} (hread : h.reading = some p) : p < h.ports.length :=
  h.port_lt_of_state (h.reading_state hread) (by decide)

/-- A port in DESC_CHECK that has no other beside it is the next to read. -/
theorem Hw.nextRead_of_only {p : Nat} (hp : p < 6)
    (hst : (h.port p).state = .descCheck) (hre : (h.port p).reread = false) (hw : (h.port p).waiting = false)
    (honly : ∀ q, q < 6 → q ≠ p → (h.port q).state ≠ .descCheck) : h.nextRead = some p := by
  unfold Hw.nextRead
  cases hfind : (List.range 6).find?
      (fun q => (h.port q).state == .descCheck && !(h.port q).reread && !(h.port q).waiting) with
  | none =>
    have hno := List.find?_eq_none.mp hfind p (List.mem_range.mpr hp)
    simp [hst, hre, hw] at hno
  | some q =>
    have hq := List.find?_some hfind
    simp only [Bool.and_eq_true, beq_iff_eq] at hq
    have hlt := List.mem_range.mp (List.mem_of_find?_eq_some hfind)
    by_contra hne
    exact honly q hlt (fun e => hne (e ▸ rfl)) hq.1.1

/-- A bus that no port uses goes to the next one, which begins at once where the bus is free (R399). -/
theorem Hw.startRead_of_none (hacc : h.acc.port = none) {p : Nat} (hnext : h.nextRead = some p)
    (hst : (h.port p).state = .descCheck) (hre : (h.port p).reread = false) :
    h.startRead.reading = some p ∧ h.startRead.acc.waiting = !h.acc.free := by
  have hread : h.reading = none := by simp [Hw.reading, hacc]
  unfold Hw.startRead
  rw [hread, hnext]
  refine ⟨?_, rfl⟩
  have hport : ∀ a : AccBus, ({ h with acc := a } : Hw).port p = h.port p := fun _ => rfl
  unfold Hw.reading
  simp [Option.filter, hport, hst, hre]

/-- A port that reads keeps the bus. -/
theorem Hw.startRead_of_reading (hread : h.reading ≠ none) : h.startRead = h := by
  unfold Hw.startRead
  cases hr : h.reading with
  | none => exact absurd hr hread
  | some p => rfl

/-! ## A transaction that fails (R401, R402) -/

/-- A transaction has failed on the bus: its event is pending, its error captured, and its port is to read again. -/
def Hw.readFailed (t : Hw) (p : Nat) : Prop :=
  t.evt.pend.getLsbD 14 = true ∧ (t.port p).reread = true ∧
    t.faults.cap.map (fun c => (c.source, c.master, c.access)) = some (0x42, 7, 4)

@[simp] theorem Hw.accError_ports_length : h.accError.ports.length = h.ports.length := h.report_ports_length _ _ _ _ _

theorem Hw.accError_pend_mono {n : Nat} (hn : h.evt.pend.getLsbD n = true) : h.accError.evt.pend.getLsbD n = true :=
  Hw.report_pend_mono _ _ _ _ _ _ hn

@[simp] theorem Hw.busTaken_ports : h.busTaken.ports = h.ports := rfl
@[simp] theorem Hw.busTaken_evt : h.busTaken.evt = h.evt := rfl
@[simp] theorem Hw.busTaken_faults : h.busTaken.faults = h.faults := rfl

theorem Hw.failRead_evt (p : Nat) : (h.failRead p).evt = h.evt := by
  unfold Hw.failRead
  rw [Hw.freeBus_eq]
  rfl

theorem Hw.failRead_faults (p : Nat) : (h.failRead p).faults = h.faults := by
  unfold Hw.failRead
  rw [Hw.freeBus_eq]
  rfl

theorem Hw.accError_cap (hcap : h.faults.cap = none) :
    h.accError.faults.cap.map (fun c => (c.source, c.master, c.access)) = some (0x42, 7, 4) := by
  unfold Hw.accError
  rw [Hw.report_cap _ _ _ _ _ _ hcap (by decide)]
  rfl

theorem Hw.failRead_readFailed {p : Nat} (hlt : p < h.ports.length) (hcap : h.faults.cap = none) :
    ((((h.raise 14).accError).busTaken).failRead p).readFailed p := by
  have hlt' : p < ((h.raise 14).accError).busTaken.ports.length := by simpa using hlt
  have hcap' : (h.raise 14).faults.cap = none := by rwa [faults_of_desk (h.raise_desk 14)]
  refine ⟨?_, ?_, ?_⟩
  · rw [Hw.failRead_evt, Hw.busTaken_evt]
    exact Hw.accError_pend_mono _ (Hw.raise_pend_of_not_mute _ (by simp [Hw.mute]) (by omega))
  · rw [Hw.failRead_port _ hlt']
  · rw [Hw.failRead_faults, Hw.busTaken_faults]
    exact Hw.accError_cap _ hcap'

/-- An episode of SCL held low begins with its event (R402). -/
theorem Hw.sclEpisode_spec (hstuck : h.acc.sclStuck = false) : h.sclEpisode.acc.sclStuck = true ∧
    h.sclEpisode.acc.free = false ∧ h.sclEpisode.acc.waiting = h.acc.waiting ∧ h.sclEpisode.acc.nacks = h.acc.nacks ∧
    h.sclEpisode.evt.pend.getLsbD 14 = true ∧ h.sclEpisode.faults = h.faults := by
  unfold Hw.sclEpisode
  rw [if_neg (by simp [hstuck])]
  refine ⟨by rw [Hw.raise_eq], by rw [Hw.raise_eq], by rw [Hw.raise_eq], by rw [Hw.raise_eq], ?_, by rw [Hw.raise_eq]⟩
  exact Hw.raise_pend_of_not_mute _ (by simp [Hw.mute]) (by omega)

/-- Within an episode nothing more comes. -/
theorem Hw.sclEpisode_of_stuck (hstuck : h.acc.sclStuck = true) : h.sclEpisode = h := if_pos hstuck

/-- SCL found low between an address that was not acknowledged and its repeat. -/
theorem Hw.sclEpisode_between (n : Nat) :
    let t := ({ h with acc := { h.acc with waiting := true, nacks := n } } : Hw).sclEpisode
    t.acc.sclStuck = true ∧ t.acc.waiting = true ∧ t.acc.nacks = n ∧
      (h.acc.sclStuck = false → t.evt.pend.getLsbD 14 = true) ∧ t.faults = h.faults := by
  dsimp only
  by_cases hstuck : h.acc.sclStuck = true
  · rw [Hw.sclEpisode_of_stuck ({ h with acc := { h.acc with waiting := true, nacks := n } } : Hw) hstuck]
    exact ⟨hstuck, rfl, rfl, fun hc => absurd (hstuck.symm.trans hc) (by decide), rfl⟩
  · obtain ⟨hs, -, hw, hn, hpend, hf⟩ := Hw.sclEpisode_spec
      ({ h with acc := { h.acc with waiting := true, nacks := n } } : Hw) (Bool.eq_false_iff.mpr hstuck)
    exact ⟨hs, hw, hn, fun _ => hpend, hf⟩

/-! ## A board that leaves (R48, R56, R57) -/

theorem Hw.evalPgood_awake (hawake : h.idle.idle = false) : h.evalPgood.idle.idle = false := by
  unfold Hw.evalPgood Hw.raiseIf Hw.raise
  dsimp only
  split
  · split
    · exact hawake
    · exact h.wake_idle
  · exact hawake

/-- The board's level goes, with what its descriptor had said. -/
def Hw.unseat (h : Hw) (p at' : Nat) : Hw :=
  h.modPort p (fun x => { x with eppresLow := false, seatEnd := at', accepted := false })

/-- Its port is EMPTY and off, and gives the bus up. -/
def Hw.vacate (h : Hw) (p : Nat) : Hw :=
  (((h.wake.modPort p (fun x => { x with state := .empty, reason := 0, waiting := false, reread := false })).modOut (12 + p)
    (fun o => if o.on then o.turnOff ((h.wake.cfg (12 + p)).safe != .offFloat) 0 else o)).freeBus p).evalPgood

theorem Hw.vacate_spec {p : Nat} (hlt : p < h.ports.length) :
    (h.vacate p).port p = { h.port p with state := .empty, reason := 0, waiting := false, reread := false } ∧
      (h.vacate p).idle.idle = false ∧ ((h.vacate p).out (12 + p)).on = false ∧
      ∀ q, q ≠ p → (h.vacate p).port q = h.port q := by
  unfold Hw.vacate
  refine ⟨?_, Hw.evalPgood_awake _ ?_, ?_, fun q hq => ?_⟩
  · rw [Hw.evalPgood_port, Hw.freeBus_port, Hw.modOut_port, Hw.modPort_port_same _ (by simpa using hlt), Hw.wake_port]
  · rw [Hw.freeBus_eq]
    exact h.wake_idle
  · rw [Hw.evalPgood_out, Hw.freeBus_out]
    refine Hw.modOut_out_off _ _ ?_
    split
    · rfl
    · rename_i hoff
      exact Bool.eq_false_iff.mpr hoff
  · rw [Hw.evalPgood_port, Hw.freeBus_port, Hw.modOut_port, Hw.modPort_port_other _ hq, Hw.wake_port]

/-! ## A port that starts again (R57) -/

theorem Hw.reseat_state {p : Nat} (hlt : p < h.ports.length) (hlow : (h.port p).eppresLow = true) :
    ((h.reseat p).port p).state = .seating := by
  unfold Hw.reseat
  rw [Hw.modPort_port_same _ hlt]
  simp [hlow]

end

section
variable {s : State} {p : Fin 6} {post : Hw → Prop}

theorem completes_eppresRise (hp : post (if s.hw.live then (s.hw.unseat p (s.hw.clk + 10 * (s.hw.image.filters.getD (7 + p) 10 - 1))).vacate p
      else s.hw.unseat p (s.hw.clk + 10 * (s.hw.image.filters.getD (7 + p) 10 - 1)))) : Completes (.eppresRise p) s post :=
  ⟨_, rfl, rfl, hp⟩

/-- A held port that may start again goes the way that its descriptor's acceptance gives it. -/
theorem completes_epHeldRestart (hst : (s.hw.port p).state = .held) (hlow : (s.hw.port p).eppresLow = true)
    (hw : (s.hw.port p).waiting = false) (hal : s.hw.portAllowed p = true)
    (hp : post (if (s.hw.port p).accepted = true ∨ s.hw.portMode p = .off then s.hw.askPrecharge p else s.hw.reseat p)) :
    Completes (.epHeldRestart p) s post :=
  ⟨_, rfl, rfl, by simpa [hst, hlow, hw, hal] using hp⟩

/-- SCL low with no transaction on the bus. -/
theorem completes_sclHeldLow_idle (hidle : s.hw.acc.waiting = true ∨ s.hw.reading = none) (hlive : s.hw.live = true)
    (hgone : s.hw.gone = false) (hp : post s.hw.sclEpisode) : Completes .sclHeldLow s post := by
  refine ⟨_, rfl, rfl, ?_⟩
  dsimp only
  cases hread : s.hw.reading with
  | none => exact (congrArg post (if_neg (by simp [hlive, hgone]))).mpr hp
  | some q => exact (congrArg post (if_pos (by simpa [hread] using hidle))).mpr hp

end

/-- Settles O20: each row in the state that takes it; a failed transaction is one lemma, whoever failed it. -/
theorem portsEmptyAndRetryTheBus : Obligations.PortsEmptyAndRetryTheBus := by
  refine ⟨fun s p hlt hlive => completes_eppresRise ?_, fun s p hlt hlive => completes_eppresRise ?_,
    fun s p hst hlow hw hal hsp => completes_epHeldRestart hst hlow hw hal ?_,
    fun s p hlt hst hlow hw hal hsp => completes_epHeldRestart hst hlow hw hal ?_,
    fun s p hst hlow hw hal hmode hacc honly => completes_epSeatingStable hst hlow hw hal ?_,
    fun s hread => ⟨_, rfl, rfl, Hw.startRead_of_reading _ hread⟩,
    fun s hread hw => ⟨_, rfl, rfl, if_pos (by simp [hw, Option.isSome_iff_ne_none.mpr hread])⟩,
    fun s hread hw hn => ⟨_, rfl, rfl, ?_⟩, fun s p hread hw hn hcap => ⟨_, rfl, rfl, ?_⟩,
    fun s hread hw hn => ⟨_, rfl, rfl, if_pos (by simp [hw, hn, Option.isSome_iff_ne_none.mpr hread])⟩,
    fun s hlive hgone hcap => ⟨_, rfl, rfl, ?_⟩, fun s hidle hstuck hlive hgone => completes_sclHeldLow_idle hidle hlive hgone ?_,
    fun s hidle hstuck hlive hgone => completes_sclHeldLow_idle hidle hlive hgone (Hw.sclEpisode_of_stuck _ hstuck),
    fun s p hread hw hcap => ⟨_, rfl, rfl, ?_⟩⟩
  case refine_1 =>
    rw [if_pos hlive]
    obtain ⟨hport, hawake, hoff, hother⟩ :=
      Hw.vacate_spec (s.hw.unseat p (s.hw.clk + 10 * (s.hw.image.filters.getD (7 + p) 10 - 1))) (p := p)
        (by simpa [Hw.unseat] using hlt)
    have hsame := Hw.modPort_port_same s.hw hlt
      (fun x => { x with eppresLow := false, seatEnd := s.hw.clk + 10 * (s.hw.image.filters.getD (7 + p) 10 - 1), accepted := false })
    rw [Hw.unseat, hsame] at hport
    rw [Hw.unseat] at hawake hoff hother ⊢
    rw [hport]
    exact ⟨rfl, rfl, hawake, rfl, hoff, fun q hq => (hother q hq).trans (s.hw.modPort_port_other hq _)⟩
  case refine_2 =>
    rw [if_neg (by simp [hlive])]
    unfold Hw.unseat
    rw [Hw.modPort_port_same _ hlt]
    exact ⟨rfl, rfl, rfl, rfl, fun q hq => s.hw.modPort_port_other hq _⟩
  case refine_3 =>
    have hlt := s.hw.port_lt_of_state hst (by decide)
    by_cases hacc : (s.hw.port p).accepted = true ∨ s.hw.portMode p = .off
    · rw [if_pos hacc, if_pos hacc, Hw.askPrecharge, if_neg (by simp [hsp]), Hw.beginPrecharge_port _ hlt]
    · rw [if_neg hacc, if_neg hacc]
      exact s.hw.reseat_state hlt hlow
  case refine_4 =>
    by_cases hacc : (s.hw.port p).accepted = true ∨ s.hw.portMode p = .off
    · rw [if_pos hacc, if_pos hacc, Hw.askPrecharge, if_pos hsp, Hw.modPort_port_same _ hlt]
      exact ⟨hst, fun _ => rfl, rfl, fun q hq => s.hw.modPort_port_other hq _⟩
    · rw [if_neg hacc, if_neg hacc]
      exact ⟨s.hw.reseat_state hlt hlow, fun hc => absurd hc hacc, rfl, fun q hq => s.hw.modPort_port_other hq _⟩
  case refine_5 =>
    have hlt := s.hw.port_lt_of_state hst (by decide)
    have hsame := s.hw.modPort_port_same hlt (fun x => { x with state := .descCheck, reread := false })
    rw [if_neg (by simpa using hmode)]
    refine Hw.startRead_of_none (s.hw.modPort p (fun x => { x with state := .descCheck, reread := false })) hacc
      (Hw.nextRead_of_only _ p.isLt ?_ ?_ ?_ fun q hq hne => ?_) ?_ ?_
    · rw [hsame]
    · rw [hsame]
    · rw [hsame]
      exact hw
    · rw [s.hw.modPort_port_other hne]
      exact honly q hq
    · rw [hsame]
    · rw [hsame]
  case refine_6 =>
    obtain ⟨p, hp⟩ := Option.ne_none_iff_exists'.mp hread
    dsimp only
    rw [hp]
    dsimp only
    rw [if_neg (by simp [hw]), if_neg (by omega)]
  case refine_7 =>
    dsimp only
    rw [hread]
    dsimp only
    rw [if_neg (by simp [hw]), if_pos hn]
    exact s.hw.failRead_readFailed (s.hw.reading_lt hread) hcap
  case refine_8 =>
    dsimp only
    rw [if_pos (by simp [hlive, hgone])]
    refine ⟨s.hw.accError_cap hcap, rfl, fun hr => ?_⟩
    have hlog : s.hw.accError = s.hw.collect 0x42 s.hw.accAddr 7 4 [] := s.hw.report_of_le_one hr _ _ _ _
    rw [hlog, Hw.collect_eq]
    exact ⟨rfl, rfl, rfl⟩
  case refine_9 =>
    obtain ⟨hs, hfree, -, -, hpend, hf⟩ := s.hw.sclEpisode_spec hstuck
    exact ⟨hs, hfree, hpend, hf⟩
  case refine_10 =>
    dsimp only
    rw [hread]
    dsimp only
    rw [if_neg (by simp [hw])]
    by_cases hidle : (s.hw.acc.nacks < 2 && Config.freeNat s.hw.free % 2 = 1 : Bool) = true
    · rw [if_pos hidle]
      simp only [Bool.and_eq_true, decide_eq_true_eq] at hidle
      exact .inr ⟨hidle.1, s.hw.draw.sclEpisode_between _⟩
    · rw [if_neg hidle]
      obtain ⟨hpend, hre, hcap'⟩ := s.hw.draw.failRead_readFailed (s.hw.reading_lt hread) hcap
      exact .inl ⟨hre, hpend, hcap'⟩

end Sys2Proof.Machine
end

section
/-! SUPPORT. What a captured error and its reaction, a request to the sequencer, and a write to the store leave alone: the mailboxes,
the relay, both unlocks, SERVICE_PREPARE, the count of the core's resets, the budget of VIN, and whether the module is in LIMP. -/

namespace Sys2Proof.Machine

/-- Of the hardware, what commands and core resets set, and neither errors nor sequences nor the store do. -/
structure Books where
  proto : Proto
  relay : Option Relay
  link : Unlock
  service : Service
  history : List Nat
  cause : Nat
  vinW : Nat
  limp : Bool

/-- The jobs are not among it: whatever they wait for ends them. -/
def Hw.books (h : Hw) : Books :=
  { proto := { h.proto with jobs := [] }, relay := h.prm.relay, link := h.prm.unlock
    service := h.seq.service, history := h.rst.history, cause := h.rst.cause, vinW := h.gov.vinW, limp := h.inLimp }

section
variable {g h : Hw} (e : g.books = h.books)
include e

theorem service_of_books : g.seq.service = h.seq.service := congrArg Books.service e
theorem inLimp_of_books : g.inLimp = h.inLimp := congrArg Books.limp e

theorem unlockAt_of_books (relayed : Bool) : g.unlockAt relayed = h.unlockAt relayed := by
  cases relayed
  · exact congrArg (·.proto.unlock) e
  · exact congrArg Books.link e

end

theorem foldl_books {α : Type} (f : Hw → α → Hw) (H : ∀ h x, (f h x).books = h.books) (l : List α) (h : Hw) :
    (l.foldl f h).books = h.books := by
  induction l generalizing h with
  | nil => rfl
  | cons x l ih => exact (ih _).trans (H h x)

theorem ite_books {p : Prop} [Decidable p] {a b : Hw} {d : Books} (ha : a.books = d) (hb : b.books = d) :
    (if p then a else b).books = d := by
  split <;> assumption

section
variable (h : Hw)

/-! ## Events, jobs, the accessory bus -/

@[simp] theorem Hw.wake_books : h.wake.books = h.books := by rw [Hw.wake_eq]; rfl
@[simp] theorem Hw.raise_books (k : Nat) : (h.raise k).books = h.books := by rw [Hw.raise_eq]; rfl
@[simp] theorem Hw.raiseIf_books (c : Bool) (k : Nat) : (h.raiseIf c k).books = h.books := by rw [Hw.raiseIf_eq]; rfl
@[simp] theorem Hw.freeBus_books (p : Nat) : (h.freeBus p).books = h.books := by rw [Hw.freeBus_eq]; rfl
@[simp] theorem Hw.modOut_books (k : Nat) (f : Output → Output) : (h.modOut k f).books = h.books := rfl
@[simp] theorem Hw.modRail_books (k : Nat) (f : VpRail → VpRail) : (h.modRail k f).books = h.books := rfl

@[simp] theorem Hw.endJob?_books (n : Option Nat) (st r : Nat) (d : List Byte) : (h.endJob? n st r d).books = h.books := by
  cases n <;> rfl

@[simp] theorem Hw.evalPgood_books : h.evalPgood.books = h.books := by rw [Hw.evalPgood_eq]; rfl
@[simp] theorem Hw.pgoodLow_books : h.pgoodLow.books = h.books := h.raiseIf_books h.seq.pgood 22
@[simp] theorem Hw.govEnd_books : h.govEnd.books = h.books := rfl
@[simp] theorem Hw.endMove_books (r : Nat) : (h.endMove r).books = h.books := by unfold Hw.endMove; split <;> rfl

/-! ## Outputs on and off -/

@[simp] theorem Hw.turnOff_books (c : OffCause) (k : Nat) : (h.turnOff c k).books = h.books := by
  unfold Hw.turnOff
  exact ite_books rfl (ite_books (Hw.freeBus_books _ _) (ite_books rfl (ite_books rfl rfl)))

@[simp] theorem Hw.turnOffAll_books (c : OffCause) : (h.turnOffAll c).books = h.books :=
  foldl_books _ (fun h k => h.turnOff_books c k) _ h

@[simp] theorem Hw.activate_books (k p : Nat) : (h.activate k p).books = h.books :=
  ite_books (a := h.endMove 1) (h.endMove_books 1) rfl

@[simp] theorem Hw.substitute_books (k : Nat) : (h.substitute k).books = h.books := by
  unfold Hw.substitute
  refine ite_books ?_ ?_
  · rw [Hw.raise_books, Hw.modRail_books]
    exact foldl_books _ (fun g _ => ite_books (by split <;> rfl) rfl) _ h
  · rw [Hw.modRail_books]
    exact foldl_books _ (fun g _ => ite_books (by split <;> rfl) rfl) _ h

@[simp] theorem Hw.startPhases_books (k : Nat) : (h.startPhases k).books = h.books := by
  unfold Hw.startPhases
  refine (foldl_books _ (fun g _ => ite_books ?_ rfl) _ _).trans (h.substitute_books k)
  split
  · exact Hw.activate_books _ _ _
  · rfl

@[simp] theorem Hw.startRamp_books (k : Nat) (i : Bool) : (h.startRamp k i).books = h.books := by
  unfold Hw.startRamp
  exact ite_books (Hw.startPhases_books _ k) (ite_books rfl rfl)

@[simp] theorem Hw.turnOn_books (k : Nat) (i : Bool) : (h.turnOn k i).books = h.books := by
  unfold Hw.turnOn
  exact ite_books rfl (ite_books rfl (ite_books rfl (ite_books rfl (h.startRamp_books k i))))

@[simp] theorem Hw.disable_books (k : Nat) : (h.disable k).books = h.books := by
  unfold Hw.disable
  exact ite_books (h.turnOff_books .command k) (h.turnOff_books .command k)

theorem Hw.setPool_books (po : Pool) : ({ h with pool := po } : Hw).books = h.books := rfl

@[simp] theorem Hw.holdRamps_books : h.holdRamps.books = h.books := by
  unfold Hw.holdRamps
  dsimp only
  rw [Hw.setPool_books]
  refine (foldl_books _ (fun g k => ?_) _ _).trans (foldl_books _ (fun g p => ?_) _ h)
  · exact ite_books rfl rfl
  · exact ite_books rfl (g.turnOff_books .command _)

/-! ## Steps and requests -/

theorem Hw.cabStart_books (n : Nat) : (Hw.cabStart n h).books = h.books := by
  induction n generalizing h with
  | zero => rfl
  | succ n ih =>
    unfold Hw.cabStart
    refine ite_books rfl ?_
    split
    · rfl
    · exact ite_books rfl (ite_books (Hw.raise_books _ 63) ((ih _).trans (Hw.raise_books _ 63)))

@[simp] theorem Hw.cabBegin_books (d : Bool) : (h.cabBegin d).books = h.books := ite_books (Hw.cabStart_books _ 32) rfl

@[simp] theorem Hw.beginStep_books : h.beginStep.books = h.books := by
  unfold Hw.beginStep
  dsimp only
  rw [Hw.evalPgood_books, foldl_books _ (fun g k => g.turnOn_books k true)]
  refine ite_books ?_ ?_
  all_goals exact (foldl_books _ (fun g k => g.disable_books k) _ _).trans h.wake_books

/-- A state entered is LIMP only where it was (R481). -/
theorem Seq.enter_limp (q : Seq) {st : SysState} (hst : st ≠ .limp) : ((q.enter st).state == .limp) = (q.state == .limp) := by
  unfold Seq.enter
  split
  · rfl
  · rename_i hq
    rw [Bool.eq_false_iff.mpr hq]
    exact beq_eq_false_iff_ne.mpr hst

/-- A new sequencer that keeps what the books hold of it. -/
theorem Hw.setSeq_books {q : Seq} (hlimp : (q.state == .limp) = (h.seq.state == .limp)) (hservice : q.service = h.seq.service) :
    ({ h with seq := q } : Hw).books = h.books := by
  unfold Hw.books Hw.inLimp
  rw [hlimp, hservice]

theorem Seq.enter_service (q : Seq) (st : SysState) : (q.enter st).service = q.service := by unfold Seq.enter; split <;> rfl

@[simp] theorem Hw.dropPend_books (r : Nat) : (h.dropPend r).books = h.books := by
  unfold Hw.dropPend
  cases h.seq.onJob <;> rfl

@[simp] theorem Hw.startUp_books (j : Option Nat) : (h.startUp j).books = h.books := by
  unfold Hw.startUp
  dsimp only
  rw [Hw.beginStep_books, Hw.cabBegin_books]
  refine (Hw.setSeq_books _ (Seq.enter_limp _ (by decide)) (Seq.enter_service _ _)).trans ?_
  split <;> rfl

@[simp] theorem Hw.tryPend_books : h.tryPend.books = h.books := by
  unfold Hw.tryPend
  exact ite_books (h.startUp_books _) rfl

@[simp] theorem Hw.onRequest_books (j : Option Nat) : (h.onRequest j).books = h.books := by
  unfold Hw.onRequest
  refine ite_books rfl ?_
  split
  · exact (Hw.tryPend_books _).trans (h.dropPend_books 1)
  · exact (Hw.tryPend_books _).trans (h.dropPend_books 1)
  · rfl

@[simp] theorem Hw.autostart_books : h.autostart.books = h.books := by
  unfold Hw.autostart
  exact ite_books (h.onRequest_books none) rfl

@[simp] theorem Hw.startDown_books (s : Nat) (j : Option Nat) : (h.startDown s j).books = h.books := by
  unfold Hw.startDown
  dsimp only
  rw [Hw.beginStep_books, Hw.cabBegin_books, Hw.govEnd_books, Hw.pgoodLow_books]
  exact (Hw.setSeq_books _ (Seq.enter_limp _ (by decide)) (Seq.enter_service _ _)).trans (h.endJob?_books h.seq.job 0 1 [])

@[simp] theorem Hw.endKeep_books : h.endKeep.books = h.books := rfl

@[simp] theorem Hw.offRequest_books (j : Option Nat) : (h.offRequest j).books = h.books := by
  unfold Hw.offRequest
  dsimp only
  split
  · rw [Hw.startDown_books, Hw.endKeep_books, Hw.holdRamps_books, Hw.dropPend_books]
  · rw [Hw.startDown_books, Hw.endKeep_books, Hw.dropPend_books]
  · exact h.dropPend_books 1

/-! ## Errors and their reactions (R472–R476) -/

@[simp] theorem Hw.hrstFalls_books : h.hrstFalls.books = h.books := by
  unfold Hw.hrstFalls
  exact ite_books rfl rfl

@[simp] theorem Hw.markOff_books (c : OffCause) : (h.markOff c).books = h.books := rfl

/-- Out of LIMP the latch brings no image back. -/
theorem Hw.enterLatched_books (c : Nat) (hlimp : h.inLimp = false) : (h.enterLatched c).books = h.books := by
  have hlimp' : (h.closeAll 0x04 0).inLimp = false := hlimp
  unfold Hw.enterLatched
  dsimp only
  rw [hlimp', Bool.false_and, Bool.false_and, if_neg Bool.false_ne_true, if_neg Bool.false_ne_true]
  have hjobs := (Hw.endJob?_books ((h.closeAll 0x04 0).endJob? (h.closeAll 0x04 0).seq.job 0 3 [])
    ((h.closeAll 0x04 0).endJob? (h.closeAll 0x04 0).seq.job 0 3 []).seq.onJob 0 3 []).trans
    (Hw.endJob?_books (h.closeAll 0x04 0) (h.closeAll 0x04 0).seq.job 0 3 [])
  generalize ((h.closeAll 0x04 0).endJob? (h.closeAll 0x04 0).seq.job 0 3 []).endJob? _ 0 3 [] = g at hjobs ⊢
  have hg : g.inLimp = false := (inLimp_of_books hjobs).trans hlimp
  refine (Hw.setSeq_books { g with prm := { g.prm with cabRunning := false } } ?_ ?_).trans hjobs
  · exact hg.symm
  · rfl

@[simp] theorem Hw.safeState_books : h.safeState.books = h.books := by
  have hoff : ((((h.markOff .safeState).endMove 3).turnOffAll .safeState).govEnd.hrstFalls).books = h.books := by simp
  unfold Hw.safeState
  split
  · rfl
  dsimp only
  generalize (((h.markOff .safeState).endMove 3).turnOffAll .safeState).govEnd.hrstFalls = g at hoff ⊢
  split
  · exact g.evalPgood_books.trans hoff
  · rename_i hlimp
    exact (Hw.evalPgood_books _).trans ((g.enterLatched_books 12 (Bool.eq_false_iff.mpr hlimp)).trans hoff)

@[simp] theorem Hw.askCoreReset_books (c : Nat) : (h.askCoreReset c).books = h.books := by
  unfold Hw.askCoreReset
  split <;> rfl

@[simp] theorem Hw.react_books (r : Nat) : (h.react r).books = h.books := by
  have hsafe : (if 2 ≤ r then h.safeState else h).books = h.books := ite_books h.safeState_books rfl
  unfold Hw.react
  exact ite_books ((Hw.askCoreReset_books _ 4).trans hsafe) hsafe

@[simp] theorem Hw.report_books (src addr master access : Nat) (d : List Byte) :
    (h.report src addr master access d).books = h.books := by
  unfold Hw.report
  rw [Hw.react_books, Hw.collect_eq]
  rfl

/-! ## Writes to the store (R315, R323, R324) -/

theorem Hw.flashCheck_books (id region key : Nat) : (h.flashCheck id region key).1.books = h.books := by
  unfold Hw.flashCheck
  split
  · exact Hw.report_books _ _ _ _ _ _
  · rfl

theorem Hw.regionCheck_books (region key : Nat) : (h.regionCheck region key).1.books = h.books := by
  unfold Hw.regionCheck
  split
  · exact h.flashCheck_books _ region key
  · rfl

/-- The checks of a list of records, whatever is kept of them. -/
theorem foldl_regionCheck_books (region : Nat) (xs : List Rec) (keep : List Rec → Rec → List Rec) (a : Hw × List Rec) :
    (xs.foldl (fun (a : Hw × List Rec) x =>
      ((a.1.regionCheck region x.key).1, if (a.1.regionCheck region x.key).2 then keep a.2 x else a.2)) a).1.books =
      a.1.books := by
  induction xs generalizing a with
  | nil => rfl
  | cons x xs ih => exact (ih _).trans (a.1.regionCheck_books region x.key)

theorem Hw.copyChecks_books (r : Ring) : (h.copyChecks r).1.books = h.books := by
  unfold Hw.copyChecks
  split
  · exact foldl_regionCheck_books _ _ (fun l x => l ++ [x]) (h, [])
  · rfl

theorem Hw.copyOldest_books (r : Ring) : (h.copyOldest r).books = h.books := by
  unfold Hw.copyOldest
  refine (foldl_books _ (fun g x => ?_) _ _).trans (h.copyChecks_books r)
  rfl

theorem Hw.forgetFaults_books (r : Ring) : (h.forgetFaults r).books = h.books := by
  unfold Hw.forgetFaults
  split <;> rfl

theorem Hw.eraseNow_books (r : Ring) : (h.eraseNow r).books = h.books := h.forgetFaults_books r

theorem Hw.compactNow_books (r : Ring) : (h.compactNow r).books = h.books := by
  unfold Hw.compactNow
  exact ite_books (h.eraseNow_books r) ((Hw.eraseNow_books _ r).trans (h.copyOldest_books r))

theorem Hw.makeRoom_books (n size : Nat) (r : Ring) : (Hw.makeRoom n size r h).books = h.books := by
  induction n generalizing h with
  | zero => rfl
  | succ n ih => exact ite_books ((ih _).trans (h.compactNow_books r)) rfl

theorem Hw.keep_books (half : Bool) (x : Rec) : (h.keep half x).books = h.books := h.makeRoom_books 128 _ (halfRing half)

theorem Hw.pairFor_books (key : Nat) (payload : List Byte) (job : Option Nat) : (h.pairFor key payload job).books = h.books := by
  unfold Hw.pairFor Hw.pairWith
  exact (Hw.keep_books _ _ _).trans (Hw.keep_books _ _ _)

theorem Hw.faultRecord_books (job : Option Nat) : (h.faultRecord job).books = h.books := rfl

end

end Sys2Proof.Machine
end

section
/-! SUPPORT. The system commands: what a command that is carried out may assume, the unlock a reply finds, and SERVICE_PREPARE
(R43, R361, R417, R427, R514). -/

namespace Sys2Proof.Machine

/-- A command of a class other than CONFIGURE that is carried out meets what its own effect meets. -/
theorem ServedBy.completes_post {i : Instr} {o : Origin} {op : Nat} {body : Hw → Hw} {c : CmdInfo} {s : State} {post : Hw → Prop}
    (hi : ServedBy i o op body) (hc : cmdInfo op = some c) (hcl : c.cls ≠ .configure) (hcar : s.hw.carries i = true)
    (hp : post (body s.hw)) : Completes i s post := by
  obtain ⟨t, hrun, hpend, ht⟩ := hi.completes hc hcl s hcar
  exact ⟨t, hrun, hpend, ht ▸ hp⟩

/-- No command is carried out while a commit runs or a core reset is due (R413, R464). -/
theorem Hw.carries_idle {h : Hw} {i : Instr} (hcar : h.carries i = true) : h.pwr.commit = none ∧ h.rst.coreReq = none := by
  unfold Hw.carries at hcar
  cases hp : packetOf i with
  | none => simp [hp] at hcar
  | some p =>
    obtain ⟨o, op, ps⟩ := p
    simp only [hp, Hw.reaches, Hw.serves, Bool.and_eq_true, Option.isNone_iff_eq_none] at hcar
    tauto

section
variable (h : Hw) (o : Origin) (relayed : Bool)

/-! ## The unlocks (R417) -/

@[simp] theorem Hw.respond_unlockAt (st : Nat) (d : List Byte) : (h.respond o st d).unlockAt relayed = h.unlockAt relayed := by
  unfold Hw.respond
  dsimp only
  split
  · cases relayed <;> rfl
  · cases o <;> cases relayed <;> rfl

@[simp] theorem Hw.setUnlock_unlockAt (u : Unlock) : (h.setUnlock relayed u).unlockAt relayed = u := by cases relayed <;> rfl

theorem Hw.setUnlock_desk (u : Unlock) : (h.setUnlock relayed u).desk = h.desk := by cases relayed <;> rfl

@[simp] theorem Hw.report_unlockAt (src addr master access : Nat) (d : List Byte) :
    (h.report src addr master access d).unlockAt relayed = h.unlockAt relayed :=
  unlockAt_of_books (h.report_books src addr master access d) relayed

/-- A privilege failure is a reply to the packet that came. -/
theorem Hw.deny_replied {g : Hw} (e : g.desk = h.desk) (op off st : Nat) : Replied h (g.deny o op off st) o st [] :=
  Hw.respond_replied_of (by rw [Hw.report_mbx, mbx_of_desk e]) (by rw [Hw.report_role, role_of_desk e])
    (by rw [Hw.report_relay, relay_of_desk e]) st []

/-! ## The requests to the sequencer (R43, R514) -/

theorem Hw.restartAsked_desk (k : RestartKind) : (h.restartAsked k).desk = h.desk := (h.closeAll 0x04 0x20).wake_desk

/-- STANDBY is asked for, with its wake sources (R514). -/
def Hw.standbyAsked (h : Hw) (wake : Byte) : Hw := { h with seq := { h.seq with standbyReq := some wake } }

theorem Hw.standbyAsked_desk (wake : Byte) : (h.standbyAsked wake).desk = h.desk := by
  unfold Hw.standbyAsked Hw.desk
  rfl

/-- Icehouse is armed, or no longer (R361). -/
def Hw.icehouseSet (h : Hw) (armed : Bool) : Hw := { h with pwr := { h.pwr with icehouseArmed := armed } }

theorem Hw.icehouseSet_spec (armed : Bool) : Replied h ((h.icehouseSet armed).ok o []) o 0 [] ∧
    ((h.icehouseSet armed).ok o []).pwr.icehouseArmed = armed ∧ ((h.icehouseSet armed).ok o []).outs = h.outs := by
  have hdesk : (h.icehouseSet armed).desk = h.desk := by
    unfold Hw.icehouseSet Hw.desk
    rfl
  refine ⟨Hw.respond_replied_of_desk hdesk o 0 [], ?_, ?_⟩
  · exact congrArg (·.icehouseArmed) ((h.icehouseSet armed).respond_pwr o 0 [])
  · exact (h.icehouseSet armed).respond_outs o 0 []

/-- What follows a reply and touches neither the mailbox nor the relay keeps it. -/
theorem Replied.of_later {h g t : Hw} {o : Origin} {st : Nat} {d : List Byte} (hg : Replied h g o st d)
    (hm : t.mbx o = g.mbx o) (hrelay : t.prm.relay = g.prm.relay) : Replied h t o st d := by
  unfold Replied at *
  rwa [hrelay, hm]

theorem Seq.enter_standbyReq (q : Seq) (st : SysState) : (q.enter st).standbyReq = q.standbyReq := by
  unfold Seq.enter
  split <;> rfl

theorem standbyReq_of_rest {g : Hw} {l : Ledger} {r : Resets} {c : List Slot} {q : Seq} (e : g.rest = (l, r, c, q.plan)) :
    g.seq.standbyReq = q.standbyReq := by
  have hplan : g.seq.plan = q.plan := congrArg (fun r => r.2.2.2) e
  exact congrArg (·.standbyReq) hplan

theorem standbyReq_of_rest_eq {g h : Hw} (e : g.rest = h.rest) : g.seq.standbyReq = h.seq.standbyReq :=
  congrArg (·.standbyReq) (plan_of_rest e)

theorem Hw.startDown_standbyReq (n : Nat) (j : Option Nat) : (h.startDown n j).seq.standbyReq = h.seq.standbyReq :=
  (standbyReq_of_rest (h.startDown_rest n j)).trans (h.seq.enter_standbyReq .seqDown)

theorem Hw.endKeep_standbyReq : h.endKeep.seq.standbyReq = h.seq.standbyReq := rfl

/-- The request to enter STANDBY waits for the end of the power-down (R514). -/
theorem Hw.offRequest_standbyReq (j : Option Nat) : (h.offRequest j).seq.standbyReq = h.seq.standbyReq := by
  have hdrop : (h.dropPend 1).seq.standbyReq = h.seq.standbyReq :=
    (standbyReq_of_rest (h.dropPend_rest 1)).trans rfl
  have hhold : (h.dropPend 1).holdRamps.seq.standbyReq = (h.dropPend 1).seq.standbyReq :=
    standbyReq_of_rest_eq (h.dropPend 1).holdRamps_rest
  unfold Hw.offRequest
  dsimp only
  split
  · rw [Hw.startDown_standbyReq, Hw.endKeep_standbyReq, hhold, hdrop]
  · rw [Hw.startDown_standbyReq, Hw.endKeep_standbyReq, hdrop]
  · exact hdrop

/-- STANDBY asked for in RUN begins with the power-down, after the reply. -/
theorem Hw.standbyAsked_spec (wake : Byte) (hst : h.seq.state = .off ∨ h.seq.state = .run) :
    let g := (h.standbyAsked wake).ok o []
    let t := if g.seq.state == .run then g.offRequest none else g
    Replied h t o 0 [] ∧ t.seq.standbyReq = some wake ∧
      t.seq.state = (if h.seq.state = .run then .seqDown else .off) := by
  have hreplied : Replied h ((h.standbyAsked wake).ok o []) o 0 [] :=
    Hw.respond_replied_of_desk (h.standbyAsked_desk wake) o 0 []
  have hseq : ((h.standbyAsked wake).ok o []).seq = (h.standbyAsked wake).seq := (h.standbyAsked wake).respond_seq o 0 []
  dsimp only
  generalize (h.standbyAsked wake).ok o [] = g at hreplied hseq ⊢
  have hstate : g.seq.state = h.seq.state := (congrArg Seq.state hseq).trans rfl
  have hreq : g.seq.standbyReq = some wake := (congrArg Seq.standbyReq hseq).trans rfl
  rcases hst with hoff | hrun
  · rw [if_neg (by simp [hstate, hoff]), if_neg (by simp [hoff])]
    exact ⟨hreplied, hreq, hstate.trans hoff⟩
  · have hdesk := g.offRequest_desk none
    rw [if_pos (by simp [hstate, hrun]), if_pos hrun]
    exact ⟨hreplied.of_later (mbx_of_desk hdesk o) (relay_of_desk hdesk), (g.offRequest_standbyReq none).trans hreq,
      g.offRequest_of_run none (hstate.trans hrun)⟩

/-! ## SERVICE_PREPARE (R43) -/

/-- The last words of SERVICE_PREPARE are writes to the store: they change its own marks alone. -/
theorem Hw.serviceWrite_books : ∃ sv, sv.job = h.seq.service.job ∧ h.serviceWrite.books = { h.books with service := sv } := by
  unfold Hw.serviceWrite
  dsimp only
  split
  · refine ⟨{ h.seq.service with lastWordDone := true }, rfl, ?_⟩
    have hstore := (Hw.faultRecord_books _ h.seq.service.job).trans (h.pairFor_books 0x300 h.lastWordPayload h.seq.service.job)
    rw [← hstore]
    rfl
  · exact ⟨h.seq.service, rfl, rfl⟩

/-- Every session is closed, and the off request of SERVICE_PREPARE is to be made. -/
def Hw.sessionsClosed (h : Hw) : Hw := { h with seq := { h.seq with service := { h.seq.service with downAsked := true } } }

theorem Hw.serviceStep_books : ∃ sv, sv.job = h.seq.service.job ∧ h.serviceStep.books = { h.books with service := sv } := by
  have hdown : ∃ sv, sv.job = h.seq.service.job ∧
      (h.sessionsClosed.offRequest none).serviceWrite.books = { h.books with service := sv } := by
    have hoff := h.sessionsClosed.offRequest_books none
    obtain ⟨sv, hjob, hsv⟩ := (h.sessionsClosed.offRequest none).serviceWrite_books
    refine ⟨sv, hjob.trans ((congrArg Service.job (service_of_books hoff)).trans rfl), hsv.trans ?_⟩
    rw [hoff]
    rfl
  unfold Hw.serviceStep
  dsimp only
  split
  · exact hdown
  · exact h.serviceWrite_books

/-- While a session is still to close nothing else happens. -/
theorem Hw.serviceStep_of_closing {n : Nat} (hopen : (h.slot n).open? = true) (hpend : (h.slot n).closePending = true)
    (hasked : h.seq.service.downAsked = false) : h.serviceStep = h := by
  have hlt : n < h.slots.length := lt_of_getD_ne (d := Slot.none) (fun e => by
    unfold Hw.slot at hopen
    rw [e] at hopen
    exact absurd hopen (by decide))
  have hslot : h.slot n = h.slots[n] := by simp [Hw.slot, List.getD, hlt]
  have hany : h.slots.any (fun s => s.open? && s.closePending) = true :=
    List.any_eq_true.mpr ⟨h.slots[n], List.getElem_mem hlt, by rw [← hslot, hopen, hpend]; rfl⟩
  unfold Hw.serviceStep
  dsimp only
  rw [hany, if_neg (by simp)]
  exact if_neg (by simp [hasked])

/-- The job begun last is that of SERVICE_PREPARE, and every session is asked to close. -/
def Hw.closeForService (h : Hw) : Hw :=
  ({ h with seq := { h.seq with service := { job := some h.proto.lastJob, ready := false, downAsked := false
                                             lastWordDone := false } } } : Hw).closeAll 0x03 0

/-- The module asked to prepare for service. -/
def Hw.serviceAsked (h : Hw) (o : Origin) : Hw := ((h.newJob 0x08 true).pending o []).closeForService

theorem Hw.closeForService_mbx : h.closeForService.mbx o = h.mbx o := by cases o <;> rfl

theorem Hw.closeForService_service : h.closeForService.seq.service.job = some h.closeForService.proto.lastJob ∧
    h.closeForService.seq.service.downAsked = false ∧ h.closeForService.proto.lastJob = h.proto.lastJob ∧
    h.closeForService.prm.relay = h.prm.relay := ⟨rfl, rfl, rfl, rfl⟩

theorem Hw.closeForService_slots : h.closeForService.slots = h.slots.map (Slot.askClose 0x03 0) := rfl

@[simp] theorem Hw.respond_lastJob (st : Nat) (d : List Byte) : (h.respond o st d).proto.lastJob = h.proto.lastJob := by
  unfold Hw.respond
  dsimp only
  split
  · rfl
  · cases o <;> rfl

theorem Hw.newJob_desk (op : Byte) (byCore : Bool) : (h.newJob op byCore).desk = h.desk := by
  unfold Hw.newJob Hw.desk
  rfl

theorem Hw.draw_desk : h.draw.desk = h.desk := by
  unfold Hw.desk
  rfl

/-- A command that starts a job answers PENDING with its number (R414). -/
theorem Hw.newJob_pending_replied (op : Byte) (byCore : Bool) :
    Replied h ((h.newJob op byCore).pending o []) o 1 (be 2 ((h.newJob op byCore).pending o []).proto.lastJob) := by
  unfold Hw.pending
  rw [Hw.respond_lastJob, List.append_nil]
  exact Hw.respond_replied_of_desk (h.newJob_desk op byCore) o 1 _

theorem Hw.serviceAsked_spec : Replied h (h.serviceAsked o) o 1 (be 2 (h.serviceAsked o).proto.lastJob) ∧
    (h.serviceAsked o).seq.service.job = some (h.serviceAsked o).proto.lastJob ∧
    (h.serviceAsked o).seq.service.downAsked = false ∧ (h.serviceAsked o).slots = (h.closeAll 0x03 0).slots := by
  have hreplied := h.newJob_pending_replied o 0x08 true
  have hslots : ((h.newJob 0x08 true).pending o []).slots = h.slots := (h.newJob 0x08 true).respond_slots o _ _
  unfold Hw.serviceAsked
  generalize (h.newJob 0x08 true).pending o [] = g at hreplied hslots ⊢
  obtain ⟨hjob, hasked, hlast, hrelay⟩ := g.closeForService_service
  refine ⟨?_, hjob, hasked, ?_⟩
  · rw [hlast]
    exact hreplied.of_later (g.closeForService_mbx o) hrelay
  · rw [Hw.closeForService_slots, hslots]
    rfl

/-- A slot asked to close is open until its record is in the log (R281). -/
theorem Slot.open?_askClose (reason : Nat) (flags : BitVec 16) (x : Slot) : (x.askClose reason flags).open? = x.open? := by
  unfold Slot.askClose
  split <;> rfl

theorem Hw.open?_closeAll (reason : Nat) (flags : BitVec 16) (n : Nat) :
    ((h.closeAll reason flags).slot n).open? = (h.slot n).open? :=
  getD_map_apply h.slots (Slot.askClose reason flags) Slot.open? (Slot.open?_askClose reason flags) n Slot.none

/-- SERVICE_PREPARE answers with its job, and the sessions that are open close for it. -/
theorem Hw.serviceStep_spec : Replied h (h.serviceAsked o).serviceStep o 1 (be 2 (h.serviceAsked o).serviceStep.proto.lastJob) ∧
    (h.serviceAsked o).serviceStep.seq.service.job = some (h.serviceAsked o).serviceStep.proto.lastJob ∧
    ∀ n : Fin 128, (h.slot n).open? = true → (h.slot n).closePending = false →
      ((h.serviceAsked o).serviceStep.slot n).closePending = true ∧ ((h.serviceAsked o).serviceStep.slot n).reason = 3 := by
  obtain ⟨hrep, hjob, hasked, hslots⟩ := h.serviceAsked_spec o
  obtain ⟨sv, hsv, hbooks⟩ := (h.serviceAsked o).serviceStep_books
  have hlast : (h.serviceAsked o).serviceStep.proto.lastJob = (h.serviceAsked o).proto.lastJob :=
    congrArg (·.proto.lastJob) hbooks
  have hmbx : (h.serviceAsked o).serviceStep.mbx o = (h.serviceAsked o).mbx o := by
    cases o
    · exact congrArg (·.proto.a) hbooks
    · exact congrArg (·.proto.v) hbooks
  rw [hlast]
  refine ⟨hrep.of_later hmbx (congrArg Books.relay hbooks), ?_, fun n hopen hpend => ?_⟩
  · exact (congrArg (·.service.job) hbooks).trans (hsv.trans hjob)
  · have hslot : (h.serviceAsked o).slot n = (h.closeAll 0x03 0).slot n := congrArg (·.getD n Slot.none) hslots
    obtain ⟨hpend', hreason⟩ := h.slot_closeAll 0x03 0 hopen hpend
    have hopen' : ((h.serviceAsked o).slot n).open? = true := by
      rw [hslot, Hw.open?_closeAll, hopen]
    rw [Hw.serviceStep_of_closing _ hopen' (by rw [hslot, hpend']) hasked, hslot]
    exact ⟨hpend', hreason⟩

end

/-- Settles O56: each row is its own effect, and a reply stands whatever the request then sets going. -/
theorem systemCommandsAct : Obligations.SystemCommandsAct := by
  refine ⟨fun s o hcar => completes_of_row ⟨⟨_, rfl⟩, fun _ => rfl⟩ rfl (by decide) hcar ?_,
    fun s o hcar hgone hre => ServedBy.completes_post ⟨⟨_, rfl⟩, fun _ => rfl⟩ rfl (by decide) hcar ?_,
    fun s o hcar hlock => ServedBy.completes_post ⟨⟨_, rfl⟩, fun _ => rfl⟩ rfl (by decide) hcar ?_,
    fun s o m hcar hlock => completes_of_row ⟨⟨_, rfl⟩, fun _ => rfl⟩ rfl (by decide) hcar (if_pos hlock),
    fun s o hcar hlock => ServedBy.completes_post ⟨⟨_, rfl⟩, fun _ => rfl⟩ rfl (by decide) hcar ?_,
    fun s o c hcar hc hin => ServedBy.completes_post ⟨⟨_, rfl⟩, fun _ => rfl⟩ rfl (by decide) hcar ?_,
    fun s o c m hcar hc hin hne => ServedBy.completes_post ⟨⟨_, rfl⟩, fun _ => rfl⟩ rfl (by decide) hcar ?_,
    fun s o hcar hready => completes_of_row ⟨⟨_, rfl⟩, fun _ => rfl⟩ rfl (by decide) hcar (if_pos hready),
    fun s o hcar hready hjob => ServedBy.completes_post ⟨⟨_, rfl⟩, fun _ => rfl⟩ rfl (by decide) hcar ?_,
    fun s o w hcar hres hw hst => ServedBy.completes_post ⟨⟨_, rfl⟩, fun _ => rfl⟩ rfl (by decide) hcar ?_,
    fun s o hcar hvin hbat hres => ServedBy.completes_post ⟨⟨_, rfl⟩, fun _ => rfl⟩ rfl (by decide) hcar ?_,
    fun s o hcar => ServedBy.completes_post ⟨⟨_, rfl⟩, fun _ => rfl⟩ rfl (by decide) hcar ?_⟩
  case refine_1 =>
    obtain ⟨-, hreq⟩ := Hw.carries_idle hcar
    rw [if_pos rfl, Hw.askCoreReset, hreq]
  case refine_2 =>
    obtain ⟨hcommit, -⟩ := Hw.carries_idle hcar
    have haside := s.hw.askRestart_aside hcommit hgone hre (k := .moduleRestart)
    simp only [Hw.aside, Prod.mk.injEq] at haside
    obtain ⟨-, hrst, hslots⟩ := haside
    rw [if_pos rfl]
    refine ⟨congrArg Resets.restart hrst, ?_, s.hw.askRestart_of_run hcommit hgone hre, fun n hopen hpend => ?_⟩
    · rw [s.hw.askRestart_eq hcommit hgone hre, mbx_of_desk (Hw.offRequest_desk _ _)]
      exact congrArg Mailbox.ready (mbx_of_desk (s.hw.restartAsked_desk .moduleRestart) o)
    · have hslot : (s.hw.askRestart .moduleRestart).slot n = (s.hw.closeAll 0x04 0x20).slot n :=
        congrArg (·.getD n Slot.none) hslots
      rw [hslot]
      exact s.hw.slot_closeAll 0x04 0x20 hopen hpend
  case refine_3 =>
    dsimp only
    rw [if_neg (by simp [hlock]), if_pos rfl]
    refine ⟨Hw.respond_replied_of_desk ((Hw.setUnlock_desk _ _ _).trans s.hw.draw_desk) o 0 _, ?_, ?_⟩
    · simp [Hw.ok]
    · simp [Hw.ok]
  case refine_4 =>
    dsimp only
    rw [if_neg (by simp [hlock]), if_neg (by decide), if_pos rfl]
    exact ⟨Hw.respond_replied_of_desk (Hw.setUnlock_desk _ _ _) o 0 _, by simp [Hw.ok]⟩
  case refine_5 =>
    dsimp only
    rw [hc]
    dsimp only
    rw [if_neg (by omega), if_pos rfl]
    exact ⟨Hw.respond_replied_of_desk (Hw.setUnlock_desk _ _ _) o 0 _, by simp [Hw.ok], by simp [Hw.ok], by simp [Hw.ok]⟩
  case refine_6 =>
    dsimp only
    rw [hc]
    dsimp only
    rw [if_neg (by omega), if_neg hne]
    exact ⟨s.hw.deny_replied o (Hw.setUnlock_desk _ _ _) _ _ _, by simp [Hw.deny, Unlock.wrongMac],
      by simp [Hw.deny, Unlock.wrongMac], fun hwrong => by simp [Hw.deny, Unlock.wrongMac, hwrong]⟩
  case refine_7 =>
    dsimp only
    rw [if_neg (by simp [hready]), if_neg (by simp [hjob])]
    exact s.hw.serviceStep_spec o
  case refine_8 =>
    rw [if_neg (by rcases hst with hst | hst <;> simp [hres, hst]), if_neg (by rcases hst with hst | hst <;> simp [hst]),
      if_neg (by omega)]
    exact s.hw.standbyAsked_spec o w hst
  case refine_9 =>
    obtain ⟨hreplied, harmed, houts⟩ := s.hw.icehouseSet_spec o true
    rw [if_neg (by simp [hvin, hbat, hres]), if_neg (by decide)]
    exact ⟨hreplied, harmed, houts⟩
  case refine_10 =>
    obtain ⟨hreplied, harmed, -⟩ := s.hw.icehouseSet_spec o false
    rw [if_neg (by simp), if_neg (by decide)]
    exact ⟨hreplied, harmed⟩

end Sys2Proof.Machine
end

section
/-! SUPPORT. A core reset: what it clears, the count that leads to LIMP, and the start of the core (R420, R464, R481, R518); the next
entry of the fault log (R472), and the end of SERVICE_PREPARE (R43, R44). -/

namespace Sys2Proof.Machine

section
variable (h : Hw)

/-! ## What a core reset clears (R420, R518) -/

/-- The hardware that the core finds as it starts again, with the cause of its reset. -/
def Hw.coreCleared (h : Hw) (cause : Nat) : Hw := { h.coreClear with rst := { h.coreClear.rst with cause := cause } }

theorem Hw.coreCleared_clears (q : Nat) : (h.coreCleared q).rst.coreReq = none ∧ (h.coreCleared q).rst.cause = q ∧
    (h.coreCleared q).proto.a.coreReset = true ∧ (h.coreCleared q).proto.v.coreReset = true ∧
    (h.coreCleared q).proto.a.inProc = none ∧ (h.coreCleared q).proto.v.inProc = none ∧
    (h.coreCleared q).proto.unlock.unlocked = false ∧ (h.coreCleared q).store = { h.store with staging := [] } ∧
    (h.coreCleared q).bulk.sram = [] := by
  unfold Hw.coreCleared Hw.coreClear
  exact ⟨rfl, rfl, rfl, rfl, rfl, rfl, rfl, rfl, rfl⟩

theorem Hw.coreCleared_keeps (q : Nat) : (h.coreCleared q).outs = h.outs ∧ (h.coreCleared q).seq.state = h.seq.state ∧
    (h.coreCleared q).clk = h.clk ∧ (h.coreCleared q).rst.history = h.rst.history ∧
    (h.coreCleared q).lodge = { h.lodge with checked := false } ∧
    (h.coreCleared q).life = { h.life with retireBoot := decide (0 < h.life.retireLeft) } ∧
    (h.coreCleared q).fw = (if h.bulk.holds 14 = true then h.fw.unstage else h.fw) := by
  unfold Hw.coreCleared Hw.coreClear
  exact ⟨rfl, rfl, rfl, rfl, rfl, rfl, rfl⟩

theorem Hw.coreCleared_inLimp (q : Nat) : (h.coreCleared q).inLimp = h.inLimp := by
  obtain ⟨-, hstate, -⟩ := h.coreCleared_keeps q
  unfold Hw.inLimp
  rw [hstate]

/-- No job of the core outlives its reset. -/
theorem Hw.coreCleared_jobs (q : Nat) : ∀ j ∈ (h.coreCleared q).proto.jobs, j.byCore = true → j.state ≠ .running := by
  have hjobs : (h.coreCleared q).proto.jobs =
      h.proto.jobs.map (fun j => if j.byCore && j.state == .running then { j with state := .abandoned } else j) := by
    unfold Hw.coreCleared Hw.coreClear
    rfl
  rw [hjobs]
  simp only [List.mem_map, forall_exists_index, and_imp, forall_apply_eq_imp_iff₂]
  intro j _
  by_cases hrun : (j.byCore && j.state == .running) = true
  · rw [if_pos hrun]
    exact fun _ hst => by cases hst
  · rw [if_neg hrun]
    intro hcore hst
    exact hrun (by simp [hcore, hst])

/-! ## The Lodge as the core starts (R371, R382) -/

/-- With no LODGE_RESET to read, the check raises the alarms that fired meanwhile and no more. -/
theorem Hw.lodgeCheck_eq (hreset : h.lodge.lodgeReset = false) : h.lodgeCheck = { h with
    idle := h.lodgeCheck.idle, adc := h.lodgeCheck.adc, evt := h.lodgeCheck.evt
    lodge := { h.lodge with checked := h.lodgeCheck.lodge.checked, alarms := h.lodgeCheck.lodge.alarms } } := by
  unfold Hw.lodgeCheck
  by_cases hdone : (h.lodge.checked || h.lodge.lock) = true
  · rw [if_pos hdone]
  rw [if_neg hdone]
  dsimp only
  rw [if_neg (by simp [hreset])]
  simp only [List.range_succ, List.range_zero, List.nil_append, List.cons_append, List.foldl_cons, List.foldl_nil]
  rw [Hw.raiseIf_eq, Hw.raiseIf_eq]

theorem Hw.lodgeCheck_books : h.lodgeCheck.books = h.books := by
  have hraise : ∀ g : Hw, ((List.range 2).foldl
      (fun x i => x.raiseIf ((x.lodge.alarms.getD i Alarm.disarmed).toRaise) (40 + i)) g).books = g.books :=
    fun g => foldl_books _ (fun _ _ => Hw.raiseIf_books _ _ _) _ g
  unfold Hw.lodgeCheck
  split
  · rfl
  dsimp only
  refine (hraise _).trans ?_
  split
  · exact (Hw.report_books _ _ _ _ _ _).trans (Hw.raise_books _ _)
  · rfl

/-! ## The entry to LIMP (R481, R483) -/

theorem Hw.dropOverrides_books : h.dropOverrides.books = h.books := rfl

/-- How the module goes on in LIMP: with the host restart that ran, or the power-down, or by its autostart. -/
def Hw.limpGoesOn (h : Hw) (keep : Bool) (was : SysState) : Hw :=
  if keep then h.evalPgood
  else if was == .seqDown then h.startDown 0 h.seq.job
  else if was == .faultLatched then h.dropOverrides.evalPgood
  else h.evalPgood.autostart

theorem Hw.limpGoesOn_books (keep : Bool) (was : SysState) : (h.limpGoesOn keep was).books = h.books := by
  unfold Hw.limpGoesOn
  exact ite_books h.evalPgood_books (ite_books (h.startDown_books 0 _) (ite_books
    ((Hw.evalPgood_books _).trans h.dropOverrides_books) ((Hw.autostart_books _).trans h.evalPgood_books)))

/-- LIMP is entered with its reset cause, under the budget of its own settings. -/
theorem Hw.limpEntry_spec (hlimp : h.inLimp = false) :
    h.limpEntry.inLimp = true ∧ h.limpEntry.rst.cause = 0x0A ∧ h.limpEntry.gov.vinW = 150 := by
  have hbooks : ∃ g : Hw, h.limpEntry.books = g.books ∧ g.inLimp = true ∧ g.rst.cause = 0x0A ∧ g.gov.vinW = 150 := by
    unfold Hw.limpEntry
    rw [if_neg (by simp [hlimp])]
    extract_lets closed was keep held dropped ended q resets entered settled
    exact ⟨settled, settled.limpGoesOn_books keep was, rfl, rfl, rfl⟩
  obtain ⟨g, hg, hin, hcause, hwatt⟩ := hbooks
  exact ⟨(inLimp_of_books hg).trans hin, (congrArg Books.cause hg).trans hcause, (congrArg Books.vinW hg).trans hwatt⟩

/-! ## The start of the core (R481, R531) -/

section
variable {h}

/-- Fewer than three resets within 60 s start the slot that the boot ROM chooses; but for that the check of the Lodge and its events
are all that the start changes. -/
theorem Hw.coreBoot_of_start {f : Fw} (hlimp : h.inLimp = false) (hret : h.life.retired = false) (hstart : h.fw.start = some f)
    (hreset : h.lodge.lodgeReset = false)
    (hcount : (h.rst.history.filter (fun i => h.clk ≤ i + 60000000)).length < 2) :
    ∃ idle adc evt checked alarms, h.coreBoot false = { h with
      idle := idle, adc := adc, evt := evt, lodge := { h.lodge with checked := checked, alarms := alarms }, fw := f
      rst := { h.countReset.rst with cause := if f.trialRun then 0x0B else h.rst.cause } } := by
  have heq := h.countReset.lodgeCheck_eq hreset
  have hrst : h.countReset.lodgeCheck.rst = h.countReset.rst := by rw [heq]
  have hfw : h.countReset.lodgeCheck.bootFw = some f := by
    rw [heq]
    exact (if_neg (by simp [Hw.countReset, hret])).trans hstart
  have hlen : h.countReset.rst.history.length < 3 := by
    simp only [Hw.countReset, List.length_append, List.length_singleton]
    omega
  refine ⟨h.countReset.lodgeCheck.idle, h.countReset.lodgeCheck.adc, h.countReset.lodgeCheck.evt,
    h.countReset.lodgeCheck.lodge.checked, h.countReset.lodgeCheck.lodge.alarms, ?_⟩
  unfold Hw.coreBoot
  rw [if_neg (by simp [hlimp])]
  dsimp only
  rw [if_neg Bool.false_ne_true, hrst, if_neg (by simp; omega)]
  unfold Hw.startCore
  rw [hfw, hrst, heq]
  rfl

/-- The third reset within 60 s leads to LIMP, whatever the boot ROM would choose. -/
theorem Hw.coreBoot_of_third (hlimp : h.inLimp = false)
    (hcount : 2 ≤ (h.rst.history.filter (fun i => h.clk ≤ i + 60000000)).length) :
    (h.coreBoot false).inLimp = true ∧ (h.coreBoot false).rst.cause = 0x0A ∧ (h.coreBoot false).gov.vinW = 150 := by
  have hbooks := h.countReset.lodgeCheck_books
  have hlimp' : h.countReset.lodgeCheck.inLimp = false := (inLimp_of_books hbooks).trans hlimp
  have hhist : h.countReset.lodgeCheck.rst.history = h.countReset.rst.history := congrArg Books.history hbooks
  have hlen : 3 ≤ h.countReset.rst.history.length := by
    simp only [Hw.countReset, List.length_append, List.length_singleton]
    omega
  unfold Hw.coreBoot
  rw [if_neg (by simp [hlimp])]
  dsimp only
  rw [if_neg Bool.false_ne_true, hhist, if_pos (by simpa using hlen)]
  exact Hw.limpEntry_spec { h.countReset.lodgeCheck with
    fw := { h.countReset.lodgeCheck.fw with activatePending := false, trialRun := false } } hlimp'

end

/-! ## The next entry of the fault log (R472) -/

/-- Room for an entry takes the oldest of the log at most. -/
theorem Hw.roomForFaults_keeps : (∃ l, h.roomForFaults.faults = { h.faults with log := l }) ∧
    h.roomForFaults.outs = h.outs := by
  have hforget : (∃ l, (h.forgetFaults .faultLog).faults = { h.faults with log := l }) ∧
      (h.forgetFaults .faultLog).outs = h.outs := by
    unfold Hw.forgetFaults
    split
    · exact ⟨⟨_, rfl⟩, rfl⟩
    · exact ⟨⟨h.faults.log, rfl⟩, rfl⟩
  have hsame : (∃ l, h.faults = { h.faults with log := l }) ∧ h.outs = h.outs := ⟨⟨h.faults.log, rfl⟩, rfl⟩
  unfold Hw.roomForFaults
  split
  · split
    · exact hforget
    · exact hsame
  · exact hsame

/-- The oldest error in wait becomes the newest entry. -/
theorem Hw.writeFault_spec {e : FaultEntry} {es : List FaultEntry} (hq : h.faults.queue = e :: es) :
    h.writeFault.faults.queue = es ∧ h.writeFault.faults.lastEntry = h.faults.lastEntry + 1 ∧
      h.writeFault.faults.log.getLast? = some { e with num := h.faults.lastEntry + 1 } ∧
      h.writeFault.faults.cap = h.faults.cap ∧ h.writeFault.outs = h.outs := by
  obtain ⟨⟨l, hl⟩, houts⟩ := h.roomForFaults_keeps
  have hlast : h.roomForFaults.faults.lastEntry = h.faults.lastEntry := (congrArg Faults.lastEntry hl).trans rfl
  have hcap : h.roomForFaults.faults.cap = h.faults.cap := (congrArg Faults.cap hl).trans rfl
  unfold Hw.writeFault
  rw [hq]
  dsimp only
  rw [hlast]
  exact ⟨rfl, rfl, List.getLast?_concat, hcap, houts⟩

/-! ## The end of SERVICE_PREPARE (R43, R44) -/

/-- With its last words written no step of SERVICE_PREPARE is left. -/
theorem Hw.serviceStep_of_done (hasked : h.seq.service.downAsked = true) (hdone : h.seq.service.lastWordDone = true) :
    h.serviceStep = h := by
  unfold Hw.serviceStep Hw.serviceWrite
  simp [hasked, hdone]

/-- A job that has been begun, and has not been abandoned. -/
def Hw.hasJob (h : Hw) (n : Nat) : Prop := ∃ x ∈ h.proto.jobs, x.num = n ∧ (x.state = .running ∨ x.state = .done)

theorem Hw.hasJob_endJob {n : Nat} (hn : h.hasJob n) (k st r : Nat) (d : List Byte) : (h.endJob k st r d).hasJob n := by
  obtain ⟨x, hx, hnum, hst⟩ := hn
  refine ⟨_, List.mem_map_of_mem hx, ?_⟩
  split
  · exact ⟨hnum, .inr rfl⟩
  · exact ⟨hnum, hst⟩

theorem Hw.hasJob_endJob? {n : Nat} (hn : h.hasJob n) (k : Option Nat) (st r : Nat) (d : List Byte) :
    (h.endJob? k st r d).hasJob n := by
  cases k with
  | none => exact hn
  | some k => exact h.hasJob_endJob hn k st r d

/-- A job that ends is done. -/
theorem Hw.endJob_done {n : Nat} (hn : h.hasJob n) (st r : Nat) (d : List Byte) :
    ∃ y ∈ (h.endJob n st r d).proto.jobs, y.num = n ∧ y.state = .done := by
  obtain ⟨x, hx, hnum, hst⟩ := hn
  refine ⟨_, List.mem_map_of_mem hx, ?_⟩
  split
  · exact ⟨hnum, rfl⟩
  · rename_i hrun
    exact ⟨hnum, hst.resolve_left (fun hr => hrun (by simp [hnum, hr]))⟩

@[simp] theorem Hw.turnOff_proto (c : OffCause) (k : Nat) : (h.turnOff c k).proto = h.proto := by
  have hite : ∀ {p : Prop} [Decidable p] {a b : Hw}, a.proto = h.proto → b.proto = h.proto →
      (if p then a else b).proto = h.proto := fun ha hb => by split <;> assumption
  unfold Hw.turnOff
  exact hite rfl (hite (by rw [Hw.freeBus_eq]; rfl) (hite rfl (hite rfl rfl)))

theorem Hw.faultRestart_jobs : h.faultRestart.proto.jobs = h.proto.jobs := by
  have hfold : ∀ (l : List Nat) (g : Hw), (l.foldl (fun g k => g.turnOff .command k) g).proto = g.proto := by
    intro l
    induction l with
    | nil => exact fun _ => rfl
    | cons k l ih => exact fun g => (ih _).trans (g.turnOff_proto .command k)
  have hrevert : h.revert.proto = h.proto := hfold _ h
  unfold Hw.faultRestart
  rw [Hw.evalPgood_eq]
  exact congrArg Proto.jobs hrevert

/-- The latched on request is discarded, the job ends, and the module is ready for service. -/
def Hw.serviceDone (h : Hw) (j : Nat) : Hw :=
  let g := (h.dropPend 1).endJob j 0 0 []
  { g with seq := { g.seq with service := { job := none, ready := true, downAsked := true, lastWordDone := true } } }

theorem Hw.serviceDone_spec (j : Nat) : (h.serviceDone j).serviceReady = true ∧ (h.serviceDone j).seq.service.job = none ∧
    (h.serviceDone j).seq.pendOn = false ∧ (h.serviceDone j).seq.state = h.seq.state ∧ (h.serviceDone j).life = h.life ∧
    (h.hasJob j → ∃ y ∈ (h.serviceDone j).proto.jobs, y.num = j ∧ y.state = .done) := by
  refine ⟨rfl, rfl, rfl, ?_, ?_, fun hj => ?_⟩
  · exact (congrArg (fun r => r.2.2.2.state) (h.dropPend_rest 1)).trans rfl
  · simp [Hw.serviceDone]
  · exact Hw.endJob_done (h.dropPend 1) (h.hasJob_endJob? hj h.seq.onJob 0 1 []) 0 0 []

end

section
variable {s : State} {post : Hw → Prop}

/-- The row of the core reset, with none of its waits in the way. -/
theorem completes_coreResetExecute {q : Nat} (hreq : s.hw.rst.coreReq = some q) (hon : s.hw.ins.mainOn = true)
    (hboot : s.hw.ins.booted = true) (hcommit : s.hw.pwr.commit = none) (hpend : s.hw.fw.activatePending = false)
    (hsafe : s.hw.flashBusy = false ∨ s.hw.rst.safe = true) (hprog : s.hw.fw.programming = false)
    (hp : post (((s.hw.coreCleared q).coreBoot false).raiseIf (q = 5) 47)) : Completes .coreResetExecute s post := by
  refine ⟨_, rfl, rfl, ?_⟩
  dsimp only
  rw [hreq]
  dsimp only
  rw [if_pos (by rcases hsafe with hsafe | hsafe <;> simp [hon, hboot, hcommit, hsafe, hprog]), hpend]
  exact hp

end

/-- Settles O51: a core reset is what it clears, and the start of the core or the entry to LIMP. -/
theorem coreResetsLeaveTheHardware : Obligations.CoreResetsLeaveTheHardware := by
  refine ⟨fun s hon hboot hcommit hreq => ⟨_, rfl, rfl, ?_⟩,
    fun s q f hreq hon hboot hcommit hlimp hpend hstart hret hsafe hprog hbulk hreset hcount =>
      completes_coreResetExecute hreq hon hboot hcommit hpend hsafe hprog ?_,
    fun s q hreq hon hboot hcommit hlimp hpend hsafe hprog hcount =>
      completes_coreResetExecute hreq hon hboot hcommit hpend hsafe hprog ?_,
    fun s q hreq hbusy => ⟨_, rfl, rfl, ?_⟩, fun s hfw hcommit hreq => ⟨_, rfl, rfl, ?_⟩,
    fun s htrial hboot hlimp hreq => ⟨_, rfl, rfl, ?_⟩, fun s e es hboot hlimp hcommit hq => ⟨_, rfl, rfl, ?_⟩,
    fun s j hjob hasked hdone hleave hcommit hst hproving => ⟨_, rfl, rfl, ?_⟩,
    fun s j v hjob hv hvj hasked hdone => ⟨_, rfl, rfl, ?_⟩⟩
  case refine_1 =>
    dsimp only
    rw [if_pos (by simp [hon, hboot, hcommit]), Hw.askCoreReset, hreq]
  case refine_2 =>
    obtain ⟨hnone, hcause, ha, hv, hap, hvp, hlock, hstore, hsram⟩ := s.hw.coreCleared_clears q
    obtain ⟨houts, hstate, hclk, hhist, hlodge, hlife, hfw⟩ := s.hw.coreCleared_keeps q
    have hlimp' : (s.hw.coreCleared q).inLimp = false := (s.hw.coreCleared_inLimp q).trans hlimp
    obtain ⟨idle, adc, evt, checked, alarms, ht⟩ := Hw.coreBoot_of_start hlimp' (by rw [hlife]; exact hret)
      (by rw [hfw, if_neg (by simp [hbulk])]; exact hstart) (by rw [hlodge]; exact hreset) (by rwa [hclk, hhist])
    rw [ht]
    refine ⟨?_, ?_, ?_, ?_, ?_, ?_, ?_, ?_, ?_, ?_, ?_, ?_, ?_, ?_, ?_, fun hq => ?_⟩
    case refine_16 =>
      rw [hq]
      exact Hw.raise_pend_of_not_mute _ (by simp [Hw.mute]) (by omega)
    all_goals rw [Hw.raiseIf_eq]
    · exact hnone
    · rw [hcause]
    · exact ha
    · exact hv
    · exact hap
    · exact hvp
    · exact hlock
    · exact hstore
    · exact s.hw.coreCleared_jobs q
    · exact houts
    · exact hstate
    · exact (congrArg Lodge.ticks hlodge).trans rfl
    · exact (congrArg Lodge.status hlodge).trans rfl
    · exact hsram
    · exact hlife
  case refine_3 =>
    have hlimp' : (s.hw.coreCleared q).inLimp = false := (s.hw.coreCleared_inLimp q).trans hlimp
    obtain ⟨-, -, hclk, hhist, -, hlife, -⟩ := s.hw.coreCleared_keeps q
    obtain ⟨hin, hcause, hwatt⟩ := Hw.coreBoot_of_third hlimp' (by rwa [hclk, hhist])
    have hbooks := ((s.hw.coreCleared q).coreBoot false).raiseIf_books (q = 5) 47
    refine ⟨(inLimp_of_books hbooks).trans hin, (congrArg Books.cause hbooks).trans hcause,
      (congrArg Books.vinW hbooks).trans hwatt, ?_, ?_⟩
    · simp [hlife]
    · simp [hlife]
  case refine_4 =>
    dsimp only
    rw [hreq]
    dsimp only
    rcases hbusy with ⟨hbusy, hsafe⟩ | hprog
    · exact if_neg (by simp [hbusy, hsafe])
    · exact if_neg (by simp [hprog])
  case refine_5 =>
    dsimp only
    rw [if_pos (by simp [hfw, hcommit]), Hw.askCoreReset]
    dsimp only
    rw [hreq]
  case refine_6 =>
    dsimp only
    rw [if_pos (by simp [htrial, hboot, hlimp, hreq])]
    dsimp only
    unfold Fw.setSlot Fw.slot
    cases s.hw.fw.runB <;> exact ⟨rfl, rfl, rfl, rfl, rfl, rfl⟩
  case refine_7 =>
    obtain ⟨hqueue, hlast, hlog, hcap, houts⟩ := s.hw.writeFault_spec hq
    dsimp only
    rw [if_pos (by simp [hboot, hlimp, hcommit])]
    exact ⟨hqueue, hlast, hlog, hcap, houts, by simp⟩
  case refine_8 =>
    have hall : s.hw.store.proving.all (fun v => v.job != some j) = true := by simpa using hproving
    dsimp only
    rw [Hw.serviceStep_of_done _ hasked hdone, hjob]
    dsimp only
    rw [if_pos (by rcases hst with hst | hst <;> simp [hdone, hall, hleave, hcommit, Hw.eff, Seq.eff, hst])]
    rcases hst with hoff | hlatch
    · obtain ⟨hready, hnone, hpend, hstate, hlife, hended⟩ := s.hw.serviceDone_spec j
      rw [if_neg (by simp [Hw.eff, Seq.eff, hoff])]
      exact ⟨hready, hnone, hpend, hstate.trans hoff, hlife, fun x hx hnum hrun => hended ⟨x, hx, hnum, .inl hrun⟩⟩
    · obtain ⟨hready, hnone, hpend, hstate, hlife, hended⟩ := s.hw.faultRestart.serviceDone_spec j
      obtain ⟨hoff, -⟩ := s.hw.faultRestart_seq hlatch
      rw [if_pos (by simp [Hw.eff, Seq.eff, hlatch])]
      exact ⟨hready, hnone, hpend, hstate.trans hoff, hlife.trans s.hw.faultRestart_life, fun x hx hnum hrun =>
        hended ⟨x, s.hw.faultRestart_jobs ▸ hx, hnum, .inl hrun⟩⟩
  case refine_9 =>
    dsimp only
    rw [Hw.serviceStep_of_done _ hasked hdone, hjob]
    have hall : s.hw.store.proving.all (fun v => v.job != some j) = false :=
      List.all_eq_false.mpr ⟨v, hv, by simp [hvj]⟩
    exact if_neg (by simp [hall])

end Sys2Proof.Machine
end

section
/-! SUPPORT. Pulse-skipping, IDLE and the reference buffer (R65–R69, R149, R169). -/

namespace Sys2Proof.Machine

section
variable (h : Hw)

/-! ## The wake -/

theorem Hw.wake_of_idle (hidle : h.idle.idle = true) : h.wake = { h with
    idle := { h.idle with idle := false }, adc := { h.adc with ref := if h.adc.ref == .low then .settling else h.adc.ref } } :=
  if_pos hidle

theorem Hw.wake_skipping : h.wake.idle.skipping = h.idle.skipping := by
  unfold Hw.wake
  split <;> rfl

/-! ## The thresholds of each family (R65, R149) -/

theorem Hw.skipLimits_vp {k : Nat} (hk : k < 4) : h.skipLimits k = (800, 1200) := by
  simp [Hw.skipLimits, isVp, hk]

theorem Hw.skipLimits_vm {k : Nat} (hlo : 4 ≤ k) (hhi : k < 10) : h.skipLimits k =
    if h.throttled = true ∧ (h.cfg k).ripple = 2 then (700, 1000) else (350, 500) := by
  simp [Hw.skipLimits, isVp, isVm, hlo, hhi, Nat.not_lt.mpr hlo]

theorem Hw.skipLimits_vh {k : Nat} (hk : k = 10 ∨ k = 11) : h.skipLimits k =
    if h.throttled = true ∧ (h.cfg k).ripple = 2 then (400, 600) else (200, 300) := by
  rcases hk with rfl | rfl <;> simp [Hw.skipLimits, isVp, isVm, isVh]

/-! ## The entry to IDLE (R67, R169) -/

/-- The module after its entry to IDLE, the reference buffer in LOW where REF_MODE lets it. -/
def Hw.slept (h : Hw) : Hw :=
  { h with idle := { h.idle with idle := true }
           adc := { h.adc with ref := if !h.adc.set.refFull && (h.adc.ref == .full || h.adc.ref == .settling) && !h.adc.fromOff
                                      then .low else h.adc.ref } }

theorem Hw.slept_adc_of_refFull (hfull : h.adc.set.refFull = true) : h.slept.adc = h.adc := by
  simp [Hw.slept, hfull]

theorem Hw.slept_ref_of_auto (hauto : h.adc.set.refFull = false) (href : h.adc.ref = .full ∨ h.adc.ref = .settling)
    (hoff : h.adc.fromOff = false) : h.slept.adc.ref = .low := by
  simp [Hw.slept, hauto, href, hoff]

end

/-- Settles O21: the thresholds by family, and each row in the state that takes it. -/
theorem lightLoadAndIdle : Obligations.LightLoadAndIdle := by
  refine ⟨fun s c load hmay hload => ⟨_, rfl, rfl, if_pos (by simp [hmay, hload])⟩, fun s c load hload => ⟨_, rfl, rfl, ?_⟩,
    fun h => ⟨fun k hk => h.skipLimits_vp hk, rfl, rfl, fun k hlo hhi => h.skipLimits_vm hlo hhi,
      fun k hk => h.skipLimits_vh hk⟩,
    fun s hrun hskip hpool hchg hqueue hports hidle => ⟨_, rfl, rfl, ?_⟩, fun s hidle => ⟨_, rfl, rfl, ?_⟩⟩
  case refine_1 =>
    dsimp only
    rw [if_pos hload]
    exact ⟨s.hw.wake_idle, congrArg (·.set c false) s.hw.wake_skipping, s.hw.wake_outs, s.hw.wake_seq⟩
  case refine_2 =>
    dsimp only
    rw [if_pos (by simp [hrun, hskip, hpool, hchg, hqueue, hports, hidle])]
    exact ⟨rfl, s.hw.slept_adc_of_refFull, s.hw.slept_ref_of_auto, rfl, rfl⟩
  case refine_3 =>
    dsimp only
    rw [Hw.wake_of_idle _ hidle]
    exact ⟨rfl, by simp, rfl, rfl⟩

end Sys2Proof.Machine
end

section
/-! SUPPORT. A release of the power budget governor that its statement does not foresee (R76). -/

namespace Sys2Proof.Machine

/-- In RUN, with VM1 listed by the governor as shed and fitting again for 1 s, but with no entry for it among the outputs. -/
def shedWithoutEntry : Hw :=
  { liveHw with
    clk := 1000000
    outs := []
    gov := { liveHw.gov with shedList := [⟨4, 0, some 0⟩] } }

/-- Nothing draws power. -/
def nothingDrawn : GovSample := ⟨0, 0, 0, 0, 48000, [0, 0, 0, 0, 0, 0]⟩

/-- The release finds no entry to turn on, and an output without one reads off. -/
theorem release_without_entry :
    ((after (exec (.governorEvaluate nothingDrawn) ⟨shedWithoutEntry, []⟩)).out 4).on = false := by decide +kernel

/-- Refutes O22: the output that comes back is on only where the list of outputs holds it. The clause of the release asks for its number
below 18 alone, where those of the sheds and of the ports ask for an entry; a state of the shape that every run keeps has it. -/
theorem not_governorCapsOnOverload : ¬ Obligations.GovernorCapsOnOverload := by
  unfold Obligations.GovernorCapsOnOverload
  rintro ⟨-, -, -, -, -, -, -, -, hrelease, -⟩
  obtain ⟨-, -, hback, -⟩ := (hrelease ⟨shedWithoutEntry, []⟩ nothingDrawn ⟨4, 0, some 0⟩ [] 0 (.inr (.inl (by decide +kernel)))
    (by decide +kernel) (by decide +kernel) (by decide +kernel) (by decide +kernel) (by decide +kernel) (by decide +kernel)
    (by decide +kernel) (by decide +kernel)).after_exec
  have hon := hback (by decide +kernel) (by decide +kernel) (by decide +kernel) (by decide +kernel)
  exact absurd (release_without_entry.symm.trans hon) (by decide)

end Sys2Proof.Machine
end

section
/-! SUPPORT. What a running-rail fault of the module's own makes of the sequencer, the clock and the starts of the VH outputs,
whatever the reaction of its class (R81, R200, R474). -/

namespace Sys2Proof.Machine

/-! ## A list of starts -/

theorem getD_set_of_none {α : Type} {l : List (Option α)} {i : Nat} (j : Nat) (hi : l.getD i none = none) :
    (l.set j none).getD i none = none := by
  rw [List.getD_eq_getElem?_getD] at hi ⊢
  rw [List.getElem?_set]
  split
  · split <;> rfl
  · exact hi

theorem getD_set_none {α : Type} (l : List (Option α)) (i : Nat) : (l.set i none).getD i none = none := by
  rw [List.getD_eq_getElem?_getD, List.getElem?_set_self']
  cases l[i]? <;> rfl

/-! ## The power path under the operations of a fault -/

/-- VH output i waits for no window (R81). -/
def Hw.vhDone (h : Hw) (i : Nat) : Prop := h.pwr.vhWait.getD i none = none

theorem vhDone_of_pwr {g h : Hw} (e : g.pwr = h.pwr) {i : Nat} (hi : h.vhDone i) : g.vhDone i := by
  unfold Hw.vhDone
  rwa [e]

theorem clk_of_ledger {g h : Hw} (e : g.ledger = h.ledger) : g.clk = h.clk := congrArg Ledger.clk e
theorem toUnmet_of_rest {g h : Hw} (e : g.rest = h.rest) : g.seq.toUnmet = h.seq.toUnmet :=
  (congrArg Seq.toUnmet (plan_of_rest e) :)
theorem fltDrive_of_rest {g h : Hw} (e : g.rest = h.rest) : g.seq.fltDrive = h.seq.fltDrive :=
  (congrArg Seq.fltDrive (plan_of_rest e) :)

section
variable (h : Hw) {i : Nat}

@[simp] theorem Hw.raise_pwr (k : Nat) : (h.raise k).pwr = h.pwr := by rw [Hw.raise_eq]
@[simp] theorem Hw.evalPgood_pwr : h.evalPgood.pwr = h.pwr := by rw [Hw.evalPgood_eq]
@[simp] theorem Hw.unskip_pwr (c : Nat) : (h.unskip c).pwr = h.pwr := rfl
@[simp] theorem Hw.govEnd_pwr : h.govEnd.pwr = h.pwr := rfl
@[simp] theorem Hw.markOff_pwr (c : OffCause) : (h.markOff c).pwr = h.pwr := rfl

@[simp] theorem Hw.pgoodLow_pwr : h.pgoodLow.pwr = h.pwr := by
  unfold Hw.pgoodLow
  rw [Hw.raiseIf_eq]

@[simp] theorem Hw.endMove_pwr (r : Nat) : (h.endMove r).pwr = h.pwr := by
  unfold Hw.endMove
  split <;> rfl

theorem Hw.raise_leaving (k : Nat) : (h.raise k).leaving = h.leaving := by rw [Hw.raise_eq]; rfl

/-- Turning an output off starts none: a VH output may end its wait by it. -/
theorem Hw.turnOff_vhDone (c : OffCause) (k : Nat) (hi : h.vhDone i) : (h.turnOff c k).vhDone i := by
  unfold Hw.turnOff
  by_cases hhold : h.holds c k = true
  · rwa [if_pos hhold]
  rw [if_neg hhold]
  by_cases hep : isEp k = true
  · rw [if_pos hep, Hw.freeBus_eq]
    exact hi
  rw [if_neg hep]
  dsimp only
  by_cases hvp : isVp k = true
  · rw [if_pos hvp]
    exact hi
  rw [if_neg hvp]
  by_cases hvh : isVh k = true
  · rw [if_pos hvh]
    exact getD_set_of_none _ hi
  · rwa [if_neg hvh]

theorem Hw.turnOffAll_vhDone (c : OffCause) (hi : h.vhDone i) : (h.turnOffAll c).vhDone i := by
  unfold Hw.turnOffAll
  exact List.foldlRecOn (motive := fun g : Hw => g.vhDone i) _ _ hi (fun g hg k _ => g.turnOff_vhDone c k hg)

/-! ## The entry to FAULT_LATCHED -/

theorem Hw.enterLatched_pwr (c : Nat) : (h.enterLatched c).pwr = h.pwr := by
  have hjob : ∀ (g : Hw) (n : Option Nat), (g.endJob? n 0 3 []).pwr = g.pwr := fun g n => by cases n <;> rfl
  unfold Hw.enterLatched
  dsimp only
  rw [hjob, hjob]
  split <;> rfl

theorem Hw.enterLatched_seq (c : Nat) (hlimp : h.inLimp = false) : (h.enterLatched c).seq.state = .faultLatched ∧
    (h.enterLatched c).seq.cause = c ∧ (h.enterLatched c).seq.toUnmet = h.seq.toUnmet ∧
    (h.enterLatched c).seq.fltDrive = h.seq.fltDrive := by
  have hjob : ∀ (g : Hw) (n : Option Nat), (g.endJob? n 0 3 []).seq = g.seq := fun g n => by cases n <;> rfl
  have hclose : (h.closeAll 0x04 0).inLimp = false := hlimp
  unfold Hw.enterLatched
  simp only [hjob, hclose, Bool.false_and, Bool.false_eq_true, if_false]
  exact ⟨trivial, trivial, rfl, rfl⟩

theorem Hw.planRetry_keeps : h.planRetry.clk = h.clk ∧ h.planRetry.pwr = h.pwr ∧
    ∃ w, h.planRetry.seq = { h.seq with retryWait := w } := by
  unfold Hw.planRetry
  split
  · exact ⟨rfl, rfl, _, rfl⟩
  split
  · exact ⟨rfl, rfl, _, rfl⟩
  · rw [Hw.raise_eq]
    exact ⟨rfl, rfl, _, rfl⟩

/-! ## The reaction of the hardware (R200) -/

/-- FLTn and HRSTn driven low by a fault of the module's own. -/
def Hw.flagFault (h : Hw) : Hw :=
  { h with seq := { h.seq with fltDrive := true, hrst := false }, lines := { h.lines with fltLow := true } }

/-- The module with its outputs off by such a fault, before the latch. -/
def Hw.faultOff (h : Hw) : Hw := (((h.flagFault.pgoodLow.markOff .fault).endMove 3).turnOffAll .fault).govEnd

theorem Hw.railOff_of_own {c : Nat} (hc : c ≠ 10) : h.railOff c = ((h.faultOff.enterLatched c).planRetry).raise 19 := by
  unfold Hw.railOff
  simp only [beq_eq_false_iff_ne.mpr hc, Bool.false_eq_true, if_false]
  rfl

theorem Hw.faultOff_rest : h.faultOff.rest = h.flagFault.rest := by
  unfold Hw.faultOff
  rw [Hw.govEnd_rest, Hw.turnOffAll_rest, Hw.endMove_rest]
  exact Hw.pgoodLow_rest _

theorem Hw.faultOff_vhDone (hi : h.vhDone i) : h.faultOff.vhDone i := by
  have hmove : ((h.flagFault.pgoodLow.markOff .fault).endMove 3).pwr = h.pwr := by
    rw [Hw.endMove_pwr, Hw.markOff_pwr, Hw.pgoodLow_pwr]
    rfl
  exact vhDone_of_pwr (Hw.govEnd_pwr _) (Hw.turnOffAll_vhDone _ .fault (vhDone_of_pwr hmove hi))

/-- `t` is what a fault of the module's own with LATCH.CAUSE c leaves of `h`. -/
structure Hw.Latched (h t : Hw) (c : Nat) : Prop where
  state : t.seq.state = .faultLatched
  cause : t.seq.cause = c
  toUnmet : t.seq.toUnmet = h.seq.toUnmet
  fltDrive : t.seq.fltDrive = true
  clk : t.clk = h.clk
  vhDone : ∀ i, h.vhDone i → t.vhDone i

/-- The clock, the sequencer and the power path. -/
def Hw.core (h : Hw) : Nat × Seq × PowerPath := (h.clk, h.seq, h.pwr)

theorem Hw.Latched.of_core {g h t u : Hw} {c : Nat} (hl : h.Latched t c) (hg : g.core = h.core) (hu : u.core = t.core) :
    g.Latched u c := by
  have hseq : u.seq = t.seq := congrArg (·.2.1) hu
  exact
    { state := (congrArg Seq.state hseq).trans hl.state
      cause := (congrArg Seq.cause hseq).trans hl.cause
      toUnmet := (congrArg Seq.toUnmet hseq).trans (hl.toUnmet.trans (congrArg (·.2.1.toUnmet) hg).symm)
      fltDrive := (congrArg Seq.fltDrive hseq).trans hl.fltDrive
      clk := (congrArg (·.1) hu).trans (hl.clk.trans (congrArg (·.1) hg).symm)
      vhDone := fun i hi => vhDone_of_pwr (congrArg (·.2.2) hu) (hl.vhDone i (vhDone_of_pwr (congrArg (·.2.2) hg).symm hi)) }

theorem Hw.raise_core (k : Nat) : (h.raise k).core = h.core := by rw [Hw.raise_eq]; rfl

theorem Hw.collect_core (src addr master access : Nat) (d : List Byte) :
    (h.collect src addr master access d).core = h.core := by rw [Hw.collect_eq]; rfl

theorem Hw.railOff_latched {c : Nat} (hc : c ≠ 10) (hlimp : h.seq.state ≠ .limp) : h.Latched (h.railOff c) c := by
  have hrest := h.faultOff_rest
  have hstart : h.faultOff.seq.state = h.flagFault.seq.state := state_of_rest hrest
  have hunmet' : h.faultOff.seq.toUnmet = h.flagFault.seq.toUnmet := toUnmet_of_rest hrest
  have hflt' : h.faultOff.seq.fltDrive = h.flagFault.seq.fltDrive := fltDrive_of_rest hrest
  have hclk' : h.faultOff.clk = h.flagFault.clk := clk_of_ledger (ledger_of_rest hrest)
  have hlimp' : h.faultOff.inLimp = false := by simpa [Hw.inLimp, hstart, Hw.flagFault] using hlimp
  obtain ⟨hstate, hcause, hunmet, hflt⟩ := h.faultOff.enterLatched_seq c hlimp'
  obtain ⟨hclk, hpwr, w, hseq⟩ := (h.faultOff.enterLatched c).planRetry_keeps
  have hl : h.Latched (h.faultOff.enterLatched c).planRetry c :=
    { state := (congrArg Seq.state hseq).trans hstate
      cause := (congrArg Seq.cause hseq).trans hcause
      toUnmet := (congrArg Seq.toUnmet hseq).trans (hunmet.trans hunmet')
      fltDrive := (congrArg Seq.fltDrive hseq).trans (hflt.trans hflt')
      clk := hclk.trans ((clk_of_ledger (Hw.enterLatched_ledger _ c)).trans hclk')
      vhDone := fun i hi => vhDone_of_pwr (hpwr.trans (Hw.enterLatched_pwr _ c)) (h.faultOff_vhDone hi) }
  rw [Hw.railOff_of_own h hc]
  exact hl.of_core rfl (Hw.raise_core _ 19)

/-- Once the outputs are off by a latch, the reaction to an error adds a core reset at most (R474). -/
theorem Hw.react_core_of_latched (r : Nat) (hst : h.seq.state = .faultLatched) : (h.react r).core = h.core := by
  have hsafe : h.safeState = h := by
    unfold Hw.safeState
    rw [if_pos (by simp [hst])]
  unfold Hw.react
  simp only [hsafe, ite_self]
  split
  · unfold Hw.askCoreReset
    split <;> rfl
  · rfl

theorem Hw.railFault_latched {c : Nat} (src addr : Nat) (d : List Byte) (held : Bool) (hc : c ≠ 10) (hrun : h.seq.state = .run)
    (hleave : h.leaving = false) : h.Latched (h.railFault c src addr d held) c := by
  have hacts : h.faultActs held = true := by simp [Hw.faultActs, hrun, hleave]
  have hcollect := h.collect_core src addr 0 0 d
  have hseq : (h.collect src addr 0 0 d).seq = h.seq := congrArg (·.2.1) hcollect
  have hl := (h.collect src addr 0 0 d).railOff_latched hc (by rw [hseq, hrun]; decide)
  unfold Hw.railFault
  simp only [hacts, if_true]
  exact hl.of_core hcollect.symm (Hw.react_core_of_latched _ _ hl.state)

end

end Sys2Proof.Machine
end

section
/-! SUPPORT. The hand-over to the pack, the return to VIN and the restart of the VH outputs (R81, R161, R339–R342). -/

namespace Sys2Proof.Machine

section
variable (h : Hw)

/-! ## Excursions of VIN on battery (R341, R342) -/

theorem Hw.excursion_of_still (hbatt : h.pwr.onBattery = true) (hidle : h.pwr.ret ≠ .idle) (hramp : h.pwr.ret ≠ .ramp) :
    h.excursion = { h with ins := { h.ins with path33 := false }, pwr := { h.pwr with ret := .counting } } := by
  simp [Hw.excursion, hbatt, hidle, hramp]

theorem Hw.excursion_of_ramp (hbatt : h.pwr.onBattery = true) (hramp : h.pwr.ret = .ramp) :
    h.excursion = { h.draw with
      ins := { h.ins with path33 := false }
      pwr := { h.pwr with ret := .counting, vibFrom := 10000 + Config.freeNat h.free % 5001, vibAt := h.clk } } := by
  simp [Hw.excursion, hbatt, hramp, Hw.draw]

theorem Hw.excursion_of_no_return (hnone : h.pwr.onBattery = false ∨ h.pwr.ret = .idle) : h.excursion = h := by
  rcases hnone with hnone | hnone <;> simp [Hw.excursion, hnone]

theorem Hw.excursion_spec : h.excursion.ins.inputSwitch = h.ins.inputSwitch ∧ h.excursion.outs = h.outs ∧
    h.excursion.seq = h.seq ∧ (h.pwr.onBattery = true → h.pwr.ret ≠ .idle → h.excursion.pwr.ret = .counting) := by
  by_cases hnone : h.pwr.onBattery = false ∨ h.pwr.ret = .idle
  · rw [h.excursion_of_no_return hnone]
    refine ⟨rfl, rfl, rfl, fun hbatt hidle => ?_⟩
    simp [hbatt, hidle] at hnone
  · obtain ⟨hbatt, hidle⟩ := not_or.mp hnone
    have hbatt : h.pwr.onBattery = true := by simpa using hbatt
    by_cases hramp : h.pwr.ret = .ramp
    · rw [h.excursion_of_ramp hbatt hramp]
      exact ⟨rfl, rfl, rfl, fun _ _ => rfl⟩
    · rw [h.excursion_of_still hbatt hidle hramp]
      exact ⟨rfl, rfl, rfl, fun _ _ => rfl⟩

theorem Hw.returnPrecharge_eq : h.returnPrecharge =
    if 3 ≤ h.ins.fails then h
    else { h with ins := { h.ins with path33 := true }, pwr := { h.pwr with ret := .precharge } } := by
  unfold Hw.returnPrecharge
  rw [← ite_not]
  exact if_congr Nat.not_lt rfl rfl

/-! ## The hand-over (R339) -/

/-- On battery, before the event that tells of it. -/
def Hw.handedOver (h : Hw) : Hw := { h with
  pwr := { h.pwr with handingOver := false, onBattery := true, ret := .counting, packSpent := false, vibAt := h.clk, reserveLow := false
                      lowPackRaised := false, lowReserveRaised := false }
  slots := h.slots.map (fun s => if s.open? then { s with flags := s.flags ||| 8 } else s) }

theorem Hw.handedOver_not_mute (hpack : h.holdup = true) : h.handedOver.mute 32 = false := by
  simp [Hw.mute, show h.handedOver.holdup = true from hpack]

/-! ## A VH output starts (R81) -/

/-- The start writes one entry of the outputs, the waits for the windows, and nothing of the faults. -/
theorem Hw.startVh_spec {i : Nat} (hi : i < 2) : ∃ f : Output → Output, (h.startVh i).outs = h.outs.modify (10 + i) f ∧
    (∀ o, (f o).on = true ∧ (f o).ramping = true ∧ (f o).battOff = false ∧ (f o).tgt = h.nextTarget (10 + i)) ∧
    (h.startVh i).pwr = { h.pwr with vhWait := h.pwr.vhWait.set i (some h.clk), vhNext := h.pwr.vhNext && i != 1 } ∧
    (h.startVh i).faults = h.faults := by
  have hvp : isVp (10 + i) = false := by simp [isVp]; omega
  have hvh : isVh (10 + i) = true := by simp [isVh]; omega
  have hindex : 10 + i - 10 = i := by omega
  unfold Hw.startVh Hw.startRamp
  simp only [hvp, hvh, hindex, if_true, Bool.false_eq_true, if_false]
  refine ⟨_, rfl, fun o => ⟨rfl, rfl, rfl, rfl⟩, ?_, rfl⟩
  simp only [Hw.endVhWait, Hw.modOut_pwr, Hw.unskip_pwr, Hw.draw_pwr, List.set_set]
  rfl

theorem Hw.startVh_out {i : Nat} (hi : i < 2) (hlt : 10 + i < h.outs.length) : ((h.startVh i).out (10 + i)).on = true ∧
    ((h.startVh i).out (10 + i)).ramping = true ∧ ((h.startVh i).out (10 + i)).tgt = h.nextTarget (10 + i) := by
  obtain ⟨f, houts, hf, -⟩ := h.startVh_spec hi
  obtain ⟨hon, hramp, -, htgt⟩ := hf (h.out (10 + i))
  have hout : (h.startVh i).out (10 + i) = f (h.out (10 + i)) := by
    unfold Hw.out
    rw [houts, getD_modify, if_pos ⟨rfl, hlt⟩]
  rw [hout]
  exact ⟨hon, hramp, htgt⟩

theorem Hw.startVh_battOff {i : Nat} (hi : i < 2) (hfree : ∀ k, (h.out k).battOff = false) (k : Nat) :
    ((h.startVh i).out k).battOff = false := by
  obtain ⟨f, houts, hf, -⟩ := h.startVh_spec hi
  obtain ⟨-, -, hbatt, -⟩ := hf (h.outs.getD k Output.off)
  unfold Hw.out
  rw [houts, getD_modify]
  split
  · exact hbatt
  · exact hfree k

/-- The VH outputs that were enabled start: one at once, and VH2 in its turn after VH1. -/
def Hw.restartVh (h : Hw) (one two : Bool) : Hw :=
  let g := if one then h.startVh 0 else if two then h.startVh 1 else h
  { g with pwr := { g.pwr with vhNext := one && two } }

theorem Hw.restartVh_first (two : Bool) :
    h.restartVh true two = { h.startVh 0 with pwr := { (h.startVh 0).pwr with vhNext := two } } := by
  cases two <;> rfl

theorem Hw.restartVh_second :
    h.restartVh false true = { h.startVh 1 with pwr := { (h.startVh 1).pwr with vhNext := false } } := rfl

theorem Hw.restartVh_spec (one two : Bool) :
    (h.restartVh one two).faults = h.faults ∧
    (h.restartVh one two).pwr = { h.pwr with
      vhWait := if one then h.pwr.vhWait.set 0 (some h.clk) else if two then h.pwr.vhWait.set 1 (some h.clk) else h.pwr.vhWait
      vhNext := one && two } ∧
    ((∀ k, (h.out k).battOff = false) → ∀ k, ((h.restartVh one two).out k).battOff = false) := by
  cases one with
  | true =>
    obtain ⟨-, -, -, hpwr, hfaults⟩ := h.startVh_spec (i := 0) (by decide)
    rw [Hw.restartVh_first]
    exact ⟨hfaults, by rw [hpwr]; simp, h.startVh_battOff (by decide)⟩
  | false =>
    cases two with
    | true =>
      obtain ⟨-, -, -, hpwr, hfaults⟩ := h.startVh_spec (i := 1) (by decide)
      rw [Hw.restartVh_second]
      exact ⟨hfaults, by rw [hpwr]; simp, h.startVh_battOff (by decide)⟩
    | false => exact ⟨rfl, rfl, id⟩

theorem Hw.restartVh_first_on (two : Bool) (hlt : 10 < h.outs.length) : ((h.restartVh true two).out 10).on = true := by
  rw [Hw.restartVh_first]
  exact (h.startVh_out (i := 0) (by decide) hlt).1

theorem Hw.restartVh_second_on (hlt : 11 < h.outs.length) : ((h.restartVh false true).out 11).on = true := by
  rw [Hw.restartVh_second]
  exact (h.startVh_out (i := 1) (by decide) hlt).1

/-! ## The return to VIN (R161, R342 step 4) -/

/-- VIN carries the module again and its event is raised; no VH output has started yet. -/
def Hw.vinBack (h : Hw) : Hw :=
  ((({ h with
    pwr := { h.pwr with onBattery := false, vinUsable := true, ret := .idle, reserveLow := false, lowPackRaised := false
                        lowReserveRaised := false, packSpent := false, vhWait := [none, none], vhNext := false }
    chg := { h.chg with restartDue := h.holdup && h.ins.mainOn } } : Hw).raise 33).unskip 12).unskip 13

theorem Hw.vinBack_pwr : h.vinBack.pwr = { h.pwr with
    onBattery := false, vinUsable := true, ret := .idle, reserveLow := false, lowPackRaised := false, lowReserveRaised := false
    packSpent := false, vhWait := [none, none], vhNext := false } := by unfold Hw.vinBack; rw [Hw.raise_eq]; rfl
theorem Hw.vinBack_seq : h.vinBack.seq = h.seq := by unfold Hw.vinBack; rw [Hw.raise_eq]; rfl
theorem Hw.vinBack_outs : h.vinBack.outs = h.outs := by unfold Hw.vinBack; rw [Hw.raise_eq]; rfl
theorem Hw.vinBack_clk : h.vinBack.clk = h.clk := by unfold Hw.vinBack; rw [Hw.raise_eq]; rfl
theorem Hw.vinBack_faults : h.vinBack.faults = h.faults := by unfold Hw.vinBack; rw [Hw.raise_eq]; rfl

/-- No output is held off for want of VIN. -/
def Hw.freeBatt (h : Hw) : Hw := { h with outs := h.outs.map (fun o => { o with battOff := false }) }

theorem Hw.out_freeBatt (k : Nat) : h.freeBatt.out k = { h.out k with battOff := false } := by
  unfold Hw.freeBatt Hw.out
  rcases Nat.lt_or_ge k h.outs.length with hk | hk
  · simp [List.getD, hk]
  · simp [List.getD, hk, Output.off]

theorem Hw.vinBack_freeBatt_length : h.vinBack.freeBatt.outs.length = h.outs.length := by
  simp [Hw.freeBatt, h.vinBack_outs]

theorem Hw.out_lt_of_battOff {k : Nat} (hb : (h.out k).battOff = true) : k < h.outs.length :=
  lt_of_getD_ne (d := Output.off) (fun e => by
    unfold Hw.out at hb
    rw [e] at hb
    exact absurd hb (by decide))

theorem Hw.restartsVh_of_seq {g : Hw} (hs : g.seq = h.seq) : g.restartsVh = h.restartsVh := by
  unfold Hw.restartsVh Hw.eff
  rw [hs]

theorem Hw.forcedVin_of_no_forces (hf : h.faults.forces = []) : h.forcedVin = h := if_neg (by simp [hf])

theorem Hw.evalPgood_faults : h.evalPgood.faults = h.faults := by rw [Hw.evalPgood_eq]

/-- What the return to VIN leaves, where Folly holds no detector. -/
theorem Hw.vinReturned_spec (one two : Bool) (hforce : h.faults.forces = []) :
    let t := (h.vinBack.freeBatt.restartVh one two).evalPgood
    t.forced.forcedVin = t ∧
    t.pwr = { h.vinBack.pwr with
      vhWait := if one then [some h.clk, none] else if two then [none, some h.clk] else [none, none]
      vhNext := one && two } ∧
    (∀ k, (t.out k).battOff = false) := by
  obtain ⟨hfaults, hpwr, hfree⟩ := h.vinBack.freeBatt.restartVh_spec one two
  have hnone : (h.vinBack.freeBatt.restartVh one two).evalPgood.faults.forces = [] := by
    rw [Hw.evalPgood_faults, hfaults]
    exact (congrArg Faults.forces h.vinBack_faults).trans hforce
  have hwait : h.vinBack.pwr.vhWait = [none, none] := by rw [h.vinBack_pwr]
  have hclk : h.vinBack.freeBatt.clk = h.clk := h.vinBack_clk
  have hpath : h.vinBack.freeBatt.pwr = h.vinBack.pwr := rfl
  dsimp only
  refine ⟨?_, ?_, fun k => ?_⟩
  · rw [Hw.forced_of_no_forces _ hnone, Hw.forcedVin_of_no_forces _ hnone]
  · rw [Hw.evalPgood_pwr, hpwr, hclk, hpath, hwait]
    rfl
  · rw [Hw.evalPgood_out]
    exact hfree (fun k => by rw [Hw.out_freeBatt]) k

/-! ## A VH output misses its window (R81, R191) -/

/-- VH output i has missed its window: it waits no longer, and the sequencer holds what R191 keeps of a timeout. -/
def Hw.vhOverdue (h : Hw) (i : Nat) : Hw :=
  let g : Hw := { h with pwr := { h.pwr with vhWait := h.pwr.vhWait.set i none } }
  { g with seq := { g.seq with toStep := g.seq.step, toDir := some .up, toUnmet := 1 <<< (10 + i), toTime := g.now } }

theorem Hw.vhOverdue_latched (i addr : Nat) (hrun : h.seq.state = .run) (hleave : h.leaving = false) :
    (h.vhOverdue i).Latched (((h.vhOverdue i).raise 18).railFault 5 0x70 addr [] false) 5 := by
  have hcore := (h.vhOverdue i).raise_core 18
  have hstate : ((h.vhOverdue i).raise 18).seq.state = .run := (congrArg (·.2.1.state) hcore).trans hrun
  have hleave' : ((h.vhOverdue i).raise 18).leaving = false := (Hw.raise_leaving _ 18).trans hleave
  exact (Hw.railFault_latched _ 0x70 addr [] false (by decide) hstate hleave').of_core hcore.symm rfl

theorem Hw.reach_seq (t : Nat) : (h.reach t).seq = h.seq := rfl
theorem Hw.reach_evt (t : Nat) : (h.reach t).evt = h.evt := rfl
theorem Hw.reach_leaving (t : Nat) : (h.reach t).leaving = h.leaving := rfl
theorem Hw.reach_out (t k : Nat) : (h.reach t).out k = h.out k := rfl
theorem Hw.setPwr_out (p : PowerPath) (k : Nat) : ({ h with pwr := p } : Hw).out k = h.out k := rfl

end

/-! ## Each command in the state that takes it -/

section
variable {s : State} {post : Hw → Prop}

theorem completes_vinReturn (hret : s.hw.pwr.ret = .ramp) (hbatt : s.hw.pwr.onBattery = true)
    (hp : post (s.hw.vinBack.freeBatt.restartVh (s.hw.restartsVh && (s.hw.out 10).battOff)
      (s.hw.restartsVh && (s.hw.out 11).battOff)).evalPgood.forced.forcedVin) : Completes .vinReturn s post := by
  rw [← s.hw.restartsVh_of_seq s.hw.vinBack_seq, ← Hw.out_of_outs s.hw.vinBack_outs, ← Hw.out_of_outs s.hw.vinBack_outs] at hp
  refine ⟨_, rfl, rfl, ?_⟩
  change post (if s.hw.pwr.ret == .ramp && s.hw.pwr.onBattery then
    (s.hw.vinBack.freeBatt.restartVh (s.hw.vinBack.restartsVh && (s.hw.vinBack.out 10).battOff)
      (s.hw.vinBack.restartsVh && (s.hw.vinBack.out 11).battOff)).evalPgood.forced.forcedVin else s.hw)
  rwa [if_pos (by simp [hret, hbatt])]

theorem completes_vhRestartTimeout_done {vh : Fin 2} {start : Nat} (hstart : s.hw.pwr.vhWait.getD vh none = some start)
    (hdone : (s.hw.out (10 + vh)).on = false ∨ (s.hw.out (10 + vh)).good = true)
    (hp : ∀ g, g = s.hw.reach (start + 100000) → post { g with pwr := { g.pwr with vhWait := g.pwr.vhWait.set vh none } }) :
    Completes (.vhRestartTimeout vh) s post := by
  refine ⟨_, rfl, rfl, ?_⟩
  have hout := s.hw.reach_out (start + 100000) (10 + vh)
  dsimp only
  rw [hstart]
  dsimp only
  generalize hg : s.hw.reach (start + 100000) = g at hout ⊢
  rw [← hout] at hdone
  rw [Hw.setPwr_out, if_pos (by simpa using hdone)]
  exact hp g hg.symm

theorem completes_vhRestartTimeout_missed {vh : Fin 2} {start : Nat} (hstart : s.hw.pwr.vhWait.getD vh none = some start)
    (hon : (s.hw.out (10 + vh)).on = true) (hgood : (s.hw.out (10 + vh)).good = false)
    (hp : ∀ g, g = s.hw.reach (start + 100000) →
      post (((g.vhOverdue vh).raise 18).railFault 5 0x70 (g.seq.step * 256) [] false)) :
    Completes (.vhRestartTimeout vh) s post := by
  refine ⟨_, rfl, rfl, ?_⟩
  have hout := s.hw.reach_out (start + 100000) (10 + vh)
  dsimp only
  rw [hstart]
  dsimp only
  generalize hg : s.hw.reach (start + 100000) = g at hout ⊢
  rw [← hout] at hon hgood
  rw [Hw.setPwr_out, if_neg (by simp [hon, hgood])]
  exact hp g hg.symm

end

/-- Settles O16: each row in the state that takes it; the timeout of a VH output by what a running-rail fault leaves. -/
theorem batteryOperationComesAndGoes : Obligations.BatteryOperationComesAndGoes := by
  refine ⟨fun s hover hbts hpack => ⟨_, rfl, rfl, ?_⟩, fun s hsrc => ⟨_, rfl, rfl, ?_⟩,
    fun s hbatt hidle hramp => ⟨_, rfl, rfl, s.hw.excursion_of_still hbatt hidle hramp⟩,
    fun s hbatt hramp => ⟨_, rfl, rfl, ?_⟩, fun s hbatt hret hcommit => ⟨_, rfl, rfl, ?_⟩,
    fun s hret => ⟨_, rfl, rfl, if_pos (by simp [hret])⟩, fun s hret hbatt hforce => completes_vinReturn hret hbatt ?_,
    fun s hnext hoff hvin hrestart hforce hshape => ⟨_, rfl, rfl, ?_⟩,
    fun s vh start hstart hdone => completes_vhRestartTimeout_done hstart hdone fun g hg => ?_,
    fun s vh start hstart hon hgood hrun hleave => completes_vhRestartTimeout_missed hstart hon hgood fun g hg => ?_⟩
  case refine_1 =>
    have hpend : (((s.hw.handedOver.raise 32).unskip 12).unskip 13).evt.pend.getLsbD 32 = true :=
      Hw.raise_pend_of_not_mute _ (s.hw.handedOver_not_mute hpack) (by omega)
    dsimp only
    rw [if_pos hover]
    refine ⟨?_, ?_, ?_, Hw.evalPgood_pend_mono _ hpend⟩ <;> simp
  case refine_2 =>
    obtain ⟨hsw, houts, hseq, hret⟩ := Hw.excursion_spec { s.hw with ins := { s.hw.ins with inputSwitch := false } }
    dsimp only
    rw [if_pos (by simpa using hsrc)]
    exact ⟨hsw, houts, hseq, hret⟩
  case refine_3 =>
    have hfree : Config.freeNat s.hw.free % 5001 < 5001 := Nat.mod_lt _ (by decide)
    dsimp only
    rw [s.hw.excursion_of_ramp hbatt hramp]
    exact ⟨rfl, rfl, Nat.le_add_right _ _, by dsimp only; omega, rfl, hbatt, rfl, rfl⟩
  case refine_4 =>
    dsimp only
    by_cases hforce : 0x42 ∈ s.hw.faults.forces
    · rw [if_neg (by simp [hforce]), if_pos hforce]
    · rw [if_pos (by simp [hbatt, hret, hcommit, hforce]), if_neg hforce, Hw.returnPrecharge_eq]
  case refine_5 =>
    obtain ⟨hforced, hpwr, hfree⟩ := s.hw.vinReturned_spec (s.hw.restartsVh && (s.hw.out 10).battOff)
      (s.hw.restartsVh && (s.hw.out 11).battOff) hforce
    rw [hforced, hpwr, s.hw.vinBack_pwr]
    refine ⟨rfl, rfl, rfl, fun hre h1 => ?_, fun hre h1 h2 => ?_, hfree⟩
    · have hlt := s.hw.vinBack_freeBatt_length ▸ s.hw.out_lt_of_battOff h1
      rw [hre, h1, Hw.evalPgood_out]
      exact ⟨Hw.restartVh_first_on _ _ hlt, rfl, rfl⟩
    · have hlt := s.hw.vinBack_freeBatt_length ▸ s.hw.out_lt_of_battOff h2
      rw [hre, h1, h2, Hw.evalPgood_out]
      exact ⟨Hw.restartVh_second_on _ hlt, rfl, rfl⟩
  case refine_6 =>
    have hlen : s.hw.outs.length = 18 := by
      simp only [Hw.shaped, Bool.and_eq_true, decide_eq_true_eq] at hshape
      omega
    obtain ⟨-, -, -, hpwr, hfaults⟩ := s.hw.startVh_spec (i := 1) (by decide)
    obtain ⟨hon, hramp, htgt⟩ := s.hw.startVh_out (i := 1) (by decide) (by omega)
    dsimp only
    rw [if_pos (by simp [hnext, hvin, hrestart, hoff]), Hw.forced_of_no_forces _ (by rw [hfaults, hforce])]
    exact ⟨hon, hramp, by rw [hpwr]; simp, htgt, by rw [hpwr]⟩
  case refine_7 =>
    have hseq : g.seq = s.hw.seq := by rw [hg, Hw.reach_seq]
    have hevt : g.evt = s.hw.evt := by rw [hg, Hw.reach_evt]
    exact ⟨hseq, hevt, getD_set_none _ _⟩
  case refine_8 =>
    have hrun' : g.seq.state = .run := by rw [hg, Hw.reach_seq, hrun]
    have hleave' : g.leaving = false := by rw [hg, Hw.reach_leaving, hleave]
    have hclk : g.clk = max s.hw.clk (start + 100000) := by rw [hg, Hw.reach_clk]
    have hl := g.vhOverdue_latched vh (g.seq.step * 256) hrun' hleave'
    exact ⟨hl.state, hl.cause, hl.toUnmet, hl.fltDrive, hl.clk.trans hclk, hl.vhDone vh (getD_set_none _ _)⟩

end Sys2Proof.Machine
end

section
/-! SUPPORT. States in which a statement of the invariants or of the phase pool fails: each a module in service but for what its
description names, and what the command makes of it. -/

namespace Sys2Proof.Machine

/-! ## The outputs of a stored image (R180, R302, R511) -/

/-- The factory default image with an entry for a nineteenth output. -/
def crowdedImage : Image := { Image.default with outs := Image.default.outs ++ [OutCfg.base] }

/-- CONFIG_COMMIT would record it: its rules do not count the entries of an image. -/
theorem crowdedImage_ok : crowdedImage.ok = true := by decide +kernel

/-- In OFF with a restart asked for; the store holds that image. -/
def restartingOnCrowdedImage : Hw :=
  { liveHw with
    seq := { liveHw.seq with state := .off }
    rst := { liveHw.rst with restart := some .moduleRestart }
    store := { liveHw.store with image := some crowdedImage } }

/-- The main-domain reset loads an output for each entry of the stored image. -/
theorem step_from_crowdedImage :
    (after (step ⟨restartingOnCrowdedImage, [.restartMainReset]⟩)).outs.length = 19 := by decide +kernel

/-- Refutes O5: a reset takes the outputs from the stored image, for which neither `Hw.shaped` nor `Image.ok` asks for 18 of them. -/
theorem not_partsKeepTheirNumber : ¬ Obligations.PartsKeepTheirNumber := by
  unfold Obligations.PartsKeepTheirNumber
  intro hkeeps
  have hshaped := hkeeps ⟨restartingOnCrowdedImage, [.restartMainReset]⟩ _ rfl (by decide +kernel)
  simp only [Hw.shaped, Bool.and_eq_true, decide_eq_true_eq, and_assoc] at hshaped
  exact absurd (step_from_crowdedImage.symm.trans hshaped.1) (by decide)

/-! ## An add of an output outside the priority classes (R72, R91) -/

/-- In RUN with VP1 on and its own phases in STANDBY; its image gives it a priority above P3, which CONFIG_COMMIT refuses. -/
def addingOutsideClasses : Hw :=
  { liveHw with
    image := { liveHw.image with outs := liveHw.image.outs.modify 0 (fun c => { c with prio := 4 }) }
    outs := liveHw.outs.modify 0 (fun o => { o with on := true }) }

/-- Claims are served class by class, P0 to P3; this one is in none of them. -/
theorem phaseAdd_outside_classes :
    ((after (exec (.phaseAdd 1) ⟨addingOutsideClasses, []⟩)).phase 0).cond = .standby := by decide +kernel

/-- Refutes O23: the claim of an output whose priority is no class of R72 is not served. The clauses of several claims ask for a priority
below 4; that of the single add does not. -/
theorem not_phasesAreAdded : ¬ Obligations.PhasesAreAdded := by
  unfold Obligations.PhasesAreAdded
  rintro ⟨hadd, -⟩
  obtain ⟨hactive, -⟩ := (hadd ⟨addingOutsideClasses, []⟩ 0 0 (by decide +kernel) (by decide +kernel) (by decide +kernel) (by decide)
    (by decide +kernel) (.inr (.inl (by decide +kernel)))).after_exec
  exact absurd (phaseAdd_outside_classes.symm.trans hactive) (by decide)

/-! ## A PARKED phase with an owner (R83, R108) -/

/-- In RUN with VP1 and VP2 on, each with MIN_PH 1. PH1 is PARKED and names VP2 as its owner, where R83 leaves a PARKED phase none; PH2 is
QUIET and has no owner, the others are out of service. -/
def parkedWithOwner : Hw :=
  { liveHw with
    image := { liveHw.image with outs := liveHw.image.outs.map (fun c => { c with minPh := 1 }) }
    outs := liveHw.outs.mapIdx (fun k o => { o with on := k < 2 })
    pool := { liveHw.pool with phases := [Phase.parked 2, { Phase.parked 0 with cond := .quiet }] ++
                                           List.replicate 6 { Phase.parked 0 with cond := .oos } } }

/-- VP1 takes PH1, and VP2, which counted it as its own, takes PH2. -/
theorem quietEnd_beside_parkedWithOwner : ((after (exec (.quietEnd 1 0) ⟨parkedWithOwner, []⟩)).phase 1).owner = 2 := by decide +kernel

/-- Refutes O24: the output that takes the phase held MIN_PH phases before the command, one of them PARKED, which another output has taken
first. The clause of the quiet end does not ask that a PARKED phase have no owner. -/
theorem not_phasesAreShedAndMoved : ¬ Obligations.PhasesAreShedAndMoved := by
  unfold Obligations.PhasesAreShedAndMoved
  rintro ⟨-, -, hquiet, -⟩
  obtain ⟨-, howner, -⟩ := (hquiet ⟨parkedWithOwner, []⟩ 1 (by decide +kernel) (by decide +kernel) (by decide +kernel)).after_exec
  rw [show ((1 : Fin 8) : Nat) = 1 from rfl, quietEnd_beside_parkedWithOwner] at howner
  exact absurd howner (by decide +kernel)

end Sys2Proof.Machine
end

section
/-! SUPPORT. What the operations on phases leave of the hardware, of each phase and of each rail (R90–R97, R112). -/

namespace Sys2Proof.Machine

/-! ## Beside the pool and the jobs -/

/-- The hardware without its pool and its protocol engine: what adds, sheds and moves leave as it is. -/
def Hw.beside (h : Hw) : Hw := { h with pool := Hw.reset.pool, proto := Hw.reset.proto }

section
variable {g h : Hw} (e : g.beside = h.beside)
include e

theorem outs_of_beside : g.outs = h.outs := (congrArg Hw.outs e :)
theorem vcl_of_beside : g.vcl = h.vcl := (congrArg Hw.vcl e :)
theorem idle_of_beside : g.idle = h.idle := (congrArg Hw.idle e :)
theorem evt_of_beside : g.evt = h.evt := (congrArg Hw.evt e :)

end

theorem foldl_beside {α : Type} (f : Hw → α → Hw) (H : ∀ h x, (f h x).beside = h.beside) (l : List α) (h : Hw) :
    (l.foldl f h).beside = h.beside :=
  List.foldlRecOn (motive := fun g : Hw => g.beside = h.beside) l f rfl (fun g hg x _ => (H g x).trans hg)

section
variable (h : Hw)

@[simp] theorem Hw.modRail_beside (k : Nat) (f : VpRail → VpRail) : (h.modRail k f).beside = h.beside := rfl
@[simp] theorem Hw.modPhase_beside (p : Nat) (f : Phase → Phase) : (h.modPhase p f).beside = h.beside := rfl

@[simp] theorem Hw.endMove_beside (r : Nat) : (h.endMove r).beside = h.beside := by unfold Hw.endMove; split <;> rfl

@[simp] theorem Hw.endMoveOf_beside (p r : Nat) : (h.endMoveOf p r).beside = h.beside := by
  unfold Hw.endMoveOf
  split
  · exact h.endMove_beside r
  · rfl

@[simp] theorem Hw.activate_beside (k p : Nat) : (h.activate k p).beside = h.beside := h.endMoveOf_beside p 1

@[simp] theorem Hw.awaitQuiet_beside (k : Nat) : (h.awaitQuiet k).beside = h.beside := by
  unfold Hw.awaitQuiet
  split
  · split <;> rfl
  · rfl

@[simp] theorem Hw.addPhase_beside (k : Nat) : (h.addPhase k).beside = h.beside := by
  unfold Hw.addPhase
  split
  · split
    · rw [Hw.modRail_beside, Hw.activate_beside]
    · exact h.awaitQuiet_beside k
  · rfl

@[simp] theorem Hw.addUpTo_beside (k n : Nat) : (h.addUpTo k n).beside = h.beside :=
  foldl_beside _ (fun g _ => by split <;> simp) _ h

@[simp] theorem Hw.cancelShed_beside (p : Nat) : (h.cancelShed p).beside = h.beside := by
  unfold Hw.cancelShed
  dsimp only
  split
  · rw [Hw.modRail_beside, Hw.endMoveOf_beside, Hw.modPhase_beside]
  · rfl

@[simp] theorem Hw.cancelSheds_beside (k : Nat) : (h.cancelSheds k).beside = h.beside :=
  foldl_beside _ (fun g p => by split <;> simp) _ h

/-! ## Phases and rails as entries of their lists -/

/-- The pool of a module in shape: 8 phases, 4 rails (R82). -/
theorem Hw.pool_of_shaped {h : Hw} (hs : h.shaped = true) : h.pool.phases.length = 8 ∧ h.pool.rails.length = 4 := by
  simp only [Hw.shaped, Bool.and_eq_true, decide_eq_true_eq] at hs
  omega

theorem Hw.phase_of_pool {g h : Hw} (e : g.pool.phases = h.pool.phases) (p : Nat) : g.phase p = h.phase p :=
  congrArg (·.getD p (Phase.parked 0)) e

theorem Hw.rail_of_pool {g h : Hw} (e : g.pool.rails = h.pool.rails) (k : Nat) : g.rail k = h.rail k :=
  congrArg (·.getD k VpRail.idle) e

/-- A phase in a condition other than PARKED lies in the list. -/
theorem Hw.phase_lt {p : Nat} (hp : (h.phase p).cond ≠ .parked) : p < h.pool.phases.length :=
  lt_of_getD_ne (d := Phase.parked 0) (fun e => hp (by unfold Hw.phase; rw [e]; rfl))

@[simp] theorem Hw.modRail_phase (k p : Nat) (f : VpRail → VpRail) : (h.modRail k f).phase p = h.phase p := rfl
@[simp] theorem Hw.modPhase_rail (p k : Nat) (f : Phase → Phase) : (h.modPhase p f).rail k = h.rail k := rfl

@[simp] theorem Hw.endMove_phase (r p : Nat) : (h.endMove r).phase p = h.phase p := by unfold Hw.endMove; split <;> rfl

@[simp] theorem Hw.raise_pool (n : Nat) : (h.raise n).pool = h.pool := by rw [Hw.raise_eq]
@[simp] theorem Hw.raise_phase (n p : Nat) : (h.raise n).phase p = h.phase p := Hw.phase_of_pool (by rw [Hw.raise_pool]) p
@[simp] theorem Hw.raise_rail (n k : Nat) : (h.raise n).rail k = h.rail k := Hw.rail_of_pool (by rw [Hw.raise_pool]) k

theorem Hw.endMoveOf_parts (p r : Nat) : (h.endMoveOf p r).pool.phases = h.pool.phases ∧ (h.endMoveOf p r).pool.rails = h.pool.rails := by
  unfold Hw.endMoveOf Hw.endMove
  split
  · split <;> exact ⟨rfl, rfl⟩
  · exact ⟨rfl, rfl⟩

@[simp] theorem Hw.endMoveOf_phase (p r q : Nat) : (h.endMoveOf p r).phase q = h.phase q :=
  Hw.phase_of_pool (h.endMoveOf_parts p r).1 q
@[simp] theorem Hw.endMoveOf_rail (p r k : Nat) : (h.endMoveOf p r).rail k = h.rail k :=
  Hw.rail_of_pool (h.endMoveOf_parts p r).2 k

/-! ## A shed that is cancelled (R97) -/

theorem Hw.cancelShed_phase (p q : Nat) : (h.cancelShed p).phase q =
    if p = q ∧ (h.phase q).cond = .rampDown then { h.phase q with cond := .active } else h.phase q := by
  unfold Hw.cancelShed
  dsimp only
  by_cases hp : (h.phase p).cond = .rampDown
  · have hlt : p < h.pool.phases.length := h.phase_lt (by simp [hp])
    rw [if_pos (by simp [hp]), Hw.modRail_phase, Hw.endMoveOf_phase, Hw.phase_modPhase]
    by_cases hq : p = q
    · subst hq
      rw [if_pos ⟨rfl, hlt⟩, if_pos ⟨rfl, hp⟩]
    · rw [if_neg (fun hc => hq hc.1), if_neg (fun hc => hq hc.1)]
  · rw [if_neg (by simp [hp]), if_neg (by rintro ⟨rfl, hq⟩; exact hp hq)]

/-- A rail counts its cancelled sheds, and is otherwise as it was. -/
theorem Hw.cancelShed_rail (p k : Nat) : ∃ n, (h.cancelShed p).rail k = { h.rail k with cancel := n } := by
  unfold Hw.cancelShed
  dsimp only
  split
  · rw [Hw.rail_modRail, Hw.endMoveOf_rail, Hw.modPhase_rail]
    split
    · exact ⟨_, rfl⟩
    · exact ⟨_, rfl⟩
  · exact ⟨_, rfl⟩

theorem Hw.cancelSheds_rail (k j : Nat) : ∃ n, (h.cancelSheds k).rail j = { h.rail j with cancel := n } := by
  unfold Hw.cancelSheds
  refine List.foldlRecOn (motive := fun g : Hw => ∃ n, g.rail j = { h.rail j with cancel := n }) _ _ ⟨_, rfl⟩ ?_
  rintro g ⟨n, hg⟩ p -
  split
  · obtain ⟨m, hm⟩ := g.cancelShed_rail p j
    exact ⟨m, by rw [hm, hg]⟩
  · exact ⟨n, hg⟩

/-- Phase q does not ramp down for output k. -/
def Hw.ShedsNone (h : Hw) (k q : Nat) : Prop := (h.phase q).serving = k + 1 → (h.phase q).cond ≠ .rampDown

theorem Hw.cancelShed_shedsNone {k q : Nat} (p : Nat) (hq : p = q ∨ h.ShedsNone k q) : (h.cancelShed p).ShedsNone k q := by
  unfold Hw.ShedsNone
  rw [Hw.cancelShed_phase]
  split
  · exact fun _ => by simp
  next hc => exact fun hs hd => hq.elim (fun e => hc ⟨e, hd⟩) (fun hn => hn hs hd)

/-- Every shed of the output is cancelled. -/
theorem Hw.cancelSheds_shedsNone (k : Nat) {q : Nat} (hq : q < 8) : (h.cancelSheds k).ShedsNone k q := by
  have hfold : ∀ (l : List Nat) (g : Hw), q ∈ l ∨ g.ShedsNone k q →
      (l.foldl (fun h p => if (h.phase p).serving = k + 1 then h.cancelShed p else h) g).ShedsNone k q := by
    intro l
    induction l with
    | nil => exact fun g hg => hg.resolve_left List.not_mem_nil
    | cons p l ih =>
      intro g hg
      refine ih _ ?_
      rw [List.mem_cons] at hg
      dsimp only
      split
      next hs => exact (or_right_comm.mp hg).symm.imp_right fun hg => g.cancelShed_shedsNone p (hg.imp_left Eq.symm)
      next hs =>
        rcases hg with (rfl | hmem) | hnone
        · exact .inr fun hc => absurd hc hs
        · exact .inl hmem
        · exact .inr hnone
  exact hfold _ h (.inl (List.mem_range.mpr hq))

/-! ## Adding phases (R87, R90, R112) -/

/-- A phase that an add may take: in QUIET, in STANDBY or PARKED. -/
def PhaseCond.Takeable (c : PhaseCond) : Prop := c = .quiet ∨ c = .standby ∨ c = .parked

/-- A search of the phases finds one that has what is asked. -/
theorem Pool.find_spec {po : Pool} {f : Nat → Phase → Bool} {p : Nat} (hp : po.find f = some p) : f p (po.ph p) = true :=
  List.find?_some (p := fun i => f i (po.ph i)) hp

theorem Hw.pick_takeable {k p : Nat} (hp : h.pick k = some p) : (h.phase p).cond.Takeable := by
  show (h.pool.ph p).cond.Takeable
  unfold Hw.pick Pool.quietOf Pool.pickOwned Pool.pickParked at hp
  simp only [Option.or_eq_some_iff] at hp
  rcases hp with (hq | ⟨-, hs | ⟨-, hs⟩⟩) | ⟨-, hp⟩
  · have := Pool.find_spec hq
    simp only [Bool.and_eq_true, beq_iff_eq] at this
    exact .inl this.1
  · have := Pool.find_spec hs
    simp only [Bool.and_eq_true, beq_iff_eq] at this
    exact .inr (.inl this.1.1)
  · have := Pool.find_spec hs
    simp only [Bool.and_eq_true, beq_iff_eq] at this
    exact .inr (.inl this.1)
  · split at hp
    · simp only [Option.or_eq_some_iff] at hp
      rcases hp with hp | ⟨-, hp⟩
      · have := Pool.find_spec hp
        simp only [Bool.and_eq_true, beq_iff_eq] at this
        exact .inr (.inr this.1)
      · exact .inr (.inr (by simpa using Pool.find_spec hp))
    · exact absurd hp (by simp)

/-- What an add makes of a phase: the one that it takes becomes ACTIVE, one in QUIET may note the claim that waits for it. -/
def Phase.AddedTo (x y : Phase) : Prop := y = x ∨ x.cond.Takeable ∧ (y.cond = .active ∨ y.cond = .quiet)

theorem Hw.activate_phase (k p q : Nat) : (h.activate k p).phase q = h.phase q ∨ p = q ∧ ((h.activate k p).phase q).cond = .active := by
  have hphase : (h.activate k p).phase q = ((h.endMoveOf p 1).modPhase p _).phase q := rfl
  rw [hphase, Hw.phase_modPhase]
  split
  next hq => exact .inr ⟨hq.1, rfl⟩
  next => exact .inl (h.endMoveOf_phase p 1 q)

theorem Hw.addPhase_phase (k q : Nat) : (h.phase q).AddedTo ((h.addPhase k).phase q) := by
  unfold Hw.addPhase
  split
  · split
    next p hp =>
      rw [Hw.modRail_phase]
      rcases h.activate_phase k p q with hq | ⟨rfl, hq⟩
      · exact .inl hq
      · exact .inr ⟨h.pick_takeable hp, .inl hq⟩
    next =>
      unfold Hw.awaitQuiet
      split
      next p hp =>
        have hquiet : (h.phase p).cond = .quiet := by
          have := Pool.find_spec hp
          simp only [Bool.and_eq_true, beq_iff_eq] at this
          exact this.1
        split
        · rw [Hw.phase_modPhase]
          split
          next hpq =>
            obtain ⟨rfl, -⟩ := hpq
            exact .inr ⟨.inl hquiet, .inr hquiet⟩
          next => exact .inl rfl
        · exact .inl rfl
      next => exact .inl rfl
  · exact .inl rfl

/-- What holds before a series of adds and is kept by each holds after it. -/
theorem Hw.addUpTo_induction {P : Hw → Prop} (k n : Nat) (h0 : P h) (hadd : ∀ g : Hw, P g → P (g.addPhase k)) :
    P (h.addUpTo k n) := by
  unfold Hw.addUpTo
  refine List.foldlRecOn (motive := P) _ _ h0 (fun g hg _ _ => ?_)
  split
  · exact hadd g hg
  · exact hg

theorem Hw.addPhase_shedsNone {k q : Nat} (j : Nat) (hq : h.ShedsNone k q) : (h.addPhase j).ShedsNone k q := by
  intro hs hd
  rcases h.addPhase_phase j q with e | ⟨-, e | e⟩
  · rw [e] at hs hd
    exact hq hs hd
  · exact absurd (e.symm.trans hd) (by decide)
  · exact absurd (e.symm.trans hd) (by decide)

theorem Hw.activate_hintHold (k p j : Nat) : ((h.activate k p).rail j).hintHold = (h.rail j).hintHold := by
  have hrail : (h.activate k p).rail j = ((h.endMoveOf p 1).modRail k (fun r => { r with respacing := true })).rail j := rfl
  rw [hrail, Hw.rail_modRail, ← h.endMoveOf_rail p 1 j]
  split <;> rfl

@[simp] theorem Hw.addPhase_hintHold (k j : Nat) : ((h.addPhase k).rail j).hintHold = (h.rail j).hintHold := by
  unfold Hw.addPhase
  split
  · split
    · rw [← h.activate_hintHold k _ j, Hw.rail_modRail]
      split <;> rfl
    · unfold Hw.awaitQuiet
      split
      · split <;> rfl
      · rfl
  · rfl

end

end Sys2Proof.Machine
end

section
/-! SUPPORT. The reference ramps and the requests of the voltage command link (R126–R138, R140, R150, R151, R157). -/

namespace Sys2Proof.Machine

/-! ## A reference that turns -/

section
variable (h : Hw) {k : Nat}

theorem Hw.turnRef_out_other {j : Nat} (hj : j ≠ k) : (h.turnRef k).out j = h.out j := h.modOut_out_other hj _

theorem Hw.turnRef_out (hk : k < h.outs.length) :
    (h.turnRef k).out k = { h.out k with ref := h.refHalf k, rampAt := h.clk, past := (h.clk, h.refHalf k) :: (h.out k).past } := by
  unfold Hw.turnRef
  rw [Hw.out_modOut, if_pos ⟨rfl, hk⟩]

theorem Hw.turnRef_length : (h.turnRef k).outs.length = h.outs.length := List.length_modify ..

/-- Output k at its new target, its reference where it stands (R133, R156); a slew episode begins or goes on (R140). -/
def Hw.aim (h : Hw) (k code : Nat) : Hw :=
  let moves := h.refHalf k != codeHalf k code || (if isVp k then (h.rail k).slewing else (h.out k).ramping)
  (h.turnRef k).modOut k (fun o =>
    { o with tgt := code, ramping := if isVp k then o.ramping else moves, held := false,
             past := if o.episode then o.past else o.past.take 1, episode := o.episode || moves,
             epMax := if o.episode then max o.epMax code else if moves then code else 0 })

theorem Hw.aim_out_other (code : Nat) {j : Nat} (hj : j ≠ k) : (h.aim k code).out j = h.out j :=
  (Hw.modOut_out_other _ hj _).trans (h.turnRef_out_other hj)

theorem Hw.aim_out (code : Nat) (hk : k < h.outs.length) :
    ((h.aim k code).out k).tgt = code ∧ ((h.aim k code).out k).ref = h.refHalf k := by
  unfold Hw.aim
  dsimp only
  rw [Hw.out_modOut, if_pos ⟨rfl, by rwa [Hw.turnRef_length]⟩]
  exact ⟨rfl, by rw [h.turnRef_out hk]⟩

/-- The rail of a VP output takes the class of a new ramp, and its sheds are cancelled (R98, R133). -/
theorem Hw.retarget_of_vp (hvp : isVp k = true) (code cls : Nat) : ∃ moves : Bool, h.retarget k code cls =
    ((h.aim k code).modRail k (fun r => { r with slewing := moves, cls := cls, stallRaised := false
                                                 slewEnd := if moves then r.slewEnd else some h.clk })).cancelSheds k :=
  ⟨_, if_pos hvp⟩

theorem Hw.retarget_vp_spec (hvp : isVp k = true) (code cls : Nat) (hout : k < h.outs.length) (hrail : k < h.pool.rails.length) :
    let t := h.retarget k code cls
    (t.out k).tgt = code ∧ (t.out k).ref = h.refHalf k ∧ (∀ j, j ≠ k → t.out j = h.out j) ∧ t.vcl = h.vcl ∧
      (t.rail k).cls = cls ∧ (t.rail k).settled = (h.rail k).settled := by
  obtain ⟨moves, heq⟩ := h.retarget_of_vp hvp code cls
  dsimp only
  rw [heq]
  generalize hg : (h.aim k code).modRail k _ = g
  have houts : ∀ j, (g.cancelSheds k).out j = (h.aim k code).out j := fun j =>
    Hw.out_of_outs ((outs_of_beside (g.cancelSheds_beside k)).trans (by rw [← hg]; rfl)) j
  have hr : g.rail k = { h.rail k with slewing := moves, cls := cls, stallRaised := false
                                       slewEnd := if moves then (h.rail k).slewEnd else some h.clk } := by
    rw [← hg, Hw.rail_modRail, if_pos ⟨rfl, hrail⟩]
    rfl
  obtain ⟨n, hn⟩ := g.cancelSheds_rail k k
  obtain ⟨htgt, href⟩ := h.aim_out code hout
  refine ⟨by rw [houts, htgt], by rw [houts, href], fun j hj => by rw [houts, h.aim_out_other code hj],
    (vcl_of_beside (g.cancelSheds_beside k)).trans (by rw [← hg]; rfl), ?_, ?_⟩ <;> rw [hn, hr]

/-! ## Steps and ends of a ramp -/

theorem Hw.codeStep_of_short {next : Nat} (hnext : toward (h.out k).ref (codeHalf k (h.out k).tgt) 5 = next)
    (hshort : next ≠ codeHalf k (h.out k).tgt) :
    h.codeStep k = h.modOut k (fun o => { o with ref := next, past := (h.clk, next) :: o.past }) := by
  unfold Hw.codeStep
  rw [hnext]
  exact if_neg hshort

theorem Hw.codeStep_ref {next : Nat} (hnext : toward (h.out k).ref (codeHalf k (h.out k).tgt) 5 = next)
    (hshort : next ≠ codeHalf k (h.out k).tgt) (hon : (h.out k).on = true) :
    ((h.codeStep k).out k).ref = next ∧ (h.codeStep k).pool = h.pool := by
  rw [h.codeStep_of_short hnext hshort, Hw.out_modOut, if_pos ⟨rfl, h.out_lt hon⟩]
  exact ⟨rfl, rfl⟩

/-- The sink limit stops a downward ramp where it stands (R151). -/
theorem Hw.sinkHold_spec (hon : (h.out k).on = true) (hramp : (h.out k).ramping = true) (hfree : (h.out k).held = false)
    (hdown : codeHalf k (h.out k).tgt < h.refHalf k) :
    let t := h.sinkHold k true
    (t.out k).held = true ∧ t.refHalf k = h.refHalf k ∧ t.pool = h.pool ∧ ∀ j, j ≠ k → t.out j = h.out j := by
  have hlt := h.out_lt hon
  have hhold : h.sinkHold k true = (h.turnRef k).modOut k (fun o => { o with held := true }) :=
    if_pos (by simp [hramp, hfree, hdown])
  have hout : (h.sinkHold k true).out k = { (h.turnRef k).out k with held := true } := by
    rw [hhold, Hw.out_modOut, if_pos ⟨rfl, by rwa [Hw.turnRef_length]⟩]
  refine ⟨by rw [hout], ?_, by rw [hhold]; rfl, fun j hj => ?_⟩
  · unfold Hw.refHalf
    simp only [hout, Bool.not_true, Bool.and_false, Bool.false_eq_true, if_false]
    rw [h.turnRef_out hlt]
    rfl
  · rw [hhold, Hw.modOut_out_other _ hj, h.turnRef_out_other hj]

theorem Output.arm_eq (o : Output) : o.arm = { o with sup := o.arm.sup } := by
  unfold Output.arm
  split <;> rfl

theorem Hw.rampDone_spec (hon : (h.out k).on = true) :
    let t := h.rampDone k
    (t.out k).ref = codeHalf k (h.out k).tgt ∧ (t.out k).ramping = false ∧ (t.out k).rampEnded = true ∧
      (∀ j, j ≠ k → t.out j = h.out j) ∧ t.faults = h.faults := by
  have houts : (h.rampDone k).outs = (h.modOut k (fun o =>
      ({ o with ref := codeHalf k o.tgt, past := (h.clk, codeHalf k o.tgt) :: o.past, ramping := false, held := false,
                rampEnded := true }).arm)).outs := by
    unfold Hw.rampDone
    dsimp only
    split <;> rfl
  have hfaults : (h.rampDone k).faults = h.faults := by
    unfold Hw.rampDone
    dsimp only
    split <;> rfl
  have hout : (h.rampDone k).out k = _ := (Hw.out_of_outs houts k).trans ((h.out_modOut k k _).trans (if_pos ⟨rfl, h.out_lt hon⟩))
  rw [Output.arm_eq] at hout
  refine ⟨by rw [hout], by rw [hout], by rw [hout], fun j hj => ?_, hfaults⟩
  rw [Hw.out_of_outs houts, Hw.modOut_out_other _ hj]

end

section
variable {s : State} {k : Fin 12} {post : Hw → Prop}

theorem completes_slewStep_vp (hvp : isVp k.val = true) (hslew : (s.hw.rail k).slewing = true) (hp : post (s.hw.codeStep k)) :
    Completes (.slewStep k false) s post :=
  ⟨_, rfl, rfl, (congrArg post ((if_pos hvp).trans (if_pos (by simp [hslew])))).mpr hp⟩

theorem completes_slewStep_other {paused : Bool} (hvp : isVp k.val = false) (hp : post (s.hw.sinkHold k paused)) :
    Completes (.slewStep k paused) s post :=
  ⟨_, rfl, rfl, (congrArg post (if_neg (by simp [hvp]))).mpr hp⟩

end

/-! ## Requests -/

section
variable (h : Hw) (k : Nat)

@[simp] theorem Hw.wake_hit (id : Nat) : h.wake.hit id = h.hit id := by rw [Hw.wake_eq]; rfl
@[simp] theorem Hw.wake_cfg : h.wake.cfg k = h.cfg k := by rw [Hw.wake_eq]; rfl
@[simp] theorem Hw.wake_out : h.wake.out k = h.out k := by rw [Hw.wake_eq]; rfl
@[simp] theorem Hw.wake_refHalf : h.wake.refHalf k = h.refHalf k := by rw [Hw.wake_eq]; rfl
@[simp] theorem Hw.wake_vclAccepts : h.wake.vclAccepts k = h.vclAccepts k := by rw [Hw.wake_eq]; rfl
@[simp] theorem Hw.wake_vclFlags : h.wake.vclFlags k = h.vclFlags k := by rw [Hw.wake_eq]; rfl
@[simp] theorem Hw.wake_vcl : h.wake.vcl = h.vcl := by rw [Hw.wake_eq]
@[simp] theorem Hw.wake_pool : h.wake.pool = h.pool := by rw [Hw.wake_eq]

theorem isVp_rail (rail : BitVec 2) : isVp rail.toNat = true := decide_eq_true (by omega : rail.toNat < 4)

/-- A request that passes the checks of R127 before its own is carried out with the fast clock awake. -/
theorem Hw.vclRequest_of_valid {h : Hw} {op : BitVec 4} {rail : BitVec 2} {tog : Bool} {payload : Half} {crc : BitVec 4}
    {reserved : Bool} (body : Hw → Nat → Hw) (hlive : h.live = true) (hhit : h.hit 0x0B = false)
    (hcrc : crc4 (requestBits op rail tog payload) = crc) (hres : reserved = false) (hen : (h.cfg rail.toNat).vclEn = true) :
    h.vclRequest op rail tog payload crc reserved body = body h.wake rail.toNat := by
  have hquiet : h.wake.take 0x0B = h.wake := h.wake.take_quiet 0x0B (by rwa [Hw.wake_hit])
  unfold Hw.vclRequest
  simp [hlive, hquiet, hhit, hcrc, hres, hen]

/-- The request is kept with the DATA of its ACK (R137). -/
def Hw.keepRequest (h : Hw) (x : VclKept) : Hw := { h with vcl := { h.vcl with kept := some x } }

variable (op : Nat) (tog : Bool) (payload data : Half) (act : Hw → Hw)

theorem Hw.vclCarry_first (hkept : h.vcl.kept = none) :
    h.vclCarry op k tog payload data act = (act (h.keepRequest ⟨op, k, tog, payload, data⟩)).vclAnswer .ack k data := by
  unfold Hw.vclCarry
  rw [hkept]
  rfl

theorem Hw.vclCarry_again {x : VclKept} (hkept : h.vcl.kept = some x) (hsame : x.same op k tog payload = true) :
    h.vclCarry op k tog payload data act = h.vclAnswer .ackRepeat k x.data := by
  unfold Hw.vclCarry
  rw [hkept]
  exact if_pos hsame

/-- An ACK carries the data; the link counts it. -/
theorem Hw.vclAnswer_ack : (h.vclAnswer .ack k data).vcl.resp.map (fun r => (r.resp, r.data)) = some (0, data) ∧
    (h.vclAnswer .ack k data).vcl.kept = h.vcl.kept ∧ (h.vclAnswer .ack k data).vcl.ok = sat16 h.vcl.ok := ⟨rfl, rfl, rfl⟩

/-- An ACK_REPEAT carries the data again; the link does not count it. -/
theorem Hw.vclAnswer_ackRepeat (hen : (h.cfg k).vclEn = true) :
    (h.vclAnswer .ackRepeat k data).vcl.resp = some (vclFrame 6 (h.vclFlags k) data) ∧
      (h.vclAnswer .ackRepeat k data).vcl.kept = h.vcl.kept ∧ (h.vclAnswer .ackRepeat k data).vcl.ok = h.vcl.ok := by
  unfold Hw.vclAnswer
  rw [hen]
  exact ⟨rfl, rfl, rfl⟩

end

/-! ## SETV and HINT that the rail accepts -/

/-- What an accepted SETV does (R132, R133). -/
def Hw.setRef (k code cls : Nat) (h : Hw) : Hw := (h.modRail k (fun r => { r with settled := false })).retarget k code cls

theorem Hw.unskip_beside (h : Hw) (c : Nat) : (h.unskip c).beside = h.beside.unskip c := rfl

@[simp] theorem Hw.unskip_rail (h : Hw) (c k : Nat) : (h.unskip c).rail k = h.rail k := rfl
theorem Hw.unskip_shedsNone (h : Hw) (c : Nat) {k q : Nat} : (h.unskip c).ShedsNone k q ↔ h.ShedsNone k q := Iff.rfl

/-- What an accepted HINT does (R99, R100). -/
def Hw.heed (k n : Nat) (h : Hw) : Hw :=
  (((h.modRail k (fun r => { r with hintHold := true })).cancelSheds k).unskip k).addUpTo k n

/-- The reference starts from where it stands, towards the code. -/
theorem Hw.setRef_spec (h : Hw) {k : Nat} (hvp : isVp k = true) (code cls : Nat) (hout : k < h.outs.length)
    (hrail : k < h.pool.rails.length) :
    let t := h.setRef k code cls
    (t.out k).tgt = code ∧ (t.out k).ref = h.refHalf k ∧ (∀ j, j ≠ k → t.out j = h.out j) ∧ t.vcl = h.vcl ∧
      (t.rail k).cls = cls ∧ (t.rail k).settled = false := by
  have hlen : k < (h.modRail k (fun r => { r with settled := false })).pool.rails.length := by
    simpa [Hw.modRail] using hrail
  obtain ⟨htgt, href, hother, hvcl, hcls, hsettled⟩ :=
    (h.modRail k (fun r => { r with settled := false })).retarget_vp_spec hvp code cls hout hlen
  refine ⟨htgt, href, hother, hvcl, hcls, hsettled.trans ?_⟩
  rw [Hw.rail_modRail, if_pos ⟨rfl, hrail⟩]

/-- The hold starts and no shed goes on; nothing but the pool, the jobs and the mark of pulse-skipping changes. -/
theorem Hw.heed_spec (h : Hw) {k : Nat} (hrail : k < h.pool.rails.length) (n : Nat) :
    let t := h.heed k n
    (t.rail k).hintHold = true ∧ (∀ q, q < 8 → t.ShedsNone k q) ∧ t.beside = (h.unskip k).beside := by
  dsimp only
  unfold Hw.heed
  generalize hg : h.modRail k (fun r => { r with hintHold := true }) = g
  have hhold : (g.rail k).hintHold = true := by rw [← hg, Hw.rail_modRail, if_pos ⟨rfl, hrail⟩]
  refine ⟨?_, fun q hq => ?_, ?_⟩
  · obtain ⟨m, hm⟩ := g.cancelSheds_rail k k
    have hcancel : (((g.cancelSheds k).unskip k).rail k).hintHold = true := by rw [Hw.unskip_rail, hm, hhold]
    exact Hw.addUpTo_induction (P := fun g => (g.rail k).hintHold = true) _ k n hcancel
      (fun g hg => (g.addPhase_hintHold k k).trans hg)
  · exact Hw.addUpTo_induction (P := fun g => g.ShedsNone k q) _ k n ((Hw.unskip_shedsNone _ k).mpr (g.cancelSheds_shedsNone k hq))
      (fun g hg => g.addPhase_shedsNone k hg)
  · have hcancel : (g.cancelSheds k).beside = h.beside := (g.cancelSheds_beside k).trans (by rw [← hg]; rfl)
    rw [Hw.addUpTo_beside, Hw.unskip_beside, Hw.unskip_beside, hcancel]

theorem getD_set_false (l : List Bool) (k : Nat) : (l.set k false).getD k false = false := by
  rw [List.getD_eq_getElem?_getD, List.getElem?_set_self']
  cases l[k]? <;> rfl

section
variable {s : State} {post : Hw → Prop} {rail : BitVec 2} {tog : Bool} {payload : Half} {crc : BitVec 4}
  (hlive : s.hw.live = true) (hhit : s.hw.hit 0x0B = false) (hen : (s.hw.cfg rail.toNat).vclEn = true)
  (hacc : s.hw.vclAccepts rail.toNat = true)
include hlive hhit hen hacc

theorem completes_setv (hcrc : crc4 (requestBits 1 rail tog payload) = crc) (hres : payload.extractLsb' 10 3 = 0) {code cls : Nat}
    (hcode : (payload.extractLsb' 0 10).toNat = code)
    (hcls : slewApplied (s.hw.cfg rail.toNat) (payload.extractLsb' 13 3).toNat = cls) (htop : code ≤ 560)
    (hmin : (s.hw.cfg rail.toNat).vMin ≤ code) (hmax : code ≤ (s.hw.cfg rail.toNat).vMax)
    (hp : post (s.hw.wake.vclCarry 1 rail.toNat tog payload (BitVec.ofNat 16 (cls * 8192 + code)) (Hw.setRef rail.toNat code cls))) :
    Completes (.setv rail tog payload crc) s post := by
  refine ⟨_, rfl, rfl, ?_⟩
  dsimp only
  rw [Hw.vclRequest_of_valid _ hlive hhit hcrc (by simp [hres]) hen]
  simp only [Hw.wake_vclAccepts, Hw.wake_cfg, hacc, hcode, hcls]
  rw [if_neg (by decide), if_neg (by simp; omega)]
  exact hp

theorem completes_hint (hcrc : crc4 (requestBits 2 rail tog payload) = crc) (hres : payload.extractLsb' 0 8 = 0) {iOut : Int} {n : Nat}
    (hn : hintCount (s.hw.cfg rail.toNat) iOut (payload.extractLsb' 8 8).toNat = n)
    (hp : post (s.hw.wake.vclCarry 2 rail.toNat tog payload (BitVec.ofNat 16 (n * 16 + s.hw.pool.active rail.toNat))
      (Hw.heed rail.toNat n))) : Completes (.hint rail tog payload crc iOut) s post := by
  refine ⟨_, rfl, rfl, ?_⟩
  dsimp only
  rw [Hw.vclRequest_of_valid _ hlive hhit hcrc (by simp [hres]) hen]
  simp only [Hw.wake_vclAccepts, Hw.wake_cfg, Hw.wake_pool, hacc, hn]
  rw [if_neg (by decide)]
  exact hp

end

/-! ## Settlement -/

/-- Settles O27: a request that passes the checks is its own action and its answer; each row of a ramp is one change of its output. -/
theorem linkCommandsMoveReferences : Obligations.LinkCommandsMoveReferences := by
  unfold Obligations.LinkCommandsMoveReferences
  refine ⟨fun s rail tog payload crc hshape hlive hhit hen hcrc hres hacc htop hmin hmax hkept => ?setv,
    fun s rail tog payload crc x hlive hhit hen hcrc hres hacc htop hmin hmax hkept hsame => ?again,
    fun s rail tog payload crc iOut hshape hlive hhit hen hcrc hres hacc hkept => ?hint,
    fun s k hk hslew hshort hon => ?up, fun s k hk hslew hshort hon => ?down, fun s k hk => ?paused,
    fun s k hk hon hramp hfree hdown => ?held, fun s k hshape hon hslew hended => ?settled, fun s k hslew hraised => ?stall,
    fun s k hep hvp hv hrest => ?episode, fun s k hon hvp hv hforce => ?ends⟩
  case setv =>
    intro cls data
    have hrail : rail.toNat < s.hw.pool.rails.length := by
      have := (Hw.pool_of_shaped hshape).2
      omega
    have hon : (s.hw.out rail.toNat).on = true := by
      simp only [Hw.vclAccepts, Bool.and_eq_true] at hacc
      exact hacc.1.1.1
    refine completes_setv hlive hhit hen hacc hcrc hres rfl rfl htop hmin hmax ?_
    rw [Hw.vclCarry_first _ _ _ _ _ _ _ (by rwa [Hw.wake_vcl])]
    generalize hg : s.hw.wake.keepRequest _ = g
    have hout : ∀ j, g.out j = s.hw.out j := fun j => by rw [← hg, ← s.hw.wake_out j]; rfl
    have href : g.refHalf rail.toNat = s.hw.refHalf rail.toNat := by rw [← hg, ← s.hw.wake_refHalf]; rfl
    have hvcl : g.vcl = { s.hw.vcl with kept := some ⟨1, rail.toNat, tog, payload, data⟩ } := by rw [← hg, ← s.hw.wake_vcl]; rfl
    obtain ⟨htgt, hrefs, hother, hkeep, hcls, hsettled⟩ := g.setRef_spec (isVp_rail rail) (payload.extractLsb' 0 10).toNat cls
      (g.out_lt (by rw [hout, hon])) (by rw [← hg]; simpa [Hw.keepRequest] using hrail)
    obtain ⟨hresp, hkept', hok⟩ := (g.setRef rail.toNat (payload.extractLsb' 0 10).toNat cls).vclAnswer_ack rail.toNat data
    rw [hkeep, hvcl] at hkept' hok
    exact ⟨hresp, hkept', hok, htgt, hrefs.trans href, hcls, hsettled, fun j hj => (hother j hj).trans (hout j)⟩
  case again =>
    refine completes_setv hlive hhit hen hacc hcrc hres rfl rfl htop hmin hmax ?_
    rw [Hw.vclCarry_again _ _ _ _ _ _ _ (by rwa [Hw.wake_vcl]) hsame]
    obtain ⟨hresp, hkeep, hok⟩ := s.hw.wake.vclAnswer_ackRepeat rail.toNat x.data (by rwa [Hw.wake_cfg])
    rw [Hw.wake_vclFlags] at hresp
    rw [Hw.wake_vcl] at hkeep hok
    exact ⟨hresp, hkeep.trans hkept, hok, s.hw.wake_outs, s.hw.wake_pool⟩
  case hint =>
    intro n
    have hrail : rail.toNat < s.hw.pool.rails.length := by
      have := (Hw.pool_of_shaped hshape).2
      omega
    refine completes_hint hlive hhit hen hacc hcrc hres rfl ?_
    rw [Hw.vclCarry_first _ _ _ _ _ _ _ (by rwa [Hw.wake_vcl])]
    generalize hg : s.hw.wake.keepRequest _ = g
    obtain ⟨hhold, hnone, hbeside⟩ := g.heed_spec (k := rail.toNat) (by rw [← hg]; simpa [Hw.keepRequest] using hrail) n
    refine ⟨((g.heed rail.toNat n).vclAnswer_ack rail.toNat _).1, hhold, ?_, ?_, hnone⟩
    · exact (congrArg (fun i : IdleSt => i.skipping.getD rail.toNat false) (idle_of_beside hbeside)).trans (getD_set_false _ _)
    · exact (outs_of_beside hbeside).trans ((by rw [← hg]; rfl : g.outs = s.hw.wake.outs).trans s.hw.wake_outs)
  case up =>
    have hnext : toward (s.hw.out k).ref (codeHalf k (s.hw.out k).tgt) 5 = (s.hw.out k).ref + 5 := by
      unfold toward
      rw [if_pos (by omega)]
      omega
    exact completes_slewStep_vp (by simpa [isVp] using hk) hslew (s.hw.codeStep_ref hnext (by omega) hon)
  case down =>
    have hnext : toward (s.hw.out k).ref (codeHalf k (s.hw.out k).tgt) 5 = (s.hw.out k).ref - 5 := by
      unfold toward
      rw [if_neg (by omega)]
      omega
    exact completes_slewStep_vp (by simpa [isVp] using hk) hslew (s.hw.codeStep_ref hnext (by omega) hon)
  case paused => exact ⟨_, rfl, rfl, by simp [isVp, hk]⟩
  case held =>
    exact completes_slewStep_other (by simpa [isVp] using hk) (s.hw.sinkHold_spec hon hramp hfree hdown)
  case settled =>
    have hrail : k.val < s.hw.pool.rails.length := by
      have := (Hw.pool_of_shaped hshape).2
      omega
    refine ⟨_, rfl, rfl, ?_⟩
    dsimp only
    rw [if_pos (by simp [hon, hslew, hended]), Hw.rail_modRail, if_pos ⟨rfl, hrail⟩]
    exact ⟨rfl, rfl⟩
  case stall =>
    have hrail : k.val < s.hw.pool.rails.length :=
      lt_of_getD_ne (d := VpRail.idle) (fun e => by unfold Hw.rail at hslew; rw [e] at hslew; exact absurd hslew (by decide))
    refine ⟨_, rfl, rfl, ?_⟩
    dsimp only
    rw [if_pos (by simp [hslew, hraised])]
    refine ⟨?_, Hw.raise_pend_of_not_mute _ (by simp [Hw.mute]) (by omega), Hw.raise_outs _ 8⟩
    rw [Hw.raise_rail, Hw.rail_modRail, if_pos ⟨rfl, hrail⟩]
  case episode =>
    have hlt : k.val < s.hw.outs.length :=
      lt_of_getD_ne (d := Output.off) (fun e => by unfold Hw.out at hep; rw [e] at hep; exact absurd hep (by decide))
    have hstill : (if isVp k.val then !(s.hw.rail k).slewing else !(s.hw.out k).ramping) = true := by
      by_cases hk : k.val < 4
      · simp [isVp, hk, hvp hk]
      · simp [isVp, hk, hv (by omega)]
    refine ⟨_, rfl, rfl, ?_⟩
    dsimp only
    rw [if_pos (by simp only [hep, hstill, hrest, decide_true, Bool.and_self]), Hw.out_modOut, if_pos ⟨rfl, hlt⟩]
    exact ⟨rfl, rfl, rfl⟩
  case ends =>
    obtain ⟨href, hramp, hended, hother, hfaults⟩ := s.hw.rampDone_spec hon
    have hmoves : (if isVp k.val then (s.hw.rail k).slewing else (s.hw.out k).ramping && !(s.hw.out k).held) = true := by
      by_cases hk : k.val < 4
      · simp [isVp, hk, hvp hk]
      · simp [isVp, hk, hv (by omega)]
    refine ⟨_, rfl, rfl, ?_⟩
    dsimp only
    rw [if_pos (by rw [hon, hmoves]; rfl), Hw.forced_of_no_forces _ (by rw [hfaults, hforce])]
    exact ⟨href, hramp, hended, hother⟩

end Sys2Proof.Machine
end

section
/-! SUPPORT. A phase that leaves service, and the running-rail faults of over-current and imbalance (R106–R108, R111, R152, R199, R200). -/

namespace Sys2Proof.Machine

/-! ## The pool under the operations of a fault -/

section
variable (h : Hw)

@[simp] theorem Hw.raiseIf_pool (c : Bool) (k : Nat) : (h.raiseIf c k).pool = h.pool := by rw [Hw.raiseIf_eq]
@[simp] theorem Hw.evalPgood_pool : h.evalPgood.pool = h.pool := by rw [Hw.evalPgood_eq]
@[simp] theorem Hw.pgoodLow_pool : h.pgoodLow.pool = h.pool := h.raiseIf_pool h.seq.pgood 22
@[simp] theorem Hw.endJob?_pool (n : Option Nat) (st r : Nat) (d : List Byte) : (h.endJob? n st r d).pool = h.pool := by cases n <;> rfl

@[simp] theorem Hw.collect_pool (src addr master access : Nat) (d : List Byte) : (h.collect src addr master access d).pool = h.pool := by
  rw [Hw.collect_eq]

@[simp] theorem Hw.hrstFalls_pool : h.hrstFalls.pool = h.pool := by
  unfold Hw.hrstFalls
  simp only [apply_ite Hw.pool, ite_self]

@[simp] theorem Hw.enterLatched_pool (c : Nat) : (h.enterLatched c).pool = h.pool := by
  unfold Hw.enterLatched
  refine (Hw.endJob?_pool _ _ 0 3 []).trans ((Hw.endJob?_pool _ _ 0 3 []).trans ?_)
  split <;> rfl

/-- Retry bookkeeping may raise RETRY_EXHAUSTED, and writes the sequencer's mark besides (R203). -/
theorem Hw.planRetry_eq : ∃ w, h.planRetry = { h with seq := { h.seq with retryWait := w } } ∨
    h.planRetry = ({ h with seq := { h.seq with retryWait := w } } : Hw).raise 20 := by
  unfold Hw.planRetry
  split
  · exact ⟨_, .inl rfl⟩
  split
  · exact ⟨_, .inl rfl⟩
  · exact ⟨_, .inr rfl⟩

@[simp] theorem Hw.planRetry_pool : h.planRetry.pool = h.pool := by
  obtain ⟨w, hw | hw⟩ := h.planRetry_eq <;> rw [hw]
  rw [Hw.raise_pool]

@[simp] theorem Hw.planRetry_outs : h.planRetry.outs = h.outs := by
  obtain ⟨w, hw | hw⟩ := h.planRetry_eq <;> rw [hw]
  rw [Hw.raise_outs]

@[simp] theorem Hw.planRetry_desk : h.planRetry.desk = h.desk := by
  obtain ⟨w, hw | hw⟩ := h.planRetry_eq <;> rw [hw]
  · rfl
  · rw [Hw.raise_desk]
    rfl

theorem Hw.planRetry_pend_mono {n : Nat} (hp : h.evt.pend.getLsbD n = true) : h.planRetry.evt.pend.getLsbD n = true := by
  obtain ⟨w, hw | hw⟩ := h.planRetry_eq <;> rw [hw]
  · exact hp
  · exact Hw.raise_pend_mono _ 20 hp

theorem Hw.turnOff_pool (c : OffCause) (k : Nat) : (h.turnOff c k).pool = h.pool ∨ (h.turnOff c k).pool = h.pool.stop k := by
  unfold Hw.turnOff
  by_cases hhold : h.holds c k = true
  · rw [if_pos hhold]
    exact .inl rfl
  rw [if_neg hhold]
  by_cases hep : isEp k = true
  · rw [if_pos hep, Hw.freeBus_eq]
    exact .inl rfl
  rw [if_neg hep]
  dsimp only
  split
  · exact .inr rfl
  · split <;> exact .inl rfl

/-! ## A phase out of service stays so -/

/-- Phase p is out of service with a reason, and POOL_PHASE_OOS is pending. -/
def Hw.MarkedOut (h : Hw) (p reason : Nat) : Prop :=
  ((h.phase p).cond = .oos ∧ (h.phase p).oosReason = reason) ∧ h.evt.pend.getLsbD 5 = true

theorem Pool.stop_ph_of_oos (po : Pool) (k : Nat) {p : Nat} (hp : (po.ph p).cond = .oos) :
    ((po.stop k).ph p).cond = .oos ∧ ((po.stop k).ph p).oosReason = (po.ph p).oosReason := by
  unfold Pool.ph at hp ⊢
  unfold Pool.stop
  simp only [List.getD_eq_getElem?_getD, List.getElem?_mapIdx] at hp ⊢
  cases hx : po.phases[p]? with
  | none => rw [hx] at hp; exact absurd hp (by decide)
  | some x =>
    rw [hx] at hp
    simp_all

section
variable {h} {p r : Nat}

theorem markedOut_of_pool {g : Hw} (hm : h.MarkedOut p r) (e : g.pool = h.pool) (hp : g.evt.pend.getLsbD 5 = true) :
    g.MarkedOut p r :=
  ⟨by rw [Hw.phase_of_pool (congrArg Pool.phases e)]; exact hm.1, hp⟩

theorem ite_markedOut {c : Prop} [Decidable c] {a b : Hw} (ha : a.MarkedOut p r) (hb : b.MarkedOut p r) :
    (if c then a else b).MarkedOut p r := by
  split <;> assumption

variable (hm : h.MarkedOut p r)
include hm

theorem Hw.MarkedOut.turnOffAll (c : OffCause) : (h.turnOffAll c).MarkedOut p r := by
  refine List.foldlRecOn (motive := fun g : Hw => g.MarkedOut p r) _ _ hm (fun g hg k _ => ?_)
  obtain ⟨⟨hcond, hreason⟩, hpend⟩ := hg
  have hpend' : (g.turnOff c k).evt.pend.getLsbD 5 = true := by rwa [Hw.turnOff_evt]
  rcases g.turnOff_pool c k with e | e
  · exact markedOut_of_pool ⟨⟨hcond, hreason⟩, hpend⟩ e hpend'
  · obtain ⟨hcond', hreason'⟩ := g.pool.stop_ph_of_oos k hcond
    rw [← e] at hcond' hreason'
    exact ⟨⟨hcond', hreason'.trans hreason⟩, hpend'⟩

theorem Hw.MarkedOut.endMove (n : Nat) : (h.endMove n).MarkedOut p r :=
  ⟨by rw [Hw.endMove_phase]; exact hm.1, by rw [Hw.endMove_evt]; exact hm.2⟩

theorem Hw.MarkedOut.markOff (c : OffCause) : (h.markOff c).MarkedOut p r := hm
theorem Hw.MarkedOut.govEnd : h.govEnd.MarkedOut p r := hm
theorem Hw.MarkedOut.setSeq (q : Seq) : ({ h with seq := q } : Hw).MarkedOut p r := hm

theorem Hw.MarkedOut.hrstFalls : h.hrstFalls.MarkedOut p r :=
  markedOut_of_pool hm h.hrstFalls_pool (by rw [Hw.hrstFalls_evt]; exact hm.2)

theorem Hw.MarkedOut.evalPgood : h.evalPgood.MarkedOut p r :=
  markedOut_of_pool hm h.evalPgood_pool (h.evalPgood_pend_mono hm.2)

theorem Hw.MarkedOut.raise (k : Nat) : (h.raise k).MarkedOut p r := markedOut_of_pool hm (h.raise_pool k) (h.raise_pend_mono k hm.2)

theorem Hw.MarkedOut.enterLatched (c : Nat) : (h.enterLatched c).MarkedOut p r :=
  markedOut_of_pool hm (h.enterLatched_pool c) (by rw [Hw.enterLatched_evt]; exact hm.2)

theorem Hw.MarkedOut.collect (src addr master access : Nat) (d : List Byte) : (h.collect src addr master access d).MarkedOut p r :=
  markedOut_of_pool hm (h.collect_pool ..) (Hw.warn_pend_mono _ src _ (h.capture_pend_mono _ hm.2))

theorem Hw.MarkedOut.railOff {c : Nat} (hc : c ≠ 10) : (h.railOff c).MarkedOut p r := by
  have hlow : h.flagFault.pgoodLow.MarkedOut p r :=
    markedOut_of_pool hm (Hw.pgoodLow_pool _) (Hw.raiseIf_pend_mono _ _ 22 hm.2)
  have hlatch : (h.faultOff.enterLatched c).MarkedOut p r :=
    Hw.MarkedOut.enterLatched ((((hlow.markOff .fault).endMove 3).turnOffAll .fault).govEnd) c
  rw [Hw.railOff_of_own h hc]
  exact (markedOut_of_pool hlatch (Hw.planRetry_pool _) (Hw.planRetry_pend_mono _ hlatch.2)).raise 19

theorem Hw.MarkedOut.safeState : h.safeState.MarkedOut p r := by
  have hoff := ((((hm.markOff .safeState).endMove 3).turnOffAll .safeState).govEnd).hrstFalls
  unfold Hw.safeState
  refine ite_markedOut hm ?_
  dsimp only
  generalize ((((h.markOff .safeState).endMove 3).turnOffAll .safeState).govEnd).hrstFalls = g at hoff ⊢
  exact ite_markedOut hoff.evalPgood ((hoff.enterLatched 12).setSeq _).evalPgood

theorem Hw.MarkedOut.react (n : Nat) : (h.react n).MarkedOut p r := by
  have hask : ∀ g : Hw, (g.askCoreReset 4).pool = g.pool := fun g => by unfold Hw.askCoreReset; split <;> rfl
  have hsafe : (if 2 ≤ n then h.safeState else h).MarkedOut p r := ite_markedOut hm.safeState hm
  refine markedOut_of_pool hsafe ?_ (h.react_pend_mono n hm.2)
  unfold Hw.react
  simp only [apply_ite Hw.pool, hask, ite_self]

theorem Hw.MarkedOut.lostPhase {noPhase : List RailErr} (hown : ∀ f ∈ noPhase, f.cause ≠ 10) (phase : Nat) :
    (h.lostPhase noPhase phase).MarkedOut p r := by
  have hfold : (noPhase.foldl (fun h f => h.collect f.src f.addr 0 0 f.detail) h).MarkedOut p r :=
    List.foldlRecOn (motive := fun g : Hw => g.MarkedOut p r) _ _ hm (fun g hg f _ => Hw.MarkedOut.collect hg ..)
  unfold Hw.lostPhase
  refine Hw.MarkedOut.react ?_ _
  have hcollect := hfold.collect 0x68 phase 0 0 []
  split
  next f hf => exact hcollect.railOff (hown f (List.mem_of_find?_eq_some hf))
  next => exact hcollect

/-! ## Phases that are taken in its place -/

theorem Hw.MarkedOut.addPhase (k : Nat) : (h.addPhase k).MarkedOut p r := by
  refine ⟨?_, by rw [evt_of_beside (h.addPhase_beside k)]; exact hm.2⟩
  rcases h.addPhase_phase k p with e | ⟨htake, -⟩
  · rw [e]
    exact hm.1
  · rw [hm.1.1] at htake
    exact absurd htake (by simp [PhaseCond.Takeable])

theorem Hw.MarkedOut.addUpTo (k n : Nat) : (h.addUpTo k n).MarkedOut p r :=
  h.addUpTo_induction (P := fun g => g.MarkedOut p r) k n hm (fun _ hg => hg.addPhase k)

theorem Hw.MarkedOut.modRail (k : Nat) (f : VpRail → VpRail) : (h.modRail k f).MarkedOut p r := hm

theorem Hw.MarkedOut.substitute (k : Nat) : (h.substitute k).MarkedOut p r := by
  have htake : ∀ (g : Hw) (q : Nat) (f : Phase → Phase), g.MarkedOut p r → (g.phase q).cond = .parked →
      (g.modPhase q f).MarkedOut p r := by
    intro g q f hg hq
    refine ⟨?_, hg.2⟩
    rw [Hw.phase_modPhase, if_neg]
    · exact hg.1
    · rintro ⟨rfl, -⟩
      exact absurd (hq.symm.trans hg.1.1) (by decide)
  unfold Hw.substitute
  dsimp only
  generalize hf : (List.range 6).foldl _ h = g
  have hg : g.MarkedOut p r := by
    rw [← hf]
    refine List.foldlRecOn (motive := fun g : Hw => g.MarkedOut p r) _ _ hm (fun g hg _ _ => ite_markedOut ?_ hg)
    split
    next q hq =>
      have hparked : (g.pool.ph q).cond = .parked := by simpa using Pool.find_spec hq
      exact htake g q _ hg hparked
    next => exact hg
  exact ite_markedOut ((hg.modRail k _).raise 6) (hg.modRail k _)

end

/-! ## Every output off, the latch and FLTn (R200) -/

/-- An output that nothing holds regulating is off once it is turned off, and no other is touched. -/
theorem Hw.turnOff_outs {c : OffCause} {k : Nat} (hhold : h.holds c k = false) :
    ∃ f : Output → Output, (h.turnOff c k).outs = h.outs.modify k f ∧ ∀ o, (f o).on = false := by
  unfold Hw.turnOff
  rw [if_neg (by simp [hhold])]
  by_cases hep : isEp k = true
  · rw [if_pos hep, Hw.freeBus_eq]
    exact ⟨_, rfl, fun _ => rfl⟩
  rw [if_neg hep]
  dsimp only
  have hoff : ∀ (sink : Bool) (code : Nat) (o : Output), (if o.on then o.turnOff sink code
      else if c == .removal then { o with discharging := true } else o).on = false := by
    intro sink code o
    split
    · rfl
    next hon => split <;> simpa using hon
  split
  · exact ⟨_, rfl, hoff _ _⟩
  · split <;> exact ⟨_, rfl, hoff _ _⟩

/-- No fault leaves an output on. -/
theorem Hw.turnOffAll_fault_off {j : Nat} (hj : j < 18) : ((h.turnOffAll .fault).out j).on = false := by
  have hfold : ∀ (l : List Nat) (g : Hw), j ∈ l ∨ (g.out j).on = false →
      ((l.foldl (fun h k => h.turnOff .fault k) g).out j).on = false := by
    intro l
    induction l with
    | nil => exact fun g hg => hg.resolve_left List.not_mem_nil
    | cons k l ih =>
      intro g hg
      obtain ⟨f, houts, hoff⟩ := g.turnOff_outs (c := .fault) (k := k) rfl
      refine ih _ ?_
      have hout : (g.turnOff .fault k).out j = (g.modOut k f).out j := Hw.out_of_outs houts j
      rw [hout]
      by_cases hjk : j = k
      · exact .inr (hjk ▸ Hw.modOut_out_off g k (hoff _))
      · rw [Hw.modOut_out_other g hjk]
        exact hg.imp_left fun hmem => (List.mem_cons.mp hmem).resolve_left hjk
  exact hfold _ h (.inl (List.mem_range.mpr hj))

theorem Hw.govEnd_on (j : Nat) : (h.govEnd.out j).on = (h.out j).on := by
  unfold Hw.out Hw.govEnd
  simp only [List.getD_eq_getElem?_getD, List.getElem?_map]
  cases h.outs[j]? <;> rfl

theorem Hw.faultOff_off {j : Nat} (hj : j < 18) : (h.faultOff.out j).on = false := by
  unfold Hw.faultOff
  rw [Hw.govEnd_on]
  exact Hw.turnOffAll_fault_off _ hj

theorem Hw.faultOff_seq : h.faultOff.seq = { h.seq with fltDrive := true, hrst := false, pgood := false } := by
  have hmove : ∀ g : Hw, (g.endMove 3).seq = g.seq := fun g => by unfold Hw.endMove; split <;> rfl
  have hoff : ∀ g : Hw, (g.turnOffAll .fault).seq = g.seq := fun g => congrArg (·.2.1) (g.turnOffAll_ground .fault)
  have hlow : h.flagFault.pgoodLow.seq = { h.seq with fltDrive := true, hrst := false, pgood := false } := by
    unfold Hw.pgoodLow
    rw [Hw.raiseIf_eq]
    rfl
  unfold Hw.faultOff
  exact (hoff _).trans ((hmove _).trans hlow)

theorem Hw.faultOff_desk : h.faultOff.desk = h.desk := by
  unfold Hw.faultOff
  rw [Hw.govEnd_desk, Hw.turnOffAll_desk, Hw.endMove_desk, Hw.markOff_desk, Hw.pgoodLow_desk]
  rfl

@[simp] theorem Hw.enterLatched_outs (c : Nat) : (h.enterLatched c).outs = h.outs := by
  have hjob : ∀ (g : Hw) (n : Option Nat), (g.endJob? n 0 3 []).outs = g.outs := fun g n => by cases n <;> rfl
  unfold Hw.enterLatched
  dsimp only
  rw [hjob, hjob]
  split <;> rfl

theorem Hw.enterLatched_lines (c : Nat) : (h.enterLatched c).seq.hrst = h.seq.hrst ∧ (h.enterLatched c).seq.pgood = h.seq.pgood := by
  have hjob : ∀ (g : Hw) (n : Option Nat), (g.endJob? n 0 3 []).seq = g.seq := fun g n => by cases n <;> rfl
  unfold Hw.enterLatched
  simp only [hjob]
  split <;> exact ⟨rfl, rfl⟩

/-- What a fault of the module's own leaves beside the latch: HRSTn and PGOOD low, the event, every output off, and the capture as it
was. -/
theorem Hw.railOff_spec {c : Nat} (hc : c ≠ 10) : (h.railOff c).seq.hrst = false ∧ (h.railOff c).seq.pgood = false ∧
    (h.railOff c).evt.pend.getLsbD 19 = true ∧ (∀ j, j < 18 → ((h.railOff c).out j).on = false) ∧ (h.railOff c).faults = h.faults := by
  rw [Hw.railOff_of_own h hc]
  obtain ⟨hhrst, hpgood⟩ := h.faultOff.enterLatched_lines c
  obtain ⟨-, -, w, hseq⟩ := (h.faultOff.enterLatched c).planRetry_keeps
  have hraised : (((h.faultOff.enterLatched c).planRetry).raise 19).seq = (h.faultOff.enterLatched c).planRetry.seq := by rw [Hw.raise_eq]
  rw [hraised, hseq]
  refine ⟨hhrst.trans (by rw [Hw.faultOff_seq]), hpgood.trans (by rw [Hw.faultOff_seq]),
    Hw.raise_pend_of_not_mute _ (by simp [Hw.mute]) (by omega), fun j hj => ?_, ?_⟩
  · rw [Hw.raise_out, Hw.out_of_outs ((Hw.planRetry_outs _).trans (Hw.enterLatched_outs _ c))]
    exact h.faultOff_off hj
  · exact faults_of_desk (by rw [Hw.raise_desk, Hw.planRetry_desk, Hw.enterLatched_desk, Hw.faultOff_desk])

/-- Under a latch the reaction to an error asks for a core reset at most (R474). -/
theorem Hw.react_of_latched (r : Nat) (hst : h.seq.state = .faultLatched) : ∃ q, h.react r = { h with rst := q } := by
  have hsafe : h.safeState = h := by
    unfold Hw.safeState
    rw [if_pos (by simp [hst])]
  unfold Hw.react
  simp only [hsafe, ite_self]
  split
  · unfold Hw.askCoreReset
    split <;> exact ⟨_, rfl⟩
  · exact ⟨_, rfl⟩

theorem Hw.collect_cap (src addr master access : Nat) (d : List Byte) (hcap : h.faults.cap = none) (hsrc : src ≠ 0x93) :
    (h.collect src addr master access d).faults.cap =
      some { source := src, addr := addr, master := master, access := access, time := h.now, micros := h.micros } :=
  (congrArg Faults.cap (faults_of_desk (Hw.react_desk _ _))).symm.trans (h.report_cap src addr master access d hcap hsrc)

/-- A running-rail fault in SEQ_UP, RUN or SEQ_DOWN of a module that stays (R199, R200). -/
theorem Hw.railFault_spec {c src : Nat} (addr : Nat) (d : List Byte) (held : Bool) (hc : c ≠ 10) (hsrc : src ≠ 0x93)
    (hst : h.seq.state = .seqUp ∨ h.seq.state = .run ∨ h.seq.state = .seqDown) (hleave : h.leaving = false) :
    let t := h.railFault c src addr d held
    t.seq.state = .faultLatched ∧ t.seq.cause = c ∧ t.seq.fltDrive = true ∧ t.seq.hrst = false ∧ t.seq.pgood = false ∧
      t.evt.pend.getLsbD 19 = true ∧
      (h.faults.cap = none → t.faults.cap.map (fun c => (c.source, c.addr, c.master)) = some (src, addr, 0)) ∧
      ∀ j : Fin 18, (t.out j).on = false := by
  have hacts : h.faultActs held = true := by
    unfold Hw.faultActs
    rw [hleave]
    rcases hst with hst | hst | hst <;> rw [hst] <;> rfl
  generalize hg : h.collect src addr 0 0 d = g
  have hseq : g.seq = h.seq := hg ▸ (congrArg (·.2.1) (h.collect_core src addr 0 0 d) :)
  have hl := g.railOff_latched hc (by rw [hseq]; rcases hst with hst | hst | hst <;> rw [hst] <;> decide)
  obtain ⟨hhrst, hpgood, hpend, hoff, hfaults⟩ := g.railOff_spec hc
  have hfault : h.railFault c src addr d held = (g.railOff c).react (h.reaction src) := by
    unfold Hw.railFault
    simp only [hacts, hg, if_true]
  obtain ⟨q, hq⟩ := (g.railOff c).react_of_latched (h.reaction src) hl.state
  dsimp only
  rw [hfault, hq]
  refine ⟨hl.state, hl.cause, hl.fltDrive, hhrst, hpgood, hpend, fun hcap => ?_, fun j => hoff j j.isLt⟩
  dsimp only
  rw [hfaults, ← hg, h.collect_cap src addr 0 0 d hcap hsrc]
  rfl

end

/-! ## Settlement -/

theorem cause_of_mem_ite {c : Prop} [Decidable c] {e : RailErr} (he : e.cause ≠ 10) :
    ∀ f ∈ if c then [e] else [], f.cause ≠ 10 := by
  intro f hf
  split at hf
  · rwa [List.mem_singleton.mp hf]
  · exact absurd hf List.not_mem_nil

/-- A monitored phase leaves service, whatever takes its place and whatever its loss sets going. -/
theorem completes_phaseOutOfService_marked {s : State} {p : Fin 8} {m : PhaseMonitor} (overAdd : Bool) (hshape : s.hw.shaped = true)
    (hmon : s.hw.monitored p m = true) :
    Completes (.phaseOutOfService p m overAdd) s (fun t => t.MarkedOut p (monitorCode m)) := by
  refine ⟨_, rfl, rfl, ?_⟩
  dsimp only
  rw [if_pos hmon]
  generalize hg : (s.hw.endMoveOf p 3).modPhase p _ = g
  have hphase : (g.phase p).cond = .oos ∧ (g.phase p).oosReason = monitorCode m := by
    have hlt : p.val < (s.hw.endMoveOf p 3).pool.phases.length := by
      rw [(s.hw.endMoveOf_parts p 3).1, (Hw.pool_of_shaped hshape).1]
      exact p.isLt
    rw [← hg, Hw.phase_modPhase, if_pos ⟨rfl, hlt⟩]
    exact ⟨rfl, rfl⟩
  have hraised : ∀ f : Hw, f.phase p = g.phase p → (f.raise 5).MarkedOut p (monitorCode m) := fun f e =>
    ⟨by rw [Hw.raise_phase, e]; exact hphase, Hw.raise_pend_of_not_mute _ (by simp [Hw.mute]) (by omega)⟩
  have hrefill : ∀ {f : Hw} (k : Nat), f.MarkedOut p (monitorCode m) →
      (if (f.out k).on then (f.substitute k).addUpTo k (f.cfg k).minPh else f).MarkedOut p (monitorCode m) := fun k hf =>
    ite_markedOut ((hf.substitute k).addUpTo k _) hf
  have hstart := hraised (if (s.hw.phase p).cond == .active || (s.hw.phase p).cond == .rampDown
    then g.modRail ((s.hw.phase p).serving - 1) (fun r => { r with respacing := true }) else g) (by split <;> rfl)
  have howner := ite_markedOut (c := 0 < (s.hw.phase p).owner) (hrefill ((s.hw.phase p).owner - 1) hstart) hstart
  have hserved := ite_markedOut (c := 0 < (s.hw.phase p).serving) (hrefill ((s.hw.phase p).serving - 1) howner) howner
  exact Hw.MarkedOut.lostPhase (ite_markedOut (hserved.addPhase _) hserved) (cause_of_mem_ite (by simp)) _

/-- Settles O25: a phase out of service stays so whatever the loss sets going; both converter faults are one running-rail fault. -/
theorem phaseAndConverterFaults : Obligations.PhaseAndConverterFaults := by
  unfold Obligations.PhaseAndConverterFaults
  refine ⟨fun s p m oa hshape hmon => ?oos, fun s k mv hon hst hleave hlow hact => ?oc, fun s vh hon hst hleave => ?imbalance⟩
  case oos =>
    obtain ⟨t, hrun, hqueue, ⟨hcond, hreason⟩, hpend⟩ := completes_phaseOutOfService_marked oa hshape hmon
    exact ⟨t, hrun, hqueue, hcond, hreason, hpend⟩
  case oc =>
    obtain ⟨hstate, hcause, hflt, hhrst, hpgood, hpend, hcap, hoff⟩ :=
      s.hw.railFault_spec (c := 3) (src := 0x62) k (detailMv mv) true (by decide) (by decide) hst hleave
    refine ⟨_, rfl, rfl, ?_⟩
    dsimp only
    rw [if_pos (by simpa [hon, Hw.belowWindow, hlow, isVp, imp_iff_not_or] using hact)]
    exact ⟨hstate, hcause, hflt, hhrst, hpgood, hpend, hcap, hoff⟩
  case imbalance =>
    obtain ⟨hstate, hcause, hflt, -, -, -, hcap, hoff⟩ :=
      s.hw.railFault_spec (c := 4) (src := 0x63) (10 + vh) [] false (by decide) (by decide) hst hleave
    refine ⟨_, rfl, rfl, ?_⟩
    dsimp only
    rw [if_pos hon]
    exact ⟨hstate, hcause, hflt, hcap, hoff⟩

end Sys2Proof.Machine
end

section
/-! SUPPORT. The requests of the voltage command link that read, and those that are refused (R121, R125–R129, R132, R137, R143). -/

namespace Sys2Proof.Machine

/-! ## An error and its reaction leave the answer and the counts of the link alone -/

/-- The link but for the kept request, which goes with its rail. -/
def Hw.tally (h : Hw) : Vcl := { h.vcl with kept := none }

theorem tally_of_vcl {g h : Hw} (e : g.vcl = h.vcl) : g.tally = h.tally := congrArg (fun v : Vcl => { v with kept := none }) e

section
variable (h : Hw)

theorem ite_tally {p : Prop} [Decidable p] {a b : Hw} {v : Vcl} (ha : a.tally = v) (hb : b.tally = v) :
    (if p then a else b).tally = v := by
  split <;> assumption

@[simp] theorem Hw.markOff_tally (c : OffCause) : (h.markOff c).tally = h.tally := rfl
@[simp] theorem Hw.govEnd_tally : h.govEnd.tally = h.tally := rfl
@[simp] theorem Hw.evalPgood_tally : h.evalPgood.tally = h.tally := by rw [Hw.evalPgood_eq]; rfl
@[simp] theorem Hw.endMove_tally (r : Nat) : (h.endMove r).tally = h.tally := by unfold Hw.endMove; split <;> rfl

@[simp] theorem Hw.endJob?_vcl (j : Option Nat) (st r : Nat) (d : List Byte) : (h.endJob? j st r d).vcl = h.vcl := by cases j <;> rfl

@[simp] theorem Hw.turnOff_tally (c : OffCause) (k : Nat) : (h.turnOff c k).tally = h.tally := by
  unfold Hw.turnOff
  exact ite_tally rfl (ite_tally (by rw [Hw.freeBus_eq]; rfl) (ite_tally rfl (ite_tally rfl rfl)))

@[simp] theorem Hw.turnOffAll_tally (c : OffCause) : (h.turnOffAll c).tally = h.tally :=
  List.foldlRecOn (motive := fun g : Hw => g.tally = h.tally) _ _ rfl (fun g hg k _ => (g.turnOff_tally c k).trans hg)

@[simp] theorem Hw.hrstFalls_tally : h.hrstFalls.tally = h.tally := by
  unfold Hw.hrstFalls
  exact ite_tally rfl rfl

@[simp] theorem Hw.enterLatched_vcl (c : Nat) : (h.enterLatched c).vcl = h.vcl := by
  unfold Hw.enterLatched
  refine (Hw.endJob?_vcl _ _ 0 3 []).trans ((Hw.endJob?_vcl _ _ 0 3 []).trans ?_)
  split <;> rfl

@[simp] theorem Hw.safeState_tally : h.safeState.tally = h.tally := by
  have hoff : ((((h.markOff .safeState).endMove 3).turnOffAll .safeState).govEnd.hrstFalls).tally = h.tally := by simp
  unfold Hw.safeState
  refine ite_tally rfl ?_
  dsimp only
  generalize (((h.markOff .safeState).endMove 3).turnOffAll .safeState).govEnd.hrstFalls = g at hoff ⊢
  exact ite_tally (g.evalPgood_tally.trans hoff) ((Hw.evalPgood_tally _).trans ((tally_of_vcl (g.enterLatched_vcl 12)).trans hoff))

@[simp] theorem Hw.askCoreReset_tally (c : Nat) : (h.askCoreReset c).tally = h.tally := by unfold Hw.askCoreReset; split <;> rfl

@[simp] theorem Hw.react_tally (r : Nat) : (h.react r).tally = h.tally := by
  have hsafe : (if 2 ≤ r then h.safeState else h).tally = h.tally := ite_tally h.safeState_tally rfl
  unfold Hw.react
  exact ite_tally ((Hw.askCoreReset_tally _ 4).trans hsafe) hsafe

@[simp] theorem Hw.report_tally (src addr master access : Nat) (d : List Byte) :
    (h.report src addr master access d).tally = h.tally := by
  unfold Hw.report
  rw [Hw.react_tally, Hw.collect_eq]
  rfl

end

/-! ## A violation (R129, R143) -/

section
variable (h : Hw) (src access op k : Nat) (d : List Byte)

/-- It is counted and raises VCL_ERROR; the answer and the count of accepted requests stand. -/
theorem Hw.vclBad_counted : let t := h.vclBad src access op k d
    t.vcl.resp = h.vcl.resp ∧ t.vcl.bad = sat16 h.vcl.bad ∧ t.vcl.ok = h.vcl.ok ∧ t.evt.pend.getLsbD 7 = true := by
  have htally : (h.vclBad src access op k d).tally = { h.tally with bad := sat16 h.vcl.bad } := by
    unfold Hw.vclBad
    dsimp only
    rw [Hw.report_tally, Hw.raise_eq]
    rfl
  refine ⟨(congrArg Vcl.resp htally :), (congrArg Vcl.bad htally :), (congrArg Vcl.ok htally :), ?_⟩
  exact Hw.report_pend_mono _ _ _ _ _ _ (Hw.raise_pend_of_not_mute _ (by simp [Hw.mute]) (by omega))

theorem Hw.vclBad_captured (hsrc : src ≠ 0x93) (hcap : h.faults.cap = none) :
    (h.vclBad src access op k d).faults.cap.map (fun f => (f.source, f.addr, f.master, f.access)) =
      some (src, op * 16 + k, 3, access) := by
  unfold Hw.vclBad
  dsimp only
  rw [Hw.report_cap _ _ _ _ _ _ (by rw [Hw.raise_eq]; exact hcap) hsrc]
  rfl

/-- Where its class warns at most, it changes the count, and what collecting an error changes (R474). -/
theorem Hw.vclBad_of_le_one (hr : h.reaction src ≤ 1) : ∃ i a e f, h.vclBad src access op k d =
    { h with vcl := { h.vcl with bad := sat16 h.vcl.bad }, idle := i, adc := a, evt := e, faults := f } := by
  unfold Hw.vclBad
  dsimp only
  rw [Hw.report_of_le_one _ (by rw [Hw.raise_eq]; exact hr), Hw.collect_eq, Hw.raise_eq]
  exact ⟨_, _, _, _, rfl⟩

end

/-! ## A refusal (R121, R127) -/

/-- The request is refused: a violation, which a NAK_CRC captures under its own source and access, and its answer. -/
def Hw.vclRefuse (h : Hw) (r : Resp) (op k : Nat) : Hw :=
  (h.vclBad (if r.code.toNat = 1 then 0x51 else 0x50) (if r.code.toNat = 1 then 4 else 3) op k []).vclAnswer r k 0

section
variable (h : Hw) {r : Resp} (hack : r ≠ .ack) (hrepeat : r ≠ .ackRepeat) (k : Nat)
include hack hrepeat

/-- A NAK has DATA 0, and counts no accepted request. -/
theorem Hw.vclAnswer_nak : h.vclAnswer r k 0 = { h with vcl := { h.vcl with
    resp := some (vclFrame r.code
      (if r.code.toNat = 1 ∨ r.code.toNat = 3 ∨ (h.cfg k).vclEn = false then h.bareFlags else h.vclFlags k) 0) } } := by
  unfold Hw.vclAnswer
  cases r
  case ack => exact absurd rfl hack
  case ackRepeat => exact absurd rfl hrepeat
  all_goals cases (h.cfg k).vclEn <;> rfl

/-- A refusal at wake: what it always does, and what it leaves where its class warns at most. -/
theorem Hw.vclRefuse_spec (op : Nat) : let t := h.wake.vclRefuse r op k
    let src := if r.code.toNat = 1 then 0x51 else 0x50
    t.vcl.resp.map (fun f => (f.resp, f.data)) = some (r.code, 0) ∧ t.vcl.bad = sat16 h.vcl.bad ∧ t.vcl.ok = h.vcl.ok ∧
      t.evt.pend.getLsbD 7 = true ∧
      (h.faults.cap = none → t.faults.cap.map (fun f => (f.source, f.addr, f.master, f.access)) =
        some (src, op * 16 + k, 3, if r.code.toNat = 1 then 4 else 3)) ∧
      (h.reaction src ≤ 1 → t.outs = h.outs ∧ t.pool = h.pool ∧ t.seq = h.seq ∧ t.vcl.kept = h.vcl.kept ∧
        t.vcl.resp = some (vclFrame r.code
          (if r.code.toNat = 1 ∨ r.code.toNat = 3 ∨ (h.cfg k).vclEn = false then h.bareFlags else h.vclFlags k) 0)) := by
  intro t src
  have ht : t = (h.wake.vclBad src (if r.code.toNat = 1 then 4 else 3) op k []).vclAnswer r k 0 := rfl
  obtain ⟨-, hbad, hok, hpend⟩ := h.wake.vclBad_counted src (if r.code.toNat = 1 then 4 else 3) op k []
  have hsrc : src ≠ 0x93 := by dsimp only [src]; split <;> decide
  rw [Hw.vclAnswer_nak _ hack hrepeat] at ht
  rw [ht]
  rw [Hw.wake_vcl] at hbad hok
  refine ⟨rfl, hbad, hok, hpend, fun hcap => ?_, fun hr => ?_⟩
  · exact h.wake.vclBad_captured src _ op k [] hsrc ((congrArg Faults.cap (faults_of_desk h.wake_desk)).trans hcap)
  · obtain ⟨i, a, e, f, hquiet⟩ := h.wake.vclBad_of_le_one src (if r.code.toNat = 1 then 4 else 3) op k []
      (by rw [Hw.wake_eq]; exact hr)
    rw [hquiet, Hw.wake_eq]
    exact ⟨rfl, rfl, rfl, rfl, rfl⟩

end

/-! ## The rows of the requests -/

/-- A reserved opcode, or a reserved bit that is set (R126, R127). -/
def ReservedSet (op : BitVec 4) (payload : Half) : Prop :=
  6 ≤ op.toNat ∨ (op = 0 ∨ op = 3 ∨ op = 4 ∨ op = 5) ∧ payload ≠ 0 ∨ op = 1 ∧ payload.extractLsb' 10 3 ≠ 0 ∨
    op = 2 ∧ payload.extractLsb' 0 8 ≠ 0

/-- A SETV or HINT to a rail that does not accept it (R132). -/
def Hw.OutOfState (h : Hw) (op : BitVec 4) (k : Nat) : Prop :=
  (op = 1 ∨ op = 2) ∧ ((h.out k).on = false ∨ (h.out k).stepDone = false ∨ (h.out k).shed = true ∨ h.eff = .faultLatched)

/-- A SETV with a code outside what the rail may take (R132). -/
def Hw.OutOfRange (h : Hw) (op : BitVec 4) (k : Nat) (payload : Half) : Prop :=
  op = 1 ∧ (560 < (payload.extractLsb' 0 10).toNat ∨ (payload.extractLsb' 0 10).toNat < (h.cfg k).vMin ∨
    (h.cfg k).vMax < (payload.extractLsb' 0 10).toNat)

/-- A row is a request of its opcode, with a mark of reserved bits and an action of its own. -/
def RequestRow (c : Instr) (op : BitVec 4) (rail : BitVec 2) (tog : Bool) (payload : Half) (crc : BitVec 4) (reserved : Bool)
    (body : Hw → Nat → Hw) : Prop :=
  ∀ s, exec c s = s.upd fun h => h.vclRequest op rail tog payload crc reserved body

/-- The action refuses what its row refuses beyond the checks of every request. -/
def Refuses (op : BitVec 4) (payload : Half) (body : Hw → Nat → Hw) : Prop :=
  ∀ h : Hw, ∀ k, (h.OutOfState op k → body h k = h.vclRefuse .nakState op.toNat k) ∧
    (¬ h.OutOfState op k → h.OutOfRange op k payload → body h k = h.vclRefuse .nakRange op.toNat k)

theorem Hw.vclAccepts_eq_false_iff (h : Hw) (k : Nat) : h.vclAccepts k = false ↔
    (h.out k).on = false ∨ (h.out k).stepDone = false ∨ (h.out k).shed = true ∨ h.eff = .faultLatched := by
  simp only [Hw.vclAccepts, Bool.and_eq_false_iff, Bool.not_eq_false', bne_eq_false_iff_eq, or_assoc]

/-- Only SETV and HINT are refused beyond those checks. -/
theorem refuses_of_read {op : BitVec 4} (payload : Half) (body : Hw → Nat → Hw) (h1 : op ≠ 1) (h2 : op ≠ 2) :
    Refuses op payload body :=
  fun _ _ => ⟨fun hstate => (hstate.1.elim h1 h2).elim, fun _ hrange => (h1 hrange.1).elim⟩

section
variable (rail : BitVec 2) (tog : Bool) (payload : Half) (crc : BitVec 4)

theorem requestRow_vclNop {op : BitVec 4} (hop : op = 0 ∨ 6 ≤ op.toNat) :
    RequestRow (.vclNop op rail tog payload crc) op rail tog payload crc (op != 0 || payload != 0) (fun h k => h.vclRead k 0) := by
  have hsame : (if 6 ≤ op.toNat then op else 0) = op := by
    rcases hop with rfl | hop
    · rfl
    · exact if_pos hop
  intro s
  change s.upd (fun h => h.vclRequest (if 6 ≤ op.toNat then op else 0) rail tog payload crc _ _) = _
  rw [hsame]

theorem requestRow_setv : ∃ body, RequestRow (.setv rail tog payload crc) 1 rail tog payload crc
    (payload.extractLsb' 10 3 != 0) body ∧ Refuses 1 payload body := by
  refine ⟨_, fun _ => rfl, fun h k => ⟨fun hstate => ?_, fun hstate hrange => ?_⟩⟩
  · have hacc := (h.vclAccepts_eq_false_iff k).mpr hstate.2
    exact if_pos (by rw [hacc]; rfl)
  · have hacc : h.vclAccepts k = true :=
      Bool.of_not_eq_false fun hacc => hstate ⟨.inl rfl, (h.vclAccepts_eq_false_iff k).mp hacc⟩
    refine (if_neg (by rw [hacc]; decide)).trans (if_pos ?_)
    simpa [or_assoc] using hrange.2

theorem requestRow_hint (iOut : Int) : ∃ body, RequestRow (.hint rail tog payload crc iOut) 2 rail tog payload crc
    (payload.extractLsb' 0 8 != 0) body ∧ Refuses 2 payload body := by
  refine ⟨_, fun _ => rfl, fun h k => ⟨fun hstate => ?_, fun _ hrange => absurd hrange.1 (by decide)⟩⟩
  have hacc := (h.vclAccepts_eq_false_iff k).mpr hstate.2
  exact if_pos (by rw [hacc]; rfl)

/-- Every row of the link is a request of its opcode that refuses in the order of R127. -/
theorem requestRow_exists {op : BitVec 4} {c : Instr} {iOut ma10 : Int} {mv : Nat}
    (hc : (op = 0 ∨ 6 ≤ op.toNat) ∧ c = .vclNop op rail tog payload crc ∨ op = 1 ∧ c = .setv rail tog payload crc ∨
      op = 2 ∧ c = .hint rail tog payload crc iOut ∨ op = 3 ∧ c = .getv rail tog payload crc ∨
      op = 4 ∧ c = .geti rail tog payload crc ma10 ∨ op = 5 ∧ c = .getvm rail tog payload crc mv) :
    ∃ reserved body, RequestRow c op rail tog payload crc reserved body ∧ (reserved = true ↔ ReservedSet op payload) ∧
      Refuses op payload body := by
  rcases hc with ⟨hop, rfl⟩ | ⟨rfl, rfl⟩ | ⟨rfl, rfl⟩ | ⟨rfl, rfl⟩ | ⟨rfl, rfl⟩ | ⟨rfl, rfl⟩
  case inl =>
    refine ⟨_, _, requestRow_vclNop rail tog payload crc hop, ?_, refuses_of_read _ _ ?_ ?_⟩
    · rcases hop with rfl | hop
      · simp [ReservedSet]
      · have hne : op ≠ 0 := by rintro rfl; exact absurd hop (by decide)
        exact iff_of_true (by simpa using .inl hne) (.inl hop)
    all_goals rintro rfl; exact absurd hop (by decide)
  case inr.inl =>
    obtain ⟨body, hrow, hbody⟩ := requestRow_setv rail tog payload crc
    exact ⟨_, body, hrow, by simp [ReservedSet], hbody⟩
  case inr.inr.inl =>
    obtain ⟨body, hrow, hbody⟩ := requestRow_hint rail tog payload crc iOut
    exact ⟨_, body, hrow, by simp [ReservedSet], hbody⟩
  all_goals
    exact ⟨payload != 0, _, fun _ => rfl, by simp [ReservedSet], refuses_of_read _ _ (by decide) (by decide)⟩

end

/-! ## What becomes of a request -/

/-- An ACK of a read: the kept request goes, the link counts, the flags are the rail's (R126, R137). -/
theorem Hw.vclRead_eq (h : Hw) {k : Nat} (hen : (h.cfg k).vclEn = true) (data : Half) : h.vclRead k data = { h with
    vcl := { kept := none, ok := sat16 h.vcl.ok, bad := h.vcl.bad, resp := some (vclFrame 0 (h.vclFlags k) data) } } := by
  have hnamed : (({ h with vcl := { h.vcl with kept := none } } : Hw).cfg k).vclEn = true := hen
  unfold Hw.vclRead Hw.vclAnswer
  rw [hnamed]
  rfl

/-- The checks of R127 that every request passes, in their order. -/
theorem Hw.vclRequest_eq {h : Hw} (op : BitVec 4) (rail : BitVec 2) (tog : Bool) (payload : Half) (crc : BitVec 4) (reserved : Bool)
    (body : Hw → Nat → Hw) (hlive : h.live = true) (hhit : h.hit 0x0B = false) :
    h.vclRequest op rail tog payload crc reserved body =
      if crc4 (requestBits op rail tog payload) ≠ crc then h.wake.vclRefuse .nakCrc op.toNat rail.toNat
      else if reserved = true then h.wake.vclRefuse .nakOp op.toNat rail.toNat
      else if (h.cfg rail.toNat).vclEn = false then h.wake.vclRefuse .nakRail op.toNat rail.toNat
      else body h.wake rail.toNat := by
  have hquiet : h.wake.take 0x0B = h.wake := h.wake.take_quiet 0x0B (by rwa [Hw.wake_hit])
  unfold Hw.vclRequest
  simp only [hlive, hquiet, Hw.wake_hit, hhit, Bool.not_true, Bool.false_eq_true, if_false, Bool.false_or, Hw.wake_cfg,
    bne_iff_ne, Bool.not_eq_true']
  rfl

section
variable {s : State} {c : Instr} {op : BitVec 4} {rail : BitVec 2} {tog : Bool} {payload : Half} {crc : BitVec 4}
  {reserved : Bool} {body : Hw → Nat → Hw} (hrow : RequestRow c op rail tog payload crc reserved body)
  (hlive : s.hw.live = true) (hhit : s.hw.hit 0x0B = false)
include hrow hlive hhit

/-- A request that reads changes nothing but the link (R126, R137). -/
theorem RequestRow.completes_read {data : Half} (hcrc : crc4 (requestBits op rail tog payload) = crc) (hres : reserved = false)
    (hen : (s.hw.cfg rail.toNat).vclEn = true) (hbody : body s.hw.wake rail.toNat = s.hw.wake.vclRead rail.toNat data) :
    Completes c s (fun t =>
      t.vcl = { kept := none, ok := sat16 s.hw.vcl.ok, bad := s.hw.vcl.bad,
                resp := some (vclFrame 0 (s.hw.vclFlags rail.toNat) data) } ∧
        t.outs = s.hw.outs ∧ t.pool = s.hw.pool ∧ t.evt = s.hw.evt ∧ t.seq = s.hw.seq) := by
  refine ⟨_, hrow s, rfl, ?_⟩
  dsimp only
  rw [Hw.vclRequest_of_valid body hlive hhit hcrc hres hen, hbody, Hw.vclRead_eq _ (by rwa [Hw.wake_cfg])]
  exact ⟨by simp, s.hw.wake_outs, s.hw.wake_pool, (congrArg Hw.evt s.hw.wake_eq :), s.hw.wake_seq⟩

/-- The request is refused by the first check that it fails (R127). -/
theorem RequestRow.completes_refused (hres : reserved = true ↔ ReservedSet op payload) (hbody : Refuses op payload body) {code : Nat}
    (hcode : crc4 (requestBits op rail tog payload) ≠ crc ∧ code = 1 ∨
      ¬ crc4 (requestBits op rail tog payload) ≠ crc ∧ ReservedSet op payload ∧ code = 5 ∨
      ¬ crc4 (requestBits op rail tog payload) ≠ crc ∧ ¬ ReservedSet op payload ∧ (s.hw.cfg rail.toNat).vclEn = false ∧ code = 3 ∨
      ¬ crc4 (requestBits op rail tog payload) ≠ crc ∧ ¬ ReservedSet op payload ∧ ¬ (s.hw.cfg rail.toNat).vclEn = false ∧
        s.hw.OutOfState op rail.toNat ∧ code = 4 ∨
      ¬ crc4 (requestBits op rail tog payload) ≠ crc ∧ ¬ ReservedSet op payload ∧ ¬ (s.hw.cfg rail.toNat).vclEn = false ∧
        ¬ s.hw.OutOfState op rail.toNat ∧ s.hw.OutOfRange op rail.toNat payload ∧ code = 2) :
    ∃ r : Resp, r ≠ .ack ∧ r ≠ .ackRepeat ∧ r.code.toNat = code ∧
      Completes c s (fun t => t = s.hw.wake.vclRefuse r op.toNat rail.toNat) := by
  have hruns : ∀ {g : Hw}, s.hw.vclRequest op rail tog payload crc reserved body = g → Completes c s (fun t => t = g) :=
    fun hg => ⟨_, hrow s, rfl, hg⟩
  rw [Hw.vclRequest_eq op rail tog payload crc reserved body hlive hhit] at hruns
  rw [← hres] at hcode
  have hstate : s.hw.wake.OutOfState op rail.toNat ↔ s.hw.OutOfState op rail.toNat := by rw [Hw.wake_eq]; rfl
  have hrange : s.hw.wake.OutOfRange op rail.toNat payload ↔ s.hw.OutOfRange op rail.toNat payload := by rw [Hw.wake_eq]; rfl
  obtain ⟨hnakState, hnakRange⟩ := hbody s.hw.wake rail.toNat
  rw [hstate] at hnakState hnakRange
  rw [hrange] at hnakRange
  rcases hcode with ⟨hcrc, rfl⟩ | ⟨hcrc, hset, rfl⟩ | ⟨hcrc, hset, hen, rfl⟩ | ⟨hcrc, hset, hen, hout, rfl⟩ |
    ⟨hcrc, hset, hen, hin, hfar, rfl⟩
  · exact ⟨.nakCrc, by decide, by decide, rfl, hruns (if_pos hcrc)⟩
  · exact ⟨.nakOp, by decide, by decide, rfl, hruns ((if_neg hcrc).trans (if_pos hset))⟩
  all_goals rw [if_neg hcrc, if_neg hset] at hruns
  · exact ⟨.nakRail, by decide, by decide, rfl, hruns (if_pos hen)⟩
  · exact ⟨.nakState, by decide, by decide, rfl, hruns ((if_neg hen).trans (hnakState hout))⟩
  · exact ⟨.nakRange, by decide, by decide, rfl, hruns ((if_neg hen).trans (hnakRange hin hfar))⟩

end

/-- A truncated frame takes the answer away (R125, R129). -/
theorem completes_truncated {s : State} (hlive : s.hw.live = true) (op : BitVec 4) (rail : BitVec 2) {post : Hw → Prop}
    (hp : post (({ s.hw.wake with vcl := { s.hw.vcl with resp := none } } : Hw).vclBad 0x50 4 op.toNat rail.toNat [])) :
    Completes (.truncated op rail) s post :=
  ⟨_, rfl, rfl, (congrArg post (if_pos hlive)).mpr hp⟩

/-! ## Settlement -/

/-- Settles O26: a row of the link is the checks of R127 and its own action, and each check that fails is one refusal. -/
theorem linkRequestsAreAnswered : Obligations.LinkRequestsAreAnswered := by
  unfold Obligations.LinkRequestsAreAnswered
  refine ⟨fun s op rail tog crc c data ma10 mv hlive hhit hen hcrc hc => ?read,
    fun s op rail tog payload crc c iOut ma10 mv code => ?refused, fun s op rail hlive => ?truncated⟩
  case read =>
    rcases hc with ⟨rfl, rfl, rfl⟩ | ⟨rfl, rfl, rfl⟩ | ⟨rfl, rfl, rfl⟩ | ⟨rfl, rfl, rfl⟩
    · exact (requestRow_vclNop rail tog 0 crc (.inl rfl)).completes_read hlive hhit hcrc rfl hen rfl
    · exact RequestRow.completes_read (fun _ => rfl) hlive hhit hcrc rfl hen (by rw [Hw.wake_eq]; rfl)
    · exact RequestRow.completes_read (fun _ => rfl) hlive hhit hcrc rfl hen rfl
    · exact RequestRow.completes_read (fun _ => rfl) hlive hhit hcrc rfl hen rfl
  case refused =>
    intro k badCrc reserved noRail noState noRange src hlive hhit hc hcode
    obtain ⟨res, body, hrow, hres, hbody⟩ := requestRow_exists rail tog payload crc hc
    obtain ⟨r, hack, hrepeat, rfl, t, hrun, hqueue, ht⟩ := hrow.completes_refused hlive hhit hres hbody hcode
    have hspec := s.hw.vclRefuse_spec hack hrepeat k op.toNat
    rw [← ht] at hspec
    refine ⟨t, hrun, hqueue, ?_⟩
    rw [BitVec.ofNat_toNat, BitVec.setWidth_eq]
    exact hspec
  case truncated =>
    refine completes_truncated hlive op rail ?_
    generalize hg : ({ s.hw.wake with vcl := { s.hw.vcl with resp := none } } : Hw) = g
    obtain ⟨hresp, hbad, hok, hpend⟩ := g.vclBad_counted 0x50 4 op.toNat rail.toNat []
    have hvcl : g.vcl = { s.hw.vcl with resp := none } := by rw [← hg]
    have hfaults : g.faults = s.hw.faults := by rw [← hg]; exact faults_of_desk s.hw.wake_desk
    rw [hvcl] at hresp hbad hok
    exact ⟨hresp, hbad, hok, hpend, fun hcap =>
      g.vclBad_captured 0x50 4 op.toNat rail.toNat [] (by decide) (by rw [hfaults, hcap])⟩

end Sys2Proof.Machine
end

section
/-! SUPPORT. A RECORD_ACK whose store write meets a flash error (R297, R315, R323, R469, R474, R477): the class reaction asks the open
sessions to close. -/

namespace Sys2Proof.Machine

/-- A session that stands open. -/
def openSlot : Slot := { Slot.none with st := .opened }

/-- A module in RUN with one session open and a record to acknowledge, the packet of RECORD_ACK in process; the half that takes the next
record is full, class 2 answers with SAFE_STATE, and Folly has armed one uncorrectable error for the next read of a parameters record. -/
def acknowledgingWithErrorArmed : Hw :=
  bring (.recordAck .A 1)
    { liveHw with
      slots := liveHw.slots.set 0 openSlot
      log := { liveHw.log with lastSeq := 1 }
      faults := { liveHw.faults with policies := defaultPolicies.set 1 2
                                     inject := (List.replicate 15 (0, false)).set 4 (1, true) }
      store := { liveHw.store with half0 := crowdedHalf } }

/-- ACK_SEQ is written as a pair; the compaction that this needs meets the error, and SAFE_STATE asks the session to close (R281). -/
theorem recordAck_with_error_armed :
    ((after (exec (.recordAck .A 1) ⟨acknowledgingWithErrorArmed, []⟩)).slot 0).closePending = true := by decide +kernel

/-- Refutes O58: RECORD_ACK may change a slot that is not CLOSED, by the reaction to a flash error that its write of ACK_SEQ meets. -/
theorem not_meteringCommandsAct : ¬ Obligations.MeteringCommandsAct := by
  unfold Obligations.MeteringCommandsAct
  rintro ⟨-, -, -, -, -, -, -, -, -, -, -, -, -, -, -, hack, -⟩
  obtain ⟨-, -, -, hothers, -⟩ := (hack ⟨acknowledgingWithErrorArmed, []⟩ .A 1 (by decide +kernel) (by decide +kernel)
    (by decide +kernel)).after_exec
  have hslot := hothers 0 (by decide +kernel)
  exact absurd (recordAck_with_error_armed.symm.trans (congrArg Slot.closePending hslot)) (by decide +kernel)

end Sys2Proof.Machine
end

section
/-! SUPPORT. The mirror of the measurement converter (R165, R176): what leaves it alone after a scan has replaced it, and the mask a scan
starts with (R166). -/

namespace Sys2Proof.Machine

/-! ## What leaves the mirror alone -/

/-- The channels as last reported, the scan count, whether a scan runs, and whether one is complete (R170, R176). -/
def Hw.mirror (h : Hw) : List ChanResult × Nat × Bool × Bool := (h.adc.chans, h.adc.scanCount, h.adc.scanning, h.adc.ready)

theorem ite_mirror {p : Prop} [Decidable p] {a b : Hw} {m : List ChanResult × Nat × Bool × Bool} (ha : a.mirror = m)
    (hb : b.mirror = m) : (if p then a else b).mirror = m := by
  split <;> assumption

section
variable (h : Hw)

@[simp] theorem Hw.wake_mirror : h.wake.mirror = h.mirror := ite_mirror rfl rfl
@[simp] theorem Hw.raise_mirror (k : Nat) : (h.raise k).mirror = h.mirror := ite_mirror rfl h.wake_mirror
@[simp] theorem Hw.raiseIf_mirror (c : Bool) (k : Nat) : (h.raiseIf c k).mirror = h.mirror := ite_mirror (h.raise_mirror k) rfl
@[simp] theorem Hw.evalPgood_mirror : h.evalPgood.mirror = h.mirror := h.raiseIf_mirror (h.seq.pgood && !h.pgoodLevel) 22
@[simp] theorem Hw.pgoodLow_mirror : h.pgoodLow.mirror = h.mirror := h.raiseIf_mirror h.seq.pgood 22
@[simp] theorem Hw.markOff_mirror (c : OffCause) : (h.markOff c).mirror = h.mirror := rfl
@[simp] theorem Hw.govEnd_mirror : h.govEnd.mirror = h.mirror := rfl
@[simp] theorem Hw.hrstFalls_mirror : h.hrstFalls.mirror = h.mirror := ite_mirror rfl rfl
@[simp] theorem Hw.endMove_mirror (r : Nat) : (h.endMove r).mirror = h.mirror := by unfold Hw.endMove; split <;> rfl
@[simp] theorem Hw.freeBus_mirror (p : Nat) : (h.freeBus p).mirror = h.mirror := by rw [Hw.freeBus_eq]; rfl

@[simp] theorem Hw.endJob?_mirror (n : Option Nat) (st r : Nat) (d : List Byte) : (h.endJob? n st r d).mirror = h.mirror := by
  cases n <;> rfl

@[simp] theorem Hw.turnOff_mirror (c : OffCause) (k : Nat) : (h.turnOff c k).mirror = h.mirror :=
  ite_mirror rfl (ite_mirror (Hw.freeBus_mirror _ _) (ite_mirror rfl (ite_mirror rfl rfl)))

@[simp] theorem Hw.turnOffAll_mirror (c : OffCause) : (h.turnOffAll c).mirror = h.mirror :=
  List.foldlRecOn (motive := fun g : Hw => g.mirror = h.mirror) _ _ rfl (fun g hg k _ => (g.turnOff_mirror c k).trans hg)

@[simp] theorem Hw.enterLatched_mirror (c : Nat) : (h.enterLatched c).mirror = h.mirror := by
  unfold Hw.enterLatched
  refine (Hw.endJob?_mirror _ _ 0 3 []).trans ((Hw.endJob?_mirror _ _ 0 3 []).trans ?_)
  exact ite_mirror rfl rfl

@[simp] theorem Hw.planRetry_mirror : h.planRetry.mirror = h.mirror := by
  obtain ⟨w, hw | hw⟩ := h.planRetry_eq <;> rw [hw]
  · rfl
  · exact Hw.raise_mirror _ 20

/-! ## Errors and their reactions (R200, R470–R475) -/

@[simp] theorem Hw.capture_mirror (c : Capture) : (h.capture c).mirror = h.mirror := by
  refine ite_mirror rfl ?_
  split
  · exact Hw.raise_mirror _ 48
  · rfl

@[simp] theorem Hw.warn_mirror (src r : Nat) : (h.warn src r).mirror = h.mirror :=
  ite_mirror rfl (ite_mirror (h.raise_mirror 54) (ite_mirror (h.raise_mirror 55) rfl))

@[simp] theorem Hw.collect_mirror (src addr master access : Nat) (d : List Byte) :
    (h.collect src addr master access d).mirror = h.mirror :=
  (Hw.warn_mirror _ _ _).trans (h.capture_mirror _)

@[simp] theorem Hw.safeState_mirror : h.safeState.mirror = h.mirror := by
  have hoff : ((((h.markOff .safeState).endMove 3).turnOffAll .safeState).govEnd.hrstFalls).mirror = h.mirror := by simp
  unfold Hw.safeState
  refine ite_mirror rfl ?_
  dsimp only
  generalize (((h.markOff .safeState).endMove 3).turnOffAll .safeState).govEnd.hrstFalls = g at hoff ⊢
  exact ite_mirror (g.evalPgood_mirror.trans hoff) ((Hw.evalPgood_mirror _).trans ((g.enterLatched_mirror 12).trans hoff))

@[simp] theorem Hw.react_mirror (r : Nat) : (h.react r).mirror = h.mirror := by
  have hask : ∀ g : Hw, (g.askCoreReset 4).mirror = g.mirror := fun g => by unfold Hw.askCoreReset; split <;> rfl
  have hsafe : (if 2 ≤ r then h.safeState else h).mirror = h.mirror := ite_mirror h.safeState_mirror rfl
  exact ite_mirror ((hask _).trans hsafe) hsafe

@[simp] theorem Hw.report_mirror (src addr master access : Nat) (d : List Byte) :
    (h.report src addr master access d).mirror = h.mirror :=
  (Hw.react_mirror _ _).trans (h.collect_mirror ..)

@[simp] theorem Hw.faultOff_mirror : h.faultOff.mirror = h.mirror := by
  unfold Hw.faultOff
  simp
  rfl

theorem Hw.railOff_mirror {c : Nat} (hc : c ≠ 10) : (h.railOff c).mirror = h.mirror := by
  rw [Hw.railOff_of_own h hc]
  simp

theorem Hw.railFault_mirror {c : Nat} (hc : c ≠ 10) (src addr : Nat) (d : List Byte) (held : Bool) :
    (h.railFault c src addr d held).mirror = h.mirror := by
  unfold Hw.railFault
  dsimp only
  rw [Hw.react_mirror]
  exact ite_mirror ((Hw.railOff_mirror _ hc).trans (h.collect_mirror ..)) (h.collect_mirror ..)

/-! ## What follows the results in the row of a scan's end (R163, R171–R175, R491) -/

@[simp] theorem Hw.checkReference_mirror : h.checkReference.mirror = h.mirror := by
  unfold Hw.checkReference
  dsimp only
  refine ite_mirror rfl (ite_mirror rfl (ite_mirror ?_ rfl))
  rw [Hw.report_mirror, Hw.raise_mirror]
  rfl

@[simp] theorem Hw.sensorTrip_mirror : h.sensorTrip.mirror = h.mirror := by
  unfold Hw.sensorTrip
  dsimp only
  split
  · exact Hw.railFault_mirror _ (by decide) ..
  · rfl

end

/-! ## The results (R165, R167, R176) -/

/-- A scan boundary concerns the averages, the peaks and the sums alone (R174, R178). -/
theorem Adc.boundary_eq (a : Adc) : a.boundary = { a with
    outs := a.boundary.outs, supplySum := a.boundary.supplySum, supplyN := a.boundary.supplyN, pInSum := a.boundary.pInSum
    restartWindow := a.boundary.restartWindow } := by
  unfold Adc.boundary
  dsimp only
  split <;> rfl

theorem Adc.boundary_active (a : Adc) : a.boundary.active = a.active := by
  rw [Adc.boundary_eq]
  rfl

/-- SCAN_COMPLETE replaces the mirror, whatever its other checks set going. -/
theorem completes_scanComplete_mirror {s : State} (rs : List ChannelResult) (dt : Nat) (hmain : s.hw.ins.mainOn = true)
    (hscan : s.hw.adc.scanning = true) (hact : s.hw.adc.active ≠ []) :
    Completes (.scanComplete rs dt) s (fun t => t.mirror =
      (s.hw.adc.store s.hw.scaled rs, s.hw.adc.scanCount + 1, false, true)) := by
  have hrotate : ∀ g : Hw, (if g.adc.rotationDue then { g with adc := g.adc.rotate } else g : Hw).mirror = g.mirror :=
    fun g => ite_mirror rfl rfl
  have hlost : s.hw.adc.boundary.active.isEmpty = false := by simpa [Adc.boundary_active] using hact
  refine ⟨_, rfl, rfl, ?_⟩
  dsimp only
  rw [if_pos (by simp [hmain, hscan])]
  simp only [hlost, Bool.not_false, if_true, Bool.false_eq_true, if_false]
  rw [Hw.sensorTrip_mirror, hrotate, Hw.checkReference_mirror, Adc.boundary_eq]
  rfl

/-- The channels that a mask names, each once. -/
theorem mem_maskList {m : BitVec 64} {c : Nat} : c ∈ maskList m ↔ m.getLsbD c = true := by
  unfold maskList
  rw [List.mem_filter, List.mem_range]
  exact ⟨And.right, fun hc => ⟨BitVec.lt_of_getLsbD hc, hc⟩⟩

section
variable {a : Adc} {c : Nat} (scale : Nat → BitVec 14 → Int) {rs : List ChannelResult} (hc : c < a.chans.length)
include hc

/-- A channel that the scan converted (R165, R176). -/
theorem Adc.store_converted {x : ChannelResult} (hact : a.active ≠ []) (hx : scanned rs c = some x)
    (hm : a.mask.getLsbD c = true) : ∃ sl, (a.store scale rs).getD c ChanResult.never =
      { slice := sl, valid := true, scan := a.scanCount + 1, code := x.code, value := scale c x.code } := by
  obtain ⟨i, hi⟩ := Option.isSome_iff_exists.mp (List.isSome_idxOf?.mpr (mem_maskList.mpr hm))
  refine ⟨a.sliceAt i, ?_⟩
  unfold Adc.store
  dsimp only
  rw [List.getD_eq_getElem?_getD, List.getElem?_mapIdx, List.getElem?_eq_getElem hc, hi, hx]
  simp [hact]

/-- Every other channel keeps its values without VALID (R176). -/
theorem Adc.store_other (hno : scanned rs c = none ∨ a.mask.getLsbD c = false) :
    (a.store scale rs).getD c ChanResult.never = { a.chans.getD c ChanResult.never with valid := false } := by
  unfold Adc.store
  dsimp only
  rw [List.getD_eq_getElem?_getD, List.getD_eq_getElem?_getD, List.getElem?_mapIdx, List.getElem?_eq_getElem hc]
  rcases hno with hno | hno
  · simp [hno]
  · have hidx : (maskList a.mask).idxOf? c = none := by simp [mem_maskList, hno]
    simp [hidx]

end

/-! ## The mask of a scan (R166) -/

theorem getLsbD_one_shiftLeft {c : Nat} (hlt : c < 64) : (((1 <<< c : Nat) : BitVec 64)).getLsbD c = true := by
  rw [BitVec.natCast_eq_ofNat, BitVec.getLsbD_ofNat, Nat.one_shiftLeft, Nat.testBit_two_pow_self]
  simpa using hlt

/-- Both channels of an output that is on are set, and no bit is lost. -/
theorem getLsbD_outputBits (on : Nat → Bool) (l : List Nat) (m : BitVec 64) {c : Nat} (hlt : c < 64)
    (hc : m.getLsbD c = true ∨ ∃ k ∈ l, on k = true ∧ (c = k ∨ c = 24 + k)) :
    (l.foldl (fun (m : BitVec 64) k => if on k then m ||| (1 <<< k) ||| (1 <<< (24 + k)) else m) m).getLsbD c = true := by
  induction l generalizing m with
  | nil => simpa using hc
  | cons j l ih =>
    refine ih _ ?_
    rcases hc with hc | ⟨k, hk, hon, hck⟩
    · left
      dsimp only
      split <;> simp [hc]
    · rcases List.mem_cons.mp hk with rfl | hk
      · left
        dsimp only
        rw [if_pos hon]
        rcases hck with rfl | rfl <;> rw [BitVec.getLsbD_or, BitVec.getLsbD_or, getLsbD_one_shiftLeft hlt] <;> simp
      · exact .inr ⟨k, hk, hon, hck⟩

/-- A channel that every module has is in the mask where it is forced, or measures an output that is on. -/
theorem Hw.scanMask_getLsbD (h : Hw) (host : BitVec 64) {c : Nat} (hlt : c < 64) (hown : holdupChannels.getLsbD c = false)
    (hc : forcedChannels.getLsbD c = true ∨ ∃ k < 18, (h.out k).on = true ∧ (c = k ∨ c = 24 + k)) :
    (h.scanMask host).getLsbD c = true := by
  have hset : ∀ m : BitVec 64, (m ||| forcedChannels ||| (List.range 18).foldl
      (fun (m : BitVec 64) k => if (h.out k).on then m ||| (1 <<< k) ||| (1 <<< (24 + k)) else m) 0).getLsbD c = true := by
    intro m
    rw [BitVec.getLsbD_or, BitVec.getLsbD_or, Bool.or_eq_true, Bool.or_eq_true]
    rcases hc with hc | ⟨k, hk, hon⟩
    · exact .inl (.inr hc)
    · exact .inr (getLsbD_outputBits (fun k => (h.out k).on) _ 0 hlt (.inr ⟨k, List.mem_range.mpr hk, hon⟩))
  unfold Hw.scanMask
  dsimp only
  split
  · rw [BitVec.getLsbD_or, hset, Bool.true_or]
  · rw [BitVec.getLsbD_and, BitVec.getLsbD_not, hset, hown]
    simp [hlt]

/-- No channel of an output is one of the holdup unit's (R8). -/
theorem holdupChannels_of_output {k : Nat} (hk : k < 18) :
    holdupChannels.getLsbD k = false ∧ holdupChannels.getLsbD (24 + k) = false :=
  (by decide : ∀ k < 18, holdupChannels.getLsbD k = false ∧ holdupChannels.getLsbD (24 + k) = false) k hk

/-- Nor is a channel that is forced in every variant. -/
theorem holdupChannels_of_forced (c : Fin 64) (hc : forcedChannels.getLsbD c = true) : holdupChannels.getLsbD c = false :=
  (by decide : ∀ c : Fin 64, forcedChannels.getLsbD c = true → holdupChannels.getLsbD c = false) c hc

/-! ## Settlement -/

/-- Settles O28: the mask of a scan bit by bit, and the mirror of a scan's end channel by channel. -/
theorem scansReplaceTheMirror : Obligations.ScansReplaceTheMirror := by
  unfold Obligations.ScansReplaceTheMirror
  refine ⟨fun s hmain hboot hscan href => ?start, fun s rs dt hmain hscan hact => ?complete⟩
  case start =>
    refine ⟨_, rfl, rfl, ?_⟩
    dsimp only
    rw [if_pos (by simp [hmain, hboot, hscan, href]), Adc.boundary_eq]
    refine ⟨rfl, rfl, rfl, rfl, fun c hc => ?_, fun k hk hon => ?_, rfl, rfl⟩
    · exact Hw.scanMask_getLsbD _ _ c.isLt (holdupChannels_of_forced c hc) (.inl hc)
    · obtain ⟨hvolt, hcurrent⟩ := holdupChannels_of_output hk
      exact ⟨Hw.scanMask_getLsbD _ _ (by omega) hvolt (.inr ⟨k, hk, hon, .inl rfl⟩),
        Hw.scanMask_getLsbD _ _ (by omega) hcurrent (.inr ⟨k, hk, hon, .inr rfl⟩)⟩
  case complete =>
    obtain ⟨t, hrun, hpend, hmirror⟩ := completes_scanComplete_mirror rs dt hmain hscan hact
    obtain ⟨hchans, hcount, hscanning, hready⟩ : t.hw.adc.chans = s.hw.adc.store s.hw.scaled rs ∧
        t.hw.adc.scanCount = s.hw.adc.scanCount + 1 ∧ t.hw.adc.scanning = false ∧ t.hw.adc.ready = true := by
      simpa [Hw.mirror] using hmirror
    refine ⟨t, hrun, hpend, hscanning, hready, hcount, fun c hc => ⟨fun x hx hm _ => ?_, fun hno => ?_⟩⟩
    · obtain ⟨sl, hsl⟩ := Adc.store_converted s.hw.scaled hc hact hx hm
      unfold Hw.result
      rw [hchans, hsl]
      exact ⟨rfl, rfl, rfl, rfl⟩
    · unfold Hw.result
      rw [hchans, Adc.store_other s.hw.scaled hc hno]

end Sys2Proof.Machine
end

section
/-! SUPPORT. Readers of flash and of the SRAM buffer while no checker is armed (R316, R468, R477, R507), and what the statement of the
reading commands with an effect of their own comes to: its clause of TIME_GET rests on free values. -/

namespace Sys2Proof.Machine

/-! ## No checker is armed (R477, R478) -/

section
variable {h : Hw} (hq : h.faults.inject = List.replicate 15 (0, false))
include hq

theorem Hw.hit_of_disarmed (id : Nat) : h.hit id = false := by
  unfold Hw.hit Faults.take
  rw [hq, List.getD_eq_getElem?_getD, List.getElem?_getD_replicate_default_eq]

theorem Hw.flashCheck_of_disarmed (id region key : Nat) : h.flashCheck id region key = (h, true) :=
  if_neg (by simp [Hw.hit_of_disarmed hq])

theorem Hw.regionCheck_of_disarmed (region key : Nat) : h.regionCheck region key = (h, true) := by
  unfold Hw.regionCheck
  split
  · exact Hw.flashCheck_of_disarmed hq ..
  · rfl

theorem Hw.readRecord_of_disarmed (ecc crc region key : Nat) : h.readRecord ecc crc region key = (h, true) := by
  unfold Hw.readRecord
  rw [Hw.flashCheck_of_disarmed hq]
  dsimp only
  rw [if_pos rfl, Hw.hit_of_disarmed hq, Hw.take_quiet h crc (Hw.hit_of_disarmed hq crc)]
  rfl

theorem Hw.transfer_of_disarmed (c n : Nat) : h.transfer c n = (h, true) :=
  if_pos (by simp [Hw.hit_of_disarmed hq])

/-- A bulk read checks its log entries without a change. -/
theorem Hw.bulkChecks_of_disarmed (region off n : Nat) : h.bulkChecks region off n = h := by
  unfold Hw.bulkChecks
  split
  · exact List.foldlRecOn (motive := fun g : Hw => g = h) _ _ rfl fun g hg _ _ => by rw [hg, Hw.regionCheck_of_disarmed hq]
  · rfl

/-- Every existing record of a key passes. -/
theorem Hw.passRecs_of_disarmed (ecc region key : Nat) (rs : List Rec) :
    h.passRecs ecc region key rs = (h, rs.filter (fun r => r.exists? && r.key = key)) := by
  have hfold : ∀ (rs kept : List Rec), rs.foldl (fun (a : Hw × List Rec) r =>
      if r.exists? && r.key = key then
        ((a.1.readRecord ecc 8 region key).1, if (a.1.readRecord ecc 8 region key).2 then a.2 ++ [r] else a.2)
      else a) (h, kept) = (h, kept ++ rs.filter (fun r => r.exists? && r.key = key)) := by
    intro rs
    induction rs with
    | nil => simp
    | cons r rs ih =>
      intro kept
      rw [List.foldl_cons, List.filter_cons, Hw.readRecord_of_disarmed hq]
      split
      · simpa using ih (kept ++ [r])
      · exact ih kept
  exact hfold rs []

/-- A key reads as the store holds it (R316). -/
theorem Hw.readKey_of_disarmed (ecc key : Nat) : h.readKey ecc key = (h, h.store.look key) := by
  unfold Hw.readKey
  rw [Hw.passRecs_of_disarmed hq]
  dsimp only
  rw [Hw.passRecs_of_disarmed hq, ← List.filter_append]
  rfl

/-- Every entry of the fault log passes. -/
theorem Hw.passEntries_of_disarmed (es : List FaultEntry) : h.passEntries es = (h, es) := by
  have hfold : ∀ es kept : List FaultEntry, es.foldl (fun (a : Hw × List FaultEntry) e =>
      (a.1.take 8, if a.1.hit 8 then a.2 else a.2 ++ [e])) (h, kept) = (h, kept ++ es) := by
    intro es
    induction es with
    | nil => simp
    | cons e es ih =>
      intro kept
      rw [List.foldl_cons, Hw.hit_of_disarmed hq, Hw.take_quiet h 8 (Hw.hit_of_disarmed hq 8)]
      simpa using ih (kept ++ [e])
  exact hfold es []

end

/-! ## A reply stands whatever its command has changed beside the mailboxes -/

theorem Hw.ok_replied_of_desk {g h : Hw} (e : g.desk = h.desk) (o : Origin) (d : List Byte) : Replied h (g.ok o d) o 0 d :=
  Hw.respond_replied_of_desk e o 0 d

/-! ## What TIME_GET reads of a cell that was never converted (R380) -/

/-- Successive draws agree whether they are odd. -/
def DrawsAgree : Prop := ∀ n, Config.freeNat n % 2 = 1 ↔ Config.freeNat (n + 1) % 2 = 1

/-- Where they do, a draw leaves the time reply as it was: VKEEP_LOW alone may rest on a free value. -/
theorem Hw.draw_timeData_of_drawsAgree (hd : DrawsAgree) (h : Hw) : h.draw.timeData = h.timeData := by
  have hlow : h.draw.lodgeStat = h.lodgeStat := by
    have hfree : h.draw.free = h.free + 1 := rfl
    have hresult : h.draw.result 21 = h.result 21 := rfl
    unfold Hw.lodgeStat
    simp only [hresult, hfree, Hw.draw_lodge, ← hd h.free]
  unfold Hw.timeData Hw.now
  rw [hlow, Hw.draw_lodge]

/-- The packet of TIME_GET in process in a module whose VKEEP has never been converted, after n draws. -/
def askingTime (n : Nat) : Hw := { bring (.timeGet .A) liveHw with free := n }

theorem askingTime_carries (n : Nat) : (askingTime n).carries (.timeGet .A) = true :=
  (by decide +kernel : (bring (.timeGet .A) liveHw).carries (.timeGet .A) = true)

theorem askingTime_lodgeStat (n : Nat) :
    (askingTime n).lodgeStat = 4 + 8 * b2n (decide (Config.freeNat n % 2 = 1)) := by
  have hslice : ((askingTime n).result 21).slice = 3 := (by decide +kernel : ((bring (.timeGet .A) liveHw).result 21).slice = 3)
  unfold Hw.lodgeStat
  dsimp only
  rw [if_pos hslice]
  rfl

@[simp] theorem Hw.timeData_length (h : Hw) : h.timeData.length = 30 := by simp [Hw.timeData]

/-- The last byte but one of the time reply is LODGESTAT. -/
theorem Hw.timeData_lodgeStat (h : Hw) : slice h.timeData 28 1 = be 1 h.lodgeStat := by
  have hlead : ∀ a : List Byte, a.length = 28 → slice (a ++ be 1 h.lodgeStat ++ [0]) 28 1 = be 1 h.lodgeStat := by
    intro a ha
    rw [List.append_assoc, ← ha, ← Nat.add_zero a.length, slice_append_right]
    simp [slice, be_one]
  exact hlead _ (by simp)

/-- One reply has one list of data of a length. -/
theorem Replied.data_eq {h t : Hw} {o : Origin} {st : Nat} {d e : List Byte} (hd : Replied h t o st d) (he : Replied h t o st e)
    (hlen : d.length = e.length) : d = e := by
  have hbytes : ∃ tag md, replyBytes st tag md d = replyBytes st tag md e := by
    unfold Replied at hd he
    dsimp only at hd he
    split at hd
    · rw [if_pos ‹_›, hd] at he
      exact ⟨_, _, Option.some.inj he⟩
    · rw [if_neg ‹_›, hd] at he
      exact ⟨_, _, Option.some.inj he⟩
  obtain ⟨tag, md, hbytes⟩ := hbytes
  rw [← replyBytes_data st tag md d, hbytes, hlen, replyBytes_data]

/-! ## Channels and outputs as entries of their lists -/

/-- The words that sessions gather leave the channels alone (R270). -/
@[simp] theorem Hw.gather_chan (h : Hw) (c : Nat) : h.gather.chan c = h.chan c := rfl

/-- Metering channels of a module held in its numbers are eight (R240). -/
theorem Hw.chans_of_shaped {h : Hw} (hs : h.shaped = true) : h.metro.chans.length = 8 := by
  simp only [Hw.shaped, Bool.and_eq_true, decide_eq_true_eq] at hs
  tauto

/-- No command is carried out in a module that is not held in its numbers (R424). -/
theorem Hw.carries_shaped {h : Hw} {i : Instr} (hcar : h.carries i = true) : h.shaped = true := by
  unfold Hw.carries at hcar
  cases hp : packetOf i with
  | none => simp [hp] at hcar
  | some p =>
    simp only [hp, Bool.and_eq_true] at hcar
    tauto

/-- METRO_STATUS clears three bits of its channel and no other channel's (R270). -/
theorem Hw.metroCleared_chan (h : Hw) {c : Nat} (hc : c < h.metro.chans.length) (j : Nat) :
    (h.gather.modChan c (fun x => { x with disagreeSeen := false, creep := false, overrange := false })).chan j =
      if c = j then { h.chan j with disagreeSeen := false, creep := false, overrange := false } else h.chan j := by
  rw [Hw.chan_modChan, Hw.gather_chan]
  have hlen : h.gather.metro.chans.length = h.metro.chans.length := rfl
  by_cases hj : c = j
  · rw [if_pos hj, if_pos ⟨hj, by omega⟩]
  · rw [if_neg hj, if_neg (fun hh => hj hh.1)]

/-! ## The statement -/

/-- Each row replies and has its own effect, and no reader of flash finds a checker armed. -/
theorem readCommandsWithEffects_of_drawsAgree (hd : DrawsAgree) : Obligations.ReadCommandsWithEffects := by
  unfold Obligations.ReadCommandsWithEffects
  refine ⟨fun s o hcar => ServedBy.completes_post ⟨⟨_, rfl⟩, fun _ => rfl⟩ rfl (by decide) hcar ?poolStatus,
    fun s o hcar => ServedBy.completes_post ⟨⟨_, rfl⟩, fun _ => rfl⟩ rfl (by decide) hcar ?timeGet,
    fun s o c hcar hc => ServedBy.completes_post ⟨⟨_, rfl⟩, fun _ => rfl⟩ rfl (by decide) hcar ?metroStatus,
    fun s o k hcar hk hlen => ServedBy.completes_post ⟨⟨_, rfl⟩, fun _ => rfl⟩ rfl (by decide) hcar ?telemPeaks,
    fun s o n e hcar hn he hq => completes_of_row ⟨⟨_, rfl⟩, fun _ => rfl⟩ rfl (by decide) hcar ?recordRead,
    fun s o n w hcar h1 h7 hw hq hes => completes_of_row ⟨⟨_, rfl⟩, fun _ => rfl⟩ rfl (by decide) hcar ?faultLogEnd,
    fun s o n w e es hcar h1 h7 hw hq hes => completes_of_row ⟨⟨_, rfl⟩, fun _ => rfl⟩ rfl (by decide) hcar ?faultLog,
    fun s o hcar => completes_of_row ⟨⟨_, rfl⟩, fun _ => rfl⟩ rfl (by decide) hcar ?faultRead,
    fun s hcar => ServedBy.completes_post ⟨⟨_, rfl⟩, fun _ => rfl⟩ rfl (by decide) hcar ?rearm,
    fun s hcar => ServedBy.completes_post ⟨⟨_, rfl⟩, fun _ => rfl⟩ rfl (by decide) hcar ?rearmDenied,
    fun s o r n a hcar hr h1 h240 hend her hq => completes_of_row ⟨⟨_, rfl⟩, fun _ => rfl⟩ rfl (by decide) hcar ?bulkRead,
    fun s o k hcar hk hq hlook => completes_of_row ⟨⟨_, rfl⟩, fun _ => rfl⟩ rfl (by decide) hcar ?storeAbsent,
    fun s o k r hcar hk hq hlook => completes_of_row ⟨⟨_, rfl⟩, fun _ => rfl⟩ rfl (by decide) hcar ?storeValue⟩
  case poolStatus =>
    exact ⟨Hw.ok_replied_of_desk (by rfl) o _, by simp [Hw.ok], by simp [Hw.ok]⟩
  case timeGet =>
    rw [Hw.draw_timeData_of_drawsAgree hd]
    exact ⟨Hw.ok_replied_of_desk s.hw.draw_desk o _, by simp [Hw.ok], by simp [Hw.ok]⟩
  case metroStatus =>
    obtain ⟨-, h8⟩ : 1 ≤ c.toNat ∧ c.toNat ≤ 8 := by simpa [chanOk] using hc
    have hlt : c.toNat - 1 < s.hw.metro.chans.length := by
      rw [Hw.chans_of_shaped (Hw.carries_shaped hcar)]
      omega
    have hchan : ∀ (g : Hw) (d : List Byte) (j : Nat), (g.ok o d).chan j = g.chan j := fun g d j => by simp [Hw.ok, Hw.chan]
    rw [if_pos hc]
    refine ⟨Hw.ok_replied_of_desk (by rfl) o _, ?_, fun j hj => ?_, by simp [Hw.ok, Hw.gather]⟩
    · rw [hchan, s.hw.metroCleared_chan hlt, if_pos rfl]
    · rw [hchan, s.hw.metroCleared_chan hlt, if_neg (Ne.symm hj)]
  case telemPeaks =>
    dsimp only
    rw [if_neg (by omega)]
    refine ⟨Hw.ok_replied_of_desk (by rfl) o _, ?_, by simp [Hw.ok]⟩
    rw [Hw.ok, Hw.respond_adc, getD_modify, if_pos ⟨rfl, hlen⟩]
  case recordRead =>
    rw [if_neg hn, he]
    dsimp only
    rw [Hw.readRecord_of_disarmed hq, if_pos rfl]
  case faultLogEnd =>
    rw [if_neg (by simp; omega), Hw.passEntries_of_disarmed hq, hes]
    simp [be_one, zeros, List.replicate]
  case faultLog =>
    rw [if_neg (by simp; omega), Hw.passEntries_of_disarmed hq, hes]
    rfl
  case faultRead =>
    rw [if_neg (by simp), if_neg (by decide), if_neg (by decide)]
  case rearm =>
    rw [if_neg (by decide), if_neg (by decide), if_pos rfl]
    exact ⟨Hw.respond_replied_of (by rfl) (by rfl) (by rfl) 0 _, by simp [Hw.ok], by simp [Hw.ok], by simp [Hw.ok], by simp [Hw.ok]⟩
  case rearmDenied =>
    rw [if_pos (by decide)]
    exact Hw.report_respond_replied ..
  case bulkRead =>
    have hregion : r.toNat = 4 ∨ r.toNat = 5 := hr.imp (fun e => by rw [e]; rfl) (fun e => by rw [e]; rfl)
    dsimp only
    rw [if_neg (by simp; omega), if_neg (by simp [her]), Hw.bulkChecks_of_disarmed hq, Hw.transfer_of_disarmed hq, if_pos rfl]
  case storeAbsent =>
    rw [if_pos hk, Hw.readKey_of_disarmed hq, hlook]
  case storeValue =>
    rw [if_pos hk, Hw.readKey_of_disarmed hq, hlook]

/-- The clause of TIME_GET gives the reply of a module that has drawn once more; the model's is that of the module before the draw. -/
theorem drawsAgree_of_readCommandsWithEffects (hread : Obligations.ReadCommandsWithEffects) : DrawsAgree := by
  intro n
  obtain ⟨-, htime, -⟩ := hread
  obtain ⟨hclaimed, -⟩ := (htime ⟨askingTime n, []⟩ .A (askingTime_carries n)).after_exec
  have hgiven : Replied (askingTime n) (after (exec (.timeGet .A) ⟨askingTime n, []⟩)) .A 0 (askingTime n).timeData :=
    Completes.after_exec (post := fun t => Replied (askingTime n) t .A 0 (askingTime n).timeData)
      (ServedBy.completes_post ⟨⟨_, rfl⟩, fun _ => rfl⟩ rfl (by decide) (askingTime_carries n)
        (Hw.ok_replied_of_desk (Hw.draw_desk _) .A _))
  have hdata : (askingTime n).timeData = (askingTime (n + 1)).timeData := hgiven.data_eq hclaimed (by simp)
  have hstat : be 1 (askingTime n).lodgeStat = be 1 (askingTime (n + 1)).lodgeStat := by
    rw [← Hw.timeData_lodgeStat, hdata, Hw.timeData_lodgeStat]
  rw [askingTime_lodgeStat, askingTime_lodgeStat] at hstat
  by_cases hodd : Config.freeNat n % 2 = 1 <;> by_cases hnext : Config.freeNat (n + 1) % 2 = 1 <;>
    simp [hodd, hnext, be_one, b2n] at hstat ⊢

/-- O55 is open: it holds just where the free values of successive draws agree whether they are odd, of which `Config.freeNat` says
nothing (R380; DESIGN CHOICE, log 8 and log 34). -/
theorem readCommandsWithEffects_iff_drawsAgree : Obligations.ReadCommandsWithEffects ↔ DrawsAgree :=
  ⟨drawsAgree_of_readCommandsWithEffects, readCommandsWithEffects_of_drawsAgree⟩

end Sys2Proof.Machine
end

section
/-! SUPPORT. A step of POWER_UP or POWER_DOWN from its start to its end: what turning outputs on and off, the release of HRSTn and the
end of a sequence make of the sequencer (R187–R192, R205–R207). -/

namespace Sys2Proof.Machine

/-! ## Outputs on and off leave the whole sequencer alone -/

theorem foldl_seq {α : Type} (f : Hw → α → Hw) (H : ∀ h x, (f h x).seq = h.seq) (l : List α) (h : Hw) :
    (l.foldl f h).seq = h.seq :=
  List.foldlRecOn (motive := fun g : Hw => g.seq = h.seq) l f rfl (fun g hg x _ => (H g x).trans hg)

theorem ite_seq {p : Prop} [Decidable p] {a b : Hw} {q : Seq} (ha : a.seq = q) (hb : b.seq = q) :
    (if p then a else b).seq = q := by
  split <;> assumption

section
variable (h : Hw)

@[simp] theorem Hw.raise_seq (k : Nat) : (h.raise k).seq = h.seq := by rw [Hw.raise_eq]
@[simp] theorem Hw.govEnd_seq : h.govEnd.seq = h.seq := rfl
@[simp] theorem Hw.endJob?_seq (n : Option Nat) (st r : Nat) (d : List Byte) : (h.endJob? n st r d).seq = h.seq := by cases n <;> rfl
@[simp] theorem Hw.turnOff_seq (c : OffCause) (k : Nat) : (h.turnOff c k).seq = h.seq := congrArg (·.2.1) (h.turnOff_ground c k)

@[simp] theorem Hw.disable_seq (k : Nat) : (h.disable k).seq = h.seq := by
  unfold Hw.disable
  exact ite_seq (h.turnOff_seq .command k) (h.turnOff_seq .command k)

@[simp] theorem Hw.activate_seq (k p : Nat) : (h.activate k p).seq = h.seq := (congrArg Hw.seq (h.activate_beside k p) :)

@[simp] theorem Hw.substitute_seq (k : Nat) : (h.substitute k).seq = h.seq := by
  unfold Hw.substitute
  refine ite_seq ?_ ?_
  · rw [Hw.raise_seq, Hw.modRail_seq]
    exact foldl_seq _ (fun g _ => ite_seq (by split <;> rfl) rfl) _ h
  · rw [Hw.modRail_seq]
    exact foldl_seq _ (fun g _ => ite_seq (by split <;> rfl) rfl) _ h

@[simp] theorem Hw.startPhases_seq (k : Nat) : (h.startPhases k).seq = h.seq := by
  unfold Hw.startPhases
  refine (foldl_seq _ (fun g _ => ite_seq ?_ rfl) _ _).trans (h.substitute_seq k)
  split
  · exact Hw.activate_seq _ _ _
  · rfl

@[simp] theorem Hw.turnOn_seq (k : Nat) (i : Bool) : (h.turnOn k i).seq = h.seq := by
  have hramp : (h.startRamp k i).seq = h.seq := ite_seq (Hw.startPhases_seq _ k) (ite_seq rfl rfl)
  unfold Hw.turnOn
  exact ite_seq rfl (ite_seq rfl (ite_seq rfl (ite_seq rfl hramp)))

/-! ## PGOOD (R206) -/

theorem Hw.evalPgood_seq : h.evalPgood.seq = { h.seq with pgood := h.pgoodLevel } := by rw [Hw.evalPgood_eq]

/-- In OFF, in STANDBY and in SEQ_DOWN PGOOD is low. -/
theorem Hw.evalPgood_low (hst : h.seq.state = .off ∨ h.seq.state = .standby ∨ h.seq.state = .seqDown) :
    h.evalPgood.seq.pgood = false := by
  rw [Hw.evalPgood_seq]
  rcases hst with hst | hst | hst <;> simp [Hw.pgoodLevel, hst]

/-! ## The start of a step (R189, R192) -/

theorem Hw.beginStep_clk : h.beginStep.clk = h.clk := clk_of_ledger (ledger_of_rest h.beginStep_rest)

/-- A step that starts sets its instant and what its outputs are found in, and PGOOD follows. -/
theorem Hw.beginStep_seq : ∃ pass off, h.beginStep.seq =
    { h.seq with stepAt := h.clk, passing := pass, hostOff := off, pgood := h.beginStep.seq.pgood } := by
  have hclk : h.wake.clk = h.clk := clk_of_ledger (ledger_of_rest h.wake_rest)
  unfold Hw.beginStep
  dsimp only
  rw [Hw.evalPgood_seq, foldl_seq _ (fun g k => g.turnOn_seq k true), hclk]
  split
  · exact ⟨_, _, by rw [foldl_seq _ (fun g k => g.disable_seq k), Hw.wake_seq]⟩
  · exact ⟨_, h.seq.hostOff, by rw [foldl_seq _ (fun g k => g.disable_seq k), Hw.wake_seq]⟩

theorem Hw.beginStep_pgood_low (hst : h.seq.state = .seqDown) : h.beginStep.seq.pgood = false := by
  have hstate := state_of_rest h.beginStep_rest
  unfold Hw.beginStep at hstate ⊢
  dsimp only at hstate ⊢
  rw [state_of_rest (Hw.evalPgood_rest _)] at hstate
  exact Hw.evalPgood_low _ (.inr (.inr (hstate.trans hst)))

/-! ## The release of HRSTn (R205, R462) -/

theorem Hw.dueHrst_eq : h.dueHrst = { h with
    wdt := h.dueHrst.wdt, seq := { h.seq with hrst := h.dueHrst.seq.hrst, hostStepsDone := h.dueHrst.seq.hostStepsDone } } := by
  unfold Hw.dueHrst Hw.releaseHrst
  split
  · rfl
  split <;> rfl

/-- HRSTn is released, unless the HRST_WIDTH of a host restart still runs. -/
theorem Hw.dueHrst_released : h.dueHrst.seq.hrst = true ∨ h.dueHrst.seq.hostStepsDone = true ∧ h.dueHrst.wdt = h.wdt ∧
    h.wdt.restarting = true ∧ h.clk < h.wdt.start + 1000 * h.wdt.hrstWidth ∧ h.dueHrst.seq.hrst = h.seq.hrst := by
  unfold Hw.dueHrst
  split
  next hwait =>
    simp only [Bool.and_eq_true, decide_eq_true_eq] at hwait
    obtain ⟨⟨-, hrestart⟩, hwidth⟩ := hwait
    exact .inr ⟨rfl, rfl, hrestart, hwidth, rfl⟩
  next =>
    unfold Hw.releaseHrst
    split
    · exact .inl ‹_›
    · exact .inl rfl

/-! ## The end of a step (R185, R189) -/

theorem Hw.armStep_eq : h.armStep = { h with outs := h.armStep.outs } := by
  unfold Hw.armStep
  exact List.foldlRecOn (motive := fun g : Hw => g = { h with outs := g.outs }) _ _ rfl (fun g hg k _ => by
    rw [hg]
    rfl)

/-- The step in progress of POWER_UP or POWER_DOWN at its end, before the next one starts or the sequence ends. -/
def Hw.closeStep (h : Hw) : Hw :=
  let g : Hw := { h.armStep with seq := { h.armStep.seq with doneStep := some h.armStep.seq.step, doneDown := h.seq.dir == .down } }
  (if h.seq.dir == .up && h.stepNow.hrstRelease then g.dueHrst else g).evalPgood

theorem Hw.finishStep_of_more (hdir : h.seq.dir ≠ .host) (hlast : h.atLast = false) :
    h.finishStep = ({ h.closeStep with seq := { h.closeStep.seq with step := h.closeStep.seq.step + 1 } } : Hw).beginStep := by
  unfold Hw.finishStep Hw.closeStep
  simp [hdir, hlast]

theorem Hw.finishStep_of_last_up (hdir : h.seq.dir = .up) (hlast : h.atLast = true) : h.finishStep = h.closeStep.upDone := by
  unfold Hw.finishStep Hw.closeStep
  simp [hdir, hlast]

theorem Hw.finishStep_of_last_down (hdir : h.seq.dir = .down) (hlast : h.atLast = true) : h.finishStep = h.closeStep.downDone := by
  unfold Hw.finishStep Hw.closeStep
  simp [hdir, hlast]

/-- The end of a step writes the sequencer's record of it, HRSTn and PGOOD. -/
theorem Hw.closeStep_eq : h.closeStep = { h with
    outs := h.closeStep.outs, idle := h.closeStep.idle, adc := h.closeStep.adc, evt := h.closeStep.evt, wdt := h.closeStep.wdt
    seq := { h.seq with doneStep := some h.seq.step, doneDown := h.seq.dir == .down, hrst := h.closeStep.seq.hrst
                        hostStepsDone := h.closeStep.seq.hostStepsDone, pgood := h.closeStep.seq.pgood } } := by
  unfold Hw.closeStep
  rw [Hw.evalPgood_eq, Hw.armStep_eq]
  dsimp only
  split
  · rw [Hw.dueHrst_eq]
  · rfl

theorem Hw.closeStep_clk : h.closeStep.clk = h.clk := (congrArg Hw.clk h.closeStep_eq :)
theorem Hw.closeStep_faults : h.closeStep.faults = h.faults := (congrArg Hw.faults h.closeStep_eq :)

theorem Hw.closeStep_seq : h.closeStep.seq =
    { h.seq with doneStep := some h.seq.step, doneDown := h.seq.dir == .down, hrst := h.closeStep.seq.hrst
                 hostStepsDone := h.closeStep.seq.hostStepsDone, pgood := h.closeStep.seq.pgood } :=
  (congrArg Hw.seq h.closeStep_eq :)

/-- HRSTn that the end of a step has not released still waits for the watchdog's own time. -/
theorem Hw.closeStep_released : h.closeStep.seq.hrst = true ∨ h.closeStep.wdt = h.wdt := by
  unfold Hw.closeStep
  rw [Hw.evalPgood_eq, Hw.armStep_eq]
  dsimp only
  split
  · exact (Hw.dueHrst_released _).imp id (fun ⟨_, hwdt, _⟩ => hwdt)
  · exact .inr rfl

/-! ## The end of POWER_UP (R205, R207) -/

theorem Hw.upDone_seq (hst : h.seq.state = .seqUp) : h.upDone.seq =
    { h.dueHrst.seq with state := .run, active := false, job := none, limpKeep := false, pgood := h.upDone.seq.pgood } := by
  have henter : ∀ q : Seq, q.state = .seqUp → q.enter .run = { q with state := .run } := fun q hq => by simp [Seq.enter, hq]
  have hstate : h.dueHrst.seq.state = .seqUp := by rw [Hw.dueHrst_eq]; exact hst
  unfold Hw.upDone
  simp only [Hw.evalPgood_seq, Hw.raise_seq, Hw.endJob?_seq]
  rw [henter _ hstate]

theorem Hw.upDone_clk : h.upDone.clk = h.clk := by
  unfold Hw.upDone
  rw [Hw.evalPgood_eq, Hw.raise_eq]
  exact (clk_of_ledger (ledger_of_rest (Hw.endJob?_rest _ _ 0 0 []))).trans (by rw [Hw.dueHrst_eq])

theorem Hw.upDone_faults : h.upDone.faults = h.faults := by
  unfold Hw.upDone
  rw [Hw.evalPgood_eq, Hw.raise_eq]
  exact (faults_of_desk (Hw.endJob?_desk _ _ 0 0 [])).trans (by rw [Hw.dueHrst_eq])

theorem Hw.upDone_pend : h.upDone.evt.pend.getLsbD 16 = true :=
  Hw.evalPgood_pend_mono _ (Hw.raise_pend_of_not_mute _ (by simp [Hw.mute]) (by omega))

/-! ## The end of POWER_DOWN (R194, R207) -/

/-- The ports are off, and the job of the sequence has ended. -/
def Hw.portsHeld (h : Hw) : Hw :=
  let g := (List.range 6).foldl (fun h p => h.turnOff .command (12 + p)) h.govEnd
  g.endJob? g.seq.job 0 0 []

theorem Hw.portsHeld_seq : h.portsHeld.seq = h.seq :=
  (Hw.endJob?_seq _ _ 0 0 []).trans (foldl_seq _ (fun g p => g.turnOff_seq .command (12 + p)) _ _)

theorem Hw.portsHeld_rest : h.portsHeld.rest = h.rest :=
  (Hw.endJob?_rest _ _ 0 0 []).trans (foldl_rest _ (fun g p => g.turnOff_rest .command (12 + p)) _ _)

theorem Hw.portsHeld_desk : h.portsHeld.desk = h.desk :=
  (Hw.endJob?_desk _ _ 0 0 []).trans (foldl_desk _ (fun g p => g.turnOff_desk .command (12 + p)) _ _)

/-- The sequencer in OFF, with t_off_min running from an instant. -/
def Seq.wentDown (q : Seq) (clk : Nat) : Seq :=
  { q.enter .off with active := false, job := none, offWait := true, offStart := clk, limpExit := false
                      limpKeep := q.limpKeep && q.pendOn }

/-- POWER_DOWN has ended, before what waited for it. -/
def Hw.wentDown (h : Hw) : Hw :=
  (({ h.portsHeld with seq := h.portsHeld.seq.wentDown h.portsHeld.clk } : Hw).raise 17).evalPgood

theorem Hw.wentDown_seq (hst : h.seq.state = .seqDown) : h.wentDown.seq =
    { h.seq with state := .off, active := false, job := none, offWait := true, offStart := h.clk, limpExit := false
                 limpKeep := h.seq.limpKeep && h.seq.pendOn, pgood := false } := by
  have hclk : h.portsHeld.clk = h.clk := clk_of_ledger (ledger_of_rest h.portsHeld_rest)
  have henter : h.seq.enter .off = { h.seq with state := .off } := by simp [Seq.enter, hst]
  have hoff : (h.seq.wentDown h.clk).state = .off := by unfold Seq.wentDown; rw [henter]
  have hlow := Hw.evalPgood_low (({ h.portsHeld with seq := h.seq.wentDown h.clk } : Hw).raise 17)
    (.inl ((congrArg Seq.state (Hw.raise_seq _ 17)).trans hoff))
  unfold Hw.wentDown
  rw [h.portsHeld_seq, hclk]
  rw [Hw.evalPgood_seq] at hlow ⊢
  rw [show Hw.pgoodLevel _ = false from hlow, Hw.raise_seq]
  unfold Seq.wentDown
  rw [henter]

theorem Hw.wentDown_faults : h.wentDown.faults = h.faults := by
  unfold Hw.wentDown
  rw [Hw.evalPgood_eq, Hw.raise_eq]
  exact (faults_of_desk h.portsHeld_desk :)

theorem Hw.wentDown_pend : h.wentDown.evt.pend.getLsbD 17 = true :=
  Hw.evalPgood_pend_mono _ (Hw.raise_pend_of_not_mute _ (by simp [Hw.mute]) (by omega))

/-- Without a latched on request nothing starts. -/
theorem Hw.tryPend_of_none (hpend : h.seq.pendOn = false) : h.tryPend = h := by
  unfold Hw.tryPend
  rw [hpend]
  rfl

/-- Without SERVICE_PREPARE none of its steps is left. -/
theorem Hw.serviceStep_of_no_job (hjob : h.seq.service.job = none) : h.serviceStep = h := by
  unfold Hw.serviceStep Hw.serviceWrite
  simp [hjob]

/-- A power-down that nothing waits for ends in OFF. -/
theorem Hw.downDone_of_nothing_waiting (hst : h.seq.state = .seqDown) (hexit : h.seq.limpExit = false)
    (hstandby : h.seq.standbyReq = none) (hpend : h.seq.pendOn = false) (hjob : h.seq.service.job = none) :
    h.downDone = h.wentDown := by
  have hseq := h.wentDown_seq hst
  change (if h.portsHeld.seq.limpExit then h.wentDown.limpLeft
    else match h.wentDown.seq.standbyReq with
    | some w => if h.wentDown.nRes = 0 then h.wentDown.standbyEntry w
        else { h.wentDown with seq := { h.wentDown.seq with standbyReq := none } }
    | none => if h.wentDown.serviceStep.inLimp then h.wentDown.serviceStep.autostart else h.wentDown.serviceStep.tryPend) = h.wentDown
  rw [h.portsHeld_seq, hexit, if_neg Bool.false_ne_true, show h.wentDown.seq.standbyReq = none by rw [hseq]; exact hstandby]
  dsimp only
  rw [Hw.serviceStep_of_no_job _ (by rw [hseq]; exact hjob), if_neg (by simp [Hw.inLimp, hseq]),
    Hw.tryPend_of_none _ (by rw [hseq]; exact hpend)]

/-! ## What a completed step leads to -/

/-- Before the last step the next one starts. -/
theorem Hw.finishStep_next (hdir : h.seq.dir ≠ .host) (hlast : h.atLast = false) :
    (∃ hrst waits pass off pgood, h.finishStep.seq = { h.seq with
      step := h.seq.step + 1, doneStep := some h.seq.step, doneDown := h.seq.dir == .down, hrst := hrst, hostStepsDone := waits
      stepAt := h.clk, passing := pass, hostOff := off, pgood := pgood }) ∧ h.finishStep.faults = h.faults := by
  rw [h.finishStep_of_more hdir hlast]
  refine ⟨?_, (faults_of_desk (Hw.beginStep_desk _)).trans h.closeStep_faults⟩
  obtain ⟨pass, off, hseq⟩ :=
    Hw.beginStep_seq { h.closeStep with seq := { h.closeStep.seq with step := h.closeStep.seq.step + 1 } }
  rw [hseq, h.closeStep_seq, ← h.closeStep_clk]
  exact ⟨_, _, pass, off, _, rfl⟩

/-- The last step of POWER_UP leads to RUN, with HRSTn released unless the HRST_WIDTH of a host restart still runs. -/
theorem Hw.finishStep_run (hdir : h.seq.dir = .up) (hlast : h.atLast = true) (hst : h.seq.state = .seqUp) :
    let t := h.finishStep
    (t.seq.state = .run ∧ t.seq.active = false ∧ (h.wdt.restarting = false → t.seq.hrst = true) ∧
      (t.seq.hrst = false → t.seq.hostStepsDone = true ∧ t.clk < h.wdt.start + 1000 * h.wdt.hrstWidth) ∧
      t.seq.job = none ∧ t.evt.pend.getLsbD 16 = true) ∧ t.faults = h.faults := by
  have hclk := h.closeStep_clk
  have hseq := h.closeStep.upDone_seq (by rw [h.closeStep_seq]; exact hst)
  have hreleased : h.closeStep.dueHrst.seq.hrst = true ∨ h.closeStep.dueHrst.seq.hostStepsDone = true ∧
      h.wdt.restarting = true ∧ h.clk < h.wdt.start + 1000 * h.wdt.hrstWidth := by
    rcases h.closeStep.dueHrst_released with hdue | ⟨hsteps, -, hrestart, hwidth, hkept⟩
    · exact .inl hdue
    · rcases h.closeStep_released with hclosed | hwdt
      · exact .inl (hkept.trans hclosed)
      · rw [hwdt] at hrestart hwidth
        exact .inr ⟨hsteps, hrestart, hclk ▸ hwidth⟩
  rw [h.finishStep_of_last_up hdir hlast]
  dsimp only
  rw [hseq, Hw.upDone_clk, hclk]
  refine ⟨⟨rfl, rfl, fun hnone => ?_, fun hlow => ?_, rfl, Hw.upDone_pend _⟩, (Hw.upDone_faults _).trans h.closeStep_faults⟩
  · exact hreleased.resolve_right (fun ⟨_, hrestart, _⟩ => absurd (hnone.symm.trans hrestart) Bool.false_ne_true)
  · obtain ⟨hsteps, -, hwidth⟩ := hreleased.resolve_left (fun hhigh => absurd (hlow.symm.trans hhigh) Bool.false_ne_true)
    exact ⟨hsteps, hwidth⟩

/-- The last step of POWER_DOWN leads to OFF, where nothing waits for it. -/
theorem Hw.finishStep_off (hdir : h.seq.dir = .down) (hlast : h.atLast = true) (hst : h.seq.state = .seqDown)
    (hexit : h.seq.limpExit = false) (hstandby : h.seq.standbyReq = none) (hpend : h.seq.pendOn = false)
    (hjob : h.seq.service.job = none) :
    let t := h.finishStep
    (t.seq.state = .off ∧ t.seq.active = false ∧ t.seq.offWait = true ∧ t.seq.offStart = h.clk ∧ t.seq.pgood = false ∧
      t.evt.pend.getLsbD 17 = true) ∧ t.faults = h.faults := by
  have hdown : h.closeStep.downDone = h.closeStep.wentDown := by
    refine h.closeStep.downDone_of_nothing_waiting ?_ ?_ ?_ ?_ ?_ <;> rw [h.closeStep_seq] <;> assumption
  rw [h.finishStep_of_last_down hdir hlast, hdown]
  dsimp only
  rw [Hw.wentDown_seq _ (by rw [h.closeStep_seq]; exact hst)]
  exact ⟨⟨rfl, rfl, rfl, h.closeStep_clk, rfl, Hw.wentDown_pend _⟩, (Hw.wentDown_faults _).trans h.closeStep_faults⟩

end

/-! ## Settlement -/

/-- A step whose conditions hold by its TIMEOUT completes at the instant from which they do. -/
theorem completes_seqStepComplete {s : State} {low : LowSample} {post : Hw → Prop} (hact : s.hw.seq.active = true)
    (hmet : s.hw.stepMet low = true) (hdue : s.hw.stepDue low ≤ s.hw.stepLimit) (hforce : s.hw.faults.forces = [])
    (hp : post (s.hw.reach (s.hw.stepDue low)).finishStep ∧
      (s.hw.reach (s.hw.stepDue low)).finishStep.faults = (s.hw.reach (s.hw.stepDue low)).faults) :
    Completes (.seqStepComplete low) s post := by
  refine ⟨_, rfl, rfl, ?_⟩
  dsimp only
  rw [if_pos (by simp [hact, hmet, hdue]), Hw.forced_of_no_forces _ (by rw [hp.2]; exact hforce)]
  exact hp.1

/-- Settles O30: a completed step is closed, and what follows is the start of the next one or the end of its sequence. -/
theorem sequenceStepsComplete : Obligations.SequenceStepsComplete := by
  unfold Obligations.SequenceStepsComplete
  refine ⟨fun s low hact hmet hdue hforce hlast hdir => completes_seqStepComplete hact hmet hdue hforce ?next,
    fun s low hact hmet hdue hforce hlast hdir hst => completes_seqStepComplete hact hmet hdue hforce ?run,
    fun s low hact hmet hdue hforce hlast hdir hst hstandby hexit hpend hjob =>
      completes_seqStepComplete hact hmet hdue hforce ?off⟩
  case next =>
    obtain ⟨⟨_, _, _, _, _, hseq⟩, hfaults⟩ := (s.hw.reach (s.hw.stepDue low)).finishStep_next hdir hlast
    refine ⟨?_, hfaults⟩
    rw [hseq]
    exact ⟨rfl, rfl, hact, Hw.reach_clk _ _, rfl⟩
  case run => exact (s.hw.reach (s.hw.stepDue low)).finishStep_run hdir hlast hst
  case off =>
    rw [← s.hw.reach_clk (s.hw.stepDue low)]
    exact (s.hw.reach (s.hw.stepDue low)).finishStep_off hdir hlast hst hexit hstandby hpend hjob

end Sys2Proof.Machine
end

section
/-! SUPPORT. What the lines EN and FLTn set going: the on and off requests of EN, and the reaction to a fault of another module
(R194–R201). -/

namespace Sys2Proof.Machine

theorem lines_of_ledger {g h : Hw} (e : g.ledger = h.ledger) : g.lines = h.lines := congrArg Ledger.lines e

section
variable (h : Hw)

/-- Outside LIMP the rules of the sequencer see the system state. -/
theorem Hw.eff_of_state {st : SysState} (hst : h.seq.state = st) (hlimp : st ≠ .limp) : h.eff = st := by
  simp [Hw.eff, Seq.eff, hst, hlimp]

/-! ## The on request (R194, R196) -/

theorem Hw.dropPend_eq (r : Nat) : h.dropPend r = { h with
    proto := (h.dropPend r).proto, seq := { h.seq with pendOn := false, onJob := none } } := by
  unfold Hw.dropPend
  cases h.seq.onJob <;> rfl

/-- What a latched on request waits for in OFF, all of it given (R194, R196, R35). -/
def Hw.mayStart (h : Hw) : Prop :=
  h.seq.state = .off ∧ h.gone = false ∧ h.seq.offWait = false ∧ h.lines.fltLow = false ∧ h.lines.en = true ∧
    h.ins.booted = true ∧ h.ins.storeReady = true ∧ h.serviceReady = false ∧ h.pwr.commit = none ∧ h.rst.restart = none

theorem Hw.tryPend_of_mayStart (hpend : h.seq.pendOn = true) (hmay : h.mayStart) : h.tryPend = h.startUp h.seq.onJob := by
  obtain ⟨hst, hgone, hwait, hlow, hen, hboot, hstore, hready, hcommit, hrestart⟩ := hmay
  have hoff := h.eff_of_state hst (by decide)
  unfold Hw.tryPend
  rw [if_pos (by simp [hpend, hoff, hgone, hwait, hlow, hen, hboot, hstore, hready, hcommit, hrestart])]

/-- The module with an on request latched, in place of an earlier one (R195). -/
def Hw.latchOn (h : Hw) (j : Option Nat) : Hw :=
  { h.dropPend 1 with seq := { (h.dropPend 1).seq with pendOn := true, onJob := j } }

theorem Hw.latchOn_eq (j : Option Nat) :
    h.latchOn j = { h with proto := (h.dropPend 1).proto, seq := { h.seq with pendOn := true, onJob := j } } := by
  unfold Hw.latchOn
  rw [Hw.dropPend_eq]

/-- An on request that may act starts POWER_UP. -/
theorem Hw.onRequest_of_mayStart (j : Option Nat) (hmay : h.mayStart) : h.onRequest j = (h.latchOn j).startUp j := by
  have hmay' : (h.latchOn j).mayStart := by rw [h.latchOn_eq]; exact hmay
  obtain ⟨hst, -, -, -, hen, -, -, hready, -, -⟩ := hmay
  have hoff := h.eff_of_state hst (by decide)
  unfold Hw.onRequest
  rw [if_neg (by simp [hready, hen]), hoff]
  exact (h.latchOn j).tryPend_of_mayStart rfl hmay'

/-- POWER_UP on request: at its first step, in SEQ_UP. -/
theorem Hw.onRequest_ups (j : Option Nat) (hmay : h.mayStart) : (h.onRequest j).lines = h.lines ∧
    (h.onRequest j).seq.state = .seqUp ∧ (h.onRequest j).seq.active = true ∧ (h.onRequest j).seq.dir = .up ∧
    (h.onRequest j).seq.step = 0 := by
  have hst : (h.latchOn j).seq.state = .off := by rw [h.latchOn_eq]; exact hmay.1
  obtain ⟨hstate, hstep, hdir, -, -⟩ := (h.latchOn j).startUp_seq j hst
  have hrest := (h.latchOn j).startUp_rest j
  rw [h.onRequest_of_mayStart j hmay]
  refine ⟨?_, hstate, congrArg (fun r => r.2.2.2.active) hrest, hdir, hstep⟩
  exact (congrArg (fun r => r.1.lines) hrest).trans (by rw [h.latchOn_eq])

/-! ## The off request (R194, R205, R206) -/

/-- POWER_DOWN outside LIMP: from a step, in SEQ_DOWN, with HRSTn and PGOOD low. -/
theorem Hw.startDown_seq (n : Nat) (j : Option Nat) (hst : h.seq.state ≠ .limp) : let t := h.startDown n j
    t.lines = h.lines ∧ t.seq.state = .seqDown ∧ t.seq.dir = .down ∧ t.seq.step = n ∧ t.seq.hrst = false ∧ t.seq.pgood = false ∧
      t.seq.pendOn = h.seq.pendOn ∧ t.seq.limpFault = h.seq.limpFault := by
  have henter : h.seq.enter .seqDown = { h.seq with state := .seqDown } := by simp [Seq.enter, hst]
  have hpgood : (h.startDown n j).seq.pgood = false := by
    unfold Hw.startDown
    refine Hw.beginStep_pgood_low _ ?_
    rw [state_of_rest (Hw.cabBegin_rest _ true), state_of_rest (Hw.govEnd_rest _), state_of_rest (Hw.pgoodLow_rest _),
      Hw.endJob?_seq, henter]
  have hrest := h.startDown_rest n j
  rw [henter] at hrest
  obtain ⟨hstate, hstep, hdir, -, -, -, -⟩ := seq_of_rest hrest
  exact ⟨congrArg (·.1.lines) hrest, hstate, hdir, hstep, congrArg (·.2.2.2.hrst) hrest, hpgood,
    congrArg (·.2.2.2.pendOn) hrest, congrArg (·.2.2.2.limpFault) hrest⟩

theorem Hw.offRequest_of_run_eq (j : Option Nat) (hrun : h.seq.state = .run) :
    h.offRequest j = (h.dropPend 1).endKeep.startDown 0 j := by
  have heff : (h.dropPend 1).eff = .run := by rw [h.dropPend_eq]; exact Hw.eff_of_state _ hrun (by decide)
  unfold Hw.offRequest
  dsimp only
  rw [heff]

/-- An off request in RUN starts POWER_DOWN at its first step and cancels a latched on request. -/
theorem Hw.offRequest_downs (j : Option Nat) (hrun : h.seq.state = .run) : let t := h.offRequest j
    t.lines = h.lines ∧ t.seq.state = .seqDown ∧ t.seq.dir = .down ∧ t.seq.step = 0 ∧ t.seq.hrst = false ∧ t.seq.pgood = false ∧
      t.seq.pendOn = false ∧ t.seq.limpFault = h.seq.limpFault := by
  rw [h.offRequest_of_run_eq j hrun, h.dropPend_eq]
  exact Hw.startDown_seq _ 0 j (fun hlimp => absurd (hrun.symm.trans hlimp) (by decide))

/-! ## FLTn driven low by another module (R199–R201) -/

/-- HRSTn driven low by a fault of another module, FLTn left to that module. -/
def Hw.flagRemote (h : Hw) : Hw := { h with seq := { h.seq with fltDrive := false, hrst := false } }

/-- The module with its outputs off by such a fault, before the latch. -/
def Hw.remoteOff (h : Hw) : Hw := (((h.flagRemote.pgoodLow.markOff .fault).endMove 3).turnOffAll .fault).govEnd

theorem Hw.railOff_of_remote : h.railOff 10 = ((h.remoteOff.enterLatched 10).planRetry).raise 21 := rfl

theorem Hw.remoteOff_rest : h.remoteOff.rest = h.flagRemote.rest := by
  unfold Hw.remoteOff
  rw [Hw.govEnd_rest, Hw.turnOffAll_rest, Hw.endMove_rest]
  exact Hw.pgoodLow_rest _

theorem Hw.remoteOff_off {j : Nat} (hj : j < 18) : (h.remoteOff.out j).on = false := by
  unfold Hw.remoteOff
  rw [Hw.govEnd_on]
  exact Hw.turnOffAll_fault_off _ hj

theorem Hw.planRetry_ledger : h.planRetry.ledger = h.ledger := by
  obtain ⟨w, hw | hw⟩ := h.planRetry_eq <;> rw [hw]
  · rfl
  · exact (ledger_of_rest (Hw.raise_rest _ 20)).trans rfl

theorem Hw.raise_lines (k : Nat) : (h.raise k).lines = h.lines := by rw [Hw.raise_eq]

/-- What a fault of another module leaves: the latch with cause REMOTE, the line not driven, the event, every output off. -/
theorem Hw.railOff_remote (hlimp : h.seq.state ≠ .limp) : (h.railOff 10).lines = h.lines ∧ (h.railOff 10).seq.state = .faultLatched ∧
    (h.railOff 10).seq.cause = 10 ∧ (h.railOff 10).seq.fltDrive = false ∧ (h.railOff 10).evt.pend.getLsbD 21 = true ∧
    ∀ j, j < 18 → ((h.railOff 10).out j).on = false := by
  have hrest := h.remoteOff_rest
  have hlimp' : h.remoteOff.inLimp = false := by
    unfold Hw.inLimp
    rw [state_of_rest hrest]
    exact beq_eq_false_iff_ne.mpr hlimp
  obtain ⟨hstate, hcause, -, hflt⟩ := h.remoteOff.enterLatched_seq 10 hlimp'
  obtain ⟨-, -, w, hseq⟩ := (h.remoteOff.enterLatched 10).planRetry_keeps
  rw [Hw.railOff_of_remote, Hw.raise_seq, hseq]
  refine ⟨?_, hstate, hcause, hflt.trans (fltDrive_of_rest hrest), Hw.raise_pend_of_not_mute _ (by simp [Hw.mute]) (by omega),
    fun j hj => ?_⟩
  · have hlatched := (h.remoteOff.enterLatched_ledger 10).trans (ledger_of_rest hrest)
    have hplanned := (h.remoteOff.enterLatched 10).planRetry_ledger
    rw [Hw.raise_lines, lines_of_ledger hplanned, lines_of_ledger hlatched]
    rfl
  · rw [Hw.raise_out, Hw.out_of_outs ((Hw.planRetry_outs _).trans (Hw.enterLatched_outs _ 10))]
    exact h.remoteOff_off hj

/-- A fault of another module in RUN of a module that stays, whatever the reaction of its class (R199, R200, R474). -/
theorem Hw.railFault_remote (src addr : Nat) (d : List Byte) (held : Bool) (hrun : h.seq.state = .run) (hleave : h.leaving = false) :
    let t := h.railFault 10 src addr d held
    t.lines = h.lines ∧ t.seq.state = .faultLatched ∧ t.seq.cause = 10 ∧ t.seq.fltDrive = false ∧ t.evt.pend.getLsbD 21 = true ∧
      ∀ j : Fin 18, (t.out j).on = false := by
  have hacts : h.faultActs held = true := by simp [Hw.faultActs, hrun, hleave]
  generalize hg : h.collect src addr 0 0 d = g
  have hseq : g.seq = h.seq := hg ▸ (congrArg (·.2.1) (h.collect_core src addr 0 0 d) :)
  have hlines : g.lines = h.lines := by rw [← hg, Hw.collect_eq]
  obtain ⟨hkept, hstate, hcause, hflt, hpend, hoff⟩ := g.railOff_remote (by rw [hseq, hrun]; decide)
  have hfault : h.railFault 10 src addr d held = (g.railOff 10).react (h.reaction src) := by
    unfold Hw.railFault
    simp only [hacts, hg, if_true]
  generalize g.railOff 10 = k at *
  obtain ⟨q, hq⟩ := k.react_of_latched (h.reaction src) hstate
  dsimp only
  rw [hfault, hq]
  exact ⟨hkept.trans hlines, hstate, hcause, hflt, hpend, fun j => hoff j j.isLt⟩

/-! ## The levels of EN and FLTn -/

/-- EN at a level. -/
def Hw.setEn (h : Hw) (level : Bool) : Hw := { h with lines := { h.lines with en := level } }

/-- FLTn low, or high again. -/
def Hw.setFltLow (h : Hw) (low : Bool) : Hw := { h with lines := { h.lines with fltLow := low } }

/-- t_off_min has elapsed. -/
def Hw.offMinOver (h : Hw) : Hw :=
  let g := h.reach (h.seq.offStart + 1000 * h.image.tOffMin)
  { g with seq := { g.seq with offWait := false } }

end

/-! ## Each line in the state that takes it -/

section
variable {s : State} {post : Hw → Prop}

/-- A rising EN where nothing of STANDBY or LIMP awaits it (R196). -/
theorem completes_enRise (hen : s.hw.lines.en = false) (hst : s.hw.seq.state = .off) (hlimp : s.hw.seq.limpFault = false)
    (hp : post (if s.hw.image.autostart && s.hw.ins.booted && s.hw.ins.storeReady && s.hw.admitted
      then ((s.hw.setEn true).onRequest none).forced else s.hw.setEn true)) : Completes .enRise s post := by
  have hwakes : (s.hw.setEn true).wakes = false := by simp [Hw.wakes, Hw.setEn, hst]
  have hnolimp : (s.hw.setEn true).inLimp = false := by simp [Hw.inLimp, Hw.setEn, hst]
  have hfault : (s.hw.setEn true).seq.limpFault = false := hlimp
  refine ⟨_, rfl, rfl, ?_⟩
  dsimp only
  rw [if_neg (by simp [hen])]
  change post (let g := if (s.hw.setEn true).wakes && (s.hw.setEn true).seq.wake.getLsbD 0
      then (s.hw.setEn true).exitStandby else s.hw.setEn true
    let g := if g.seq.limpFault && g.seq.limpEnLow && !g.gone then g.faultRestart else g
    if (g.image.autostart || g.inLimp) && g.ins.booted && g.ins.storeReady && g.admitted then (g.onRequest none).forced else g)
  simp only [hwakes, hfault, hnolimp, Bool.false_and, Bool.false_eq_true, if_false, Bool.or_false]
  exact hp

/-- A falling EN outside the fault wait of LIMP is an off request (R196). -/
theorem completes_enFall (hen : s.hw.lines.en = true) (hlimp : ((s.hw.setEn false).offRequest none).seq.limpFault = false)
    (hp : post ((s.hw.setEn false).offRequest none)) : Completes .enFall s post := by
  refine ⟨_, rfl, rfl, ?_⟩
  dsimp only
  rw [if_pos hen]
  exact (congrArg post (if_neg (fun hc => absurd (hlimp.symm.trans hc) Bool.false_ne_true))).mpr hp

theorem completes_offMinElapsed (hwait : s.hw.seq.offWait = true) (hpend : s.hw.seq.pendOn = false)
    (hforce : s.hw.faults.forces = []) (hp : post s.hw.offMinOver) : Completes .offMinElapsed s post := by
  have hnone : s.hw.offMinOver.tryPend = s.hw.offMinOver := Hw.tryPend_of_none _ hpend
  have hquiet : s.hw.offMinOver.forced = s.hw.offMinOver := Hw.forced_of_no_forces _ hforce
  refine ⟨_, rfl, rfl, ?_⟩
  dsimp only
  rw [if_pos hwait]
  change post s.hw.offMinOver.tryPend.forced
  rwa [hnone, hquiet]

theorem completes_fltnFall_run (hlow : s.hw.lines.fltLow = false) (hst : s.hw.seq.state = .run) (hgone : s.hw.gone = false)
    (hp : post ((s.hw.setFltLow true).railFault 10 0x67 0xFF [] false)) : Completes .fltnFall s post := by
  have hrun := (s.hw.setFltLow true).eff_of_state hst (by decide)
  have hstays : (s.hw.setFltLow true).gone = false := hgone
  unfold Hw.setFltLow at hrun hstays
  refine ⟨_, rfl, rfl, ?_⟩
  dsimp only
  rw [if_neg (by simp [hlow]), hrun]
  dsimp only
  rwa [hstays]

theorem completes_fltnFall_off (hlow : s.hw.lines.fltLow = false) (hst : s.hw.seq.state = .off) (hp : post (s.hw.setFltLow true)) :
    Completes .fltnFall s post := by
  have hoff := (s.hw.setFltLow true).eff_of_state hst (by decide)
  unfold Hw.setFltLow at hoff
  refine ⟨_, rfl, rfl, ?_⟩
  dsimp only
  rw [if_neg (by simp [hlow]), hoff]
  exact hp

theorem completes_fltnHigh (hdrive : s.hw.seq.fltDrive = false) (hpend : s.hw.seq.pendOn = false)
    (hforce : s.hw.faults.forces = []) (hp : post (s.hw.setFltLow false)) : Completes .fltnHigh s post := by
  have hnone : (s.hw.setFltLow false).tryPend = s.hw.setFltLow false := Hw.tryPend_of_none _ hpend
  have hquiet : (s.hw.setFltLow false).forced = s.hw.setFltLow false := Hw.forced_of_no_forces _ hforce
  refine ⟨_, rfl, rfl, ?_⟩
  dsimp only
  rw [if_neg (by simp [hdrive])]
  change post (s.hw.setFltLow false).tryPend.forced
  rwa [hnone, hquiet]

end

/-! ## Settlement -/

/-- Settles O32: EN makes an on or an off request, and FLTn low is the fault of another module where the module regulates. -/
theorem linesStartAndStop : Obligations.LinesStartAndStop := by
  unfold Obligations.LinesStartAndStop
  refine ⟨fun s hen hauto hst hlimp => completes_enRise hen hst hlimp ?stay,
    fun s hen hauto hst hlimp hboot hstore hadm hready hwait hlow hcommit hrestart hforce hgone =>
      completes_enRise hen hst hlimp ?start,
    fun s hen hst hlimp => ?stop,
    fun s hwait hpend hforce => completes_offMinElapsed hwait hpend hforce ⟨rfl, Hw.reach_clk _ _, rfl⟩,
    fun s hlow hst hgone => completes_fltnFall_run hlow hst hgone ?remote,
    fun s hlow hst => completes_fltnFall_off hlow hst rfl,
    fun s hdrive hpend hforce => completes_fltnHigh hdrive hpend hforce rfl⟩
  case stay => exact if_neg (by simp [hauto])
  case start =>
    have hmay : (s.hw.setEn true).mayStart := ⟨hst, hgone, hwait, hlow, rfl, hboot, hstore, hready, hcommit, hrestart⟩
    have hquiet : ((s.hw.setEn true).onRequest none).forced = (s.hw.setEn true).onRequest none :=
      Hw.forced_of_no_forces _ ((congrArg Faults.forces (faults_of_desk (Hw.onRequest_desk _ none))).trans hforce)
    obtain ⟨hlines, hstarted⟩ := (s.hw.setEn true).onRequest_ups none hmay
    rw [if_pos (by simp [hauto, hboot, hstore, hadm]), hquiet]
    exact ⟨congrArg Lines.en hlines, hstarted⟩
  case stop =>
    obtain ⟨hlines, hstate, hdir, hstep, hhrst, hpgood, hpend, hfault⟩ := (s.hw.setEn false).offRequest_downs none hst
    exact completes_enFall hen (hfault.trans hlimp) ⟨congrArg Lines.en hlines, hstate, hdir, hstep, hhrst, hpgood, hpend⟩
  case remote =>
    have hleave : (s.hw.setFltLow true).leaving = false := (Bool.or_eq_false_iff.mp hgone).1
    obtain ⟨hlines, hlatched⟩ := (s.hw.setFltLow true).railFault_remote 0x67 0xFF [] false hst hleave
    exact ⟨congrArg Lines.fltLow hlines, hlatched⟩

end Sys2Proof.Machine
end

section
/-! SUPPORT. What errors, requests to the sequencer and writes to the store leave alone of the link and the time: the module's part of
the link but for the run of its cabinet list, the Lodge, and the count of lost records (R194, R200, R315, R474). -/

namespace Sys2Proof.Machine

/-- The module's part of the link but for the run of its cabinet list, which every latch ends, the Lodge, and RECORDS_LOST. -/
structure Station where
  prm : Prm
  lodge : Lodge
  lost : Nat

def Hw.station (h : Hw) : Station :=
  { prm := { h.prm with cabRunning := false }, lodge := h.lodge, lost := h.recordsLost }

section
variable {g h : Hw} (e : g.station = h.station)
include e

theorem lodge_of_station : g.lodge = h.lodge := congrArg Station.lodge e
theorem lost_of_station : g.recordsLost = h.recordsLost := congrArg Station.lost e
theorem role_of_station : g.prm.role = h.prm.role := congrArg (·.prm.role) e
theorem link_of_station : g.prm.link = h.prm.link := congrArg (·.prm.link) e
theorem roster_of_station : g.prm.roster = h.prm.roster := congrArg (·.prm.roster) e
theorem token_of_station : g.prm.token = h.prm.token := congrArg (·.prm.token) e
theorem cmd_of_station : g.prm.cmd = h.prm.cmd := congrArg (·.prm.cmd) e
theorem err_of_station : g.prm.err = h.prm.err := congrArg (·.prm.err) e
theorem peers_of_station : g.prm.peers = h.prm.peers := congrArg (·.prm.peers) e
theorem clearJob_of_station : g.prm.clearJob = h.prm.clearJob := congrArg (·.prm.clearJob) e

end

theorem station_of_beside {g h : Hw} (e : g.beside = h.beside) : g.station = h.station := (congrArg Hw.station e :)

theorem foldl_station {α : Type} (f : Hw → α → Hw) (H : ∀ h x, (f h x).station = h.station) (l : List α) (h : Hw) :
    (l.foldl f h).station = h.station :=
  List.foldlRecOn (motive := fun g : Hw => g.station = h.station) l f rfl (fun g hg x _ => (H g x).trans hg)

theorem ite_station {p : Prop} [Decidable p] {a b : Hw} {d : Station} (ha : a.station = d) (hb : b.station = d) :
    (if p then a else b).station = d := by
  split <;> assumption

section
variable (h : Hw)

/-! ## Events, jobs, outputs on and off -/

@[simp] theorem Hw.wake_station : h.wake.station = h.station := by rw [Hw.wake_eq]; rfl
@[simp] theorem Hw.raise_station (k : Nat) : (h.raise k).station = h.station := by rw [Hw.raise_eq]; rfl
@[simp] theorem Hw.raiseIf_station (c : Bool) (k : Nat) : (h.raiseIf c k).station = h.station := by rw [Hw.raiseIf_eq]; rfl
@[simp] theorem Hw.evalPgood_station : h.evalPgood.station = h.station := by rw [Hw.evalPgood_eq]; rfl
@[simp] theorem Hw.pgoodLow_station : h.pgoodLow.station = h.station := h.raiseIf_station h.seq.pgood 22
@[simp] theorem Hw.govEnd_station : h.govEnd.station = h.station := rfl
@[simp] theorem Hw.markOff_station (c : OffCause) : (h.markOff c).station = h.station := rfl
@[simp] theorem Hw.modRail_station (k : Nat) (f : VpRail → VpRail) : (h.modRail k f).station = h.station := rfl
@[simp] theorem Hw.endMove_station (r : Nat) : (h.endMove r).station = h.station := station_of_beside (h.endMove_beside r)
@[simp] theorem Hw.hrstFalls_station : h.hrstFalls.station = h.station := ite_station rfl rfl

@[simp] theorem Hw.endJob?_station (n : Option Nat) (st r : Nat) (d : List Byte) : (h.endJob? n st r d).station = h.station := by
  cases n <;> rfl

@[simp] theorem Hw.turnOff_station (c : OffCause) (k : Nat) : (h.turnOff c k).station = h.station := by
  have hport : ((h.modPort (k - 12) Port.hold).freeBus (k - 12)).station = h.station := by rw [Hw.freeBus_eq]; rfl
  exact ite_station rfl (ite_station hport (ite_station rfl (ite_station rfl rfl)))

@[simp] theorem Hw.turnOffAll_station (c : OffCause) : (h.turnOffAll c).station = h.station :=
  foldl_station _ (fun g k => g.turnOff_station c k) _ h

theorem Hw.revert_station : h.revert.station = h.station := h.turnOffAll_station .command

theorem Hw.faultRestart_station : h.faultRestart.station = h.station := (Hw.evalPgood_station _).trans h.revert_station

@[simp] theorem Hw.disable_station (k : Nat) : (h.disable k).station = h.station :=
  ite_station (h.turnOff_station .command k) (h.turnOff_station .command k)

@[simp] theorem Hw.activate_station (k p : Nat) : (h.activate k p).station = h.station := station_of_beside (h.activate_beside k p)

@[simp] theorem Hw.substitute_station (k : Nat) : (h.substitute k).station = h.station := by
  unfold Hw.substitute
  refine ite_station ?_ ?_
  · rw [Hw.raise_station, Hw.modRail_station]
    exact foldl_station _ (fun g _ => ite_station (by split <;> rfl) rfl) _ h
  · rw [Hw.modRail_station]
    exact foldl_station _ (fun g _ => ite_station (by split <;> rfl) rfl) _ h

@[simp] theorem Hw.startPhases_station (k : Nat) : (h.startPhases k).station = h.station := by
  unfold Hw.startPhases
  refine (foldl_station _ (fun g _ => ite_station ?_ rfl) _ _).trans (h.substitute_station k)
  split
  · exact Hw.activate_station _ _ _
  · rfl

@[simp] theorem Hw.startRamp_station (k : Nat) (i : Bool) : (h.startRamp k i).station = h.station := by
  unfold Hw.startRamp
  exact ite_station (Hw.startPhases_station _ k) (ite_station rfl rfl)

@[simp] theorem Hw.turnOn_station (k : Nat) (i : Bool) : (h.turnOn k i).station = h.station := by
  unfold Hw.turnOn
  exact ite_station rfl (ite_station rfl (ite_station rfl (ite_station rfl (h.startRamp_station k i))))

theorem Hw.setPool_station (po : Pool) : ({ h with pool := po } : Hw).station = h.station := rfl

@[simp] theorem Hw.holdRamps_station : h.holdRamps.station = h.station := by
  unfold Hw.holdRamps
  dsimp only
  rw [Hw.setPool_station]
  refine (foldl_station _ (fun g k => ?_) _ _).trans (foldl_station _ (fun g p => ?_) _ h)
  · exact ite_station rfl rfl
  · exact ite_station rfl (g.turnOff_station .command _)

/-! ## Requests at a module that leads no cabinet (R194–R197, R222) -/

@[simp] theorem Hw.beginStep_station : h.beginStep.station = h.station := by
  unfold Hw.beginStep
  dsimp only
  rw [Hw.evalPgood_station, foldl_station _ (fun g k => g.turnOn_station k true)]
  refine ite_station ?_ ?_
  all_goals exact (foldl_station _ (fun g k => g.disable_station k) _ _).trans h.wake_station

theorem Hw.cabBegin_of_not_lead (hrole : h.prm.role ≠ .lead) (d : Bool) : h.cabBegin d = h := if_neg (by simpa using hrole)

@[simp] theorem Hw.dropPend_station (r : Nat) : (h.dropPend r).station = h.station := by
  rw [Hw.dropPend_eq]
  rfl

theorem Hw.endKeep_station : h.endKeep.station = h.station := rfl

theorem Hw.latchOn_station (j : Option Nat) : (h.latchOn j).station = h.station := by
  rw [h.latchOn_eq]
  rfl

section
variable {h} (hrole : h.prm.role ≠ .lead)
include hrole

theorem Hw.startUp_station (j : Option Nat) : (h.startUp j).station = h.station := by
  unfold Hw.startUp
  dsimp only
  rw [Hw.beginStep_station, Hw.cabBegin_of_not_lead _ (by split <;> exact hrole)]
  split <;> rfl

theorem Hw.startDown_station (n : Nat) (j : Option Nat) : (h.startDown n j).station = h.station := by
  unfold Hw.startDown
  dsimp only
  rw [Hw.beginStep_station, Hw.cabBegin_of_not_lead]
  · rw [Hw.govEnd_station, Hw.pgoodLow_station]
    exact h.endJob?_station h.seq.job 0 1 []
  · rw [role_of_station (Hw.govEnd_station _), role_of_station (Hw.pgoodLow_station _)]
    rwa [← role_of_station (h.endJob?_station h.seq.job 0 1 [])] at hrole

theorem Hw.tryPend_station : h.tryPend.station = h.station := by
  unfold Hw.tryPend
  exact ite_station (Hw.startUp_station hrole _) rfl

theorem Hw.onRequest_station (j : Option Nat) : (h.onRequest j).station = h.station := by
  have hlatch := h.latchOn_station j
  have htry := (Hw.tryPend_station (h := h.latchOn j) (by rwa [role_of_station hlatch])).trans hlatch
  unfold Hw.onRequest
  refine ite_station rfl ?_
  split
  · exact htry
  · exact htry
  · rfl

theorem Hw.offRequest_station (j : Option Nat) : (h.offRequest j).station = h.station := by
  have hdown : ∀ (g : Hw) (n : Nat), g.station = h.station → (g.startDown n j).station = h.station := fun g n e =>
    (Hw.startDown_station (by rwa [role_of_station e]) n j).trans e
  have hdrop := h.dropPend_station 1
  unfold Hw.offRequest
  dsimp only
  split
  · exact hdown _ _ ((Hw.endKeep_station _).trans ((Hw.holdRamps_station _).trans hdrop))
  · exact hdown _ _ ((Hw.endKeep_station _).trans hdrop)
  · exact hdrop

end

/-! ## Errors and their reactions (R472–R476) -/

@[simp] theorem Hw.enterLatched_station (c : Nat) : (h.enterLatched c).station = h.station := by
  unfold Hw.enterLatched
  refine (Hw.endJob?_station _ _ 0 3 []).trans ((Hw.endJob?_station _ _ 0 3 []).trans ?_)
  exact ite_station rfl rfl

@[simp] theorem Hw.safeState_station : h.safeState.station = h.station := by
  have hoff : ((((h.markOff .safeState).endMove 3).turnOffAll .safeState).govEnd.hrstFalls).station = h.station := by simp
  unfold Hw.safeState
  refine ite_station rfl ?_
  dsimp only
  generalize (((h.markOff .safeState).endMove 3).turnOffAll .safeState).govEnd.hrstFalls = g at hoff ⊢
  exact ite_station (g.evalPgood_station.trans hoff) ((Hw.evalPgood_station _).trans ((g.enterLatched_station 12).trans hoff))

@[simp] theorem Hw.react_station (r : Nat) : (h.react r).station = h.station := by
  have hask : ∀ g : Hw, (g.askCoreReset 4).station = g.station := fun g => by unfold Hw.askCoreReset; split <;> rfl
  have hsafe : (if 2 ≤ r then h.safeState else h).station = h.station := ite_station h.safeState_station rfl
  exact ite_station ((hask _).trans hsafe) hsafe

@[simp] theorem Hw.report_station (src addr master access : Nat) (d : List Byte) :
    (h.report src addr master access d).station = h.station := by
  unfold Hw.report
  rw [Hw.react_station, Hw.collect_eq]
  rfl

/-! ## Writes to the store (R315, R323, R324) -/

theorem Hw.regionCheck_station (region key : Nat) : (h.regionCheck region key).1.station = h.station := by
  unfold Hw.regionCheck
  split
  · unfold Hw.flashCheck
    split
    · exact Hw.report_station _ _ _ _ _ _
    · rfl
  · rfl

theorem Hw.copyChecks_station (r : Ring) : (h.copyChecks r).1.station = h.station := by
  unfold Hw.copyChecks
  split
  · refine List.foldlRecOn (motive := fun a : Hw × List Rec => a.1.station = h.station) _ _ rfl (fun a ha x _ => ?_)
    exact (a.1.regionCheck_station _ x.key).trans ha
  · rfl

theorem Hw.eraseNow_station (r : Ring) : (h.eraseNow r).station = h.station := by
  have hforget : (h.forgetFaults r).station = h.station := by unfold Hw.forgetFaults; split <;> rfl
  exact hforget

theorem Hw.compactNow_station (r : Ring) : (h.compactNow r).station = h.station := by
  have hplace : ∀ (g : Hw) (x : Rec), ((g.place r x).prove r x true none).station = g.station := fun g x => by cases r <;> rfl
  have hcopy : (h.copyOldest r).station = h.station := by
    unfold Hw.copyOldest
    exact (foldl_station _ (fun g x => hplace g x) _ _).trans (h.copyChecks_station r)
  unfold Hw.compactNow
  exact ite_station (h.eraseNow_station r) ((Hw.eraseNow_station _ r).trans hcopy)

theorem Hw.makeRoom_station (n size : Nat) (r : Ring) : (Hw.makeRoom n size r h).station = h.station := by
  induction n generalizing h with
  | zero => rfl
  | succ n ih => exact ite_station ((ih _).trans (h.compactNow_station r)) rfl

theorem Hw.keep_station (half : Bool) (x : Rec) : (h.keep half x).station = h.station := h.makeRoom_station 128 _ (halfRing half)

theorem Hw.pair_station (key : Nat) (payload : List Byte) : (h.pair key payload).station = h.station := by
  unfold Hw.pair Hw.pairFor Hw.pairWith
  exact (Hw.keep_station _ _ _).trans (Hw.keep_station _ _ _)

theorem Hw.makeRoom_ledger (n size : Nat) (r : Ring) : (Hw.makeRoom n size r h).ledger = h.ledger := by
  induction n generalizing h with
  | zero => rfl
  | succ n ih =>
    unfold Hw.makeRoom
    split
    · exact (ih _).trans (h.compactNow_ledger r)
    · rfl

theorem Hw.keep_ledger (half : Bool) (x : Rec) : (h.keep half x).ledger = h.ledger :=
  (Hw.place_ledger _ _ x).trans (h.makeRoom_ledger 128 _ (halfRing half))

theorem Hw.pair_ledger (key : Nat) (payload : List Byte) : (h.pair key payload).ledger = h.ledger := by
  unfold Hw.pair Hw.pairFor Hw.pairWith
  exact (Hw.keep_ledger _ _ _).trans (Hw.keep_ledger _ _ _)

end

end Sys2Proof.Machine
end

section
/-! SUPPORT. The cabinet list of the lead, the relay that gets no reply, and the test at the end of the CLEAR cycles (R222, R223, R228,
R233). -/

namespace Sys2Proof.Machine

section
variable (h : Hw)

/-! ## A job that ends -/

/-- A job as it stands once it has ended. -/
def Job.ended (x : Job) (st r : Nat) (d : List Byte) : Job :=
  { x with state := .done, status := st, result := r, progress := 100, data := d }

/-- A job that runs is ended where it stands in the table (R414). -/
theorem Hw.mem_endJob {x : Job} {n : Nat} (hx : x ∈ h.proto.jobs) (hnum : x.num = n) (hrun : x.state = .running) (st r : Nat)
    (d : List Byte) : x.ended st r d ∈ (h.endJob n st r d).proto.jobs :=
  List.mem_map.mpr ⟨x, hx, if_pos (by simp [hnum, hrun])⟩

/-! ## The cabinet list (R222, R223) -/

theorem Hw.cabEntry_of_entryNow {e : CabEntry} (he : h.entryNow = some e) : h.cabEntry = some e := by
  unfold Hw.entryNow at he
  split at he
  · exact he
  · exact absurd he (by simp)

theorem Hw.cabNext_of_last {e : CabEntry} (he : h.cabEntry = some e) (hlast : e.last = true) :
    h.cabNext = { h with prm := { h.prm with cabRunning := false, token := 255 } } := by
  unfold Hw.cabNext
  rw [he]
  exact if_pos hlast

theorem Hw.railOff_pend_mono {c n : Nat} (hc : c ≠ 10) (hp : h.evt.pend.getLsbD n = true) :
    (h.railOff c).evt.pend.getLsbD n = true := by
  have hlow : h.flagFault.pgoodLow.evt.pend.getLsbD n = true := Hw.raiseIf_pend_mono _ _ 22 hp
  have hoff : h.faultOff.evt.pend.getLsbD n = true := by
    unfold Hw.faultOff
    rwa [Hw.govEnd_evt, Hw.turnOffAll_evt, Hw.endMove_evt, Hw.markOff_evt]
  rw [Hw.railOff_of_own h hc]
  exact Hw.raise_pend_mono _ 19 (Hw.planRetry_pend_mono _ (by rwa [Hw.enterLatched_evt]))

/-- A fault of the module's own clears no pending event. -/
theorem Hw.railFault_pend_mono {c n : Nat} (hc : c ≠ 10) (src addr : Nat) (d : List Byte) (held : Bool)
    (hp : h.evt.pend.getLsbD n = true) : (h.railFault c src addr d held).evt.pend.getLsbD n = true := by
  have hcollect : (h.collect src addr 0 0 d).evt.pend.getLsbD n = true := Hw.warn_pend_mono _ src _ (h.capture_pend_mono _ hp)
  unfold Hw.railFault
  refine Hw.react_pend_mono _ _ ?_
  split
  · exact Hw.railOff_pend_mono _ hc hcollect
  · exact hcollect

/-- The timeout of an entry is on record, and the job of the list has ended. -/
def Hw.entryMissed (h : Hw) : Hw :=
  let g := h.endJob? h.seq.job 0 2 []
  { g with seq := { g.seq with job := none, toStep := g.seq.step, toDir := some g.seq.dir, toUnmet := 0, toTime := g.now } }

theorem Hw.entryMissed_seq : h.entryMissed.seq.state = h.seq.state ∧ h.entryMissed.seq.toUnmet = 0 := by
  unfold Hw.entryMissed
  cases h.seq.job <;> exact ⟨rfl, rfl⟩

theorem Hw.entryMissed_leaving : h.entryMissed.leaving = h.leaving := by
  unfold Hw.entryMissed
  cases h.seq.job <;> rfl

/-- A cabinet timeout in RUN of a module that stays: the SEQ_TIMEOUT fault, which leaves no output unmet. -/
theorem Hw.entryMissed_latched (addr : Nat) (hrun : h.seq.state = .run) (hleave : h.leaving = false) :
    let t := (h.entryMissed.raise 18).railFault 5 0x71 addr [] false
    t.seq.state = .faultLatched ∧ t.seq.cause = 5 ∧ t.seq.toUnmet = 0 ∧ t.evt.pend.getLsbD 18 = true := by
  obtain ⟨hstate, hunmet⟩ := h.entryMissed_seq
  have hl := (h.entryMissed.raise 18).railFault_latched (c := 5) 0x71 addr [] false (by decide)
    (by rw [Hw.raise_seq, hstate, hrun]) (by rw [Hw.raise_leaving, Hw.entryMissed_leaving, hleave])
  refine ⟨hl.state, hl.cause, hl.toUnmet.trans (by rw [Hw.raise_seq, hunmet]), ?_⟩
  exact Hw.railFault_pend_mono _ (by decide) _ _ _ _ (Hw.raise_pend_of_not_mute _ (by simp [Hw.mute]) (by omega))

/-! ## A relay without a reply (R228) -/

theorem relayWaits_ready {m : Mailbox} {p : Nat × List Byte} (hw : relayWaits m = some p) : m.ready = none := by
  unfold relayWaits at hw
  split at hw
  · assumption
  · exact absurd hw (by simp)

/-- What the lead relays next has no reply yet. -/
theorem Hw.relayPick_ready {o : Origin} {p : List Byte} (hp : h.relayPick = some (o, p)) : (h.mbx o).ready = none := by
  have hcases : ∀ q, some q = some (o, p) → q.1 = o := fun q e => congrArg Prod.fst (Option.some.inj e)
  unfold Hw.relayPick at hp
  cases ha : relayWaits h.proto.a with
  | none =>
    cases hv : relayWaits h.proto.v with
    | none => simp [ha, hv] at hp
    | some v =>
      simp only [ha, hv] at hp
      obtain rfl := hcases _ hp
      exact relayWaits_ready hv
  | some a =>
    cases hv : relayWaits h.proto.v with
    | none =>
      simp only [ha, hv] at hp
      obtain rfl := hcases _ hp
      exact relayWaits_ready ha
    | some v =>
      simp only [ha, hv] at hp
      split at hp
      · obtain rfl := hcases _ hp
        exact relayWaits_ready ha
      · obtain rfl := hcases _ hp
        exact relayWaits_ready hv

theorem Hw.respond_mbx_of_ne {o p : Origin} (hne : o ≠ p) (st : Nat) (d : List Byte) : (h.respond p st d).mbx o = h.mbx o := by
  cases o with
  | A =>
    cases p with
    | A => exact absurd rfl hne
    | V => exact h.respond_mbx_other .V st d
  | V =>
    cases p with
    | A => exact h.respond_mbx_other .A st d
    | V => exact absurd rfl hne

/-- A reply that is ready stays so whatever the lead takes up next. -/
theorem Hw.startRelay_ready {o : Origin} {r : List Byte} (hr : (h.mbx o).ready = some r) : (h.startRelay.mbx o).ready = some r := by
  unfold Hw.startRelay
  extract_lets one
  have hone : ∀ g : Hw, (g.mbx o).ready = some r → ((one g).mbx o).ready = some r := by
    intro g hg
    unfold one
    split
    · exact hg
    split
    next p b hp =>
      have hne : o ≠ p := fun e => by
        have hnone := g.relayPick_ready hp
        rw [← e, hg] at hnone
        exact Option.some_ne_none r hnone
      dsimp only
      split
      · exact hg
      · rwa [g.respond_mbx_of_ne hne]
    · exact hg
  exact hone _ (hone h hr)

theorem Hw.packet_of_inProc {o : Origin} {p : Nat × List Byte} (hp : (h.mbx o).inProc = some p) :
    h.packet o = p.2 ∧ h.relayed o = false := by
  refine ⟨?_, ?_⟩
  · unfold Hw.packet
    rw [hp]
  · unfold Hw.relayed
    rw [hp]
    rfl

/-- The packet that is being relayed is answered RELAY_TIMEOUT. -/
theorem Hw.relayTimeout_ready {r : Relay} {p : Nat × List Byte} (hrelay : h.prm.relay = some r)
    (hp : (h.mbx r.origin).inProc = some p) :
    (h.relayTimeout.mbx r.origin).ready = some (replyBytes stRelayTimeout (p.2.getD 1 0) (p.2.getD 2 0) []) := by
  have hfree : (({ h with prm := { h.prm with relay := none } } : Hw).mbx r.origin).inProc = some p := by
    rw [← hp]
    cases r.origin <;> rfl
  obtain ⟨hpacket, hown⟩ := Hw.packet_of_inProc _ hfree
  unfold Hw.relayTimeout
  rw [hrelay]
  refine Hw.startRelay_ready _ ?_
  rw [Hw.respond_ready _ _ _ _ hown, hpacket]

/-! ## The test at the end of the CLEAR cycles (R204, R233) -/

/-- The line as the test has found it. -/
def Hw.clearTested (h : Hw) (high : Bool) : Hw :=
  { h with prm := { h.prm with clearJob := none }, lines := { h.lines with fltLow := !high } }

/-- A line found high: the retries are cleared and the latch is left. -/
def Hw.clearPassed (h : Hw) : Hw :=
  let g := h.clearTested true
  ({ g with seq := { g.seq with retries := 0 } } : Hw).faultRestart

/-- A line found low: another module holds it, unless this one drives it again. -/
def Hw.clearFailed (h : Hw) : Hw :=
  let g := h.clearTested false
  ({ g with seq := { g.seq with cause := if g.seq.fltDrive then g.seq.cause else 10 } } : Hw).evalPgood

theorem Hw.clearPassed_spec (hst : h.seq.state = .faultLatched) : h.clearPassed.prm.clearJob = none ∧
    h.clearPassed.seq.state = .off ∧ h.clearPassed.lines.fltLow = false ∧ h.clearPassed.proto.jobs = h.proto.jobs := by
  unfold Hw.clearPassed
  dsimp only
  generalize hg : ({ h.clearTested true with seq := { (h.clearTested true).seq with retries := 0 } } : Hw) = g
  obtain ⟨hjob, hline, hlatched, hjobs⟩ : g.prm.clearJob = none ∧ g.lines.fltLow = false ∧ g.seq.state = .faultLatched ∧
      g.proto.jobs = h.proto.jobs := by
    subst hg
    exact ⟨rfl, rfl, hst, rfl⟩
  have hlines : g.faultRestart.lines = g.lines := congrArg (·.1.lines) g.faultRestart_rest
  refine ⟨(clearJob_of_station g.faultRestart_station).trans hjob, (g.faultRestart_seq hlatched).1, ?_, ?_⟩
  · rw [hlines, hline]
  · rw [Hw.faultRestart_jobs, hjobs]

theorem Hw.clearFailed_spec (hst : h.seq.state = .faultLatched) : h.clearFailed.prm.clearJob = none ∧
    h.clearFailed.seq.state = .faultLatched ∧ (h.seq.fltDrive = false → h.clearFailed.seq.cause = 10) ∧
    h.clearFailed.lines.fltLow = true ∧ h.clearFailed.proto.jobs = h.proto.jobs := by
  unfold Hw.clearFailed
  dsimp only
  rw [Hw.evalPgood_eq]
  exact ⟨rfl, hst, fun hflt => if_neg (by simp [Hw.clearTested, hflt]), rfl, rfl⟩

end

section
variable {s : State} {post : Hw → Prop} {j : Nat} (hjob : s.hw.prm.clearJob = some j) (hleft : s.hw.prm.clearLeft = 0)
  (hst : s.hw.seq.state = .faultLatched)
include hjob hleft hst

theorem completes_cabClearTest_high (hflt : s.hw.seq.fltDrive = false) (hp : post (s.hw.clearPassed.endJob j 0 0 [])) :
    Completes (.cabClearTest true) s post := by
  have hfound : (true && !s.hw.seq.fltDrive) = true := by simp [hflt]
  refine ⟨_, rfl, rfl, ?_⟩
  dsimp only
  rw [hjob]
  dsimp only
  rw [if_pos hleft, hfound, if_pos rfl, if_pos (by simp [hst])]
  exact hp

theorem completes_cabClearTest_low {high : Bool} (hlow : high = false ∨ s.hw.seq.fltDrive = true)
    (hp : post (s.hw.clearFailed.endJob j 0 1 [])) : Completes (.cabClearTest high) s post := by
  have hfound : (high && !s.hw.seq.fltDrive) = false := by rcases hlow with hlow | hlow <;> simp [hlow]
  refine ⟨_, rfl, rfl, ?_⟩
  dsimp only
  rw [hjob]
  dsimp only
  rw [if_pos hleft, hfound, if_neg Bool.false_ne_true, if_pos (by simp [hst])]
  exact hp

end

/-- Settles O36: each row's end is the case of the model that its conditions name, and a job that runs stands ended in the table. -/
theorem cabinetListRelayAndClear : Obligations.CabinetListRelayAndClear := by
  unfold Obligations.CabinetListRelayAndClear
  refine ⟨?listEnds, ?entryMissed, ?noReply, ?lineHigh, ?lineLow⟩
  case listEnds =>
    intro s e hnow hdone hlast
    refine ⟨_, rfl, rfl, ?_⟩
    dsimp only
    rw [hnow]
    dsimp only
    rw [if_pos hdone, Hw.cabNext_of_last _ (Hw.cabEntry_of_entryNow _ hnow) hlast]
  case entryMissed =>
    intro s e hnow hdone hrun hleave
    refine ⟨_, rfl, rfl, ?_⟩
    dsimp only
    rw [hnow]
    dsimp only
    rw [if_neg (by simp [hdone])]
    exact s.hw.entryMissed_latched _ hrun hleave
  case noReply =>
    intro s r n pkt hrole hrelay hsending hproc
    refine ⟨_, rfl, rfl, ?_⟩
    dsimp only
    rw [if_pos (by simp [hrole, hrelay, hsending])]
    exact s.hw.relayTimeout_ready hrelay hproc
  case lineHigh =>
    intro s j x hjob hleft hst hflt hx hnum hrunning
    obtain ⟨hended, hoff, hline, hjobs⟩ := s.hw.clearPassed_spec hst
    exact completes_cabClearTest_high hjob hleft hst hflt
      ⟨hended, hoff, hline, Hw.mem_endJob _ (hjobs ▸ hx) hnum hrunning 0 0 []⟩
  case lineLow =>
    intro s j x high hjob hleft hst hlow hx hnum hrunning
    obtain ⟨hended, hlatched, hcause, hline, hjobs⟩ := s.hw.clearFailed_spec hst
    exact completes_cabClearTest_low hjob hleft hst hlow
      ⟨hended, hlatched, hcause, hline, Hw.mem_endJob _ (hjobs ▸ hx) hnum hrunning 0 1 []⟩

end Sys2Proof.Machine
end

section
/-! SUPPORT. The Lodge as it is set and as a follower follows its lead's count: time values, the alarms that a step meets, the copy of
the lead's time (R230, R369, R376, R379, R382–R384). -/

namespace Sys2Proof.Machine

/-! ## Time values (R376) -/

theorem TimeStatus.code_le (st : TimeStatus) : st.code ≤ 3 := by cases st <;> decide

theorem timeValue_toNat {n : Nat} {st : TimeStatus} {source : Nat} (hn : n < 2 ^ 50) (hsource : source < 4) :
    (timeValue n st source).toNat = n / 1024 * 2 ^ 24 + n % 1024 * 2 ^ 14 + st.code * 2 ^ 10 + source * 2 ^ 8 := by
  have hcode := st.code_le
  unfold timeValue
  rw [BitVec.toNat_ofNat]
  omega

theorem ticksOf_timeValue {n : Nat} {st : TimeStatus} {source : Nat} (hn : n < 2 ^ 50) (hsource : source < 4) :
    ticksOf (timeValue n st source).toNat = n := by
  have hcode := st.code_le
  rw [timeValue_toNat hn hsource]
  unfold ticksOf
  omega

theorem statusOf_timeValue {n : Nat} {st : TimeStatus} {source : Nat} (hn : n < 2 ^ 50) (hsource : source < 4) :
    statusOf (timeValue n st source) = st := by
  have hcode := st.code_le
  have hfield : ((timeValue n st source).extractLsb' 10 4).toNat = st.code := by
    rw [BitVec.extractLsb'_toNat, timeValue_toNat hn hsource, Nat.shiftRight_eq_div_pow]
    omega
  unfold statusOf
  rw [hfield]
  cases st <;> rfl

section
variable (h : Hw)

/-! ## The alarms that a step meets (R382–R384) -/

theorem Hw.raiseAlarm_lodge (i : Nat) : ∃ a, (h.raiseAlarm i).lodge = { h.lodge with alarms := a } := by
  unfold Hw.raiseAlarm
  split
  · exact ⟨h.lodge.alarms, by rw [Hw.raise_eq]⟩
  · exact ⟨_, rfl⟩

theorem Hw.startAdc_lodge : h.startAdc.lodge = h.lodge := rfl

theorem Hw.startMetro_lodge (b : Bool) : (h.startMetro b).lodge = h.lodge := rfl

theorem Hw.exitStandby_lodge : h.exitStandby.lodge = { h.lodge with checked := false } := by
  unfold Hw.exitStandby
  rw [Hw.startAdc_lodge, Hw.startMetro_lodge, lodge_of_station (Hw.revert_station _)]

/-- An alarm that fires touches of the Lodge the alarms and, where it wakes the module, the mark of the boot's check. -/
theorem Hw.fireAlarm_lodge (i : Nat) (b : Bool) : ∃ a c, (h.fireAlarm i b).lodge = { h.lodge with alarms := a, checked := c } := by
  unfold Hw.fireAlarm
  extract_lets x l rung raised
  split
  · obtain ⟨a, ha⟩ : ∃ a, raised.lodge = { rung.lodge with alarms := a } := rung.raiseAlarm_lodge i
    split
    · exact ⟨a, false, by rw [Hw.exitStandby_lodge, ha]⟩
    · exact ⟨a, h.lodge.checked, ha⟩
  · exact ⟨h.lodge.alarms, h.lodge.checked, rfl⟩

theorem Hw.stepAlarms_lodge (new : Nat) : ∃ a c, (h.stepAlarms new).lodge = { h.lodge with alarms := a, checked := c } := by
  unfold Hw.stepAlarms
  refine List.foldlRecOn (motive := fun g : Hw => ∃ a c, g.lodge = { h.lodge with alarms := a, checked := c }) _ _
    ⟨_, _, rfl⟩ (fun g hg i _ => ?_)
  obtain ⟨a, c, hlodge⟩ := hg
  dsimp only
  split
  · obtain ⟨a', c', hfired⟩ := g.fireAlarm_lodge i (decide ((g.lodge.alarms.getD i Alarm.disarmed).time < new))
    exact ⟨a', c', by rw [hfired, hlodge]⟩
  · exact ⟨a, c, hlodge⟩

/-- A step writes the count, the status and the source; a synchronised time becomes the last one. -/
theorem Hw.stepTime_lodge (new : Nat) (st : TimeStatus) (source : Nat) (sync : Bool) :
    ∃ a c, (h.stepTime new st source sync).lodge = { h.lodge with
      ticks := new, frac := 0, status := st, source := source, lastSync := if sync then new else h.lodge.lastSync
      lastSyncSource := if sync then source else h.lodge.lastSyncSource, alarms := a, checked := c } := by
  have hmark : (h.markStepped h.lodge.ticks new).lodge = h.lodge := by unfold Hw.markStepped; split <;> rfl
  unfold Hw.stepTime
  dsimp only
  rw [hmark]
  exact Hw.stepAlarms_lodge _ new

/-! ## A step of a module whose main domain is powered: it wakes nobody -/

/-- What a step of the time leaves alone while the main domain is powered. -/
def Hw.unstepped (h : Hw) : Insertion × Seq × Store × Nat := (h.ins, h.seq, h.store, h.recordsLost)

section
variable {g h : Hw} (e : g.unstepped = h.unstepped)
include e

theorem ins_of_unstepped : g.ins = h.ins := congrArg (·.1) e
theorem inLimp_of_unstepped : g.inLimp = h.inLimp := congrArg (·.2.1.state == .limp) e
theorem queue_of_unstepped : g.store.queue = h.store.queue := congrArg (·.2.2.1.queue) e
theorem lost_of_unstepped : g.recordsLost = h.recordsLost := congrArg (·.2.2.2) e

end

theorem Hw.setLodge_unstepped (l : Lodge) : ({ h with lodge := l } : Hw).unstepped = h.unstepped := rfl

theorem Hw.fireAlarm_unstepped (hmain : h.ins.mainOn = true) (i : Nat) (b : Bool) : (h.fireAlarm i b).unstepped = h.unstepped := by
  unfold Hw.fireAlarm
  extract_lets x l rung raised
  have hraised : raised.unstepped = h.unstepped := by
    unfold raised Hw.raiseAlarm
    rw [if_pos (by simp [rung, hmain]), Hw.raise_eq]
    rfl
  have hwakes : raised.wakes = false := by
    have hins : raised.ins = h.ins := ins_of_unstepped hraised
    simp [Hw.wakes, hins, hmain]
  split
  · rw [if_neg (by simp [hwakes])]
    exact hraised
  · rfl

theorem Hw.stepAlarms_unstepped (hmain : h.ins.mainOn = true) (new : Nat) : (h.stepAlarms new).unstepped = h.unstepped := by
  unfold Hw.stepAlarms
  refine List.foldlRecOn (motive := fun g : Hw => g.unstepped = h.unstepped) _ _ rfl (fun g hg i _ => ?_)
  have hins : g.ins = h.ins := ins_of_unstepped hg
  dsimp only
  split
  · exact (g.fireAlarm_unstepped (by rwa [hins]) i _).trans hg
  · exact hg

theorem Hw.stepTime_unstepped (hmain : h.ins.mainOn = true) (new : Nat) (st : TimeStatus) (source : Nat) (sync : Bool) :
    (h.stepTime new st source sync).unstepped = h.unstepped := by
  have hmark : (h.markStepped h.lodge.ticks new).unstepped = h.unstepped := by unfold Hw.markStepped; split <;> rfl
  have hins : (h.markStepped h.lodge.ticks new).ins = h.ins := ins_of_unstepped hmark
  unfold Hw.stepTime
  dsimp only
  exact (Hw.stepAlarms_unstepped _ (by rwa [hins]) new).trans hmark

/-! ## The copy of the lead's time (R229, R230) -/

theorem Hw.afterLead_ticks (v : DWord) : (h.afterLead v 0).ticks = ticksOf v.toNat := by
  simp [Hw.afterLead, Lodge.run]

/-- The lead's time at its boundary as the Lodge takes it. -/
theorem Hw.copyLead_lodge (v : DWord) : let t := h.copyLead v 0
    t.lodge.ticks = ticksOf v.toNat ∧ t.lodge.source = 2 ∧ t.lodge.status = statusOf v := by
  obtain ⟨a, c, hlodge⟩ := h.stepTime_lodge (h.afterLead v 0).ticks (statusOf v) 2 (statusOf v == .setSynced)
  unfold Hw.copyLead
  dsimp only
  rw [hlodge, h.afterLead_ticks]
  exact ⟨rfl, rfl, rfl⟩

theorem Hw.copyLead_unstepped (hmain : h.ins.mainOn = true) (v : DWord) : (h.copyLead v 0).unstepped = h.unstepped := by
  have hstep := h.stepTime_unstepped hmain (h.afterLead v 0).ticks (statusOf v) 2 (statusOf v == .setSynced)
  unfold Hw.copyLead
  dsimp only
  rw [Hw.setLodge_unstepped, hstep]

/-- A pair that is written at once changes neither the Lodge nor the count of lost records nor the queue. -/
theorem Hw.pair_spec (d : List Byte) : (h.pair 0x201 d).lodge = h.lodge ∧
      (h.pair 0x201 d).recordsLost = h.recordsLost ∧ (h.pair 0x201 d).store.queue = h.store.queue := by
  refine ⟨?_, ?_, ?_⟩
  · exact lodge_of_station (h.pair_station 0x201 d)
  · exact lost_of_station (h.pair_station 0x201 d)
  · have := h.pair_ledger 0x201 d
    generalize h.pair 0x201 d = g at this ⊢
    exact congrArg Ledger.queue this

/-- A step that finds no log space counts its record as lost and keeps what it wrote. -/
theorem Hw.loseStored_spec (hlimp : h.inLimp = false) : h.loseStored.lodge = h.lodge ∧
    h.loseStored.recordsLost = h.recordsLost + 1 ∧ h.loseStored.store.queue = h.store.queue := by
  have hlost : h.loseRecord.inLimp = false := hlimp
  obtain ⟨hl, hr, hq⟩ := h.loseRecord.pair_spec (be 4 h.loseRecord.recordsLost)
  have e : h.loseStored = h.loseRecord.pair 0x201 (be 4 h.loseRecord.recordsLost) := by
    unfold Hw.loseStored
    dsimp only
    rw [hlost, if_neg Bool.false_ne_true]
  rw [e, hl, hr, hq]
  exact ⟨rfl, rfl, rfl⟩

end

/-! ## The comparison with the lead (R230) -/

section
variable {h : Hw}

/-- The value that a follower steps to: its own count moved by the difference at the boundary, with the lead's status. -/
def Hw.stepValue (h : Hw) : DWord :=
  timeValue (h.lodge.ticks + ticksOf h.prm.leadTime.toNat - h.prm.ownTicks) (statusOf h.prm.leadTime) 0

theorem Hw.compareTime_within (hlow : ticksOf h.prm.leadTime.toNat ≤ h.prm.ownTicks + 1)
    (hhigh : h.prm.ownTicks ≤ ticksOf h.prm.leadTime.toNat + 1) : h.compareTime = h := by
  unfold Hw.compareTime
  dsimp only
  split
  · rfl
  · rw [if_neg (by omega), if_neg (by omega)]

theorem Hw.compareTime_closed (hclosed : h.lodge.lock = true ∨ statusOf h.prm.leadTime = .invalid) : h.compareTime = h := by
  unfold Hw.compareTime
  dsimp only
  rw [if_pos (by rcases hclosed with hclosed | hclosed <;> simp [hclosed])]

section
variable (hlock : h.lodge.lock = false) (hvalid : statusOf h.prm.leadTime ≠ .invalid)
include hlock hvalid

theorem Hw.compareTime_step (hfar : h.prm.ownTicks + 2 ≤ ticksOf h.prm.leadTime.toNat ∨
      ticksOf h.prm.leadTime.toNat + 2 ≤ h.prm.ownTicks)
    (hlow : ticksOf h.prm.leadTime.toNat < h.prm.ownTicks + 1024) (hhigh : h.prm.ownTicks < ticksOf h.prm.leadTime.toNat + 1024) :
    h.compareTime = h.copyLead h.stepValue 0 := by
  unfold Hw.compareTime
  dsimp only
  rw [if_neg (by simp [hlock, hvalid]), if_neg (by omega), if_pos (by omega)]
  rfl

theorem Hw.compareTime_record (hfar : h.prm.ownTicks + 1024 ≤ ticksOf h.prm.leadTime.toNat ∨
      ticksOf h.prm.leadTime.toNat + 1024 ≤ h.prm.ownTicks) : h.compareTime = h.copyLeadRecorded h.stepValue 0 := by
  unfold Hw.compareTime
  dsimp only
  rw [if_neg (by simp [hlock, hvalid]), if_pos (by omega)]
  rfl

end

/-- A step to a count below 2^49: the Lodge holds it, with the lead's status and source 2. -/
theorem Hw.stepValue_spec
    (hnew : h.lodge.ticks + ticksOf h.prm.leadTime.toNat - h.prm.ownTicks < 2 ^ 49) :
    ticksOf h.stepValue.toNat = h.lodge.ticks + ticksOf h.prm.leadTime.toNat - h.prm.ownTicks ∧
      statusOf h.stepValue = statusOf h.prm.leadTime :=
  ⟨ticksOf_timeValue (by omega) (by decide), statusOf_timeValue (by omega) (by decide)⟩

end

theorem completes_compare {s : State} {post : Hw → Prop} (hruns : s.hw.linkRuns = true) (hrole : s.hw.prm.role = .follower)
    (hlink : s.hw.prm.link = .active) (hp : post s.hw.compareTime) : Completes .prmTimeCompare s post := by
  refine ⟨_, rfl, rfl, ?_⟩
  dsimp only
  rwa [if_pos (by simp [hruns, hrole, hlink])]

/-! ## The step with its record (R230, R298, R313) -/

section
variable {h : Hw} (hlimp : h.inLimp = false)
include hlimp

/-- With room for its record the step comes with it. -/
theorem Hw.copyLeadRecorded_room (v : DWord) (hmain : h.ins.mainOn = true) (hspace : 18 ≤ h.logSpace) (herased : 3 ≤ h.logErased) :
    let t := h.copyLeadRecorded v 0
    t.lodge.ticks = ticksOf v.toNat ∧ t.lodge.source = 2 ∧ t.lodge.status = statusOf v ∧ t.store.queue = h.store.queue ++
      [logWrite (h.timeRecord h.now (timeValue (ticksOf v.toNat) (statusOf v) 2)) true 0 .none] := by
  unfold Hw.copyLeadRecorded
  rw [hlimp, if_neg Bool.false_ne_true, if_neg (by omega), if_neg (by omega)]
  dsimp only
  rw [h.afterLead_ticks]
  generalize h.timeRecord _ _ = d
  obtain ⟨hcount, hsource, hst⟩ := (h.enqueueLog d .none).copyLead_lodge v
  have hstore := (h.enqueueLog d .none).copyLead_unstepped hmain v
  exact ⟨hcount, hsource, hst, queue_of_unstepped hstore⟩

/-- Without log space the step comes, and its record counts as lost. -/
theorem Hw.copyLeadRecorded_full (v : DWord) (hmain : h.ins.mainOn = true) (hspace : h.logSpace < 18) :
    let t := h.copyLeadRecorded v 0
    t.lodge.ticks = ticksOf v.toNat ∧ t.lodge.source = 2 ∧ t.lodge.status = statusOf v ∧ t.recordsLost = h.recordsLost + 1 ∧
      t.store.queue = h.store.queue := by
  unfold Hw.copyLeadRecorded
  rw [hlimp, if_neg Bool.false_ne_true, if_pos hspace]
  obtain ⟨hcount, hsource, hst⟩ := h.copyLead_lodge v
  have hkept := h.copyLead_unstepped hmain v
  generalize h.copyLead v 0 = g at *
  obtain ⟨hlodge, hlost, hqueue⟩ := g.loseStored_spec ((inLimp_of_unstepped hkept).trans hlimp)
  dsimp only
  rw [hlodge, hlost, hqueue]
  exact ⟨hcount, hsource, hst, congrArg (· + 1) (lost_of_unstepped hkept), queue_of_unstepped hkept⟩

/-- Where no entry is erased the step waits. -/
theorem Hw.copyLeadRecorded_waits (v : DWord) (hspace : 18 ≤ h.logSpace) (herased : h.logErased < 3) : h.copyLeadRecorded v 0 =
    { h with lodge := { h.lodge with leadStep := some { value := v, delay := 0, since := h.clk } } } := by
  unfold Hw.copyLeadRecorded
  rw [hlimp, if_neg Bool.false_ne_true, if_neg (by omega), if_pos herased]

end

theorem Hw.linkRuns_mainOn {h : Hw} (hruns : h.linkRuns = true) : h.ins.mainOn = true := by
  simp only [Hw.linkRuns, Bool.and_eq_true] at hruns
  exact hruns.1.1

/-- Settles O38: the step of the Lodge is one write, `stepTime`, that its alarms meet; the comparison with the lead decides whether it
comes, and the log space whether a record comes with it. -/
theorem timeIsSetAndFollowed : Obligations.TimeIsSetAndFollowed := by
  unfold Obligations.TimeIsSetAndFollowed
  refine ⟨?applied, ?kept, ?forward, ?discarded, ?closed, ?back, ?recorded⟩
  case applied =>
    intro s j hset hcommitted hlock
    refine ⟨_, rfl, rfl, ?_⟩
    dsimp only
    rw [hset]
    dsimp only
    rw [if_pos hcommitted, if_neg (by simp [hlock])]
    obtain ⟨a, c, hlodge⟩ := ({ s.hw with lodge := { s.hw.lodge with timeSet := none } } : Hw).stepTime_lodge (s.hw.timeTarget j)
      (syncStatus j.synced) 1 j.synced
    generalize Hw.stepTime _ _ _ _ _ = g at hlodge ⊢
    refine ⟨?_, ?_, ?_, ?_, rfl, ?_⟩
    · exact congrArg Lodge.ticks hlodge
    · exact congrArg Lodge.source hlodge
    · exact congrArg Lodge.timeSet hlodge
    · exact congrArg Lodge.status hlodge
    · intro hsync
      exact (congrArg Lodge.lastSync hlodge).trans (if_pos hsync)
  case kept =>
    intro s hruns hrole hlink hlow hhigh
    exact completes_compare hruns hrole hlink (Hw.compareTime_within hlow hhigh)
  case forward =>
    intro s hruns hrole hlink hlock hvalid hfar hnear hnew
    obtain ⟨hticks, hstatus⟩ := s.hw.stepValue_spec (by omega)
    obtain ⟨hcount, hsource, hst⟩ := s.hw.copyLead_lodge s.hw.stepValue
    refine completes_compare hruns hrole hlink ?_
    rw [Hw.compareTime_step hlock hvalid (.inl hfar) hnear (by omega)]
    exact ⟨by omega, hsource, hst.trans hstatus⟩
  case discarded =>
    intro s j hset hcommitted hlock
    refine ⟨_, rfl, rfl, ?_⟩
    dsimp only
    rw [hset]
    dsimp only
    rw [if_pos hcommitted, if_pos hlock]
    exact ⟨rfl, rfl, fun x hx hnum hrunning => Hw.mem_endJob _ hx hnum hrunning 0x32 0 (be 4 j.seq)⟩
  case closed =>
    intro s hruns hrole hlink hclosed
    exact completes_compare hruns hrole hlink (Hw.compareTime_closed hclosed)
  case back =>
    intro s hruns hrole hlink hlock hvalid hfar hnear hcount hnew
    obtain ⟨hticks, hstatus⟩ := s.hw.stepValue_spec (by omega)
    obtain ⟨hcopied, hsource, hst⟩ := s.hw.copyLead_lodge s.hw.stepValue
    have hstore := s.hw.copyLead_unstepped (Hw.linkRuns_mainOn hruns) s.hw.stepValue
    refine completes_compare hruns hrole hlink ?_
    rw [Hw.compareTime_step hlock hvalid (.inr hfar) (by omega) hnear]
    exact ⟨by omega, hsource, hst.trans hstatus, queue_of_unstepped hstore⟩
  case recorded =>
    intro s
    dsimp only
    intro hruns hrole hlink hlock hvalid hfar hcount hnew hlimp
    have hmain := Hw.linkRuns_mainOn hruns
    obtain ⟨hticks, hstatus⟩ := s.hw.stepValue_spec hnew
    refine ⟨fun hspace herased => completes_compare hruns hrole hlink ?room, fun hspace => completes_compare hruns hrole hlink ?full,
      fun hspace herased => completes_compare hruns hrole hlink ?waits⟩
    all_goals rw [Hw.compareTime_record hlock hvalid hfar]
    case room =>
      have hroom := Hw.copyLeadRecorded_room hlimp s.hw.stepValue hmain hspace herased
      rwa [hticks, hstatus] at hroom
    case full =>
      have hfull := Hw.copyLeadRecorded_full hlimp s.hw.stepValue hmain hspace
      rwa [hticks, hstatus] at hfull
    case waits =>
      rw [Hw.copyLeadRecorded_waits hlimp s.hw.stepValue hspace herased]
      exact ⟨rfl, rfl, ⟨0, rfl⟩, rfl⟩

end Sys2Proof.Machine
end

section
/-! SUPPORT. Frames of the Promenade link: what a module sends in its slot, what a receiver makes of what it hears (R211–R220, R225). -/

namespace Sys2Proof.Machine

/-! ## A frame as it is sent (R212, R213) -/

/-- Header and payload of a frame, before its CRC. -/
def frameBody (ty src : Nat) (payload : List Byte) : List Byte :=
  BitVec.ofNat 8 ty :: BitVec.ofNat 8 src :: BitVec.ofNat 8 payload.length :: 0 :: payload

theorem prmFrame_eq (ty src : Nat) (payload : List Byte) :
    prmFrame ty src payload = frameBody ty src payload ++ be 4 (crc32 (frameBody ty src payload)).toNat := by
  unfold prmFrame frameBody
  simp only [be_one]
  rfl

theorem frameBody_length (ty src : Nat) (payload : List Byte) : (frameBody ty src payload).length = payload.length + 4 := rfl

/-- What a module sends with a payload of at most 64 bytes is a frame that R213 accepts in its slot. -/
theorem prmFrame_ok {ty src : Nat} {payload : List Byte} (hlen : payload.length ≤ 64) (hty : ty < 256) (hsrc : src < 256)
    (hallowed : typeAllowed ty src = true) :
    frameOk (prmFrame ty src payload) src = true ∧ frameType (prmFrame ty src payload) = ty := by
  have hbyte : ∀ v : Nat, v < 256 → (BitVec.ofNat 8 v).toNat = v := fun v hv => by
    rw [BitVec.toNat_ofNat]
    exact Nat.mod_eq_of_lt hv
  have htype : frameType (prmFrame ty src payload) = ty := by
    rw [prmFrame_eq]
    exact hbyte ty hty
  have hsender : ((prmFrame ty src payload).getD 1 0).toNat = src := by
    rw [prmFrame_eq]
    exact hbyte src hsrc
  have hcount : ((prmFrame ty src payload).getD 2 0).toNat = payload.length := by
    rw [prmFrame_eq]
    exact hbyte _ (by omega)
  have hcrc : frameCrcOk (prmFrame ty src payload) = true := by
    unfold frameCrcOk
    dsimp only
    rw [hcount, prmFrame_eq, List.drop_left' (frameBody_length _ _ _), List.take_left' (frameBody_length _ _ _)]
    simp [frameBody_length, hlen]
  refine ⟨?_, htype⟩
  unfold frameOk
  rw [hcrc, hsender, htype, hallowed]
  simp

/-! ## Payloads and fragments (R214, R215, R217, R227) -/

theorem fragment_length_le (r : Relay) : (fragment r).length ≤ 44 := by
  have hdata : (slice r.out (fragData * r.outFrag) fragData).length ≤ 40 := List.length_take_le _ _
  unfold fragment
  simp only [List.length_append, be_length]
  omega

theorem Relay.next_length_le (r : Option Relay) : (Relay.next r).1.length ≤ 44 := by
  cases r with
  | none => exact Nat.zero_le _
  | some r =>
    unfold Relay.next
    dsimp only
    split
    · exact fragment_length_le r
    · exact Nat.zero_le _

section
variable (h : Hw)

theorem Hw.leadPayload_length (frag : List Byte) : (h.leadPayload frag).length = 20 + frag.length := by
  unfold Hw.leadPayload
  simp only [List.length_append, be_length, List.length_singleton]

theorem Hw.statusPayload_length (frag : List Byte) : (h.statusPayload frag).length = 8 + frag.length := by
  unfold Hw.statusPayload
  simp only [List.length_append, be_length, beInt_length]

theorem Hw.joinPayload_length : h.joinPayload.length = 13 := by
  unfold Hw.joinPayload
  simp only [List.length_append, be_length]

theorem Hw.ownIndex_lt : h.ownIndex < 16 := h.straps.idx.isLt

/-- In its own slot a follower may send a STATUS, a JOIN or a LEAVE. -/
theorem Hw.typeAllowed_own (hidx : h.straps.idx ≠ 0) {ty : Nat} (hty : ty = 2 ∨ ty = 3) : typeAllowed ty h.ownIndex = true := by
  have hown : h.ownIndex ≠ 0 := fun h0 => hidx (BitVec.eq_of_toNat_eq h0)
  unfold typeAllowed
  rw [if_neg hown]
  rcases hty with rfl | rfl <;> rfl

/-! ## The lead's cycle (R211, R217, R218) -/

/-- The frame of a lead's LEAVE. -/
theorem leaveFrame_ok (r : Nat) : frameOk (prmFrame 4 0 (be 1 r)) 0 = true ∧ frameType (prmFrame 4 0 (be 1 r)) = 4 :=
  prmFrame_ok (by rw [be_length]; decide) (by decide) (by decide) rfl

/-- What the judging of packets and the choice of the next relay leave alone of the link and the outputs, and what their errors' reactions
depend on. -/
def Hw.boundary (h : Hw) : Prm × List Output × List Nat × Seq × PowerPath :=
  ({ h.prm with relay := none, relayTag := 0 }, h.outs, h.faults.policies, h.seq, h.pwr)

theorem reaction_of_boundary {g h : Hw} (e : g.boundary = h.boundary) (src : Nat) : g.reaction src = h.reaction src := by
  have hpolicies : g.faults.policies = h.faults.policies := congrArg (·.2.2.1) e
  have hlimp : g.inLimp = h.inLimp := congrArg (·.2.2.2.1.state == .limp) e
  have hpwr : g.pwr = h.pwr := congrArg (·.2.2.2.2) e
  unfold Hw.reaction
  rw [hpolicies, hlimp, hpwr]

theorem Hw.respond_boundary (o : Origin) (st : Nat) (d : List Byte) : (h.respond o st d).boundary = h.boundary := by
  unfold Hw.respond
  dsimp only
  split
  · rfl
  · cases o <;> rfl

theorem Hw.modMbx_boundary (o : Origin) (f : Mailbox → Mailbox) : (h.modMbx o f).boundary = h.boundary := by cases o <;> rfl

theorem Hw.take_boundary (id : Nat) : (h.take id).boundary = h.boundary := by
  unfold Hw.take Faults.take
  split <;> rfl

theorem Faults.note_policies (f : Faults) (c : Capture) (r : Nat) (d : List Byte) (clk : Nat) :
    (f.note c r d clk).policies = f.policies := by
  unfold Faults.note
  extract_lets same bump new sec cnt add
  have hadd : add.policies = f.policies := by unfold add; split <;> rfl
  split
  · split
    · rfl
    · exact hadd
  · split
    · split
      · rfl
      · exact hadd
    · exact hadd

theorem Hw.raise_boundary (k : Nat) : (h.raise k).boundary = h.boundary := by
  rw [Hw.raise_eq]
  rfl

theorem Hw.capture_boundary (c : Capture) : (h.capture c).boundary = h.boundary := by
  unfold Hw.capture
  split
  · rfl
  · split
    · exact Hw.raise_boundary _ 48
    · rfl

theorem Hw.setFaults_boundary (f : Faults) (hf : f.policies = h.faults.policies) :
    ({ h with faults := f } : Hw).boundary = h.boundary := by
  unfold Hw.boundary
  rw [hf]

theorem Hw.collect_boundary (src addr master access : Nat) (d : List Byte) :
    (h.collect src addr master access d).boundary = h.boundary := by
  unfold Hw.collect
  dsimp only
  rw [Hw.warn_eq]
  exact (Hw.setFaults_boundary _ _ (Faults.note_policies _ _ _ _ _)).trans (h.capture_boundary _)

section
variable {h}

/-- A packet of a wrong CRC-16 whose class warns at most. -/
theorem Hw.report_boundary (hr : h.reaction 0x41 ≤ 1) (addr master access : Nat) (d : List Byte) :
    (h.report 0x41 addr master access d).boundary = h.boundary := by
  rw [Hw.report_of_le_one _ hr]
  exact h.collect_boundary _ _ _ _ _

theorem Hw.badPacket_boundary (hr : h.reaction 0x41 ≤ 1) (o : Origin) (pkt : List Byte) : (h.badPacket o pkt).boundary = h.boundary := by
  have htaken := h.take_boundary 0x0A
  have hreport : ∀ (g : Hw) (addr : Nat) (d : List Byte), g.boundary = h.boundary →
      ((g.report 0x41 addr (masterOf o) 3 d).respond o stBadCrc []).boundary = h.boundary := fun g addr d e =>
    (Hw.respond_boundary _ _ _ _).trans ((Hw.report_boundary (by rwa [reaction_of_boundary e]) _ _ _ _).trans e)
  have hanswer : ∀ (g : Hw) (st : Nat), g.boundary = h.boundary → (g.respond o st []).boundary = h.boundary := fun g st e =>
    (g.respond_boundary o st []).trans e
  unfold Hw.badPacket
  dsimp only
  split
  · exact hreport h _ _ rfl
  split
  · exact hanswer h _ rfl
  split
  · exact hreport _ _ _ htaken
  split
  · exact hanswer _ _ htaken
  split
  · exact hanswer _ _ htaken
  split
  · exact htaken
  split
  · exact hanswer _ _ htaken
  split
  · exact hanswer _ _ htaken
  · exact htaken

theorem Hw.judge_boundary (hr : h.reaction 0x41 ≤ 1) (o : Origin) : (h.judge o).boundary = h.boundary := by
  have hmark := h.modMbx_boundary o (fun m => { m with judged := true })
  have hbad : ∀ pkt, ((h.modMbx o (fun m => { m with judged := true })).badPacket o pkt).boundary = h.boundary := fun pkt =>
    (Hw.badPacket_boundary (by rwa [reaction_of_boundary hmark]) o pkt).trans hmark
  have hbusy := (Hw.respond_boundary _ o stBusy []).trans hmark
  unfold Hw.judge
  dsimp only
  split
  · split
    · rfl
    split
    · exact hbad _
    split
    · exact hbusy
    split
    · exact hbusy
    · exact hbad _
  · rfl

theorem Hw.judgeDue_boundary (hr : h.reaction 0x41 ≤ 1) : h.judgeDue.boundary = h.boundary := by
  have hfirst := Hw.judge_boundary hr .A
  have hsecond := (Hw.judge_boundary (by rwa [reaction_of_boundary hfirst]) .V).trans hfirst
  exact (Hw.judge_boundary (by rwa [reaction_of_boundary hsecond]) .A).trans hsecond

end

theorem Hw.startRelay_boundary : h.startRelay.boundary = h.boundary := by
  unfold Hw.startRelay
  extract_lets one
  have hone : ∀ g : Hw, (one g).boundary = g.boundary := by
    intro g
    unfold one
    split
    · rfl
    split
    · dsimp only
      split
      · rfl
      · exact Hw.respond_boundary _ _ _ _
    · rfl
  exact (hone _).trans (hone h)

/-- The lead's LEAD frame at the boundary of its cycle. -/
theorem Hw.leadCycle_sends (hdue : h.prm.leaveDue = none) (hr : h.reaction 0x41 ≤ 1) : let t := h.leadCycle
    frameOk t.prm.tx 0 = true ∧ frameType t.prm.tx = 1 ∧ t.prm.cycle = h.prm.cycle + 1 ∧ t.prm.joins = [] ∧ t.outs = h.outs := by
  have hkept : h.admitJoins.judgeDue.startRelay.boundary = h.admitJoins.boundary :=
    (Hw.startRelay_boundary _).trans (Hw.judgeDue_boundary hr)
  unfold Hw.leadCycle
  rw [hdue]
  dsimp only
  generalize h.admitJoins.judgeDue.startRelay = g at hkept ⊢
  have hfrag := Relay.next_length_le g.prm.relay
  obtain ⟨hok, htype⟩ := prmFrame_ok (ty := 1) (src := 0) (payload := Hw.leadPayload { g with prm := { g.prm with
    cmd := g.prm.command, clearLeft := g.prm.clearLeft - b2n (g.prm.command == 3), relay := (Relay.next g.prm.relay).2 } }
    (Relay.next g.prm.relay).1) (by rw [Hw.leadPayload_length]; omega) (by decide) (by decide) rfl
  exact ⟨hok, htype, congrArg (·.1.cycle + 1) hkept, congrArg (·.1.joins) hkept, congrArg (·.2.1) hkept⟩

/-! ## The follower's slot (R211, R215, R217) -/

theorem Hw.followerSlot_status (hlink : h.prm.link = .active) (hdue : h.prm.leaveDue = none) (hrelay : h.prm.relay = none) :
    h.followerSlot = { h with prm := { h.prm with tx := prmFrame 2 h.ownIndex (h.statusPayload []), relay := none } } := by
  unfold Hw.followerSlot
  rw [hlink, hdue, hrelay]
  rfl

theorem Hw.followerSlot_join (hlink : h.prm.link = .joining) (hsent : h.prm.joinSent = false) (hwait : h.prm.joinWait = false) :
    h.followerSlot = { h with prm := { h.prm with tx := prmFrame 3 h.ownIndex h.joinPayload, joinSent := true } } := by
  unfold Hw.followerSlot
  rw [hlink]
  dsimp only
  rw [if_neg (by simp [hsent, hwait])]

end

section
variable {s : State} {post : Hw → Prop}

theorem completes_cycle_lead (hruns : s.hw.linkRuns = true) (hrole : s.hw.prm.role = .lead) (hon : s.hw.prm.leadOn = true)
    (hp : post s.hw.leadCycle) : Completes .prmCycle s post := by
  refine ⟨_, rfl, rfl, ?_⟩
  dsimp only
  rwa [if_pos hruns, if_pos (by simp [hrole]), if_pos hon]

theorem completes_cycle_follower (hruns : s.hw.linkRuns = true) (hrole : s.hw.prm.role = .follower) (hp : post s.hw.followerSlot) :
    Completes .prmCycle s post := by
  refine ⟨_, rfl, rfl, ?_⟩
  dsimp only
  rwa [if_pos hruns, if_neg (by simp [hrole])]

end

/-! ## A frame that is heard (R213–R215, R217, R219) -/

/-- The module has counted a valid frame of a slot. -/
def Hw.heard (h : Hw) (slot : Nat) : Hw := h.modPeer slot (fun x => { x with frames := (x.frames + 1) % 2 ^ 32 })

section
variable {h : Hw} {slot : Nat} {f : List Byte}

/-- The lead hears a rival by a LEAD frame alone. -/
theorem Hw.no_rival_at_lead (hrole : h.prm.role = .lead) (hty : frameType f ≠ 1) :
    (h.heard slot).hearsRival slot (frameType f) = false := by
  simp [Hw.hearsRival, Hw.heard, Hw.modPeer, hrole, hty]

/-- An admitted follower hears no rival. -/
theorem Hw.no_rival_at_active (hlink : h.prm.link = .active) : (h.heard slot).hearsRival slot (frameType f) = false := by
  simp [Hw.hearsRival, Hw.heard, Hw.modPeer, hlink]

section
variable (d : Nat) (hruns : h.linkRuns = true)
include hruns

/-- A frame that R213 does not accept is counted as an error, whatever Folly makes of its check. -/
theorem Hw.frame_discarded (hbad : frameOk f slot = false) :
    h.frame slot f d = (h.take 0x0C).discardFrame f slot (injected (h.hit 0x0C)) := by
  unfold Hw.frame
  rw [if_pos hruns]
  dsimp only
  rw [if_neg (by simp [hbad])]

variable (hhit : h.hit 0x0C = false) (hok : frameOk f slot = true)
include hhit hok

theorem Hw.frame_accepted : h.frame slot f d = h.acceptFrame slot f d := by
  unfold Hw.frame
  rw [if_pos hruns]
  dsimp only
  rw [if_pos (by simp [hhit, hok]), h.take_quiet 0x0C hhit]

/-- What a frame does that shows no rival. -/
theorem Hw.frame_of_no_rival (hno : (h.heard slot).hearsRival slot (frameType f) = false) : h.frame slot f d =
    if h.prm.role == .lead then
      if frameType f = 2 then (h.heard slot).statusAtLead slot (framePayload f)
      else if frameType f = 3 then (h.heard slot).joinAtLead slot (framePayload f)
      else if frameType f = 4 then (h.heard slot).dropFollower slot
      else h.heard slot
    else if slot = 0 then
      if frameType f = 1 then (h.heard slot).leadAtFollower (framePayload f) d else (h.heard slot).orphan
    else h.heard slot := by
  unfold Hw.heard at hno ⊢
  rw [Hw.frame_accepted d hruns hhit hok]
  unfold Hw.acceptFrame
  dsimp only
  rw [hno, if_neg Bool.false_ne_true]
  refine if_congr Iff.rfl ?lead (if_congr Iff.rfl ?follower rfl)
  case lead =>
    split
    next hty => rw [if_pos hty]
    next hty => rw [if_neg (by omega), if_pos hty]
    next hty => rw [if_neg (by omega), if_neg (by omega), if_pos hty]
    next h2 h3 h4 => rw [if_neg h2, if_neg h3, if_neg h4]
  case follower =>
    split
    next hty => rw [if_pos hty]
    next hty => rw [if_neg hty]

section
variable (hrole : h.prm.role = .lead)
include hrole

theorem Hw.frame_status (hty : frameType f = 2) : h.frame slot f d = (h.heard slot).statusAtLead slot (framePayload f) := by
  rw [Hw.frame_of_no_rival d hruns hhit hok (Hw.no_rival_at_lead hrole (by omega)), if_pos (by simp [hrole]), if_pos hty]

theorem Hw.frame_join (hty : frameType f = 3) : h.frame slot f d = (h.heard slot).joinAtLead slot (framePayload f) := by
  rw [Hw.frame_of_no_rival d hruns hhit hok (Hw.no_rival_at_lead hrole (by omega)), if_pos (by simp [hrole]),
    if_neg (by omega), if_pos hty]

theorem Hw.frame_leave (hty : frameType f = 4) : h.frame slot f d = (h.heard slot).dropFollower slot := by
  rw [Hw.frame_of_no_rival d hruns hhit hok (Hw.no_rival_at_lead hrole (by omega)), if_pos (by simp [hrole]),
    if_neg (by omega), if_neg (by omega), if_pos hty]

end

section
variable (hrole : h.prm.role = .follower) (hlink : h.prm.link = .active) (hslot : slot = 0)
include hrole hlink hslot

theorem Hw.frame_lead (hty : frameType f = 1) : h.frame slot f d = (h.heard slot).leadAtFollower (framePayload f) d := by
  rw [Hw.frame_of_no_rival d hruns hhit hok (Hw.no_rival_at_active hlink), if_neg (by simp [hrole]), if_pos hslot, if_pos hty]

theorem Hw.frame_leadLeaves (hty : frameType f = 4) : h.frame slot f d = (h.heard slot).orphan := by
  rw [Hw.frame_of_no_rival d hruns hhit hok (Hw.no_rival_at_active hlink), if_neg (by simp [hrole]), if_pos hslot,
    if_neg (by omega)]

end

end

end

/-! ## The lead's frame at an admitted follower (R214, R220, R225) -/

section
variable (h : Hw)

theorem Hw.copyStatus_prm (v : DWord) : (h.copyStatus v).prm = h.prm := by
  unfold Hw.copyStatus
  dsimp only
  split <;> rfl

theorem Hw.requestFragment_prm (f : List Byte) : ∃ r, (h.requestFragment f).prm = { h.prm with relay := r } := by
  unfold Hw.requestFragment
  dsimp only
  split
  · exact ⟨h.prm.relay, rfl⟩
  · exact ⟨_, by rw [Hw.wake_eq]⟩

theorem Hw.clearFault_none_station : (h.clearFault none).station = h.station := by
  unfold Hw.clearFault
  dsimp only
  split
  · rfl
  split
  · rfl
  · rfl

/-- What CAB_CMD asks of a module that leads no cabinet leaves its part of the link, but for the command last acted on. -/
theorem Hw.actOnCommand_station (hrole : h.prm.role ≠ .lead) :
    ∃ a, h.actOnCommand.station = ({ h with prm := { h.prm with acted := a } } : Hw).station := by
  unfold Hw.actOnCommand
  dsimp only
  split
  · exact ⟨h.prm.acted, rfl⟩
  refine ⟨h.prm.cmd, ?_⟩
  generalize hacted : ({ h with prm := { h.prm with acted := h.prm.cmd } } : Hw) = g
  have hkept : ∀ c : Prop, [Decidable c] → (if c then g else g.wake).station = g.station := fun c _ =>
    ite_station rfl g.wake_station
  have hnot : ∀ c : Prop, [Decidable c] → (if c then g else g.wake).prm.role ≠ .lead := fun c _ => by
    rw [role_of_station (hkept c), ← hacted]
    exact hrole
  split
  · exact (Hw.onRequest_station (hnot _) none).trans (hkept _)
  split
  · exact (Hw.offRequest_station (hnot _) none).trans (hkept _)
  split
  · exact (Hw.clearFault_none_station _).trans (hkept _)
  · exact hkept _

/-- The cabinet fields of a LEAD frame stay as they were taken; a follower that the roster leaves out listens again. -/
theorem Hw.leadAtFollower_spec (p : List Byte) (d : Nat) (hrole : h.prm.role = .follower) (hlink : h.prm.link = .active) :
    let t := h.leadAtFollower p d
    let roster := BitVec.ofNat 16 (ube (slice p 12 2))
    t.prm.roster = roster ∧ t.prm.token = ube (slice p 11 1) ∧ t.prm.cmd = ube (slice p 9 1) % 4 ∧
      (roster.getLsbD h.ownIndex = true → t.prm.link = .active) ∧ (roster.getLsbD h.ownIndex = false → t.prm.link = .listening) := by
  have hlink' : (h.takeLead p d).prm.link = .active := hlink
  have hroster : (h.takeLead p d).prm.roster = BitVec.ofNat 16 (ube (slice p 12 2)) := rfl
  have hown : (h.takeLead p d).ownIndex = h.ownIndex := rfl
  unfold Hw.leadAtFollower
  dsimp only
  rw [hlink', hroster, hown]
  dsimp only
  split
  next hmine =>
    generalize hcopied : (if statusOf h.prm.leadTime == statusOf (h.takeLead p d).prm.leadTime then h.takeLead p d
      else (h.takeLead p d).copyStatus (h.takeLead p d).prm.leadTime) = g
    have hprm : g.prm = (h.takeLead p d).prm := by
      rw [← hcopied]
      split
      · rfl
      · exact Hw.copyStatus_prm _ _
    obtain ⟨a, hacted⟩ := g.actOnCommand_station (by rw [hprm]; exact fun hlead => absurd (hrole.symm.trans hlead) (by decide))
    obtain ⟨r, hrelay⟩ := g.actOnCommand.requestFragment_prm (p.drop 20)
    rw [hrelay]
    refine ⟨?_, ?_, ?_, fun _ => ?_, fun hout => absurd hmine (by simp [hout])⟩
    · exact (roster_of_station hacted).trans (congrArg Prm.roster hprm)
    · exact (token_of_station hacted).trans (congrArg Prm.token hprm)
    · exact (cmd_of_station hacted).trans (congrArg Prm.cmd hprm)
    · exact (link_of_station hacted).trans ((congrArg Prm.link hprm).trans hlink)
  next hout => exact ⟨rfl, rfl, rfl, fun hmine => absurd hmine hout, fun _ => rfl⟩

/-! ## Members at the lead (R215, R217) -/

/-- A member as its STATUS frame reports it. -/
def Peer.reported (x : Peer) (p : List Byte) : Peer :=
  { x with state := ube (slice p 0 1), done := ube (slice p 1 1), flags := ube (slice p 2 1), cause := ube (slice p 3 1),
           pIn := ube (slice p 4 4) }

theorem Hw.modPeer_peer (f : Peer → Peer) {i : Nat} (hi : i < h.prm.peers.length) :
    (h.modPeer i f).prm.peers.getD i Peer.none = f (h.prm.peers.getD i Peer.none) := by
  unfold Hw.modPeer
  rw [getD_modify, if_pos ⟨rfl, hi⟩]

theorem Hw.heard_peers_length (slot : Nat) : (h.heard slot).prm.peers.length = h.prm.peers.length := by
  simp [Hw.heard, Hw.modPeer]

theorem Hw.statusAtLead_of_member {slot : Nat} (p : List Byte) (hin : h.prm.roster.getLsbD slot = true) (hrelay : h.prm.relay = none) :
    h.statusAtLead slot p = h.modPeer slot (fun x => x.reported p) := by
  unfold Hw.statusAtLead
  rw [if_pos hin]
  dsimp only
  rw [if_neg (by simp [Hw.modPeer, hrelay])]
  rfl

theorem Hw.joinAtLead_of_new {slot : Nat} (p : List Byte) (hon : h.prm.leadOn = true) (hout : h.prm.roster.getLsbD slot = false)
    (hnew : slot ∉ h.prm.joins) (hadmit : h.prm.admitMask.getLsbD slot = true) : let t := h.joinAtLead slot p
    t.prm.joins = h.prm.joins ++ [slot] ∧ t.prm.roster = h.prm.roster ∧ t.outs = h.outs := by
  unfold Hw.joinAtLead
  rw [if_neg (by simp [hon, hout, hnew, hadmit])]
  exact ⟨rfl, rfl, rfl⟩

/-! ## A frame that is discarded (R213) -/

/-- Of the link a discarded frame changes the error count alone. -/
theorem Hw.discardFrame_spec (f : List Byte) (slot : Nat) (d : List Byte) : let t := h.discardFrame f slot d
    t.prm.err = min 0xFFFFFFFF (h.prm.err + 1) ∧ t.prm.roster = h.prm.roster ∧ t.prm.link = h.prm.link ∧ t.prm.cmd = h.prm.cmd ∧
      t.prm.peers = h.prm.peers := by
  unfold Hw.discardFrame
  generalize hcounted : ({ h with prm := { h.prm with err := min 0xFFFFFFFF (h.prm.err + 1) } } : Hw) = g
  have hreported := g.report_station 0xB0 (frameType f * 256 + slot) 4 4 d
  subst hcounted
  exact ⟨(err_of_station hreported).trans rfl, (roster_of_station hreported).trans rfl, (link_of_station hreported).trans rfl,
    (cmd_of_station hreported).trans rfl, (peers_of_station hreported).trans rfl⟩

theorem Hw.orphan_cmd : h.orphan.prm.cmd = h.prm.cmd := by
  unfold Hw.orphan
  split
  · rw [Hw.raise_eq]
  · rfl

end

/-- Settles O34: what is sent is a `prmFrame` with a payload of at most 64 bytes, and what is heard is judged once, by `frameOk`, before
its type and the receiver's role decide what it changes. -/
theorem framesKeepToTheRules : Obligations.FramesKeepToTheRules := by
  unfold Obligations.FramesKeepToTheRules
  refine ⟨?leave, ?lead, ?status, ?join, ?still, ?leadHeard, ?statusHeard, ?joinHeard, ?leaveHeard, ?leadLeaves, ?discarded⟩
  case leave =>
    intro s r hruns hrole hon hdue
    obtain ⟨hok, htype⟩ := leaveFrame_ok r
    refine completes_cycle_lead hruns hrole hon ?_
    unfold Hw.leadCycle
    rw [hdue]
    exact ⟨hok, htype, rfl, rfl, rfl, rfl, rfl, rfl⟩
  case lead =>
    intro s hruns hrole hon hdue hr
    exact completes_cycle_lead hruns hrole hon (s.hw.leadCycle_sends hdue hr)
  case status =>
    intro s hruns hrole hlink hdue hrelay hidx
    obtain ⟨hok, htype⟩ := prmFrame_ok (ty := 2) (src := s.hw.ownIndex) (payload := s.hw.statusPayload [])
      (by rw [Hw.statusPayload_length]; decide) (by decide) (by have := s.hw.ownIndex_lt; omega)
      (s.hw.typeAllowed_own hidx (.inl rfl))
    refine completes_cycle_follower hruns hrole ?_
    rw [s.hw.followerSlot_status hlink hdue hrelay]
    exact ⟨hok, htype, rfl⟩
  case join =>
    intro s hruns hrole hlink hsent hwait hidx
    obtain ⟨hok, htype⟩ := prmFrame_ok (ty := 3) (src := s.hw.ownIndex) (payload := s.hw.joinPayload)
      (by rw [Hw.joinPayload_length]; decide) (by decide) (by have := s.hw.ownIndex_lt; omega)
      (s.hw.typeAllowed_own hidx (.inr rfl))
    refine completes_cycle_follower hruns hrole ?_
    rw [s.hw.followerSlot_join hlink hsent hwait]
    exact ⟨hok, htype, rfl⟩
  case still =>
    intro s hruns
    exact ⟨_, rfl, rfl, if_neg (by simp [hruns])⟩
  case leadHeard =>
    intro s f d hruns hrole hlink hhit hok hty
    refine ⟨_, rfl, rfl, ?_⟩
    dsimp only
    rw [Hw.frame_lead (slot := (0 : Fin 16)) d hruns hhit hok hrole hlink rfl hty]
    exact (s.hw.heard 0).leadAtFollower_spec (framePayload f) d hrole hlink
  case statusHeard =>
    intro s slot f hruns hrole hhit hok hty hin hslot hrelay
    have hpeer := (s.hw.heard slot).modPeer_peer (fun x => x.reported (framePayload f)) (i := slot)
      (by rwa [s.hw.heard_peers_length])
    refine ⟨_, rfl, rfl, ?_⟩
    dsimp only
    rw [Hw.frame_status 0 hruns hhit hok hrole hty, (s.hw.heard slot).statusAtLead_of_member (framePayload f) hin hrelay, hpeer]
    exact ⟨rfl, rfl, rfl, rfl⟩
  case joinHeard =>
    intro s slot f hruns hrole hon hhit hok hty hout hnew hadmit
    refine ⟨_, rfl, rfl, ?_⟩
    dsimp only
    rw [Hw.frame_join 0 hruns hhit hok hrole hty]
    exact (s.hw.heard slot).joinAtLead_of_new (framePayload f) hon hout hnew hadmit
  case leaveHeard =>
    intro s slot f hruns hrole hhit hok hty hin
    refine ⟨_, rfl, rfl, ?_⟩
    dsimp only
    rw [Hw.frame_leave 0 hruns hhit hok hrole hty]
    exact (s.hw.heard slot).dropFollower_spec slot hin
  case leadLeaves =>
    intro s f hruns hrole hlink hhit hok hty
    have hlost : (s.hw.heard 0).prm.link ≠ .orphan := fun horphan => absurd (hlink.symm.trans horphan) (by decide)
    obtain ⟨hnow, -, htoken, -, -, hpend⟩ := (s.hw.heard 0).orphan_spec (.inl hrole) hlost
    refine ⟨_, rfl, rfl, ?_⟩
    dsimp only
    rw [Hw.frame_leadLeaves (slot := (0 : Fin 16)) 0 hruns hhit hok hrole hlink rfl hty]
    exact ⟨hnow, htoken, (s.hw.heard 0).orphan_cmd, hpend⟩
  case discarded =>
    intro s slot f delay c hruns hbad hc
    refine completes_frame (hc.imp_left fun hlead => ⟨delay, hlead⟩) (fun d => ?_)
    rw [Hw.frame_discarded d hruns hbad]
    exact (s.hw.take 0x0C).discardFrame_spec f slot _

end Sys2Proof.Machine
end

section
/-! SUPPORT. TIME_SET as the module's place on the link admits it (R231, R379). -/

namespace Sys2Proof.Machine

section
variable {h : Hw} {v : DWord} {f : Byte}

/-- An admitted follower takes no time of its own. -/
theorem Hw.timeRefused_of_follows (hrole : h.prm.role = .follower) (hlink : h.prm.link = .active) :
    h.timeRefused v f = some stWrongState := by
  unfold Hw.timeRefused
  rw [if_pos (by simp [Hw.follows, hrole, hlink])]

/-- A module alone, or without its lead, takes a valid value into an open Lodge, where its record finds room and no set is in progress. -/
theorem Hw.timeRefused_of_alone (hrole : h.prm.role = .standalone ∨ h.prm.role = .follower ∧ h.prm.link = .orphan)
    (hlock : h.lodge.lock = false) (hv : timeOk v = true) (hf : f.toNat ≤ 1) (hspace : 18 ≤ h.logSpace) (herased : 3 ≤ h.logErased)
    (hset : h.lodge.timeSet = none) : h.timeRefused v f = none := by
  have hfollows : h.follows = false := by rcases hrole with hrole | ⟨hrole, hlink⟩ <;> simp [Hw.follows, *]
  unfold Hw.timeRefused
  simp [hfollows, hlock, hv, hset, show ¬ 1 < f.toNat by omega, show ¬ h.logSpace < 18 by omega, show ¬ h.logErased < 3 by omega]

end

/-- TIME_SET taken: its job is PENDING, its value waits in the Lodge, its record in the store's queue. -/
def Hw.timeAsked (h : Hw) (o : Origin) (v : DWord) (f : Byte) : Hw :=
  let g := (h.newJob 0x70 false).pending o []
  let t : TimeSetJob := ⟨ticksOf v.toNat, g.clk, f = 1, g.proto.lastJob, false, 0⟩
  ({ g with lodge := { g.lodge with timeSet := some t } } : Hw).enqueueLog [] (.timeSet g.proto.lastJob)

theorem Hw.timeAsked_spec (h : Hw) (o : Origin) (v : DWord) (f : Byte) :
    Replied h (h.timeAsked o v f) o 1 (be 2 (h.timeAsked o v f).proto.lastJob) ∧
      (h.timeAsked o v f).lodge.timeSet.map (·.value) = some (ticksOf v.toNat) := by
  refine ⟨(h.newJob_pending_replied o 0x70 false).of_later ?_ rfl, rfl⟩
  cases o <;> rfl

/-- Settles O10: the follower's refusal comes first, and no other refusal holds of a module alone. -/
theorem followersKeepCabinetTime : Obligations.FollowersKeepCabinetTime := by
  unfold Obligations.FollowersKeepCabinetTime
  refine ⟨fun s o v f hcar hrole hlink => completes_of_row ⟨⟨_, rfl⟩, fun _ => rfl⟩ rfl (by decide) hcar ?refused,
    fun s o v f hcar hrole hlock hv hf hspace herased hset =>
      ServedBy.completes_post ⟨⟨_, rfl⟩, fun _ => rfl⟩ rfl (by decide) hcar ?taken⟩
  case refused =>
    rw [Hw.timeRefused_of_follows hrole hlink]
    rfl
  case taken =>
    rw [Hw.timeRefused_of_alone hrole hlock hv hf hspace herased hset]
    exact s.hw.timeAsked_spec o v f

end Sys2Proof.Machine
end

section
/-! SUPPORT. A module that its straps keep silent, to which PROM_ADMIT_POLICY is sent (R24, R235). -/

namespace Sys2Proof.Machine

/-- In a cabinet with LEAD = 0 and IDX = 0, silent by its straps (R24); the packet asks for the admission of index 1 alone. -/
def silentByStraps : Hw :=
  bring (.promAdmitPolicy .A 2 1)
    { liveHw with straps := { liveHw.straps with lead := false }, prm := { liveHw.prm with role := .silent } }

/-- The command is refused as at a follower, and the mask stays as it is. -/
theorem promAdmitPolicy_silentByStraps :
    (after (exec (.promAdmitPolicy .A 2 1) ⟨silentByStraps, []⟩)).prm.admitMask ≠ 2 := by decide +kernel

/-- Refutes O60: a module silent by its straps has no lead and is no lead; PROM_ADMIT_POLICY answers WRONG_STATE there. The statement asks
for a role other than that of a follower alone. -/
theorem not_lifeAndDiagnosticCommandsAct : ¬ Obligations.LifeAndDiagnosticCommandsAct := by
  unfold Obligations.LifeAndDiagnosticCommandsAct
  rintro ⟨-, -, -, -, -, -, -, -, -, -, -, -, hpolicy, -⟩
  obtain ⟨-, hmask, -⟩ := (hpolicy ⟨silentByStraps, []⟩ .A 2 1 (by decide +kernel) (by decide +kernel) (by decide +kernel)
    (by decide +kernel)).after_exec
  exact promAdmitPolicy_silentByStraps hmask

end Sys2Proof.Machine
end

section
/-! SUPPORT. What errors, their reactions and writes to the store leave alone of metering: Belvedere, the factory data, the clock, the
totalizers' last bases, events that are pending and close requests that stand (R281, R315, R319, R451, R474). -/

namespace Sys2Proof.Machine

/-- Of the hardware, what no reaction to an error writes: Belvedere, the factory data and the store. -/
def Hw.bench (h : Hw) : Metro × Factory × Store := (h.metro, h.factory, h.store)

theorem ite_bench {p : Prop} [Decidable p] {a b : Hw} {d : Metro × Factory × Store} (ha : a.bench = d) (hb : b.bench = d) :
    (if p then a else b).bench = d := by
  split <;> assumption

section
variable (h : Hw)

/-! ## Errors and their reactions (R472–R476) -/

@[simp] theorem Hw.raise_bench (k : Nat) : (h.raise k).bench = h.bench := by rw [Hw.raise_eq]; rfl
@[simp] theorem Hw.evalPgood_bench : h.evalPgood.bench = h.bench := by rw [Hw.evalPgood_eq]; rfl
@[simp] theorem Hw.govEnd_bench : h.govEnd.bench = h.bench := rfl
@[simp] theorem Hw.markOff_bench (c : OffCause) : (h.markOff c).bench = h.bench := rfl
@[simp] theorem Hw.hrstFalls_bench : h.hrstFalls.bench = h.bench := ite_bench rfl rfl
@[simp] theorem Hw.endMove_bench (r : Nat) : (h.endMove r).bench = h.bench := by unfold Hw.endMove; split <;> rfl

@[simp] theorem Hw.endJob?_bench (n : Option Nat) (st r : Nat) (d : List Byte) : (h.endJob? n st r d).bench = h.bench := by
  cases n <;> rfl

@[simp] theorem Hw.turnOff_bench (c : OffCause) (k : Nat) : (h.turnOff c k).bench = h.bench := by
  have hport : ((h.modPort (k - 12) Port.hold).freeBus (k - 12)).bench = h.bench := by rw [Hw.freeBus_eq]; rfl
  exact ite_bench rfl (ite_bench hport (ite_bench rfl (ite_bench rfl rfl)))

@[simp] theorem Hw.turnOffAll_bench (c : OffCause) : (h.turnOffAll c).bench = h.bench :=
  List.foldlRecOn (motive := fun g : Hw => g.bench = h.bench) _ _ rfl (fun g hg k _ => (g.turnOff_bench c k).trans hg)

@[simp] theorem Hw.enterLatched_bench (c : Nat) : (h.enterLatched c).bench = h.bench := by
  unfold Hw.enterLatched
  refine (Hw.endJob?_bench _ _ 0 3 []).trans ((Hw.endJob?_bench _ _ 0 3 []).trans ?_)
  exact ite_bench rfl rfl

@[simp] theorem Hw.safeState_bench : h.safeState.bench = h.bench := by
  have hoff : ((((h.markOff .safeState).endMove 3).turnOffAll .safeState).govEnd.hrstFalls).bench = h.bench := by simp
  unfold Hw.safeState
  refine ite_bench rfl ?_
  dsimp only
  generalize (((h.markOff .safeState).endMove 3).turnOffAll .safeState).govEnd.hrstFalls = g at hoff ⊢
  exact ite_bench (g.evalPgood_bench.trans hoff) ((Hw.evalPgood_bench _).trans ((g.enterLatched_bench 12).trans hoff))

@[simp] theorem Hw.react_bench (r : Nat) : (h.react r).bench = h.bench := by
  have hask : ∀ g : Hw, (g.askCoreReset 4).bench = g.bench := fun g => by unfold Hw.askCoreReset; split <;> rfl
  have hsafe : (if 2 ≤ r then h.safeState else h).bench = h.bench := ite_bench h.safeState_bench rfl
  exact ite_bench ((hask _).trans hsafe) hsafe

@[simp] theorem Hw.report_bench (src addr master access : Nat) (d : List Byte) :
    (h.report src addr master access d).bench = h.bench := by
  unfold Hw.report
  rw [Hw.react_bench, Hw.collect_eq]
  rfl

@[simp] theorem Hw.report_metro (src addr master access : Nat) (d : List Byte) :
    (h.report src addr master access d).metro = h.metro := congrArg (·.1) (h.report_bench src addr master access d)

@[simp] theorem Hw.raise_metro (k : Nat) : (h.raise k).metro = h.metro := congrArg (·.1) (h.raise_bench k)

/-! ## Folly's injections are drawn on by checkers alone (R478) -/

theorem Faults.note_inject (f : Faults) (c : Capture) (r : Nat) (d : List Byte) (clk : Nat) :
    (f.note c r d clk).inject = f.inject := by
  unfold Faults.note
  extract_lets same bump new sec cnt add
  have hadd : add.inject = f.inject := by unfold add; split <;> rfl
  split
  · split
    · rfl
    · exact hadd
  · split
    · split
      · rfl
      · exact hadd
    · exact hadd

theorem Hw.capture_inject (c : Capture) : (h.capture c).faults.inject = h.faults.inject := by
  unfold Hw.capture
  split
  · rfl
  split
  · exact (congrArg Faults.inject (faults_of_desk (Hw.raise_desk _ 48)) :)
  · rfl

theorem Hw.report_inject (src addr master access : Nat) (d : List Byte) :
    (h.report src addr master access d).faults.inject = h.faults.inject := by
  unfold Hw.report
  rw [faults_of_desk (Hw.react_desk _ _)]
  unfold Hw.collect
  dsimp only
  rw [faults_of_desk (Hw.warn_desk _ _ _)]
  exact (Faults.note_inject _ _ _ _ _).trans (h.capture_inject _)

/-! ## A close request stands (R281) -/

theorem Hw.slot_closeAll_eq (reason : Nat) (flags : BitVec 16) (n : Nat) :
    (h.closeAll reason flags).slot n = (h.slot n).askClose reason flags :=
  List.getD_map (f := Slot.askClose reason flags) (d := Slot.none) (n := n) h.slots

theorem Hw.enterLatched_slots (c : Nat) : (h.enterLatched c).slots = (h.closeAll 4 0).slots := by
  unfold Hw.enterLatched
  refine (slots_of_rest (Hw.endJob?_rest _ _ 0 3 [])).trans ((slots_of_rest (Hw.endJob?_rest _ _ 0 3 [])).trans ?_)
  split <;> rfl

theorem Hw.safeState_slots : h.safeState.slots = h.slots ∨ h.safeState.slots = (h.closeAll 4 0).slots := by
  have hoff : ((((h.markOff .safeState).endMove 3).turnOffAll .safeState).govEnd.hrstFalls).slots = h.slots := by
    have hfalls : ∀ g : Hw, g.hrstFalls.slots = g.slots := fun g => by
      unfold Hw.hrstFalls
      simp only [apply_ite Hw.slots, ite_self]
    rw [hfalls, slots_of_rest (Hw.govEnd_rest _), slots_of_rest (Hw.turnOffAll_rest _ _), slots_of_rest (Hw.endMove_rest _ _)]
    rfl
  unfold Hw.safeState
  split
  · exact .inl rfl
  dsimp only
  generalize (((h.markOff .safeState).endMove 3).turnOffAll .safeState).govEnd.hrstFalls = g at hoff ⊢
  split
  · exact .inl ((slots_of_rest g.evalPgood_rest).trans hoff)
  · refine .inr ((slots_of_rest (Hw.evalPgood_rest _)).trans ((g.enterLatched_slots 12).trans ?_))
    exact congrArg (List.map (Slot.askClose 4 0)) hoff

theorem Hw.report_slots (src addr master access : Nat) (d : List Byte) :
    (h.report src addr master access d).slots = h.slots ∨ (h.report src addr master access d).slots = (h.closeAll 4 0).slots := by
  have hask : ∀ g : Hw, (g.askCoreReset 4).slots = g.slots := fun g => by unfold Hw.askCoreReset; split <;> rfl
  have hcollect : (h.collect src addr master access d).slots = h.slots := by rw [Hw.collect_eq]
  have hsafe := (h.collect src addr master access d).safeState_slots
  have hclose : ((h.collect src addr master access d).closeAll 4 0).slots = (h.closeAll 4 0).slots :=
    congrArg (List.map (Slot.askClose 4 0)) hcollect
  rw [hcollect, hclose] at hsafe
  unfold Hw.report Hw.react
  dsimp only
  split
  · rw [hask]
    split
    · exact hsafe
    · exact .inl hcollect
  · split
    · exact hsafe
    · exact .inl hcollect

/-- A slot that is asked to close keeps its reason, whatever an error's reaction does. -/
theorem Hw.report_slot_of_closing (src addr master access : Nat) (d : List Byte) {n : Nat} (hp : (h.slot n).closePending = true) :
    (h.report src addr master access d).slot n = h.slot n := by
  have hkeeps : (h.closeAll 4 0).slot n = h.slot n := by
    rw [Hw.slot_closeAll_eq, Slot.askClose, if_neg (by simp [hp])]
  rcases h.report_slots src addr master access d with e | e
  · exact congrArg (·.getD n Slot.none) e
  · exact (congrArg (·.getD n Slot.none) e).trans hkeeps

end

/-! ## What passes beside metering -/

/-- What goes on beside the comparisons and holds of Belvedere leaves the factory data, the clock and what is due of
Belvedere, arms no checker, and clears no pending event. -/
structure Hw.Passes (h g : Hw) : Prop where
  factory : g.factory = h.factory
  clk : g.clk = h.clk
  due : g.metro.compareDue = h.metro.compareDue
  disarmed : h.faults.inject = List.replicate 15 (0, false) → g.faults.inject = List.replicate 15 (0, false)
  pend : ∀ n, h.evt.pend.getLsbD n = true → g.evt.pend.getLsbD n = true

/-- It leaves Belvedere, the totalizers' last bases and the number of the last parameter record too. -/
structure Hw.Spares (h g : Hw) : Prop extends Hw.Passes h g where
  metro : g.metro = h.metro
  bases : g.store.ckptAt = h.store.ckptAt
  pSeq : g.store.pSeq = h.store.pSeq

theorem Hw.Passes.refl (h : Hw) : h.Passes h := ⟨rfl, rfl, rfl, id, fun _ => id⟩

theorem Hw.Passes.trans {a b c : Hw} (hab : a.Passes b) (hbc : b.Passes c) : a.Passes c :=
  ⟨hbc.factory.trans hab.factory, hbc.clk.trans hab.clk, hbc.due.trans hab.due, hbc.disarmed ∘ hab.disarmed,
    fun n => hbc.pend n ∘ hab.pend n⟩

theorem Hw.Spares.refl (h : Hw) : h.Spares h := ⟨.refl h, rfl, rfl, rfl⟩

theorem Hw.Spares.trans {a b c : Hw} (hab : a.Spares b) (hbc : b.Spares c) : a.Spares c :=
  ⟨hab.toPasses.trans hbc.toPasses, hbc.metro.trans hab.metro, hbc.bases.trans hab.bases, hbc.pSeq.trans hab.pSeq⟩

section
variable (h : Hw)

theorem Hw.spares_raise (k : Nat) : h.Spares (h.raise k) := by
  refine ⟨⟨?_, ?_, ?_, fun hq => ?_, fun n => h.raise_pend_mono k⟩, ?_, ?_, ?_⟩ <;> rw [Hw.raise_eq]
  exact hq

theorem Hw.spares_report (src addr master access : Nat) (d : List Byte) : h.Spares (h.report src addr master access d) := by
  have hbench := h.report_bench src addr master access d
  exact ⟨⟨congrArg (·.2.1) hbench, congrArg Ledger.clk (h.report_ledger src addr master access d),
    congrArg (·.1.compareDue) hbench, (h.report_inject src addr master access d).trans,
    fun n => h.report_pend_mono src addr master access d⟩,
    congrArg (·.1) hbench, congrArg (·.2.2.ckptAt) hbench, congrArg (·.2.2.pSeq) hbench⟩

theorem Hw.spares_flashCheck (id region key : Nat) : h.Spares (h.flashCheck id region key).1 := by
  by_cases hhit : h.hit id = true
  · have hreport := ((h.take id).draw).spares_report (if h.hitHard id then 0x21 else 0x20) (Config.freeNat h.free % 0x200000) 0 0
      (flashDetail region key)
    have htake : (h.flashCheck id region key).1 = ((h.take id).draw).report (if h.hitHard id then 0x21 else 0x20)
        (Config.freeNat h.free % 0x200000) 0 0 (flashDetail region key) := congrArg Prod.fst (if_pos hhit)
    rw [htake]
    exact ⟨⟨hreport.factory, hreport.clk, hreport.due, fun hq => absurd hhit (by simp [Hw.hit_of_disarmed hq]), hreport.pend⟩,
      hreport.metro, hreport.bases, hreport.pSeq⟩
  · have hsame : (h.flashCheck id region key).1 = h := congrArg Prod.fst (if_neg hhit)
    rw [hsame]
    exact .refl h

/-! ## Writes to the store (R315, R323, R324) -/

theorem Hw.spares_copyChecks (r : Ring) : h.Spares (h.copyChecks r).1 := by
  unfold Hw.copyChecks
  split
  · refine List.foldlRecOn (motive := fun a : Hw × List Rec => h.Spares a.1) _ _ (.refl h) fun a ha x _ => ha.trans ?_
    dsimp only
    unfold Hw.regionCheck
    split
    · exact a.1.spares_flashCheck ..
    · exact .refl a.1
  · exact .refl h

theorem Hw.spares_place (r : Ring) (x : Rec) : h.Spares (h.place r x) := by
  cases r <;> exact ⟨⟨rfl, rfl, rfl, id, fun _ => id⟩, rfl, rfl, rfl⟩

theorem Hw.spares_prove (r : Ring) (x : Rec) (copy : Bool) (job : Option Nat) : h.Spares (h.prove r x copy job) :=
  ⟨⟨rfl, rfl, rfl, id, fun _ => id⟩, rfl, rfl, rfl⟩

theorem Hw.spares_copyOldest (r : Ring) : h.Spares (h.copyOldest r) :=
  List.foldlRecOn (motive := h.Spares) _ _ (h.spares_copyChecks r) fun g hg x _ =>
    hg.trans ((g.spares_place r x).trans (Hw.spares_prove _ r x true none))

theorem Hw.spares_eraseNow (r : Ring) : h.Spares (h.eraseNow r) := by
  have hforget : h.Spares (h.forgetFaults r) := by
    unfold Hw.forgetFaults
    split <;> exact ⟨⟨rfl, rfl, rfl, id, fun _ => id⟩, rfl, rfl, rfl⟩
  refine hforget.trans ?_
  unfold Hw.eraseNow
  generalize h.forgetFaults r = g
  cases r <;> exact ⟨⟨rfl, rfl, rfl, id, fun _ => id⟩, rfl, rfl, rfl⟩

theorem Hw.spares_compactNow (r : Ring) : h.Spares (h.compactNow r) := by
  unfold Hw.compactNow
  split
  · exact h.spares_eraseNow r
  · exact (h.spares_copyOldest r).trans (Hw.spares_eraseNow _ r)

theorem Hw.spares_makeRoom (n size : Nat) (r : Ring) : h.Spares (Hw.makeRoom n size r h) := by
  induction n generalizing h with
  | zero => exact .refl h
  | succ n ih =>
    unfold Hw.makeRoom
    split
    · exact (h.spares_compactNow r).trans (ih _)
    · exact .refl h

theorem Hw.spares_keep (half : Bool) (x : Rec) : h.Spares (h.keep half x) :=
  (h.spares_makeRoom 128 _ _).trans (Hw.spares_place _ _ x)

/-- The numbers of a pair's two copies are taken (R315). -/
def Hw.pairBegun (h : Hw) : Hw :=
  { h with store := { h.store with pSeq := h.store.pSeq + 2, nextHalf := !h.store.nextHalf } }

/-- A parameter write takes two numbers, and leaves metering alone. -/
theorem Hw.spares_pair (key : Nat) (payload : List Byte) : h.pairBegun.Spares (h.pair key payload) :=
  (((h.pairBegun.spares_keep _ _).trans (Hw.spares_prove _ _ _ false none)).trans (Hw.spares_keep _ _ _)).trans
    (Hw.spares_prove _ _ _ false none)

theorem Hw.passes_pair (key : Nat) (payload : List Byte) : h.Passes (h.pair key payload) :=
  (show h.Passes h.pairBegun from ⟨rfl, rfl, rfl, id, fun _ => id⟩).trans (h.spares_pair key payload).toPasses

@[simp] theorem Hw.pair_metro (key : Nat) (payload : List Byte) : (h.pair key payload).metro = h.metro :=
  (h.spares_pair key payload).metro

/-- The second copy is the last to wait for its verify. -/
theorem Hw.pair_proving_getLast? (key : Nat) (payload : List Byte) :
    (h.pair key payload).store.proving.getLast?.map (fun v => (v.key, v.seq)) = some (key, h.store.pSeq + 2) := by
  unfold Hw.pair Hw.pairFor Hw.pairWith Hw.prove
  simp [mkRec]

end

end Sys2Proof.Machine
end

section
/-! SUPPORT. METRO_HOLD entered and left, and the comparison of an interval, as they act on a channel (R259–R265). -/

namespace Sys2Proof.Machine

/-! ## One channel -/

/-- A cause of METRO_HOLD stops the totalizers, and excludes the interval in progress (R261, R263). -/
def Chan.withCause (cause : Nat) (x : Chan) : Chan := { x.addCause cause with skip := true, resume := false }

/-- A channel takes a cause that it does not have yet. -/
def Chan.takeHold (x : Chan) (cause : Nat) : Chan := if x.hasCause cause then x else x.withCause cause

/-- A channel whose interval disagrees, before a hold (R260). -/
def Chan.disagreeing (x : Chan) : Chan :=
  { x with compared := x.compared + 1, disagreed := x.disagreed + 1, disRun := x.disRun + 1, disagree := true, disagreeSeen := true }

/-- The increments of a channel's last interval agree on both directions (R260). -/
def Chan.agreed (x : Chan) : Bool := agrees x.lIP x.lIC && agrees x.lEP x.lEC

/-- A channel after the comparison of an interval (R260, R261). -/
def Chan.judged (x : Chan) : Chan :=
  if x.lSkip then x
  else if x.agreed then { x with compared := x.compared + 1, disRun := 0, disagree := false }
  else if 3 ≤ x.disagreeing.disRun then x.disagreeing.takeHold 1 else x.disagreeing

section
variable {x : Chan}

theorem Chan.judged_of_skip (hskip : x.lSkip = true) : x.judged = x := if_pos hskip

theorem Chan.judged_of_agreed (hskip : x.lSkip = false) (hagr : x.agreed = true) :
    x.judged = { x with compared := x.compared + 1, disRun := 0, disagree := false } := by
  unfold Chan.judged
  rw [hskip, if_neg Bool.false_ne_true, if_pos hagr]

/-- A disagreement counts, and the third in a row holds the channel. -/
theorem Chan.judged_of_disagreed (hskip : x.lSkip = false) (hagr : x.agreed = false) :
    x.judged.compared = x.compared + 1 ∧ x.judged.disagreed = x.disagreed + 1 ∧ x.judged.disRun = x.disRun + 1 ∧
      x.judged.diverge = (x.diverge || decide (3 ≤ x.disRun + 1)) := by
  unfold Chan.judged
  rw [hskip, hagr, if_neg Bool.false_ne_true, if_neg Bool.false_ne_true]
  by_cases hthird : 3 ≤ x.disagreeing.disRun
  · rw [if_pos hthird, decide_eq_true (p := 3 ≤ x.disRun + 1) hthird, Bool.or_true, Chan.takeHold]
    by_cases hdiv : x.disagreeing.hasCause 1 = true
    · rw [if_pos hdiv]
      exact ⟨rfl, rfl, rfl, hdiv⟩
    · rw [if_neg hdiv]
      exact ⟨rfl, rfl, rfl, rfl⟩
  · rw [if_neg hthird, decide_eq_false (p := 3 ≤ x.disRun + 1) hthird, Bool.or_false]
    exact ⟨rfl, rfl, rfl, rfl⟩

/-- A stuck bitstream holds, and leaves the totalizers (R243, R263). -/
theorem Chan.takeHold_input (x : Chan) : (x.takeHold 3).inputHold = true ∧ (x.takeHold 3).held = true ∧
    (x.takeHold 3).imp = x.imp ∧ (x.takeHold 3).exp = x.exp := by
  unfold Chan.takeHold
  split
  · rename_i hin
    have hin' : x.inputHold = true := hin
    exact ⟨hin', by simp [Chan.held, hin'], rfl, rfl⟩
  · exact ⟨rfl, by simp [Chan.held, Chan.withCause, Chan.addCause], rfl, rfl⟩

end

/-! ## Channels of the list, and events of Belvedere -/

/-- A channel that shows what a blank one does not is one of Belvedere's. -/
theorem Hw.chan_lt {h : Hw} {c : Nat} (p : Chan → Bool) (hp : p (h.chan c) = !p Chan.blank) : c < h.metro.chans.length :=
  lt_of_getD_ne (d := Chan.blank) fun e => (Bool.eq_not_self _).mp ((congrArg p e).symm.trans hp)

theorem Hw.Passes.metering {h g : Hw} (hpass : h.Passes g) (hmet : h.metering = true) : g.metering = true := by
  unfold Hw.metering
  rwa [hpass.factory]

/-- A module with metering mutes none of Belvedere's events (R451). -/
theorem Hw.raise_pend_of_metering {h : Hw} (hmet : h.metering = true) {k : Nat} (hk : k = 24 ∨ k = 25 ∨ k = 26) :
    (h.raise k).evt.pend.getLsbD k = true := by
  rcases hk with rfl | rfl | rfl <;> exact h.raise_pend_of_not_mute (by simp [Hw.mute, hmet]) (by decide)

/-! ## METRO_HOLD entered (R262, R263, R281) -/

section
variable (h : Hw) (c cause : Nat) (inj : Bool)

theorem Hw.gather_metro : h.gather.metro = h.metro := rfl

theorem Hw.passes_modChan (f : Chan → Chan) : h.Passes (h.modChan c f) := ⟨rfl, rfl, rfl, id, fun _ => id⟩

theorem Hw.passes_gather : h.Passes h.gather := ⟨rfl, rfl, rfl, id, fun _ => id⟩

theorem Hw.enterHold_of_hasCause (hcause : (h.chan c).hasCause cause = true) : h.enterHold c cause inj = h := if_pos hcause

/-- The cause is taken and, but for INPUT, persisted; what the sessions and the host learn of it is still to come. -/
def Hw.causeTaken (h : Hw) (c cause : Nat) : Hw :=
  let g := h.modChan c (Chan.withCause cause)
  (if cause = 3 then g else g.pair 0x110 g.holdPayload).gather

/-- The sessions of a channel are asked to close. -/
def Hw.askChannel (h : Hw) (c : Nat) : Hw :=
  { h with slots := h.slots.map (fun s => if s.mask.getLsbD c then s.askClose 0x05 0 else s) }

theorem Hw.enterHold_of_held (hcause : (h.chan c).hasCause cause = false) (hheld : (h.chan c).held = true) :
    h.enterHold c cause inj = (h.causeTaken c cause).report (0x8F + cause) ((c + 1) * 256 + cause) 6 0 (injected inj) := by
  unfold Hw.enterHold
  rw [hcause, if_neg Bool.false_ne_true]
  dsimp only
  rw [hheld]
  rfl

theorem Hw.enterHold_of_not_held (hcause : (h.chan c).hasCause cause = false) (hheld : (h.chan c).held = false) :
    h.enterHold c cause inj =
      (((h.causeTaken c cause).raise 25).askChannel c).report (0x8F + cause) ((c + 1) * 256 + cause) 6 0 (injected inj) := by
  unfold Hw.enterHold
  rw [hcause, if_neg Bool.false_ne_true]
  dsimp only
  rw [hheld]
  rfl

theorem Hw.causeTaken_metro : (h.causeTaken c cause).metro = (h.modChan c (Chan.withCause cause)).metro := by
  unfold Hw.causeTaken
  rw [Hw.gather_metro]
  split
  · rfl
  · exact Hw.pair_metro ..

theorem Hw.passes_causeTaken : h.Passes (h.causeTaken c cause) := by
  refine ((h.passes_modChan c (Chan.withCause cause)).trans ?_).trans (Hw.passes_gather _)
  split
  · exact .refl _
  · exact Hw.passes_pair ..

/-- Once the cause is taken, Belvedere stands. -/
theorem Hw.spares_enterHold (hcause : (h.chan c).hasCause cause = false) : (h.causeTaken c cause).Spares (h.enterHold c cause inj) := by
  by_cases hheld : (h.chan c).held = true
  · rw [h.enterHold_of_held c cause inj hcause hheld]
    exact Hw.spares_report ..
  · rw [h.enterHold_of_not_held c cause inj hcause (Bool.eq_false_iff.mpr hheld)]
    have hask : ∀ g : Hw, g.Spares (g.askChannel c) := fun g => ⟨⟨rfl, rfl, rfl, id, fun _ => id⟩, rfl, rfl, rfl⟩
    exact ((Hw.spares_raise _ 25).trans (hask _)).trans (Hw.spares_report ..)

theorem Hw.passes_enterHold : h.Passes (h.enterHold c cause inj) := by
  by_cases hcause : (h.chan c).hasCause cause = true
  · rw [h.enterHold_of_hasCause c cause inj hcause]
    exact .refl h
  · exact (h.passes_causeTaken c cause).trans (h.spares_enterHold c cause inj (Bool.eq_false_iff.mpr hcause)).toPasses

/-- A hold changes its own channel alone. -/
theorem Hw.enterHold_chan (j : Nat) : (h.enterHold c cause inj).chan j =
    if c = j ∧ j < h.metro.chans.length then (h.chan j).takeHold cause else h.chan j := by
  by_cases hcause : (h.chan c).hasCause cause = true
  · rw [h.enterHold_of_hasCause c cause inj hcause]
    split
    · rename_i hj
      obtain ⟨rfl, -⟩ := hj
      exact (if_pos hcause).symm
    · rfl
  · have hmetro := (h.spares_enterHold c cause inj (Bool.eq_false_iff.mpr hcause)).metro.trans (h.causeTaken_metro c cause)
    have hchan : (h.enterHold c cause inj).chan j = (h.modChan c (Chan.withCause cause)).chan j :=
      congrArg (·.chans.getD j Chan.blank) hmetro
    rw [hchan, Hw.chan_modChan]
    refine ite_congr rfl (fun hj => ?_) fun _ => rfl
    obtain ⟨rfl, -⟩ := hj
    exact (if_neg hcause).symm

/-- The channel's first cause raises METRO_HOLD. -/
theorem Hw.enterHold_pend (hmet : h.metering = true) (hcause : (h.chan c).hasCause cause = false) (hheld : (h.chan c).held = false) :
    (h.enterHold c cause inj).evt.pend.getLsbD 25 = true := by
  rw [h.enterHold_of_not_held c cause inj hcause hheld]
  exact Hw.report_pend_mono _ _ _ _ _ _ (Hw.raise_pend_of_metering ((h.passes_causeTaken c cause).metering hmet) (by decide))

/-- What a session gathers is its word of the channels' states alone (R270). -/
theorem Hw.gather_slot {α : Type} (p : Slot → α) (hp : ∀ (x : Slot) (w : Word), p { x with metro := w } = p x) (n : Nat) :
    p (h.gather.slot n) = p (h.slot n) :=
  getD_map_apply h.slots (fun x => if x.open? && !x.startPending && !x.captured then { x with metro := x.metro ||| h.maskWord x.mask }
    else x) p (fun x => by split; exacts [hp x _, rfl]) n Slot.none

theorem Hw.askChannel_slot {n : Nat} (hmask : (h.slot n).mask.getLsbD c = true) :
    (h.askChannel c).slot n = (h.slot n).askClose 5 0 := by
  have hnone : (if Slot.none.mask.getLsbD c then Slot.none.askClose 5 0 else Slot.none) = Slot.none := ite_self _
  have hmap := List.getD_map (f := fun x : Slot => if x.mask.getLsbD c then x.askClose 5 0 else x) (d := Slot.none) (n := n) h.slots
  rw [hnone] at hmap
  exact hmap.trans (if_pos hmask)

/-- The channel's first cause, where it is INPUT, asks its open sessions to close. -/
theorem Hw.enterHold_closes (hcause : (h.chan c).hasCause 3 = false) (hheld : (h.chan c).held = false) {n : Nat}
    (hopen : (h.slot n).open? = true) (hpend : (h.slot n).closePending = false) (hmask : (h.slot n).mask.getLsbD c = true) :
    ((h.enterHold c 3 inj).slot n).closePending = true ∧ ((h.enterHold c 3 inj).slot n).reason = 5 := by
  rw [h.enterHold_of_not_held c 3 inj hcause hheld]
  generalize hg : (h.causeTaken c 3).raise 25 = g
  have hslot : ∀ {α : Type} (p : Slot → α), (∀ (x : Slot) (w : Word), p { x with metro := w } = p x) →
      p (g.slot n) = p (h.slot n) := by
    intro α p hp
    have hslots : g.slots = (h.modChan c (Chan.withCause 3)).gather.slots := by rw [← hg, Hw.raise_eq]; rfl
    unfold Hw.slot
    rw [hslots]
    exact (h.modChan c (Chan.withCause 3)).gather_slot p hp n
  have hopen' : (g.slot n).open? = true := (hslot (·.open?) fun _ _ => rfl).trans hopen
  have hpend' : (g.slot n).closePending = false := (hslot (·.closePending) fun _ _ => rfl).trans hpend
  have hasked : (g.askChannel c).slot n = { g.slot n with closePending := true, reason := 5, flags := (g.slot n).flags ||| 0 } :=
    (g.askChannel_slot c ((hslot (·.mask.getLsbD c) fun _ _ => rfl).trans hmask)).trans (if_pos (by simp [hopen', hpend']))
  rw [Hw.report_slot_of_closing _ _ _ _ _ _ (by rw [hasked]), hasked]
  exact ⟨rfl, rfl⟩

end

/-! ## METRO_HOLD left (R262, R265) -/

/-- INPUT is cleared, the other causes stand. -/
def Chan.unstuck (x : Chan) : Chan := { x with inputHold := false }

/-- The last cause has gone; the totalizers resume at the next block (R265). -/
def Chan.resuming (x : Chan) : Chan := { x with resume := true, skip := true }

section
variable {h : Hw} {c : Nat} (hin : (h.chan c).inputHold = true)
include hin

theorem Hw.unstuck_chan : (h.modChan c Chan.unstuck).chan c = (h.chan c).unstuck := by
  rw [Hw.chan_modChan, if_pos ⟨rfl, Hw.chan_lt (·.inputHold) hin⟩]

/-- Where another cause stands, only INPUT clears. -/
theorem Hw.clearCause_input_of_held (hheld : (h.chan c).unstuck.held = true) : h.clearCause c 3 = h.modChan c Chan.unstuck := by
  have hheld' : ((h.modChan c Chan.unstuck).chan c).held = true := by rwa [Hw.unstuck_chan hin]
  exact (if_pos hin).trans (if_pos hheld')

/-- With its last cause the channel leaves the hold, which LOG alone reports. -/
theorem Hw.clearCause_input_of_not_held (hheld : (h.chan c).unstuck.held = false) : h.clearCause c 3 =
    (((h.modChan c Chan.unstuck).modChan c Chan.resuming).raise 26).collect 0x93 ((c + 1) * 256 + 3) 6 0 [] := by
  have hheld' : ((h.modChan c Chan.unstuck).chan c).held = false := by rwa [Hw.unstuck_chan hin]
  refine (if_pos hin).trans ((if_neg (Bool.eq_false_iff.mp hheld')).trans (Hw.report_of_le_one _ ?_ _ _ _ _))
  exact Nat.zero_le 1

end

/-! ## The comparison (R247, R259–R261) -/

section
variable (h : Hw) (c : Nat)

/-- A disagreement is counted, raised and gathered; a hold is still to come. -/
def Hw.disagreeRaised (h : Hw) (c : Nat) : Hw := ((h.modChan c Chan.disagreeing).raise 24).gather

theorem Hw.compareChan_of_skip (hskip : (h.chan c).lSkip = true) : h.compareChan c = h := if_pos hskip

theorem Hw.compareChan_of_agreed (hskip : (h.chan c).lSkip = false) (hagr : (h.chan c).agreed = true) :
    h.compareChan c = h.modChan c (fun x => { x with compared := x.compared + 1, disRun := 0, disagree := false }) :=
  (if_neg (by simp [hskip])).trans (if_pos hagr)

theorem Hw.compareChan_of_disagreed (hskip : (h.chan c).lSkip = false) (hagr : (h.chan c).agreed = false) :
    h.compareChan c = if 3 ≤ ((h.disagreeRaised c).chan c).disRun then (h.disagreeRaised c).enterHold c 1 false
      else h.disagreeRaised c :=
  (if_neg (by simp [hskip])).trans (if_neg (by simpa [Chan.agreed] using hagr))

theorem Hw.passes_disagreeRaised : h.Passes (h.disagreeRaised c) :=
  ((h.passes_modChan c _).trans (Hw.spares_raise _ 24).toPasses).trans (Hw.passes_gather _)

theorem Hw.disagreeRaised_chan (j : Nat) : (h.disagreeRaised c).chan j =
    if c = j ∧ j < h.metro.chans.length then (h.chan j).disagreeing else h.chan j := by
  have hmetro : (h.disagreeRaised c).metro = (h.modChan c Chan.disagreeing).metro := Hw.raise_metro _ 24
  rw [← Hw.chan_modChan]
  exact congrArg (·.chans.getD j Chan.blank) hmetro

theorem Hw.passes_compareChan : h.Passes (h.compareChan c) := by
  by_cases hskip : (h.chan c).lSkip = true
  · rw [h.compareChan_of_skip c hskip]
    exact .refl h
  rw [Bool.not_eq_true] at hskip
  by_cases hagr : (h.chan c).agreed = true
  · rw [h.compareChan_of_agreed c hskip hagr]
    exact h.passes_modChan c _
  · rw [h.compareChan_of_disagreed c hskip (by simpa using hagr)]
    split
    · exact (h.passes_disagreeRaised c).trans (Hw.passes_enterHold _ c 1 false)
    · exact h.passes_disagreeRaised c

/-- The comparison of a channel judges it, and leaves the others. -/
theorem Hw.compareChan_chan (j : Nat) : (h.compareChan c).chan j = if c = j then (h.chan j).judged else h.chan j := by
  by_cases hskip : (h.chan c).lSkip = true
  · rw [h.compareChan_of_skip c hskip]
    split
    · rename_i hj
      exact (Chan.judged_of_skip (hj ▸ hskip)).symm
    · rfl
  rw [Bool.not_eq_true] at hskip
  have hlt : c < h.metro.chans.length := Hw.chan_lt (·.lSkip) hskip
  by_cases hagr : (h.chan c).agreed = true
  · rw [h.compareChan_of_agreed c hskip hagr, Hw.chan_modChan]
    by_cases hj : c = j
    · subst hj
      rw [if_pos ⟨rfl, hlt⟩, if_pos rfl, Chan.judged_of_agreed hskip hagr]
    · rw [if_neg (fun hh => hj hh.1), if_neg hj]
  rw [Bool.not_eq_true] at hagr
  have hown : (h.disagreeRaised c).chan c = (h.chan c).disagreeing := (h.disagreeRaised_chan c c).trans (if_pos ⟨rfl, hlt⟩)
  have hlen : (h.disagreeRaised c).metro.chans.length = h.metro.chans.length :=
    (congrArg (·.chans.length) (Hw.raise_metro (h.modChan c Chan.disagreeing) 24)).trans (List.length_modify _ _ _)
  rw [h.compareChan_of_disagreed c hskip hagr, hown]
  by_cases hj : c = j
  · subst hj
    rw [if_pos rfl, Chan.judged, hskip, hagr, if_neg Bool.false_ne_true, if_neg Bool.false_ne_true]
    by_cases hthird : 3 ≤ (h.chan c).disagreeing.disRun
    · rw [if_pos hthird, if_pos hthird, Hw.enterHold_chan, if_pos ⟨rfl, by omega⟩, hown]
    · rw [if_neg hthird, if_neg hthird, hown]
  · have hother : (h.disagreeRaised c).chan j = h.chan j := (h.disagreeRaised_chan c j).trans (if_neg fun hh => hj hh.1)
    rw [if_neg hj]
    split
    · rw [Hw.enterHold_chan, if_neg (fun hh => hj hh.1), hother]
    · exact hother

/-- A disagreement raises METRO_DISAGREE. -/
theorem Hw.compareChan_pend (hmet : h.metering = true) (hskip : (h.chan c).lSkip = false) (hagr : (h.chan c).agreed = false) :
    (h.compareChan c).evt.pend.getLsbD 24 = true := by
  have hraised : (h.disagreeRaised c).evt.pend.getLsbD 24 = true :=
    Hw.raise_pend_of_metering (show (h.modChan c Chan.disagreeing).metering = true from hmet) (by decide)
  rw [h.compareChan_of_disagreed c hskip hagr]
  split
  · exact (Hw.passes_enterHold _ c 1 false).pend 24 hraised
  · exact hraised

end

end Sys2Proof.Machine
end

section
/-! SUPPORT. The interval's comparison over all channels, a stuck bitstream, the end of its cause, and a totalizer's base; and with them
the statement of the cross-check and the holds (R243, R259–R265, R281, R319). -/

namespace Sys2Proof.Machine

/-! ## All channels in turn (R259–R261) -/

section
variable (h : Hw)

theorem Hw.passes_compareChans (l : List Nat) : h.Passes (l.foldl Hw.compareChan h) :=
  List.foldlRecOn (motive := h.Passes) l _ (.refl h) fun g hg k _ => hg.trans (g.passes_compareChan k)

/-- Each channel is judged by its own interval, whatever the others' holds do. -/
theorem Hw.compareChans_chan {l : List Nat} (hl : l.Nodup) (j : Nat) :
    (l.foldl Hw.compareChan h).chan j = if j ∈ l then (h.chan j).judged else h.chan j := by
  induction l generalizing h with
  | nil => rfl
  | cons k l ih =>
    obtain ⟨hk, hl⟩ := List.nodup_cons.mp hl
    rw [List.foldl_cons, ih _ hl, Hw.compareChan_chan]
    by_cases hj : k = j
    · subst hj
      simp [hk]
    · simp [hj, Ne.symm hj]

theorem Hw.compareChans_pend {l : List Nat} {c : Nat} (hc : c ∈ l) (hmet : h.metering = true) (hskip : (h.chan c).lSkip = false)
    (hagr : (h.chan c).agreed = false) : (l.foldl Hw.compareChan h).evt.pend.getLsbD 24 = true := by
  induction l generalizing h with
  | nil => exact absurd hc List.not_mem_nil
  | cons k l ih =>
    by_cases hk : k = c
    · subst hk
      exact (Hw.passes_compareChans _ l).pend 24 (h.compareChan_pend k hmet hskip hagr)
    · have hchan : (h.compareChan k).chan c = h.chan c := (h.compareChan_chan k c).trans (if_neg hk)
      refine ih (h.compareChan k) ((List.mem_cons.mp hc).resolve_left (Ne.symm hk)) ?_ (by rwa [hchan]) (by rwa [hchan])
      exact (h.passes_compareChan k).metering hmet

/-- The copies of a calibration pass their checks where no checker is armed (R247). -/
theorem Hw.recheckCal_of_disarmed (hq : h.faults.inject = List.replicate 15 (0, false)) (c : Nat) : h.recheckCal c = h := by
  have hhit := Hw.hit_of_disarmed hq 0x0D
  have htake := h.take_quiet 0x0D hhit
  unfold Hw.recheckCal Hw.calInjected Hw.calChecks
  rw [htake, htake, hhit]
  rfl

theorem Hw.recheckCals_of_disarmed (hq : h.faults.inject = List.replicate 15 (0, false)) (l : List Nat) :
    l.foldl Hw.recheckCal h = h :=
  List.foldlRecOn (motive := fun g : Hw => g = h) l _ rfl fun g hg c _ => by rw [hg, h.recheckCal_of_disarmed hq c]

/-- The comparison's instant has come, and the comparison is no longer due. -/
def Hw.compareBegun (h : Hw) : Hw :=
  let g := h.reach (h.metro.ivEnd + 5000)
  { g with metro := { g.metro with compareDue := false } }

theorem Hw.compareBegun_factory : h.compareBegun.factory = h.factory := rfl

theorem Hw.compareBegun_chan (c : Nat) : h.compareBegun.chan c = h.chan c := rfl

/-- Belvedere after the comparison. -/
def Hw.compared (h : Hw) : Hw := (List.range 8).foldl Hw.compareChan h.compareBegun

theorem Hw.passes_compared : h.compareBegun.Passes h.compared := h.compareBegun.passes_compareChans _

theorem Hw.compared_due : h.compared.metro.compareDue = false := h.passes_compared.due

theorem Hw.compared_clk : h.compared.clk = max h.clk (h.metro.ivEnd + 5000) := h.passes_compared.clk.trans (h.reach_clk _)

/-- A channel whose interval disagrees raises METRO_DISAGREE. -/
theorem Hw.compared_pend (c : Fin 8) (hmet : h.metering = true) (hskip : (h.chan c).lSkip = false) (hagr : (h.chan c).agreed = false) :
    h.compared.evt.pend.getLsbD 24 = true := by
  unfold Hw.compared
  refine h.compareBegun.compareChans_pend (List.mem_range.mpr c.isLt) ?_ ?_ ?_
  · rwa [Hw.metering, h.compareBegun_factory]
  · rwa [h.compareBegun_chan]
  · rwa [h.compareBegun_chan]

theorem Hw.compared_chan (c : Fin 8) : h.compared.chan c = (h.chan c).judged :=
  (h.compareBegun.compareChans_chan List.nodup_range c).trans (if_pos (List.mem_range.mpr c.isLt))

end

theorem metering_of_metroRuns {h : Hw} (hruns : h.metroRuns = true) : h.metering = true := by
  simp only [Hw.metroRuns, Bool.and_eq_true] at hruns
  exact hruns.1.1

section
variable {s : State} {post : Hw → Prop} (hruns : s.hw.metroRuns = true)
include hruns

theorem completes_comparison (hdue : s.hw.metro.compareDue = true) (hq : s.hw.faults.inject = List.replicate 15 (0, false))
    (hp : post s.hw.compared) : Completes .comparison s post := by
  have hq' : s.hw.compared.faults.inject = List.replicate 15 (0, false) := s.hw.passes_compared.disarmed hq
  refine ⟨{ s with hw := (List.range 8).foldl Hw.recheckCal s.hw.compared }, ?_, rfl, ?_⟩
  · show execComparison s = _
    unfold execComparison State.upd
    dsimp only
    rw [if_pos (by simp [hruns, hdue])]
    rfl
  · dsimp only
    rwa [s.hw.compared.recheckCals_of_disarmed hq']

theorem completes_stuckBitstream {c : Fin 8} (hen : (s.hw.chan c).enabled = true)
    (hp : post (s.hw.enterHold c 3 (s.hw.stuckForced c))) : Completes (.stuckBitstream c) s post :=
  ⟨_, rfl, rfl, (congrArg post (if_pos (by simp [hruns, hen]))).mpr hp⟩

theorem completes_inputCauseClear {c : Fin 8} (hforce : s.hw.stuckForced c = false) (hp : post (s.hw.clearCause c 3)) :
    Completes (.inputCauseClear c) s post :=
  ⟨_, rfl, rfl, (congrArg post (if_pos (by simp [hruns, hforce]))).mpr hp⟩

theorem completes_checkpointBase {c : Fin 8} {d : Bool}
    (hnew : (s.hw.chan c).total (b2n d) ≠ s.hw.store.ckptAt.getD (2 * c.val + b2n d) 0)
    (hp : post (s.hw.wake.newBase (2 * c.val + b2n d) ((s.hw.chan c).total (b2n d)))) : Completes (.checkpointBase c d) s post :=
  ⟨_, rfl, rfl, (congrArg post (if_pos (by simpa [hruns] using hnew))).mpr hp⟩

end

/-! ## A stuck bitstream, and the end of its cause (R243, R262, R263, R265) -/

section
variable (h : Hw) (c : Nat)

/-- The end of INPUT: it clears; the other causes, channels, outputs and sessions stay; where it was the last cause, the channel leaves
the hold. -/
theorem Hw.clearCause_input_spec (hmet : h.metering = true) (hin : (h.chan c).inputHold = true) :
    let t := h.clearCause c 3
    (t.chan c).inputHold = false ∧ (t.chan c).diverge = (h.chan c).diverge ∧ (t.chan c).calHold = (h.chan c).calHold ∧
      ((h.chan c).diverge = false → (h.chan c).calHold = false →
        (t.chan c).held = false ∧ (t.chan c).resume = true ∧ t.evt.pend.getLsbD 26 = true) ∧
      (∀ j, j ≠ c → t.chan j = h.chan j) ∧ t.outs = h.outs ∧ t.slots = h.slots := by
  have hlt : c < h.metro.chans.length := Hw.chan_lt (·.inputHold) hin
  dsimp only
  by_cases hheld : (h.chan c).unstuck.held = true
  · have hchan : ∀ j, (h.modChan c Chan.unstuck).chan j = if c = j ∧ j < h.metro.chans.length then (h.chan j).unstuck else h.chan j :=
      fun j => h.chan_modChan c j Chan.unstuck
    rw [Hw.clearCause_input_of_held hin hheld, hchan, if_pos ⟨rfl, hlt⟩]
    refine ⟨rfl, rfl, rfl, fun hdiv hcal => ?_, fun j hj => ?_, rfl, rfl⟩
    · exact absurd hheld (by simp [Chan.held, Chan.unstuck, hdiv, hcal])
    · rw [hchan, if_neg fun hh => hj hh.1.symm]
  · rw [Bool.not_eq_true] at hheld
    rw [Hw.clearCause_input_of_not_held hin hheld]
    set g := (h.modChan c Chan.unstuck).modChan c Chan.resuming with hg
    have hlen : (h.modChan c Chan.unstuck).metro.chans.length = h.metro.chans.length := List.length_modify ..
    have hchan : ∀ j, g.chan j = if c = j ∧ j < h.metro.chans.length then (h.chan j).unstuck.resuming else h.chan j := fun j => by
      rw [hg, Hw.chan_modChan, Hw.chan_modChan, hlen]
      split <;> rfl
    have hlater : ∀ j, (((g.raise 26).collect 0x93 ((c + 1) * 256 + 3) 6 0 []).chan j) = g.chan j := fun j => by
      rw [Hw.collect_eq, Hw.raise_eq]
      rfl
    have hpend : (g.raise 26).evt.pend.getLsbD 26 = true :=
      Hw.raise_pend_of_metering (show g.metering = true from hmet) (by decide)
    rw [hlater, hchan, if_pos ⟨rfl, hlt⟩]
    refine ⟨rfl, rfl, rfl, fun _ _ => ⟨hheld, rfl, ?_⟩, fun j hj => ?_, ?_, ?_⟩
    · exact Hw.warn_pend_mono _ _ _ (Hw.capture_pend_mono _ _ hpend)
    · rw [hlater, hchan, if_neg fun hh => hj hh.1.symm]
    · rw [Hw.collect_eq, Hw.raise_eq]
      rfl
    · rw [Hw.collect_eq, Hw.raise_eq]
      rfl

end

/-! ## A base of a totalizer (R319, R320) -/

/-- A new base is a pair, its value and instant on record. -/
theorem Hw.newBase_spec (h : Hw) (cd total : Nat) :
    let t := h.newBase cd total
    t.store.ckptAt = h.store.ckptAt.set cd total ∧ t.store.pSeq = h.store.pSeq + 2 ∧ t.metro = h.metro ∧
      t.store.proving.getLast?.map (fun v => (v.key, v.seq)) = some (0x310 + cd, h.store.pSeq + 2) := by
  have hpair := h.spares_pair (baseKey cd) (basePayload cd total h.image.ckptStep)
  exact ⟨congrArg (·.set cd total) hpair.bases, hpair.pSeq, hpair.metro, h.pair_proving_getLast? _ _⟩

/-- Settles O40: the comparison judges each channel by itself and arms nothing; a hold and its end change one channel, and what an error's
reaction does then touches neither Belvedere nor a request that stands; a base is a pair. -/
theorem crossCheckAndHolds : Obligations.CrossCheckAndHolds := by
  unfold Obligations.CrossCheckAndHolds
  refine ⟨fun s hruns hdue hq => completes_comparison hruns hdue hq ?comparison,
    fun s c hruns hen hfree => completes_stuckBitstream hruns hen ?stuck,
    fun s c hruns hen hin => completes_stuckBitstream hruns hen (s.hw.enterHold_of_hasCause c 3 _ hin),
    fun s c hruns hforce hin => completes_inputCauseClear hruns hforce ?clear,
    fun s c d hruns hnew => completes_checkpointBase hruns hnew ⟨rfl, ?base⟩⟩
  case comparison =>
    refine ⟨s.hw.compared_due, s.hw.compared_clk, fun c => ?_⟩
    rw [s.hw.compared_chan c]
    refine ⟨Chan.judged_of_skip, fun hskip hagr => ?_, fun hskip hagr => ?_⟩
    · rw [Chan.judged_of_agreed hskip hagr]
      exact ⟨rfl, rfl, rfl, rfl⟩
    · obtain ⟨hcompared, hdisagreed, hrun, hdiverge⟩ := Chan.judged_of_disagreed hskip hagr
      exact ⟨hcompared, hdisagreed, hrun, hdiverge, s.hw.compared_pend c (metering_of_metroRuns hruns) hskip hagr⟩
  case stuck =>
    have hlt : c.val < s.hw.metro.chans.length := Hw.chan_lt (·.enabled) (hen.trans (by decide +kernel))
    obtain ⟨hinput, hheld, himp, hexp⟩ := (s.hw.chan c).takeHold_input
    rw [Hw.enterHold_chan, if_pos ⟨rfl, hlt⟩]
    refine ⟨hinput, hheld, himp, hexp, fun j hj => ?_, fun hnot => ⟨?_, fun n hopen hpend hmask => ?_⟩⟩
    · rw [Hw.enterHold_chan, if_neg fun hh => hj (Fin.ext hh.1.symm)]
    · exact s.hw.enterHold_pend c 3 _ (metering_of_metroRuns hruns) hfree hnot
    · exact s.hw.enterHold_closes c _ hfree hnot hopen hpend hmask
  case clear =>
    obtain ⟨hinput, hdiv, hcal, hlast, hothers, houts, hslots⟩ := s.hw.clearCause_input_spec c (metering_of_metroRuns hruns) hin
    exact ⟨hinput, hdiv, hcal, hlast, fun j hj => hothers j (fun e => hj (Fin.ext e)), houts, hslots⟩
  case base =>
    have hbase := s.hw.wake.newBase_spec (2 * c.val + b2n d) ((s.hw.chan c).total (b2n d))
    rw [Hw.wake_eq] at hbase ⊢
    exact hbase

end Sys2Proof.Machine
end

section
/-! SUPPORT. A CAL_WRITE whose number the running sequence bears too, its blocks lost: the hold's reaction ends the job before the load
does (R246, R266, R415, R474, R475). -/

namespace Sys2Proof.Machine

/-- The job of a CAL_WRITE. -/
def calWriteJob : Job :=
  { num := 7, op := 0x49, state := .running, status := 0, result := 0, progress := 0, data := [], byCore := false }

/-- In POWER_UP under job 7. A CAL_WRITE of channel 1 that is job 7 too, as the numbers come round after 65535, waits for the block
boundary, with no copy of its blocks readable; class 9 answers with SAFE_STATE. -/
def calibratingUnderSharedNumber : Hw :=
  { liveHw with
    seq := { liveHw.seq with state := .seqUp, active := true, job := some 7 }
    metro := { liveHw.metro with calJob := some { chan := 0, job := 7, written := true } }
    proto := { liveHw.proto with lastJob := 7, jobs := [calWriteJob] }
    faults := { liveHw.faults with policies := defaultPolicies.set 8 2 } }

/-- The load finds the blocks absent; SAFE_STATE ends the sequence, and what bears its number, with result 3. -/
theorem blockEnd_under_sharedNumber :
    ∀ x ∈ (after (exec (.blockEnd []) ⟨calibratingUnderSharedNumber, []⟩)).proto.jobs, x.result = 3 := by decide +kernel

/-- Refutes O39: the reaction to the hold that a failed load enters ends the sequence in progress, and the job of the CAL_WRITE with it
where both bear one number. The statement rules this out for the jobs of the slots alone. -/
theorem not_blocksAccumulate : ¬ Obligations.BlocksAccumulate := by
  unfold Obligations.BlocksAccumulate
  rintro ⟨-, hload, -⟩
  obtain ⟨-, -, -, hends, -⟩ := (hload ⟨calibratingUnderSharedNumber, []⟩ [] { chan := 0, job := 7, written := true }
    (by decide +kernel) (by decide +kernel) rfl (by decide) (by decide +kernel) (by decide +kernel) (by decide +kernel)).after_exec
  have hended := hends calWriteJob (by decide +kernel) rfl rfl
  have hthree := blockEnd_under_sharedNumber _ hended
  dsimp only at hthree
  split at hthree <;> exact absurd hthree (by decide)

end Sys2Proof.Machine
end

section
/-! SUPPORT. What errors, their reactions and writes to the store leave alone of the session slots: how many there are, each one's
state, and whether its stop capture is taken (R276, R281, R305, R315, R323, R474). -/

namespace Sys2Proof.Machine

/-- A slot's state, and whether its stop capture is taken. -/
def Slot.stage (x : Slot) : SlotState × Bool := (x.st, x.captured)

def Hw.stages (h : Hw) : List (SlotState × Bool) := h.slots.map Slot.stage

section
variable {g h : Hw}

theorem stages_of_slots (e : g.slots = h.slots) : g.stages = h.stages := congrArg (List.map Slot.stage) e

theorem stage_of_stages (e : g.stages = h.stages) (n : Nat) : (g.slot n).stage = (h.slot n).stage := by
  have hget : ∀ k : Hw, (k.slot n).stage = k.stages.getD n Slot.none.stage := fun k => (List.getD_map k.slots Slot.none Slot.stage).symm
  rw [hget, hget, e]

theorem slots_length_of_stages (e : g.stages = h.stages) : g.slots.length = h.slots.length := by
  simpa [Hw.stages] using congrArg List.length e

end

section
variable (h : Hw)

/-- A slot in use is one of the 128. -/
theorem Hw.slot_lt {n : Nat} (hopen : (h.slot n).open? = true) : n < h.slots.length :=
  lt_of_getD_ne (d := Slot.none) fun e => absurd ((congrArg Slot.open? e).symm.trans hopen) (by decide)

theorem Hw.closeAll_stages (reason : Nat) (flags : BitVec 16) : (h.closeAll reason flags).stages = h.stages := by
  have hask : Slot.stage ∘ Slot.askClose reason flags = Slot.stage := funext fun x => by
    unfold Function.comp Slot.askClose
    split <;> rfl
  exact (List.map_map ..).trans (congrArg (List.map · h.slots) hask)

theorem Hw.report_stages (src addr master access : Nat) (d : List Byte) : (h.report src addr master access d).stages = h.stages := by
  rcases h.report_slots src addr master access d with e | e
  · exact stages_of_slots e
  · exact (stages_of_slots (h := h.closeAll 4 0) e).trans (h.closeAll_stages 4 0)

/-! ## Writes to the store (R315, R323, R324) -/

theorem Hw.regionCheck_stages (region key : Nat) : (h.regionCheck region key).1.stages = h.stages := by
  unfold Hw.regionCheck
  split
  · unfold Hw.flashCheck
    split
    · exact Hw.report_stages _ _ _ _ _ _
    · rfl
  · rfl

theorem Hw.compactNow_stages (r : Ring) : (h.compactNow r).stages = h.stages := by
  have herase : ∀ g : Hw, (g.eraseNow r).stages = g.stages := fun g =>
    (show (g.forgetFaults r).stages = g.stages by unfold Hw.forgetFaults; split <;> rfl)
  have hchecks : (h.copyChecks r).1.stages = h.stages := by
    unfold Hw.copyChecks
    split
    · exact List.foldlRecOn (motive := fun a : Hw × List Rec => a.1.stages = h.stages) _ _ rfl fun a ha x _ =>
        (a.1.regionCheck_stages _ x.key).trans ha
    · rfl
  unfold Hw.compactNow
  split
  · exact herase h
  · refine (herase _).trans ?_
    exact List.foldlRecOn (motive := fun g : Hw => g.stages = h.stages) _ _ hchecks fun _ hg _ _ => hg

theorem Hw.keep_stages (half : Bool) (x : Rec) : (h.keep half x).stages = h.stages := by
  have hroom : ∀ (n size : Nat) (r : Ring) (g : Hw), (Hw.makeRoom n size r g).stages = g.stages := fun n size r => by
    induction n with
    | zero => exact fun _ => rfl
    | succ n ih =>
      intro g
      unfold Hw.makeRoom
      split
      · exact (ih _).trans (g.compactNow_stages r)
      · rfl
  exact hroom 128 _ (halfRing half) h

theorem Hw.pair_stages (key : Nat) (payload : List Byte) : (h.pair key payload).stages = h.stages := by
  unfold Hw.pair Hw.pairFor Hw.pairWith
  exact (Hw.keep_stages _ _ _).trans (Hw.keep_stages _ _ _)

theorem Hw.retireSector_stages (region gen : Nat) : (h.retireSector region gen).stages = h.stages :=
  (stages_of_slots (slots_of_rest (Hw.raise_rest _ _))).trans (Hw.pair_stages _ _ _)

theorem Hw.retireSector_log (region gen : Nat) : (h.retireSector region gen).log = h.log :=
  congrArg Ledger.log ((ledger_of_rest (Hw.raise_rest _ _)).trans (Hw.pair_ledger _ _ _))

end

end Sys2Proof.Machine
end

section
/-! SUPPORT. An append to the session log, one lemma an operation: what it writes, and what a failed one leaves; and with them the
records that reach the log (R276, R283, R285, R295, R300, R305, R311–R313). -/

namespace Sys2Proof.Machine

/-! ## Entries and numbers -/

section
variable (l : Log)

/-- A number once taken stays with its record (R300). -/
theorem Log.number_number (seq : Nat) : l.number (l.number seq) = l.number seq := by
  unfold Log.number
  split
  · exact if_neg (Nat.succ_ne_zero _)
  · rfl

theorem Log.put_of_number (draft : List Byte) (signed : Bool) (seq : Nat) :
    l.put draft signed (l.number seq) = l.write draft (l.number seq) signed true signed := by
  rw [Log.put, Log.number_number]

/-- A record without COMMIT is none of the committed ones (R311, R312). -/
theorem Log.write_uncommitted (draft : List Byte) (seq : Nat) (sig signed : Bool) :
    (l.write draft seq sig false signed).lastSeq = l.lastSeq ∧
      (l.write draft seq sig false signed).entries.filter (·.committed) = l.entries.filter (·.committed) :=
  ⟨rfl, by simp [Log.write]⟩

theorem Log.wearAt_keeps (pos : Nat) : (l.wearAt pos).entries = l.entries ∧ (l.wearAt pos).lastSeq = l.lastSeq := by
  unfold Log.wearAt
  split <;> exact ⟨rfl, rfl⟩

/-- After deferred signing a committed entry is signed or DAMAGED (R285). -/
theorem LogEntry.sign_committed (e : LogEntry) (hcommitted : e.sign.committed = true) :
    e.sign.signed = true ∨ e.sign.damaged = true := by
  unfold LogEntry.sign at hcommitted ⊢
  by_cases hleft : (e.signed || e.damaged || !e.committed) = true
  · rw [if_pos hleft] at hcommitted ⊢
    simpa [hcommitted] using hleft
  · rw [if_neg hleft]
    split
    · exact .inl rfl
    · exact .inr rfl

end

/-! ## What follows every append -/

section
variable (h : Hw)

/-- The reclaim that E calls for, and LOG_LOW (R298, R313). -/
theorem Hw.reclaim_lowSince_eq (before : Int) : ∃ idle adc evt reclaiming, (h.reclaim).lowSince before =
    { h with idle := idle, adc := adc, evt := evt, log := { h.log with reclaiming := reclaiming } } := by
  have hreclaim : ∃ reclaiming, h.reclaim = { h with log := { h.log with reclaiming := reclaiming } } := by
    unfold Hw.reclaim
    split
    · exact ⟨_, rfl⟩
    · exact ⟨_, rfl⟩
  obtain ⟨reclaiming, hr⟩ := hreclaim
  unfold Hw.lowSince
  rw [Hw.raiseIf_eq, hr]
  exact ⟨_, _, _, reclaiming, rfl⟩

theorem Hw.endJob?_eq (j : Option Nat) (st r : Nat) (d : List Byte) : ∃ proto, h.endJob? j st r d = { h with proto := proto } := by
  cases j <;> exact ⟨_, rfl⟩

/-- A command's transfer that no injection of Folly meets (R478, R507). -/
theorem Hw.transfer_of_no_hit (hhit : h.hit 0x0F = false) (c n : Nat) : h.transfer c n = (h, true) :=
  if_pos (by simp [hhit])

theorem Hw.breakStep_of_no_break (hbreak : h.life.breaking = none) : h.breakStep = h := by
  unfold Hw.breakStep
  rw [hbreak]

theorem Hw.breakAtBoot_of_none_due (hdue : h.life.breakDue = none) : h.breakAtBoot = h := by
  unfold Hw.breakAtBoot
  rw [hdue]

end

/-! ## A session's record (R276, R283, R300) -/

/-- A slot whose record is in the log under a number (R276). -/
def Slot.logged (seq : Nat) (x : Slot) : Slot :=
  { x with st := .closed, closePending := false, captured := false, seq := seq, closeJob := Option.none }

/-- A slot whose record's programming failed: the number stays taken, and the record waits for the next erased entry (R300). -/
def Slot.unlogged (seq : Nat) (x : Slot) : Slot := { x with closeJob := Option.none, seq := seq }

/-- An append whose verify fails, its job ended STORE_ERROR (R300). -/
def Hw.slotUnlogged (h : Hw) (n : Nat) : Hw :=
  let x := h.slot n
  let seq := h.log.number x.seq
  ((h.logFails (h.sessionDraft n x) seq true true).endJob? x.closeJob 0x70 0 []).modSlot n (Slot.unlogged seq)

/-- The row of a slot whose turn it is, with an erased entry and a transfer that no injection meets. -/
theorem completes_recordAppended {s : State} {n : Fin 128} {post : Hw → Prop} (ok : Bool) (hopen : (s.hw.slot n).open? = true)
    (hcap : (s.hw.slot n).captured = true) (hcommit : s.hw.pwr.commit = none) (hturn : s.hw.slotTurn n = true)
    (hwait : s.hw.log.waiting.any (waitsFor n) = false) (herased : 0 < s.hw.log.erased) (hhit : s.hw.hit 0x0F = false)
    (hp : post (if ok then s.hw.slotLogged n else s.hw.slotUnlogged n)) : Completes (.recordAppended n ok) s post := by
  refine ⟨_, rfl, rfl, ?_⟩
  dsimp only
  rw [if_pos (by simp [hopen, hcap, hcommit, hturn, hwait]), if_neg (Nat.ne_of_gt herased), Hw.transfer_of_no_hit _ hhit]
  cases ok <;> exact hp

section
variable (h : Hw) (n : Nat)

/-- A signed append takes the next number, and its slot is CLOSED; no seal break and no SERVICE_PREPARE waits for it. -/
theorem Hw.slotLogged_eq (hbreak : h.life.breaking = none) (hjob : h.seq.service.job = none) :
    ∃ idle adc evt proto reclaiming, h.slotLogged n = ({ h with
      idle := idle, adc := adc, evt := evt, proto := proto
      log := { h.log.write (h.sessionDraft n (h.slot n)) (h.log.number (h.slot n).seq) true true true with reclaiming := reclaiming }
      slots := h.slots.modify n (Slot.logged (h.log.number (h.slot n).seq)) } : Hw).raise 27 := by
  unfold Hw.slotLogged Hw.putSlot
  dsimp only
  obtain ⟨idle, adc, evt, reclaiming, happend⟩ := (({ h with
    log := h.log.put (h.sessionDraft n (h.slot n)) true (h.log.number (h.slot n).seq) } : Hw).modSlot n fun s =>
      { s with st := .closed, closePending := false, captured := false, seq := h.log.number (h.slot n).seq }).reclaim_lowSince_eq h.logSpace
  rw [happend]
  generalize be 4 _ = data
  obtain ⟨proto, hend⟩ := Hw.endJob?_eq _ (h.slot n).closeJob 0 0 data
  rw [hend, Hw.breakStep_of_no_break _ (by rw [Hw.raise_eq]; exact hbreak), Hw.serviceStep_of_no_job _ (by rw [Hw.raise_eq]; exact hjob)]
  refine ⟨idle, adc, evt, proto, reclaiming, ?_⟩
  unfold Hw.modSlot
  dsimp only
  rw [List.modify_modify_eq, Log.put_of_number]
  rfl

/-- The sector that fails its verify takes no entry and no number with it (R305). -/
theorem Hw.retireLog_keeps : h.retireLog.log.lastSeq = h.log.lastSeq ∧ h.retireLog.log.entries = h.log.entries ∧
    h.retireLog.stages = h.stages := by
  unfold Hw.retireLog Hw.retireLogAt
  dsimp only
  rw [Hw.retireSector_log, Hw.retireSector_stages]
  split
  · exact ⟨rfl, rfl, rfl⟩
  · obtain ⟨hentries, hlast⟩ := h.log.wearAt_keeps ((h.log.wpos + h.log.size - 1) % h.log.size)
    exact ⟨hlast, hentries, rfl⟩

/-- A store write failure leaves the log, and the slots to their states. -/
theorem Hw.writeFailure_keeps (key : Nat) : (h.writeFailure key).log = h.log ∧ (h.writeFailure key).stages = h.stages :=
  ⟨congrArg Ledger.log (h.report_ledger 0xA3 key 0 1 []), h.report_stages 0xA3 key 0 1 []⟩

/-- A failed append commits nothing and leaves the slots to their states (R300, R305, R312). -/
theorem Hw.logFails_keeps (draft : List Byte) (seq : Nat) (sig : Bool) :
    (h.logFails draft seq sig true).log.lastSeq = h.log.lastSeq ∧
      (h.logFails draft seq sig true).log.entries.filter (·.committed) = h.log.entries.filter (·.committed) ∧
      (h.logFails draft seq sig true).stages = h.stages := by
  obtain ⟨hlast, hcommitted⟩ := h.log.write_uncommitted draft seq sig false
  obtain ⟨hretLast, hretEntries, hretStages⟩ := Hw.retireLog_keeps { h with log := h.log.write draft seq sig false false }
  unfold Hw.logFails
  dsimp only
  rw [if_pos rfl]
  generalize ({ h with log := h.log.write draft seq sig false false } : Hw).retireLog = g at hretLast hretEntries hretStages ⊢
  obtain ⟨hlog, hstages⟩ := g.writeFailure_keeps 0xE001
  obtain ⟨_, _, _, _, hafter⟩ := (g.writeFailure 0xE001).reclaim_lowSince_eq h.logSpace
  rw [hafter]
  dsimp only
  rw [hlog, hretLast, hretEntries]
  exact ⟨hlast, hcommitted, hstages.trans hretStages⟩

/-- A signed append: the entry stands at the write position under the number that it took, and nothing but the log, the slot, the job
and the events has moved. -/
theorem Hw.slotLogged_spec (hopen : (h.slot n).open? = true) (hmet : h.metering = true) (hbreak : h.life.breaking = none)
    (hjob : h.seq.service.job = none) :
    let seq := h.log.number (h.slot n).seq
    let t := h.slotLogged n
    (t.slot n).st = .closed ∧ (t.slot n).seq = seq ∧ t.log.lastSeq = max h.log.lastSeq seq ∧ t.evt.pend.getLsbD 27 = true ∧
      (∃ e ∈ t.log.entries, e.seq = seq ∧ e.pos = h.log.wpos ∧ e.committed = true ∧ e.signed = true) ∧
      t.log.erased = h.log.erased - 1 ∧ t.log.entries.length = h.log.entries.length + 1 ∧ t.outs = h.outs ∧ t.life = h.life := by
  obtain ⟨idle, adc, evt, proto, reclaiming, hlogged⟩ := h.slotLogged_eq n hbreak hjob
  dsimp only
  rw [hlogged]
  generalize hg : ({ h with
    idle := idle, adc := adc, evt := evt, proto := proto
    log := { h.log.write (h.sessionDraft n (h.slot n)) (h.log.number (h.slot n).seq) true true true with reclaiming := reclaiming }
    slots := h.slots.modify n (Slot.logged (h.log.number (h.slot n).seq)) } : Hw) = g
  have hpend : (g.raise 27).evt.pend.getLsbD 27 = true :=
    g.raise_pend_of_not_mute (by simp [Hw.mute, show g.metering = true by rw [← hg]; exact hmet]) (by decide)
  have hslot : (g.raise 27).slot n = (h.slot n).logged (h.log.number (h.slot n).seq) := by
    rw [Hw.raise_eq, ← hg]
    exact (h.slot_modSlot n n _).trans (if_pos ⟨rfl, h.slot_lt hopen⟩)
  refine ⟨by rw [hslot]; rfl, by rw [hslot]; rfl, ?_, hpend, ?_, ?_, ?_, ?_, ?_⟩ <;> rw [Hw.raise_eq, ← hg]
  · rfl
  · exact ⟨_, List.mem_append_right _ (List.mem_singleton_self _), rfl, rfl, rfl, rfl⟩
  · rfl
  · exact List.length_append

/-- A failed append: the slot stays OPEN under the number that it took, and nothing more is committed. -/
theorem Hw.slotUnlogged_spec (hopen : (h.slot n).open? = true) (hcap : (h.slot n).captured = true) :
    let t := h.slotUnlogged n
    (t.slot n).open? = true ∧ (t.slot n).captured = true ∧ (t.slot n).seq = h.log.number (h.slot n).seq ∧
      t.log.lastSeq = h.log.lastSeq ∧ t.log.entries.filter (·.committed) = h.log.entries.filter (·.committed) := by
  obtain ⟨hlast, hcommitted, hstages⟩ := h.logFails_keeps (h.sessionDraft n (h.slot n)) (h.log.number (h.slot n).seq) true
  unfold Hw.slotUnlogged
  dsimp only
  generalize h.logFails (h.sessionDraft n (h.slot n)) (h.log.number (h.slot n).seq) true true = g at hlast hcommitted hstages ⊢
  obtain ⟨_, hend⟩ := g.endJob?_eq (h.slot n).closeJob 0x70 0 []
  have hlt : n < g.slots.length := (slots_length_of_stages hstages).symm ▸ h.slot_lt hopen
  have hstage : (g.slot n).stage = (h.slot n).stage := stage_of_stages hstages n
  rw [hend, Hw.slot_modSlot, if_pos ⟨rfl, hlt⟩]
  refine ⟨?_, (congrArg Prod.snd hstage).trans hcap, rfl, hlast, hcommitted⟩
  exact (congrArg (fun y => y.1 == SlotState.opened) hstage).trans hopen

end

/-! ## A record in wait gets an erased entry (R283, R313) -/

section
variable {h : Hw} {w : WaitRec}

/-- Only the record of a TIME_SET is formed anew as its programming begins (R379). -/
theorem Hw.formRecord_of_no_purpose (h : Hw) {w : StoreWrite} (hpurpose : w.purpose = .none) : h.formRecord w = w := by
  unfold Hw.formRecord
  rw [hpurpose]

/-- Another record begins as the write that the store has in hand, its body programmed without COMMIT (R311). -/
theorem Hw.beginWaiting_eq (h : Hw) (hpurpose : w.purpose = .none) : ∃ idle adc evt reclaiming, h.beginWaiting w = { h with
    idle := idle, adc := adc, evt := evt
    log := { h.log.write w.draft (h.log.number w.seq) w.signed false false with reclaiming := reclaiming }
    store := { h.store with
      queue := { logWrite w.draft w.signed (h.log.number w.seq) .none with phase := 1 } :: h.store.queue } } := by
  obtain ⟨idle, adc, evt, reclaiming, hafter⟩ :=
    Hw.reclaim_lowSince_eq { h with log := h.log.write w.draft (h.log.number w.seq) w.signed false false } h.logSpace
  unfold Hw.beginWaiting Hw.beginLog
  rw [h.formRecord_of_no_purpose (w := logWrite w.draft w.signed w.seq w.purpose) hpurpose, hpurpose]
  exact ⟨idle, adc, evt, reclaiming, congrArg (fun g : Hw => { g with store := { g.store with
    queue := { logWrite w.draft w.signed (h.log.number w.seq) .none with phase := 1 } :: g.store.queue } }) hafter⟩

/-- With no session's record in wait or due, the oldest record in wait begins. -/
theorem Hw.serveWaiting_of_no_session {ws : List WaitRec} (hwaiting : h.log.waiting = w :: ws) (hdue : h.sessionsDue = false)
    (hnone : ∀ x ∈ w :: ws, slice x.draft 0 1 ≠ [1]) :
    h.serveWaiting = ({ h with log := { h.log with waiting := ws } } : Hw).beginWaiting w := by
  have hfind : h.log.waiting.find? (fun x => slice x.draft 0 1 == [1]) = none := by
    rw [hwaiting]
    exact List.find?_eq_none.mpr fun x hx => by simpa using hnone x hx
  unfold Hw.serveWaiting
  rw [hfind, hwaiting]
  dsimp only
  rw [hdue, if_neg Bool.false_ne_true]

/-- A session's record goes first: its slot takes the number, and its own row ends the append (log 40). -/
theorem Hw.serveWaiting_of_session (hfind : h.log.waiting.find? (fun x => slice x.draft 0 1 == [1]) = some w) :
    h.serveWaiting = ({ h with log := { h.log with
      waiting := h.log.waiting.erase w, nextSeq := max h.log.nextSeq (h.log.number w.seq) } } : Hw).modSlot
        (ube (slice w.draft 8 2)) (fun x => { x with seq := h.log.number w.seq }) := by
  unfold Hw.serveWaiting
  rw [hfind]

theorem completes_appendAfterReclaim {s : State} {post : Hw → Prop} (herased : 0 < s.hw.log.erased)
    (hcommit : s.hw.pwr.commit = none) (hp : post s.hw.serveWaiting) : Completes .appendAfterReclaim s post :=
  ⟨_, rfl, rfl, (congrArg post (if_pos (by simp [herased, hcommit]))).mpr hp⟩

theorem Hw.slots_of_shaped (hshape : h.shaped = true) : h.slots.length = 128 := by
  simp only [Hw.shaped, Bool.and_eq_true, decide_eq_true_eq] at hshape
  exact hshape.1.2

end

/-! ## Deferred signing (R285) -/

/-- A CLOSED_PF slot becomes CLOSED. -/
def Slot.pfClosed (x : Slot) : Slot := if x.st == .closedPf then { x with st := .closed } else x

theorem Slot.pfClosed_st (x : Slot) : x.pfClosed.st ≠ .closedPf := by
  unfold Slot.pfClosed
  split
  · exact SlotState.noConfusion
  · rename_i hst
    simpa using hst

/-- The reports of the records that deferred signing marks leave the log, and the slots to their states. -/
theorem Hw.damageReports_keep (h : Hw) (l : List Nat) :
    (l.foldl (fun k _ => (k.raise 28).report 0xA2 0xE001 0 0 []) h).log = h.log ∧
      (l.foldl (fun k _ => (k.raise 28).report 0xA2 0xE001 0 0 []) h).stages = h.stages :=
  List.foldlRecOn (motive := fun k : Hw => k.log = h.log ∧ k.stages = h.stages) l _ ⟨rfl, rfl⟩ fun k ⟨hlog, hstages⟩ _ _ =>
    ⟨(congrArg Ledger.log ((Hw.report_ledger _ _ _ _ _ _).trans (ledger_of_rest (k.raise_rest 28)))).trans hlog,
      (Hw.report_stages _ _ _ _ _ _).trans ((stages_of_slots (slots_of_rest (k.raise_rest 28))).trans hstages)⟩

/-- Deferred signing signs or marks what the log holds, and no slot stays CLOSED_PF. -/
theorem Hw.signAll_spec (h : Hw) : h.signAll.log.entries = h.log.entries.map LogEntry.sign ∧ h.signAll.log.signPending = false ∧
    ∀ n, (h.signAll.slot n).st ≠ .closedPf := by
  unfold Hw.signAll
  dsimp only
  generalize List.range _ = l
  refine ⟨by rw [(Hw.damageReports_keep _ l).1], by rw [(Hw.damageReports_keep _ l).1], fun n => ?_⟩
  have hsigned : (h.slots.map Slot.pfClosed).getD n Slot.none = (h.slot n).pfClosed := List.getD_map h.slots Slot.none Slot.pfClosed
  exact ne_of_eq_of_ne ((congrArg Prod.fst (stage_of_stages (Hw.damageReports_keep _ l).2 n)).trans (congrArg Slot.st hsigned))
    (Slot.pfClosed_st _)

theorem Hw.break_undeferred_of_none {h : Hw} (hbreak : h.life.breaking = none) (f : BreakSt → BreakSt) :
    ({ h with life := { h.life with breaking := h.life.breaking.map f } } : Hw) = h := by
  have hmap : h.life.breaking.map f = h.life.breaking := by rw [hbreak]; rfl
  rw [hmap]

/-- With no seal break under way or due, deferred signing is all that its row does. -/
theorem completes_deferredSigningEnd {s : State} {post : Hw → Prop} (hpending : s.hw.log.signPending = true)
    (hmain : s.hw.ins.mainOn = true) (hcommit : s.hw.pwr.commit = none) (hbreak : s.hw.life.breaking = none)
    (hdue : s.hw.life.breakDue = none) (hp : post s.hw.signAll) : Completes .deferredSigningEnd s post := by
  have hlife : s.hw.signAll.life = s.hw.life := s.hw.signAll_life
  refine ⟨_, rfl, rfl, ?_⟩
  dsimp only
  rw [if_pos (by simp [hpending, hmain, hcommit]), Hw.break_undeferred_of_none (by rw [hlife]; exact hbreak),
    Hw.breakStep_of_no_break _ (by rw [hlife]; exact hbreak), Hw.breakAtBoot_of_none_due _ (by rw [hlife]; exact hdue)]
  exact hp

/-- Settles O41: an append and a failed one are each one write of the log beside the slot; what an error's reaction or a retired sector
does then reaches neither the log nor a slot's state; a record in wait is served by its type; deferred signing goes entry by entry. -/
theorem recordsReachTheLog : Obligations.RecordsReachTheLog := by
  unfold Obligations.RecordsReachTheLog
  refine ⟨fun s n hopen hcap hcommit hturn hwait herased hmet hbreak hjob hhit =>
      completes_recordAppended true hopen hcap hcommit hturn hwait herased hhit ?appended,
    fun s n hopen hcap hcommit hturn hwait herased hhit =>
      completes_recordAppended false hopen hcap hcommit hturn hwait herased hhit (s.hw.slotUnlogged_spec n hopen hcap),
    fun s w ws hwaiting herased hcommit hdue hnone hpurpose => completes_appendAfterReclaim herased hcommit ?other,
    fun s w n hfind herased hcommit hslot hshape => completes_appendAfterReclaim herased hcommit ?session,
    fun s hpending hmain hcommit hbreak hdue => completes_deferredSigningEnd hpending hmain hcommit hbreak hdue ?signed⟩
  case appended =>
    obtain ⟨hclosed, hseq, hlast, hpend, hentry, herase, hlength, houts, hlife⟩ := s.hw.slotLogged_spec n hopen hmet hbreak hjob
    exact ⟨hclosed, hseq, hlast ▸ le_max_right _ _, hpend, hentry, fun _ => ⟨hlast, herase, hlength⟩, houts, hlife⟩
  case other =>
    rw [Hw.serveWaiting_of_no_session hwaiting hdue hnone]
    obtain ⟨_, _, _, _, hbegun⟩ := Hw.beginWaiting_eq { s.hw with log := { s.hw.log with waiting := ws } } hpurpose
    rw [hbegun]
    exact ⟨rfl, rfl, rfl, rfl, rfl, rfl, rfl⟩
  case session =>
    have hlt : n.val < s.hw.slots.length := (Hw.slots_of_shaped hshape).symm ▸ n.isLt
    rw [Hw.serveWaiting_of_session hfind, hslot]
    refine ⟨rfl, ?_, ?_, rfl, fun m hm => ?_, rfl⟩
    · rw [Hw.slot_modSlot, if_pos ⟨rfl, hlt⟩]
    · rw [Hw.slot_modSlot, if_pos ⟨rfl, hlt⟩]
      rfl
    · rw [Hw.slot_modSlot, if_neg fun hh => hm (Fin.ext hh.1.symm)]
      rfl
  case signed =>
    obtain ⟨hentries, hdone, hslots⟩ := s.hw.signAll_spec
    refine ⟨hentries, hdone, hslots, fun e he => ?_, s.hw.signAll_life⟩
    obtain ⟨x, -, rfl⟩ := List.mem_map.mp (hentries ▸ he)
    exact x.sign_committed

end Sys2Proof.Machine
end

section
/-! SUPPORT. A step and the queue, that every command answers, and the values at reset (R536). -/

namespace Sys2Proof.Machine

/-! ## A step and its command -/

/-- Settles O1: by the two forms of the queue. -/
theorem stepTakesTheFrontCommand : Obligations.StepTakesTheFrontCommand := by
  refine ⟨fun s c rest hs => ?_, fun s hs => ?_⟩
  · unfold step
    rw [hs]
  · have hidle : step s = s.upd (fun h => h.advance 1) := by
      unfold step
      rw [hs]
    exact hidle

/-- Every command but a VIN reading moves the hardware alone. -/
theorem exec_answers (c : Instr) (s : State) (hc : ∀ mv, c ≠ .vinUnusable mv) :
    ∃ t, exec c s = .next t ∧ t.pending = s.pending := by
  cases c
  case vinUnusable mv => exact absurd rfl (hc mv)
  all_goals exact ⟨_, rfl, rfl⟩

/-- Settles O2: a command that moves the hardware alone answers and leaves the queue; a VIN reading does so up to 80 V. -/
theorem everyCommandAnswers : Obligations.EveryCommandAnswers := by
  refine ⟨fun c s => ?_, fun s mv hmv => if_pos hmv⟩
  by_cases hc : ∀ mv, c ≠ .vinUnusable mv
  · exact .inl (exec_answers c s hc)
  · push Not at hc
    obtain ⟨mv, rfl⟩ := hc
    rcases Nat.lt_or_ge 80000 mv with hmv | hmv
    · exact .inr ⟨mv, rfl, hmv, if_pos hmv⟩
    · exact .inl ⟨_, if_neg (by omega), rfl⟩

/-! ## Reset -/

/-- Outputs loaded from an image are off, and so is what stands for an output that there is none of. -/
theorem getD_map_loaded_off (cs : List OutCfg) (k : Nat) : ((cs.map Output.loaded).getD k Output.off).on = false := by
  rw [List.getD_eq_getElem?_getD, List.getElem?_map]
  cases cs[k]? <;> rfl

theorem reset_shaped : State.reset.hw.shaped = true := by
  have hslots : State.reset.hw.slots.length = 128 := List.length_replicate
  have hcnt : State.reset.hw.evt.cnt.length = 64 := List.length_replicate
  unfold Hw.shaped
  rw [hslots, hcnt]
  rfl

/-- Settles O6: the values at reset. -/
theorem resetMeetsTheInvariants : Obligations.ResetMeetsTheInvariants := by
  unfold Obligations.ResetMeetsTheInvariants FusesInRange
  exact ⟨by decide, by decide, reset_shaped, rfl, getD_map_loaded_off Image.default.outs, rfl, rfl, rfl, rfl⟩

end Sys2Proof.Machine
end

section
/-! SUPPORT. A SEAL_STATEMENT that reaches the log of a module already SEALED (R520, R522). -/

namespace Sys2Proof.Machine

/-- A SEAL_STATEMENT of job 0 whose last program operation is under way: with its end the fuse burns (R311, R522). -/
def sealingWrite : StoreWrite :=
  { key := 0, payload := [], isLog := true, signed := true, phase := 2, seq := 1, half := false, purpose := .sealing 0 }

/-- A SEALED module, its seal unbroken, with a second SEAL_STATEMENT on its way to the log. -/
def sealedAndSealing : State :=
  { hw := { liveHw with life := { liveHw.life with prov := true, calEntered := true, seals := 1 }
                        store := { liveHw.store with queue := [sealingWrite] } }
    pending := [.flashProgramComplete true] }

/-- The end of the statement's last program operation burns a second SEAL fuse: it does not ask for the state again. -/
theorem flashProgramComplete_while_sealed :
    (after (step sealedAndSealing)).life.seals = 2 ∧ (after (step sealedAndSealing)).life.breaks = 0 := by decide +kernel

/-- Refutes O3: two seals stand against no break once a statement ends in a module that is SEALED. -/
theorem not_fusesOnlyBurn : ¬ Obligations.FusesOnlyBurn := by
  unfold Obligations.FusesOnlyBurn FusesInRange
  intro h
  obtain ⟨t, hstep⟩ : ∃ t, step sealedAndSealing = .next t := ⟨_, rfl⟩
  obtain ⟨-, -, hone, -⟩ := h sealedAndSealing t hstep (by decide +kernel)
  obtain ⟨hseals, hbreaks⟩ := flashProgramComplete_while_sealed
  rw [hstep] at hseals hbreaks
  exact absurd (hseals ▸ hbreaks ▸ hone) (by decide)

end Sys2Proof.Machine
end

section
/-! SUPPORT. What comes before the checks of a packet and before a command's own: the last-word commit, deferred signing, LIMP and the
privilege classes (R413, R416). -/

namespace Sys2Proof.Machine

/-! ## BUSY before the checks of a packet (R413) -/

theorem Hw.bootWork_of_signPending {h : Hw} (hsign : h.log.signPending = true) : h.bootWork = true := by
  simp [Hw.bootWork, hsign]

section
variable {h : Hw} {o : Origin} {p : Nat × List Byte} (hp : (h.mbx o).inProc = some p) (hj : (h.mbx o).judged = false)
  (hserves : h.serves = true) (hturn : h.turn o = true) (h4 : 4 ≤ p.2.length)
include hp hj hserves hturn h4

theorem Hw.judge_of_commit (hcommit : h.pwr.commit.isSome = true) : h.judge o = (h.markJudged o).respond o stBusy [] := by
  unfold Hw.judge Hw.markJudged
  simp [hp, hj, hserves, hturn, Nat.not_lt.mpr h4, hcommit]

theorem Hw.judge_of_bootWork (hcommit : h.pwr.commit = none) (hboot : h.bootWork = true) (hident : (p.2.getD 0 0).toNat ≠ 1)
    (hstatus : (p.2.getD 0 0).toNat ≠ 2) : h.judge o = (h.markJudged o).respond o stBusy [] := by
  have hboot' : (h.modMbx o fun m => { m with judged := true }).bootWork = true := by
    rw [← hboot]
    cases o <;> rfl
  unfold Hw.judge Hw.markJudged
  simp only [hp, hj, hserves, hturn, Nat.not_lt.mpr h4, hcommit, hboot', Hw.modMbx_pwr, ne_eq, hident, hstatus, not_false_eq_true,
    decide_true, Bool.and_self, Bool.not_true, Bool.or_self, Bool.false_eq_true, Option.isSome_none, if_true, if_false]

end

/-- BUSY as judging answers it is a reply to the packet and nothing else. -/
theorem Hw.busy_judged (h : Hw) (o : Origin) {j : Hw} (hj : j = (h.markJudged o).respond o stBusy []) :
    Replied h j o 0x31 [] ∧ j.outs = h.outs ∧ j.faults = h.faults := by
  subst hj
  exact ⟨Hw.markJudged_replied (Hw.respond_replied ..), by simp [Hw.markJudged], by simp [Hw.markJudged]⟩

/-! ## Before a command's own checks (R413, R416) -/

theorem cmdInfo_of_packetOf {i : Instr} {o : Origin} {op : Nat} {ps : List Byte} (hp : packetOf i = some (o, op, ps)) :
    ∃ c, cmdInfo op = some c := by
  unfold packetOf at hp
  split at hp <;> cases hp <;> exact ⟨_, rfl⟩

section
variable {h : Hw} {i : Instr} {o : Origin} {op : Nat} {ps : List Byte} (body : Hw → Hw) (hp : packetOf i = some (o, op, ps))
  (hs : h.reaches i = true)
include hp hs

theorem Hw.serve_of_commit (hcommit : h.pwr.commit.isSome = true) : h.serve i body = h.respond o stBusy [] := by
  obtain ⟨c, hc⟩ := cmdInfo_of_packetOf hp
  rw [Hw.serve_reached h i o op ps body c hp hc hs, if_pos hcommit]

theorem Hw.serve_of_bootWork (hcommit : h.pwr.commit = none) (hboot : h.bootWork = true) (hident : op ≠ 1) (hstatus : op ≠ 2) :
    h.serve i body = h.respond o stBusy [] := by
  obtain ⟨c, hc⟩ := cmdInfo_of_packetOf hp
  rw [Hw.serve_reached h i o op ps body c hp hc hs]
  simp [hcommit, hboot, hident, hstatus]

section
variable {c : CmdInfo} (hc : cmdInfo op = some c) (hcommit : h.pwr.commit = none) (hboot : h.bootWork = false)
  (hunit : h.unitAbsent c.unit = false)
include hc hcommit hboot hunit

theorem Hw.serve_in_limp (hcls : h.classRefuses c.cls o = none) (hlimp : h.inLimp = true) (hserved : servedInLimp op = false) :
    h.serve i body = h.respond o stWrongState [] := by
  rw [Hw.serve_reached h i o op ps body c hp hc hs]
  simp [hcommit, hboot, hunit, hcls, hlimp, hserved]

theorem Hw.serve_denied {st : Nat} (hcls : h.classRefuses c.cls o = some st) : h.serve i body = h.deny o op 0 st := by
  rw [Hw.serve_reached h i o op ps body c hp hc hs]
  simp [hcommit, hboot, hunit, hcls]

end
end

/-- The twelve commands of the ROM monitor. -/
theorem servedInLimp_iff (op : Nat) : servedInLimp op = true ↔
    op ∈ [0x01, 0x02, 0x03, 0xA2, 0xA3, 0xA4, 0x71, 0xA0, 0xA5, 0x48, 0x46, 0x83] := List.contains_iff_mem

/-- Settles O8: each state of R413 stands before the checks that it overrides. -/
theorem statesOverrideTheChecks : Obligations.StatesOverrideTheChecks := by
  refine ⟨fun h o p hp hj hserves hturn hcommit h4 => h.busy_judged o (Hw.judge_of_commit hp hj hserves hturn h4 hcommit),
    fun h i o op ps body hp hs hcommit => Hw.serve_of_commit body hp hs hcommit,
    fun h o p hp hj hserves hturn hcommit hsign hident hstatus h4 => h.busy_judged o
      (Hw.judge_of_bootWork hp hj hserves hturn h4 hcommit (Hw.bootWork_of_signPending hsign) hident hstatus),
    fun h i o op ps body hp hs hcommit hsign hident hstatus =>
      Hw.serve_of_bootWork body hp hs hcommit (Hw.bootWork_of_signPending hsign) hident hstatus,
    fun h i o op ps body c hp hc hs hcommit hboot hunit hcls hlimp hop =>
      Hw.serve_in_limp body hp hs hc hcommit hboot hunit hcls hlimp (Bool.eq_false_iff.mpr fun hserved => hop ((servedInLimp_iff op).mp hserved)),
    fun op hop => (servedInLimp_iff op).mpr hop, fun s o _ hcar => ?_⟩
  exact ServedBy.completes (op := 0x01) (body := fun h => h.ok o h.identData) ⟨⟨_, rfl⟩, fun _ => rfl⟩ rfl (by decide) s hcar

/-! ## A privilege that fails (R416) -/

theorem Hw.classRefuses_spec (h : Hw) (o : Origin) : h.classRefuses .opened o = none ∧
    h.classRefuses .operate .A = none ∧ h.classRefuses .operate .V = some 0x20 ∧
    (h.classRefuses .configure o = if o = .A ∧ (h.unlockOf o).unlocked = true then none else some 0x20) ∧
    (h.classRefuses .metrology o = if h.life.state ≠ 2 then some 0x21
      else if o = .A ∧ h.lines.calenLow = true then none else some 0x20) := by
  refine ⟨rfl, rfl, rfl, ?_, ?_⟩
  · simp [Hw.classRefuses, stDenied]
  · simp [Hw.classRefuses, stDenied, stWrongLife]

/-- A privilege failure answers its status, and is captured with the opcode and the offset of the field (R416). -/
theorem Hw.deny_spec (h : Hw) (o : Origin) (op off st : Nat) : Replied h (h.deny o op off st) o st [] ∧
    (h.faults.cap = none → (h.deny o op off st).faults.cap.map (fun e => (e.source, e.addr, e.master, e.access)) =
      some (0x31, op * 65536 + off, masterOf o, 3)) := by
  refine ⟨h.report_respond_replied .., fun hcap => ?_⟩
  unfold Hw.deny
  rw [Hw.respond_faults, Hw.report_cap _ _ _ _ _ _ hcap (by decide)]
  rfl

/-- Settles O9: each failure is the one refusal of its class. -/
theorem privilegeClassesRefuse : Obligations.PrivilegeClassesRefuse := by
  refine ⟨Hw.classRefuses_spec, fun h i o op ps body c st hp hc hs hcommit hboot hunit hcls => ?_, fun s hcar hcap => ?_, rfl, rfl⟩
  · rw [Hw.serve_denied body hp hs hc hcommit hboot hunit hcls]
    simpa using h.deny_spec o op 0 st
  · obtain ⟨t, hrun, hpend, ht⟩ := completes_of_row (t := s.hw.deny .V 0x81 4 0x20)
      ⟨⟨_, rfl⟩, fun _ => rfl⟩ (rfl : cmdInfo 0x81 = some _) (by decide) hcar rfl
    obtain ⟨hreply, hcapture⟩ := s.hw.deny_spec .V 0x81 4 0x20
    exact ⟨t, hrun, hpend, ht ▸ ⟨hreply, hcapture hcap⟩⟩

end Sys2Proof.Machine
end

section
/-! SUPPORT. Writes whose compaction meets a flash error that the statements leave open (R323, R324, R469, R474, R477): the class
reaction turns outputs off. -/

namespace Sys2Proof.Machine

/-! ## The first copy of a parameter write (R315, R323) -/

/-- A write of a job-less parameter whose first copy has been programmed, to half 0, and waits for its COMMIT. -/
def halfWritten : StoreWrite :=
  { key := 0x8000, payload := [], isLog := false, signed := false, phase := 1, seq := 1, half := false, purpose := .none }

/-- The module with VM1 on and a read error armed, while `halfWritten` stands at the head of the queue and its half is full. -/
def writingWithErrorArmed : Hw := { regulatingWithErrorArmed with store := { regulatingWithErrorArmed.store with queue := [halfWritten] } }

/-- The copy needs the oldest sector compacted, the compaction meets the error, and SAFE_STATE turns the output off. -/
theorem firstCopy_with_error_armed : ((after (exec (.flashProgramComplete true) ⟨writingWithErrorArmed, []⟩)).out 4).on = false := by
  decide +kernel

/-- Refutes O42: the end of a first copy may turn outputs off, by the reaction to a flash error that its compaction meets. -/
theorem not_flashAndScrub : ¬ Obligations.FlashAndScrub := by
  unfold Obligations.FlashAndScrub
  rintro ⟨-, hfirst, -⟩
  obtain ⟨-, -, houts⟩ := (hfirst ⟨writingWithErrorArmed, []⟩ halfWritten [] (by decide +kernel) (by decide +kernel) (by decide +kernel)
    (by decide +kernel) rfl rfl rfl (fun _ _ => nofun) (by decide +kernel)).after_exec
  have hon : (after (exec (.flashProgramComplete true) ⟨writingWithErrorArmed, []⟩)).out 4 = writingWithErrorArmed.out 4 :=
    congrArg (·.getD 4 Output.off) houts
  exact absurd (firstCopy_with_error_armed.symm.trans (congrArg Output.on hon)) (by decide +kernel)

/-! ## The learned values with a table of any length (R324, R357, R358) -/

/-- A half with 4 KiB free and little more, which R324 lets the gauge write to; its oldest sector holds a live record. -/
def narrowHalf : RingSt :=
  { liveHw.store.half0 with
    secs := [⟨1, 0, [mkRec 0x200 1 false []], false⟩, ⟨2, 0, List.replicate 62 (mkRec 0x201 2 false (zeros 28)), false⟩]
    blank := [0] }

/-- In RUN with VM1 on and a read error armed; learned values wait for their write, with a custom table of 800 points. -/
def learningWithErrorArmed : Hw :=
  { regulatingWithErrorArmed with
    pwr := { regulatingWithErrorArmed.pwr with battAbsent := false, packTemp := 2500, vbat := 20000 }
    gauge := { regulatingWithErrorArmed.gauge with fcc := 2000, learnedDue := true, tableJob := none, custom := some (List.replicate 800 (0, 0)) }
    store := { regulatingWithErrorArmed.store with half0 := narrowHalf, half1 := { narrowHalf with blank := [0, 0] } } }

theorem gaugeUpdate_with_error_armed :
    ((after (exec (.gaugeUpdate { dq := 0, step := none }) ⟨learningWithErrorArmed, []⟩)).out 4).on = false := by decide +kernel

/-- Refutes O45: a write of learned values as long as this one needs room made in the half, which may meet a flash error whose reaction
turns outputs off. The statement does not ask for a table of the 32 points that GAUGE_TABLE_LOAD takes. -/
theorem not_gaugeCountsAndAnchors : ¬ Obligations.GaugeCountsAndAnchors := by
  unfold Obligations.GaugeCountsAndAnchors
  rintro ⟨hupdate, -⟩
  obtain ⟨-, -, -, -, -, houts, -⟩ := (hupdate ⟨learningWithErrorArmed, []⟩ { dq := 0, step := none } (by decide +kernel)
    (by decide +kernel) rfl).after_exec
  have hon : (after (exec (.gaugeUpdate { dq := 0, step := none }) ⟨learningWithErrorArmed, []⟩)).out 4 = learningWithErrorArmed.out 4 :=
    congrArg (·.getD 4 Output.off) houts
  exact absurd (gaugeUpdate_with_error_armed.symm.trans (congrArg Output.on hon)) (by decide +kernel)

/-- With the charger in a state. -/
def chargingTo (c : ChgState) : Hw :=
  { learningWithErrorArmed with
    chg := { learningWithErrorArmed.chg with
      state := c, fault := 0, govHold := false, safeDefaults := false
      set := { en := true, iChg := 500, cvReduce := 0, iTerm := none, tTopoff := 0, vRech := 100 } } }

theorem chargeTermination_with_error_armed :
    ((after (exec .chargeTermination ⟨chargingTo .cv, []⟩)).out 4).on = false := by decide +kernel

/-- Refutes O43: the end of a charge writes the learned values that are due, with what that may bring about (`not_gaugeCountsAndAnchors`). -/
theorem not_chargeRunsItsCourse : ¬ Obligations.ChargeRunsItsCourse := by
  unfold Obligations.ChargeRunsItsCourse
  rintro ⟨-, -, -, hdone, -⟩
  obtain ⟨-, -, -, -, -, houts⟩ := (hdone ⟨chargingTo .cv, []⟩ (by decide +kernel) (by decide +kernel) (by decide +kernel)
    (by decide +kernel) (by decide +kernel)).after_exec
  have hon : (after (exec .chargeTermination ⟨chargingTo .cv, []⟩)).out 4 = (chargingTo .cv).out 4 := congrArg (·.getD 4 Output.off) houts
  exact absurd (chargeTermination_with_error_armed.symm.trans (congrArg Output.on hon)) (by decide +kernel)

/-- The pack had been absent. -/
def packMissing : Hw := { chargingTo .absent with pwr := { (chargingTo .absent).pwr with battAbsent := true } }

/-- A probe that passes: 20 V, with no drop under load, at 25 °C. -/
def goodProbe : ProbeSample := { vbat := 20000, drop := 0, temp := some 2500 }

theorem packProbe_with_error_armed : ((after (exec (.packProbe goodProbe) ⟨packMissing, []⟩)).out 4).on = false := by decide +kernel

/-- Refutes O44: a full pack that is found ends its charge at once, and that writes the learned values that are due. -/
theorem not_chargerRestartsAndProbes : ¬ Obligations.ChargerRestartsAndProbes := by
  unfold Obligations.ChargerRestartsAndProbes
  rintro ⟨-, -, -, -, hfound, -⟩
  obtain ⟨-, -, -, -, -, houts⟩ := (hfound ⟨packMissing, []⟩ goodProbe 2500 (by decide +kernel) (by decide +kernel) (by decide +kernel)
    (by decide +kernel) (by decide +kernel) (by decide +kernel) (by decide +kernel) (by decide +kernel) (by decide +kernel)
    (by decide +kernel) rfl (by decide +kernel)).after_exec
  have hon : (after (exec (.packProbe goodProbe) ⟨packMissing, []⟩)).out 4 = packMissing.out 4 := congrArg (·.getD 4 Output.off) houts
  exact absurd (packProbe_with_error_armed.symm.trans (congrArg Output.on hon)) (by decide +kernel)

/-- CHARGER_SET from address A with the charger enabled. -/
def setCharger : Instr := .chargerSet .A 1 8 0 20 0 10

/-- The settings that it carries. -/
def chargerSettings : ChargeCfg := { en := true, iChg := 500, cvReduce := 0, iTerm := some 20, tTopoff := 0, vRech := 100 }

/-- Its packet is in process, with the charger in FAULT. -/
def settingCharger : Hw := bring setCharger (chargingTo .fault)

theorem chargerSet_with_error_armed : ((after (exec setCharger ⟨settingCharger, []⟩)).out 4).on = false := by decide +kernel

/-- Refutes O59: CHARGER_SET that leaves FAULT with a full pack ends the charge at once, and that writes the learned values that are due. -/
theorem not_batteryTimeAndStoreCommandsAct : ¬ Obligations.BatteryTimeAndStoreCommandsAct := by
  unfold Obligations.BatteryTimeAndStoreCommandsAct
  rintro ⟨hset, -⟩
  obtain ⟨-, -, -, -, -, -, houts⟩ := (hset ⟨settingCharger, []⟩ .A 1 8 0 20 0 10 chargerSettings (by decide +kernel)
    (by decide +kernel)).after_exec
  have hon : (after (exec setCharger ⟨settingCharger, []⟩)).out 4 = settingCharger.out 4 := congrArg (·.getD 4 Output.off) houts
  exact absurd (chargerSet_with_error_armed.symm.trans (congrArg Output.on hon)) (by decide +kernel)

end Sys2Proof.Machine
end

section
/-! SUPPORT. The end of the last-word commit and the loss of the pack: what the commit leaves of the sequencer and of the power path
under a latch, and what the fault that starts it leaves of the power path (R328, R329, R343, R344). -/

namespace Sys2Proof.Machine

/-! ## The work of the commit where SAFE_STATE has nothing to turn off (R328, R329, R475): clock, sequencer and power path stand,
whatever errors it meets -/

/-- The outputs are off by a latch, or by STANDBY. -/
def Hw.still (h : Hw) : Prop := h.seq.state = .faultLatched ∨ h.seq.state = .standby

theorem still_of_core {g h : Hw} (e : g.core = h.core) (hl : h.still) : g.still := by
  have hstate : g.seq.state = h.seq.state := congrArg (·.2.1.state) e
  unfold Hw.still
  rwa [hstate]

theorem core_of_fields {g h : Hw} (hclk : g.clk = h.clk) (hseq : g.seq = h.seq) (hpwr : g.pwr = h.pwr) : g.core = h.core := by
  unfold Hw.core
  rw [hclk, hseq, hpwr]

theorem ite_core {p : Prop} [Decidable p] {a b : Hw} {v : Nat × Seq × PowerPath} (ha : a.core = v) (hb : b.core = v) :
    (if p then a else b).core = v := by
  split <;> assumption

/-- Steps that keep the three keep them all along a list. -/
theorem foldl_core {α : Type} (f : Hw → α → Hw) (H : ∀ h x, h.still → (f h x).core = h.core) (l : List α)
    (h : Hw) (hl : h.still) : (l.foldl f h).core = h.core :=
  List.foldlRecOn (motive := fun g : Hw => g.core = h.core) l f rfl (fun g hg x _ => (H g x (still_of_core hg hl)).trans hg)

section
variable (h : Hw)

theorem Hw.raiseIf_core (c : Bool) (k : Nat) : (h.raiseIf c k).core = h.core := ite_core (h.raise_core k) rfl

theorem Hw.forgetFaults_core (r : Ring) : (h.forgetFaults r).core = h.core := by
  unfold Hw.forgetFaults
  split <;> rfl

theorem Hw.eraseNow_core (r : Ring) : (h.eraseNow r).core = h.core := h.forgetFaults_core r

theorem Hw.cutErase_core : h.cutErase.core = h.core := by
  unfold Hw.cutErase
  cases h.store.erase with
  | none => rfl
  | some e => exact h.forgetFaults_core e.ring

theorem Hw.endJob?_core (n : Option Nat) (st r : Nat) (d : List Byte) : (h.endJob? n st r d).core = h.core := by cases n <;> rfl

theorem Hw.dropWrites_core (ws : List StoreWrite) : (h.dropWrites ws).core = h.core :=
  List.foldlRecOn (motive := fun g : Hw => g.core = h.core) ws _ rfl
    (fun g hg w _ => Eq.trans (by cases w.purpose <;> rfl) hg)

theorem Hw.reclaim_core : h.reclaim.core = h.core := ite_core rfl rfl

theorem Hw.cutLog_core (w : StoreWrite) : (h.cutLog w).core = h.core := by
  unfold Hw.cutLog
  refine ite_core (ite_core rfl (ite_core rfl ?_)) ?_
  · exact (Hw.raiseIf_core _ _ 29).trans (Hw.reclaim_core _)
  · cases w.purpose <;> rfl

theorem Hw.putSlot_core (n : Nat) (signed : Bool) (st : SlotState) : (h.putSlot n signed st).core = h.core :=
  (Hw.raiseIf_core _ _ 29).trans (Hw.reclaim_core _)

theorem Hw.freeze_core : h.freeze.core = h.core := ite_core rfl rfl

theorem Hw.finishAppend_core : h.finishAppend.core = h.core := by
  unfold Hw.finishAppend
  split
  · refine ite_core ?_ rfl
    exact (Hw.raise_core _ 27).trans ((Hw.endJob?_core _ _ _ _ _).trans (Hw.putSlot_core _ _ _ _))
  · rfl

theorem Hw.closePf_core (reason n : Nat) : (h.closePf reason n).core = h.core := by
  unfold Hw.closePf
  dsimp only
  refine ite_core ?_ rfl
  generalize hg : (h.endJob? (h.slot n).openJob 0 1 []).endJob? (h.slot n).closeJob 0 1 [] = g
  have hcore : g.core = h.core := hg ▸ (Hw.endJob?_core _ _ _ _ _).trans (h.endJob?_core _ _ _ _)
  exact ite_core hcore ((Hw.putSlot_core _ n false .closedPf).trans hcore)

theorem Hw.closeAllPf_core (reason : Nat) (ns : List Nat) : (ns.foldl (fun h n => h.closePf reason n) h).core = h.core :=
  List.foldlRecOn (motive := fun g : Hw => g.core = h.core) ns _ rfl (fun g hg n _ => (g.closePf_core reason n).trans hg)

theorem Hw.putPowerEvent_core (trigger closed : Nat) : (h.putPowerEvent trigger closed).core = h.core :=
  ite_core (Hw.raiseIf_core _ _ 29) rfl

variable (hl : h.still)
include hl

theorem Hw.react_core (r : Nat) : (h.react r).core = h.core := by
  have hsafe : h.safeState = h := if_pos (by rcases hl with hl | hl <;> simp [hl])
  unfold Hw.react
  simp only [hsafe, ite_self]
  refine ite_core ?_ rfl
  unfold Hw.askCoreReset
  split <;> rfl

theorem Hw.report_core (src addr master access : Nat) (d : List Byte) : (h.report src addr master access d).core = h.core := by
  have hcollect := h.collect_core src addr master access d
  exact (Hw.react_core _ (still_of_core hcollect hl) _).trans hcollect

theorem Hw.regionCheck_core (region key : Nat) : (h.regionCheck region key).1.core = h.core := by
  unfold Hw.regionCheck
  split
  · unfold Hw.flashCheck
    split
    · dsimp only
      exact Hw.report_core ((h.take _).draw) hl _ _ _ _ _
    · rfl
  · rfl

/-- The checks of a list of records, whatever is kept of them. -/
theorem foldl_regionCheck_core (region : Nat) (xs : List Rec) (keep : List Rec → Rec → List Rec) (rs : List Rec) :
    (xs.foldl (fun (a : Hw × List Rec) x =>
      ((a.1.regionCheck region x.key).1, if (a.1.regionCheck region x.key).2 then keep a.2 x else a.2)) (h, rs)).1.core = h.core :=
  List.foldlRecOn (motive := fun a : Hw × List Rec => a.1.core = h.core) xs _ rfl
    (fun a ha x _ => (a.1.regionCheck_core (still_of_core ha hl) region x.key).trans ha)

theorem Hw.compactNow_core (r : Ring) : (h.compactNow r).core = h.core := by
  have hchecks : (h.copyChecks r).1.core = h.core := by
    unfold Hw.copyChecks
    split
    · exact foldl_regionCheck_core h hl _ _ (fun l x => l ++ [x]) []
    · rfl
  have hcopy : (h.copyOldest r).core = h.core :=
    (foldl_core (fun g x => (g.place r x).prove r x true none) (fun _ _ _ => rfl) _ _ (still_of_core hchecks hl)).trans hchecks
  exact ite_core (h.eraseNow_core r) ((Hw.eraseNow_core _ r).trans hcopy)

theorem Hw.addConfig_core (x : Rec) : (h.addConfig x).core = h.core := by
  have hroom : (if h.store.config.free < 32768 && 2 ≤ h.store.config.secs.length then h.compactNow .config else h).core = h.core :=
    ite_core (h.compactNow_core hl .config) rfl
  exact hroom

theorem Hw.putImage_core (bytes : List Byte) (img : Image) (done : Bool) : (h.putImage bytes img done).core = h.core := by
  have hrec : (h.recordImage bytes).core = h.core := foldl_core _ (fun g _ hg => g.addConfig_core hg _) _ h hl
  have hadd : ((h.recordImage bytes).addConfig { mkRec 2 0 false (be 4 bytes.length) with committed := done }).core = h.core :=
    (Hw.addConfig_core _ (still_of_core hrec hl) _).trans hrec
  exact ite_core hadd hadd

theorem Hw.cutCopy_core (w : StoreWrite) (done : Bool) : (h.cutCopy w done).core = h.core := by
  unfold Hw.cutCopy
  split
  · exact h.putImage_core hl _ _ done
  · rfl

theorem Hw.cutWrites_core : h.cutWrites.core = h.core := by
  unfold Hw.cutWrites
  split
  · rfl
  · rename_i w ws _
    have hdrop := h.dropWrites_core (w :: ws)
    have hcut : (if w.isLog then (h.dropWrites (w :: ws)).cutLog w
        else (h.dropWrites (w :: ws)).cutCopy w (w.phase % 2 = 1 || copyShort w.payload.length)).core = h.core :=
      ite_core ((Hw.cutLog_core _ w).trans hdrop) ((Hw.cutCopy_core _ (still_of_core hdrop hl) w _).trans hdrop)
    exact hcut

theorem Hw.hardCut_core : h.hardCut.core = h.core := by
  unfold Hw.hardCut
  split
  · rfl
  · rename_i w ws _
    have hdrop : (h.draw.dropWrites (w :: ws)).core = h.core := Hw.dropWrites_core _ _
    refine ite_core (ite_core ?_ hdrop) ?_
    · exact (Hw.cutLog_core _ _).trans hdrop
    · exact (Hw.cutCopy_core _ (still_of_core hdrop hl) w _).trans hdrop

end

theorem Hw.hardCut_ins (h : Hw) : h.hardCut.ins = h.ins := by
  have hdeep : h.hardCut.deep = h.deep := by
    unfold Hw.hardCut
    split
    · rfl
    · rename_i w ws _
      have hdrop : (h.draw.dropWrites (w :: ws)).deep = h.deep := deep_of_ledger (Hw.dropWrites_ledger _ _)
      dsimp only
      split
      · split
        · exact (Hw.cutLog_deep _ _).trans hdrop
        · exact hdrop
      · exact (deep_of_ledger (Hw.cutCopy_ledger _ w _)).trans hdrop
  exact (congrArg Ledger.ins hdeep :)

/-! ## The commit itself (R328) -/

theorem Hw.commits_iff (h : Hw) : h.commits = true ↔ h.ins.storeReady = true ∧ h.ins.state ≠ .storeCharge ∧
    h.seq.state ≠ .standby ∧ h.pwr.commit = none ∧ h.ins.mainOn = true := by
  simp [Hw.commits, and_assoc]

/-- A commit that starts under a latch stands in progress with its trigger; sequencer and power path are otherwise as they were. -/
theorem Hw.lastWord_core (h : Hw) (n : Nat) (hl : h.seq.state = .faultLatched) (hc : h.commits = true) :
    (h.lastWord n).core = (h.clk, h.seq, { h.pwr with commit := some n, commitRemoval := n == 3 }) := by
  unfold Hw.lastWord
  rw [if_pos hc]
  extract_lets rst pwr g0 lost g1 g2 g3 closed g4 g5 g6 g7
  have h0 : g0.still := .inl hl
  have h1 : g1.core = g0.core := (Hw.cutWrites_core _ (still_of_core g0.cutErase_core h0)).trans g0.cutErase_core
  have h3 : g3.core = g0.core := (Hw.finishAppend_core _).trans ((Hw.freeze_core _).trans h1)
  have h4 : g4.core = g0.core := (Hw.closeAllPf_core _ _ slotNumbers).trans h3
  clear_value g4
  have h6 : g6.core = g0.core := ite_core h4 h4
  have h7 : g7.core = g0.core := (Hw.putPowerEvent_core _ _ _).trans h6
  exact ite_core h7 h7

/-! ## The fault that starts it (R343, R344): the power path but for the starts of the VH outputs -/

def Hw.supply (h : Hw) : PowerPath := { h.pwr with vhWait := [], vhNext := false }

theorem supply_of_pwr {g h : Hw} (e : g.pwr = h.pwr) : g.supply = h.supply :=
  congrArg (fun p : PowerPath => { p with vhWait := [], vhNext := false }) e

section
variable (h : Hw)

theorem Hw.turnOff_supply (c : OffCause) (k : Nat) : (h.turnOff c k).supply = h.supply := by
  unfold Hw.turnOff
  split
  · rfl
  split
  · rw [Hw.freeBus_eq]
    rfl
  · dsimp only
    split
    · rfl
    · split <;> rfl

theorem foldl_turnOff_supply (c : OffCause) (ks : List Nat) : (ks.foldl (fun h k => h.turnOff c k) h).supply = h.supply :=
  List.foldlRecOn (motive := fun g : Hw => g.supply = h.supply) ks _ rfl (fun g hg k _ => (g.turnOff_supply c k).trans hg)

theorem foldl_turnOff_rest (c : OffCause) (ks : List Nat) : (ks.foldl (fun h k => h.turnOff c k) h).rest = h.rest :=
  foldl_rest _ (fun g k => g.turnOff_rest c k) _ h

theorem Hw.vinOutputsOff_supply : h.vinOutputsOff.supply = h.supply := by
  unfold Hw.vinOutputsOff
  rw [supply_of_pwr (Hw.evalPgood_pwr _)]
  exact foldl_turnOff_supply h .battery _

theorem Hw.vinOutputsOff_rest : h.vinOutputsOff.rest = h.rest := by
  unfold Hw.vinOutputsOff
  rw [Hw.evalPgood_rest]
  exact foldl_turnOff_rest h .battery _

theorem Hw.railOff_supply {c : Nat} (hc : c ≠ 10) : (h.railOff c).supply = h.supply := by
  obtain ⟨-, hretry, -⟩ := (h.faultOff.enterLatched c).planRetry_keeps
  have hmove : ((h.flagFault.pgoodLow.markOff .fault).endMove 3).pwr = h.pwr := by
    rw [Hw.endMove_pwr, Hw.markOff_pwr, Hw.pgoodLow_pwr]
    rfl
  have hoff : h.faultOff.supply = h.supply := (foldl_turnOff_supply _ .fault _).trans (supply_of_pwr hmove)
  rw [Hw.railOff_of_own h hc, supply_of_pwr (Hw.raise_pwr _ 19), supply_of_pwr hretry, supply_of_pwr (Hw.enterLatched_pwr _ c), hoff]

theorem Hw.railOff_ins {c : Nat} (hc : c ≠ 10) : (h.railOff c).ins = h.ins := by
  have hledger : (h.railOff c).ledger = h.flagFault.ledger := by
    rw [Hw.railOff_of_own h hc, ledger_of_rest (Hw.raise_rest _ 19), Hw.planRetry_ledger, Hw.enterLatched_ledger,
      ledger_of_rest h.faultOff_rest]
  exact (congrArg Ledger.ins hledger :)

/-- A running-rail fault in RUN leaves the insertion, and the power path but for the starts of the VH outputs. -/
theorem Hw.railFault_path {c : Nat} (src addr : Nat) (d : List Byte) (held : Bool) (hc : c ≠ 10) (hrun : h.seq.state = .run)
    (hleave : h.leaving = false) :
    (h.railFault c src addr d held).ins = h.ins ∧ (h.railFault c src addr d held).supply = h.supply := by
  have hacts : h.faultActs held = true := by simp [Hw.faultActs, hrun, hleave]
  generalize hg : h.collect src addr 0 0 d = g
  have hcore : g.core = h.core := hg ▸ h.collect_core src addr 0 0 d
  have hins : g.ins = h.ins := by rw [← hg, Hw.collect_eq]
  have hl := g.railOff_latched hc (by rw [show g.seq = h.seq from congrArg (·.2.1) hcore, hrun]; decide)
  obtain ⟨q, hq⟩ := (g.railOff c).react_of_latched (h.reaction src) hl.state
  have hfault : h.railFault c src addr d held = { g.railOff c with rst := q } := by
    unfold Hw.railFault
    simp only [hacts, hg, if_true]
    exact hq
  rw [hfault]
  exact ⟨(g.railOff_ins hc).trans hins, (g.railOff_supply hc).trans (supply_of_pwr (congrArg (·.2.2) hcore))⟩

/-- The loss of a supply in RUN: the latch with cause VIN_LOSS, and the commit with its trigger. -/
theorem Hw.lossFault_spec (trigger cause : Nat) (hrun : h.seq.state = .run) (hleave : h.leaving = false) (hc : h.commits = true) :
    let t := h.lossFault trigger cause
    t.seq.state = .faultLatched ∧ t.seq.cause = 8 ∧ t.pwr.commit = some trigger ∧ t.pwr.onBattery = h.pwr.onBattery ∧
      t.pwr.handingOver = h.pwr.handingOver ∧ t.pwr.packSpent = h.pwr.packSpent := by
  generalize hg : h.vinOutputsOff.chgOff = g
  have hrest : g.rest = h.rest := hg ▸ h.vinOutputsOff_rest
  have hpath : g.supply = h.supply := hg ▸ h.vinOutputsOff_supply
  have hins : g.ins = h.ins := congrArg Ledger.ins (ledger_of_rest hrest)
  have hstate : g.seq.state = .run := (state_of_rest hrest).trans hrun
  have hcommit : g.pwr.commit = h.pwr.commit := (congrArg PowerPath.commit hpath :)
  have hleave' : g.leaving = false := by unfold Hw.leaving at hleave ⊢; rwa [hins]
  obtain ⟨hstore, hcharge, -, hnone, hmain⟩ := h.commits_iff.mp hc
  have hgo : g.commits = true := g.commits_iff.mpr ⟨by rwa [hins], by rwa [hins], by rw [hstate]; decide, by rwa [hcommit], by rwa [hins]⟩
  have hl := g.railFault_latched (c := 8) 0x65 0xFF [] false (by decide) hstate hleave'
  obtain ⟨hins', hpath'⟩ := g.railFault_path (c := 8) 0x65 0xFF [] false (by decide) hstate hleave'
  have hcommit' : (g.railFault 8 0x65 0xFF [] false).pwr.commit = g.pwr.commit := (congrArg PowerPath.commit hpath' :)
  have hgo' : (g.railFault 8 0x65 0xFF [] false).commits = true :=
    (Hw.commits_iff _).mpr ⟨by rwa [hins', hins], by rwa [hins', hins], by rw [hl.state]; decide, by rw [hcommit', hcommit, hnone],
      by rwa [hins', hins]⟩
  have hword := Hw.lastWord_core _ trigger hl.state hgo'
  have hloss : h.lossFault trigger cause = (g.railFault 8 0x65 0xFF [] false).lastWord trigger := by
    unfold Hw.lossFault
    simp only [hg, hgo, if_true]
  have hsupply : ((g.railFault 8 0x65 0xFF [] false).lastWord trigger).supply =
      { (g.railFault 8 0x65 0xFF [] false).supply with commit := some trigger, commitRemoval := trigger == 3 } :=
    congrArg (fun c : Nat × Seq × PowerPath => { c.2.2 with vhWait := [], vhNext := false }) hword
  rw [hpath', hpath] at hsupply
  dsimp only
  rw [hloss]
  exact ⟨(congrArg (·.2.1.state) hword).trans hl.state, (congrArg (·.2.1.cause) hword).trans hl.cause,
    (congrArg PowerPath.commit hsupply :), (congrArg PowerPath.onBattery hsupply :), (congrArg PowerPath.handingOver hsupply :),
    (congrArg PowerPath.packSpent hsupply :)⟩

/-! ## The main domain powers off (R343, R514, R515) -/

/-- An output that nothing holds regulating is off once its turn has come. -/
theorem Hw.turnOffAll_removal_off {j : Nat} (hj : j < 18) : ((h.turnOffAll .removal).out j).on = false := by
  have hfold : ∀ (l : List Nat) (g : Hw), j ∈ l ∨ (g.out j).on = false →
      ((l.foldl (fun h k => h.turnOff .removal k) g).out j).on = false := by
    intro l
    induction l with
    | nil => exact fun g hg => hg.resolve_left List.not_mem_nil
    | cons k l ih =>
      intro g hg
      obtain ⟨f, houts, hoff⟩ := g.turnOff_outs (c := .removal) (k := k) rfl
      have hout : (g.turnOff .removal k).out j = (g.modOut k f).out j := Hw.out_of_outs houts j
      refine ih _ ?_
      rw [hout]
      by_cases hjk : j = k
      · exact .inr (hjk ▸ Hw.modOut_out_off g k (hoff _))
      · rw [Hw.modOut_out_other g hjk]
        exact hg.imp_left fun hmem => (List.mem_cons.mp hmem).resolve_left hjk
  exact hfold _ h (.inl (List.mem_range.mpr hj))

theorem Hw.mainOff_off {j : Nat} (hj : j < 18) : (h.mainOff.out j).on = false := by
  have hend : (h.mainOff.out j).on = (((h.hardCut.cutErase).turnOffAll .removal).govEnd.out j).on :=
    getD_map_apply _ (fun o : Output => { o with discharging := false }) Output.on (fun _ => rfl) j Output.off
  rw [hend, Hw.govEnd_on]
  exact Hw.turnOffAll_removal_off _ hj

end

theorem Hw.toWaitVin_off (h : Hw) (c : Nat) {j : Nat} (hj : j < 18) : ((h.toWaitVin c).out j).on = false := by
  have hout : (h.toWaitVin c).out j = h.mainOff.out j := Hw.out_of_outs rfl j
  rw [hout, h.mainOff_off hj]

theorem Hw.standbyOff_off (h : Hw) {j : Nat} (hj : j < 18) : (h.standbyOff.out j).on = false := by
  have hout : h.standbyOff.out j = h.mainOff.out j := Hw.out_of_outs rfl j
  rw [hout, h.mainOff_off hj]

/-- Beyond what it sets, the power-off keeps the insertion, and in STANDBY the power path. -/
theorem Hw.mainOff_keeps (h : Hw) : h.mainOff.ins.state = h.ins.state ∧ (h.still → h.mainOff.pwr.vinUsable = h.pwr.vinUsable) := by
  have hins : ((h.hardCut.cutErase).turnOffAll .removal).ins = h.ins :=
    (congrArg Ledger.ins (ledger_of_rest (Hw.turnOffAll_rest _ .removal))).trans
      ((congrArg Ledger.ins (Hw.cutErase_deep _)).trans h.hardCut_ins)
  have hpath : h.still → ((h.hardCut.cutErase).turnOffAll .removal).supply = h.supply := fun hl =>
    (foldl_turnOff_supply _ .removal _).trans (supply_of_pwr (congrArg (·.2.2) ((Hw.cutErase_core _).trans (h.hardCut_core hl))))
  exact ⟨(congrArg Insertion.state hins :), fun hl => (congrArg PowerPath.vinUsable (hpath hl) :)⟩

/-- In READY and RUN, with no commit in progress, the loss of a supply is the fault with its commit. -/
theorem Hw.supplyLost_of_run (h : Hw) (trigger cause : Nat) (hrun : h.seq.state = .run) (hc : h.commits = true)
    (hready : h.ins.state = .ready) : h.leaving = false ∧ h.supplyLost trigger cause = h.lossFault trigger cause := by
  obtain ⟨-, -, -, hnone, hmain⟩ := h.commits_iff.mp hc
  have hleave : h.leaving = false := by simp [Hw.leaving, hready]
  refine ⟨hleave, ?_⟩
  unfold Hw.supplyLost
  rw [if_neg (by simp [hnone, hleave, Hw.gone, hmain]), if_neg (by simp [hrun])]

theorem Hw.raise_holdup_pend (h : Hw) {k : Nat} (hpack : h.holdup = true) (hk : 34 ≤ k) (hk' : k ≤ 39) :
    (h.raise k).evt.pend.getLsbD k = true := by
  refine Hw.raise_pend_of_not_mute _ ?_ (by omega)
  simp [Hw.mute, hpack]
  omega

/-- The record of the errors that came while a commit ran (R486) changes the store alone. -/
def Hw.amended (h : Hw) (n : Nat) : Hw := if n = 3 && h.seq.service.ready then h else h.amendFaults

theorem Hw.amended_eq (h : Hw) (n : Nat) : ∃ st, h.amended n = { h with store := st } := by
  unfold Hw.amended
  split
  · exact ⟨_, rfl⟩
  · exact ⟨_, rfl⟩

theorem exec_lastWordCommitEnd {s : State} {n : Nat} (hcommit : s.hw.pwr.commit = some n) (hrem : s.hw.ins.state ≠ .removing) :
    ∃ st, exec .lastWordCommitEnd s = .next { s with hw :=
      if n = 4 && s.hw.seq.state == .standby && (s.hw.pwr.vinUsable || s.hw.pwr.onBattery && !s.hw.pwr.packSpent || s.hw.pwr.handingOver) then
        ({ s.hw with store := st } : Hw).standbyOff
      else ({ s.hw with store := st } : Hw).toWaitVin (if n = 2 || s.hw.pwr.packSpent then 0x0C else 7) } := by
  obtain ⟨st, hst⟩ := s.hw.amended_eq n
  refine ⟨st, ?_⟩
  change execLastWordCommitEnd s = _
  unfold execLastWordCommitEnd State.upd
  simp only [hcommit]
  rw [show (if decide (n = 3) && s.hw.seq.service.ready then s.hw else s.hw.amendFaults) = _ from hst]
  rw [if_neg (by simpa using hrem)]

section
variable {s : State}

theorem commitEnd_of_loss {n : Nat} (hcommit : s.hw.pwr.commit = some n) (hn : n ≠ 4) (hrem : s.hw.ins.state ≠ .removing) :
    Completes .lastWordCommitEnd s (fun t => t.ins.state = .waitVin ∧ t.ins.mainOn = false ∧ t.pwr.commit = none ∧
      t.pwr.vinUsable = false ∧
      t.ins.porCause = (if s.hw.pwr.icehouseArmed then 8 else if n = 2 ∨ s.hw.pwr.packSpent = true then 0x0C else 7)) := by
  obtain ⟨st, hexec⟩ := exec_lastWordCommitEnd hcommit hrem
  rw [if_neg (by simp [hn])] at hexec
  refine ⟨_, hexec, rfl, rfl, rfl, rfl, rfl, ?_⟩
  change (if s.hw.pwr.icehouseArmed then 8 else if n = 2 || s.hw.pwr.packSpent then 0x0C else 7) = _
  simp only [Bool.or_eq_true, decide_eq_true_eq]

theorem commitEnd_of_standby (hcommit : s.hw.pwr.commit = some 4) (hready : s.hw.ins.state = .ready)
    (hstandby : s.hw.seq.state = .standby) :
    Completes .lastWordCommitEnd s (fun t => t.ins.mainOn = false ∧ t.pwr.commit = none ∧ t.ins.booted = false ∧
      (∀ k, k < 18 → (t.out k).on = false) ∧
      (s.hw.pwr.vinUsable = true ∨ s.hw.pwr.onBattery = true ∧ s.hw.pwr.packSpent = false ∨ s.hw.pwr.handingOver = true →
        t.seq.state = .standby ∧ t.ins.state = .ready ∧ t.ins.inputSwitch = s.hw.ins.inputSwitch ∧
          t.pwr.onBattery = s.hw.pwr.onBattery ∧ t.pwr.vinUsable = s.hw.pwr.vinUsable) ∧
      (s.hw.pwr.vinUsable = false → s.hw.pwr.onBattery = false → s.hw.pwr.handingOver = false → t.ins.state = .waitVin)) := by
  obtain ⟨st, hexec⟩ := exec_lastWordCommitEnd hcommit (by rw [hready]; decide)
  obtain ⟨hstate, hvin⟩ := Hw.mainOff_keeps { s.hw with store := st }
  by_cases hsupply : (s.hw.pwr.vinUsable || s.hw.pwr.onBattery && !s.hw.pwr.packSpent || s.hw.pwr.handingOver) = true
  · rw [if_pos (by simpa [hstandby] using hsupply)] at hexec
    refine ⟨_, hexec, rfl, rfl, rfl, rfl, fun k hk => Hw.standbyOff_off _ hk,
      fun _ => ⟨rfl, hstate.trans hready, rfl, rfl, hvin (.inr hstandby)⟩, fun h1 h2 h3 => ?_⟩
    simp [h1, h2, h3] at hsupply
  · rw [if_neg (by simpa [hstandby] using hsupply)] at hexec
    refine ⟨_, hexec, rfl, rfl, rfl, rfl, fun k hk => Hw.toWaitVin_off _ _ hk, fun h1 => absurd ?_ hsupply, fun _ _ _ => rfl⟩
    simpa [or_assoc] using h1

/-- Neither on battery nor on the way there, the loss of the pack is no loss of supply. -/
theorem Hw.packLost_of_vin (h : Hw) (hover : h.pwr.handingOver = false) (hbatt : h.pwr.onBattery = false) : h.packLost = h := by
  unfold Hw.packLost
  rw [if_neg (by simp [hover]), if_neg (by simp [hbatt])]

theorem exec_packUnusable (c : PackLoss) : exec (.packUnusable c) s = .next { s with hw := s.hw.packLost } := by cases c <;> rfl

theorem packUnusable_on_battery (c : PackLoss) (hbatt : s.hw.pwr.onBattery = true) (hover : s.hw.pwr.handingOver = false)
    (hc : s.hw.commits = true) (hready : s.hw.ins.state = .ready) (hrun : s.hw.seq.state = .run) :
    Completes (.packUnusable c) s (fun t =>
      t.seq.state = .faultLatched ∧ t.seq.cause = 8 ∧ t.pwr.commit = some 2 ∧ t.packUsable = false) := by
  refine ⟨_, exec_packUnusable c, rfl, ?_⟩
  unfold Hw.packLost
  rw [if_neg (by simp [hover]), if_pos hbatt]
  generalize hg : ({ s.hw with pwr := { s.hw.pwr with packSpent := true } } : Hw) = g
  have hc' : g.commits = true := hg ▸ hc
  have hrun' : g.seq.state = .run := hg ▸ hrun
  obtain ⟨hleave, hlost⟩ := g.supplyLost_of_run 2 0x0C hrun' hc' (hg ▸ hready)
  obtain ⟨hlatched, hcause, hcommit, hon, -, hspent⟩ := g.lossFault_spec 2 0x0C hrun' hleave hc'
  dsimp only
  rw [hlost]
  refine ⟨hlatched, hcause, hcommit, ?_⟩
  have hon' : (g.lossFault 2 0x0C).pwr.onBattery = true := hon.trans (by rw [← hg]; exact hbatt)
  have hspent' : (g.lossFault 2 0x0C).pwr.packSpent = true := hspent.trans (by rw [← hg])
  unfold Hw.packUsable
  rw [hon', hspent']
  simp

theorem packUnusable_in_handOver (c : PackLoss) (hover : s.hw.pwr.handingOver = true) (hc : s.hw.commits = true)
    (hready : s.hw.ins.state = .ready) (hrun : s.hw.seq.state = .run) :
    Completes (.packUnusable c) s (fun t =>
      t.pwr.handingOver = false ∧ t.seq.state = .faultLatched ∧ t.seq.cause = 8 ∧ t.pwr.commit = some 1) := by
  refine ⟨_, exec_packUnusable c, rfl, ?_⟩
  unfold Hw.packLost
  rw [if_pos hover]
  generalize hg : ({ s.hw with pwr := { s.hw.pwr with handingOver := false } } : Hw) = g
  have hc' : g.commits = true := hg ▸ hc
  have hrun' : g.seq.state = .run := hg ▸ hrun
  obtain ⟨hleave, hlost⟩ := g.supplyLost_of_run 1 7 hrun' hc' (hg ▸ hready)
  obtain ⟨hlatched, hcause, hcommit, -, hhand, -⟩ := g.lossFault_spec 1 7 hrun' hleave hc'
  dsimp only
  rw [hlost]
  exact ⟨hhand.trans (by rw [← hg]), hlatched, hcause, hcommit⟩

end

/-- Settles O17: each row by what it sets; a loss on battery and in the hand-over by what the fault and its commit leave. -/
theorem lossAndIcehouseEndSafely : Obligations.LossAndIcehouseEndSafely := by
  refine ⟨fun s n => commitEnd_of_loss, fun s => commitEnd_of_standby, fun s => packUnusable_on_battery, fun s => packUnusable_in_handOver,
    fun s hpack hopen hbatt hover => ⟨_, rfl, rfl, ?_⟩, fun s hbatt hlow hpack => ⟨_, rfl, rfl, ?_⟩,
    fun s hbatt hlow hpack => ⟨_, rfl, rfl, ?_⟩, fun s hwait hice => ⟨_, rfl, rfl, ?_⟩⟩
  case refine_1 =>
    dsimp only
    rw [if_neg (by simp [hpack, hopen])]
    have hpwr : ∀ (g : Hw) (c : Bool), (g.raiseIf c 34).pwr = g.pwr := fun g c => by rw [Hw.raiseIf_eq]
    have hchg : ∀ (g : Hw) (c : Bool), (g.raiseIf c 34).chg = g.chg := fun g c => by rw [Hw.raiseIf_eq]
    rw [Hw.packLost_of_vin _ (by rw [hpwr]; exact hover) (by rw [hpwr]; exact hbatt), hpwr, hchg]
    refine ⟨rfl, rfl, rfl, if_congr ?_ rfl rfl, fun hwas => ?_⟩
    · simp [and_assoc]
    · rw [hwas]
      exact Hw.raise_holdup_pend _ hpack (by omega) (by omega)
  case refine_2 =>
    dsimp only
    rw [if_pos (by simp [hbatt, hlow])]
    cases hraised : s.hw.pwr.lowReserveRaised
    · refine ⟨?_, ?_, fun _ => Hw.raise_holdup_pend _ hpack (by omega) (by omega), nofun, ?_, ?_⟩ <;> rw [Hw.raiseIf_eq]
    · exact ⟨rfl, rfl, nofun, fun _ => rfl, rfl, rfl⟩
  case refine_3 =>
    dsimp only
    rw [if_pos (by simp [hbatt, hlow])]
    refine ⟨?_, Hw.raise_holdup_pend _ hpack (by omega) (by omega), ?_⟩
    · rw [Hw.raise_pwr]
    · rw [Hw.raise_eq]
  case refine_4 =>
    dsimp only
    rw [if_pos (by simp [hwait])]
    exact if_pos hice

end Sys2Proof.Machine
end

section
/-! SUPPORT. The opening of the gatehouse lock, the window of the trim, the alarms and the calendar (R367–R382). -/

namespace Sys2Proof.Machine

section
variable (h : Hw)

/-! ## The lock opens (R369, R371) -/

/-- LODGE_RESET is read: it is not read again before the next reset of the main domain. -/
def Hw.lodgeChecked (h : Hw) : Hw := { h with lodge := { h.lodge with checked := true } }

/-- LODGE_RESET was set: event, capture, and the factory trim. -/
def Hw.trimRestored (h : Hw) : Hw :=
  let g := (h.raise 42).report 0xD0 0 0 0 []
  { g with lodge := { g.lodge with trim := g.factory.crystalTrim, band := g.factory.bandTable } }

/-- The alarms that fired while only the Lodge was alive raise their events (R382). -/
def Hw.alarmsRaised (h : Hw) : Hw :=
  (List.range 2).foldl (fun h i => h.raiseIf ((h.lodge.alarms.getD i Alarm.disarmed).toRaise) (40 + i)) h

theorem Hw.lodgeCheck_of_new (hlock : h.lodge.lock = false) (hnew : h.lodge.checked = false) : h.lodgeCheck =
    let g := (if h.lodge.lodgeReset then h.lodgeChecked.trimRestored else h.lodgeChecked).alarmsRaised
    { g with lodge := { g.lodge with alarms := g.lodge.alarms.map (fun a => { a with toRaise := false }) } } := by
  unfold Hw.lodgeCheck
  rw [if_neg (by simp [hlock, hnew])]
  rfl

theorem Hw.trimRestored_lodge :
    h.trimRestored.lodge = { h.lodge with trim := h.factory.crystalTrim, band := h.factory.bandTable } := by
  have hlodge : ((h.raise 42).report 0xD0 0 0 0 []).lodge = h.lodge := by
    rw [lodge_of_station (Hw.report_station _ _ _ _ _ _), Hw.raise_eq]
  have hfactory : ((h.raise 42).report 0xD0 0 0 0 []).factory = h.factory := by
    rw [show ((h.raise 42).report 0xD0 0 0 0 []).factory = (h.raise 42).factory from
      congrArg (·.2.1) (Hw.report_bench _ _ _ _ _ _), Hw.raise_eq]
  unfold Hw.trimRestored
  dsimp only
  rw [hlodge, hfactory]

theorem Hw.trimRestored_reports : h.trimRestored.evt.pend.getLsbD 42 = true ∧
    (h.faults.cap = none → h.trimRestored.faults.cap.map (fun c => (c.source, c.addr, c.master)) = some (0xD0, 0, 0)) := by
  refine ⟨Hw.report_pend_mono _ _ _ _ _ _ (Hw.raise_pend_of_not_mute _ (by simp [Hw.mute]) (by omega)), fun hcap => ?_⟩
  have hcap' : (h.raise 42).faults.cap = none := by rw [Hw.raise_eq, hcap]
  exact congrArg (Option.map _) (Hw.report_cap _ _ _ _ _ _ hcap' (by decide))

theorem Hw.alarmsRaised_spec : h.alarmsRaised.lodge = h.lodge ∧ h.alarmsRaised.faults = h.faults ∧
    ∀ n, h.evt.pend.getLsbD n = true → h.alarmsRaised.evt.pend.getLsbD n = true := by
  refine List.foldlRecOn (motive := fun g : Hw => g.lodge = h.lodge ∧ g.faults = h.faults ∧
    ∀ n, h.evt.pend.getLsbD n = true → g.evt.pend.getLsbD n = true) _ _ ⟨rfl, rfl, fun _ => id⟩ ?_
  rintro g ⟨hlodge, hfaults, hpend⟩ i -
  refine ⟨?_, ?_, fun n hn => Hw.raiseIf_pend_mono _ _ _ (hpend n hn)⟩
  · rw [Hw.raiseIf_eq, hlodge]
  · rw [Hw.raiseIf_eq, hfaults]

/-- The lock open, LODGE_RESET is read once. -/
theorem Hw.lodgeCheck_spec (hlock : h.lodge.lock = false) : h.lodgeCheck.lodge.lock = false ∧ h.lodgeCheck.lodge.checked = true ∧
    h.lodgeCheck.lodge.ticks = h.lodge.ticks ∧ h.lodgeCheck.lodge.status = h.lodge.status ∧
    (h.lodge.checked = false → h.lodge.lodgeReset = true →
      h.lodgeCheck.lodge.trim = h.factory.crystalTrim ∧ h.lodgeCheck.lodge.band = h.factory.bandTable ∧
        h.lodgeCheck.evt.pend.getLsbD 42 = true ∧
        (h.faults.cap = none → h.lodgeCheck.faults.cap.map (fun c => (c.source, c.addr, c.master)) = some (0xD0, 0, 0))) := by
  by_cases hnew : h.lodge.checked = false
  · rw [h.lodgeCheck_of_new hlock hnew]
    dsimp only
    cases hreset : h.lodge.lodgeReset
    · obtain ⟨hlodge, -, -⟩ := h.lodgeChecked.alarmsRaised_spec
      rw [if_neg (by simp), hlodge]
      exact ⟨hlock, rfl, rfl, rfl, fun _ => nofun⟩
    · obtain ⟨hlodge, hfaults, hpend⟩ := h.lodgeChecked.trimRestored.alarmsRaised_spec
      obtain ⟨hraised, hcap⟩ := h.lodgeChecked.trimRestored_reports
      rw [if_pos rfl, hlodge, hfaults, h.lodgeChecked.trimRestored_lodge]
      exact ⟨hlock, rfl, rfl, rfl, fun _ _ => ⟨rfl, rfl, hpend 42 hraised, hcap⟩⟩
  · have hsame : h.lodgeCheck = h := if_pos (by simp [hnew])
    rw [hsame]
    exact ⟨hlock, by simpa using hnew, rfl, rfl, fun hc => absurd hc hnew⟩

/-! ## Windows and counts (R372, R374, R377) -/

theorem Hw.reach_keeps (t : Nat) : (h.reach t).clk = max h.clk t ∧ (h.reach t).lodge.windowAt = h.lodge.windowAt ∧
    (h.reach t).lodge.trim = h.lodge.trim ∧ (h.reach t).lodge.band = h.lodge.band ∧ (h.reach t).bandNow = h.bandNow ∧
    (h.reach t).outs = h.outs :=
  ⟨h.reach_clk t, rfl, rfl, rfl, rfl, rfl⟩

/-- Time that passes moves the count of the Lodge, and neither its settings nor the outputs. -/
theorem Hw.reachTick_keeps (t : Nat) : (h.reachTick t).lodge.alarms = h.lodge.alarms ∧ (h.reachTick t).ins = h.ins ∧
    (h.reachTick t).outs = h.outs := by
  unfold Hw.reachTick
  split <;> exact ⟨rfl, rfl, rfl⟩

/-- A status of the time with its event, TIME_STATUS. -/
theorem Hw.statusTo_spec (st : TimeStatus) :
    let t := ({ h with lodge := { h.lodge with status := st } } : Hw).raise 43
    t.lodge.status = st ∧ t.evt.pend.getLsbD 43 = true ∧ t.outs = h.outs := by
  refine ⟨?_, Hw.raise_pend_of_not_mute _ (by simp [Hw.mute]) (by omega), ?_⟩ <;> rw [Hw.raise_eq]

theorem clampTrim_range (n : Int) : -511 ≤ clampTrim n ∧ clampTrim n ≤ 511 := by
  unfold clampTrim
  omega

/-- The window that an instant lies in, at or after the end of an earlier one, begins a whole number of windows after that. -/
theorem windowStart_spec {w c : Nat} (hc : w ≤ c) :
    c - (c - w) % 64000000 ≤ c ∧ c < c - (c - w) % 64000000 + 64000000 ∧ (c - (c - w) % 64000000 - w) % 64000000 = 0 := by
  omega

/-- The window of the trim that the clock stands in begins on its boundary, with its band and its correction. -/
def Hw.windowBegun (h : Hw) : Hw := { h with lodge := { h.lodge with
  windowAt := h.clk - (h.clk - h.lodge.windowAt) % windowUs, bandSel := h.bandNow
  n := clampTrim (h.lodge.trim + h.lodge.band.getD h.bandNow 0) } }

theorem Hw.setLodge_outs (l : Lodge) : ({ h with lodge := l } : Hw).outs = h.outs := rfl

theorem Hw.windowBegun_spec (hc : h.lodge.windowAt ≤ h.clk) : h.windowBegun.lodge.bandSel = h.bandNow ∧
    h.windowBegun.lodge.n = clampTrim (h.lodge.trim + h.lodge.band.getD h.bandNow 0) ∧
    h.windowBegun.lodge.windowAt ≤ h.clk ∧ h.clk < h.windowBegun.lodge.windowAt + 64000000 ∧
    (h.windowBegun.lodge.windowAt - h.lodge.windowAt) % 64000000 = 0 ∧
    -511 ≤ h.windowBegun.lodge.n ∧ h.windowBegun.lodge.n ≤ 511 := by
  obtain ⟨hle, hlt, hmod⟩ := windowStart_spec hc
  obtain ⟨hlow, hhigh⟩ := clampTrim_range (h.lodge.trim + h.lodge.band.getD h.bandNow 0)
  exact ⟨rfl, rfl, hle, hlt, hmod, hlow, hhigh⟩

/-! ## Alarms (R382) -/

/-- With the main domain on, an armed alarm fires and wakes nothing. -/
theorem Hw.fireAlarm_spec (a : Fin 2) (skipped : Bool) (harmed : (h.lodge.alarms.getD a Alarm.disarmed).state = .armed)
    (hmain : h.ins.mainOn = true) :
    let t := h.fireAlarm a skipped
    (t.lodge.alarms.getD a Alarm.disarmed).state = .fired ∧ (t.lodge.alarms.getD a Alarm.disarmed).skipped = skipped ∧
      t.evt.pend.getLsbD (40 + a) = true ∧ t.outs = h.outs := by
  have hlt : a.val < h.lodge.alarms.length :=
    lt_of_getD_ne (d := Alarm.disarmed) (fun e => by rw [e] at harmed; exact absurd harmed (by decide))
  unfold Hw.fireAlarm
  dsimp only
  rw [if_pos (beq_iff_eq.mpr harmed)]
  generalize hg : ({ h with lodge := { h.lodge with alarms := h.lodge.alarms.set a _ } } : Hw) = g
  have hraise : g.raiseAlarm a = g.raise (40 + a) := if_pos (by rw [← hg]; simp [hmain])
  have hwakes : (g.raise (40 + a)).wakes = false := by
    rw [Hw.raise_eq, ← hg]
    simp [Hw.wakes, hmain]
  rw [hraise, hwakes, Bool.and_false, Bool.false_and, if_neg Bool.false_ne_true]
  have hmute : g.mute (40 + a) = false := by simp [Hw.mute]; omega
  have hfired : (g.raise (40 + a)).lodge.alarms.getD a Alarm.disarmed =
      { h.lodge.alarms.getD a Alarm.disarmed with state := .fired, skipped := skipped } := by
    rw [Hw.raise_eq, ← hg]
    simp [List.getD, hlt]
  refine ⟨?_, ?_, Hw.raise_pend_of_not_mute _ hmute (by omega), ?_⟩
  · rw [hfired]
  · rw [hfired]
  · rw [Hw.raise_eq, ← hg]

end

/-- Settles O37: each row by what its operation sets; the opening of the lock by what its check of LODGE_RESET does. -/
theorem lodgeKeepsTheTime : Obligations.LodgeKeepsTheTime := by
  refine ⟨fun s => ⟨_, rfl, rfl, ?_⟩, fun s => ⟨_, rfl, rfl, rfl⟩, fun s hvbat => ⟨_, rfl, rfl, ?_⟩,
    fun s hkeep hpack hswitch => ⟨_, rfl, rfl, ?_⟩, fun s hmain hrst hsupply => ⟨_, rfl, rfl, ?_⟩,
    fun s => ⟨_, rfl, rfl, rfl, rfl, rfl, rfl, rfl, rfl, rfl, rfl, rfl, rfl, rfl, rfl, rfl, rfl, rfl, rfl⟩,
    fun s => ⟨_, rfl, rfl, ?_⟩, fun s a harmed hmain => ⟨_, rfl, rfl, ?_⟩, fun s => ⟨_, rfl, rfl, ?_⟩,
    fun s hsync => ⟨_, rfl, rfl, ?_⟩⟩
  case refine_1 => simp [Hw.spareSupply, and_assoc]
  case refine_2 => simp only [hvbat]
  case refine_3 => simp [hkeep, hpack, hswitch]
  case refine_4 =>
    dsimp only
    rw [if_pos (by simp [hmain, hrst, hsupply])]
    exact Hw.lodgeCheck_spec _ rfl
  case refine_5 =>
    obtain ⟨hclk, hwindow, htrim, hband, hnow, houts⟩ := s.hw.reach_keeps (s.hw.lodge.windowAt + windowUs)
    beta_reduce
    generalize s.hw.reach (s.hw.lodge.windowAt + windowUs) = g at hclk hwindow htrim hband hnow houts ⊢
    have hw : windowUs = 64000000 := rfl
    rw [hw] at hclk
    rw [← hwindow, ← htrim, ← hband, ← hnow, ← houts]
    rw [← hwindow] at hclk
    obtain ⟨hsel, hn, hle, hlt, hmod, hlow, hhigh⟩ := g.windowBegun_spec (by omega)
    exact ⟨hsel, hn, hclk, hle, hlt, hmod, hlow, hhigh, g.setLodge_outs _⟩
  case refine_6 =>
    obtain ⟨halarms, hins, houts⟩ := s.hw.reachTick_keeps (s.hw.lodge.alarms.getD a Alarm.disarmed).time
    obtain ⟨hstate, hskip, hpend, hout⟩ := Hw.fireAlarm_spec _ a false (by rw [halarms]; exact harmed) (by rw [hins]; exact hmain)
    dsimp only
    rw [if_pos (beq_iff_eq.mpr harmed)]
    exact ⟨hstate, hskip, hpend, hout.trans houts⟩
  case refine_7 =>
    obtain ⟨-, -, houts⟩ := s.hw.reachTick_keeps ((lastSecond + 1) * 1024)
    beta_reduce
    generalize s.hw.reachTick ((lastSecond + 1) * 1024) = g at houts ⊢
    obtain ⟨hstatus, hpend, houts'⟩ := g.statusTo_spec .invalid
    exact ⟨hstatus, hpend, houts'.trans houts⟩
  case refine_8 =>
    obtain ⟨-, -, houts⟩ := s.hw.reachTick_keeps (s.hw.lodge.lastSync + 604800 * 1024)
    beta_reduce
    generalize s.hw.reachTick (s.hw.lodge.lastSync + 604800 * 1024) = g at houts ⊢
    rw [if_pos (beq_iff_eq.mpr hsync)]
    obtain ⟨hstatus, hpend, houts'⟩ := g.statusTo_spec .holdover
    exact ⟨hstatus, hpend, houts'.trans houts⟩

end Sys2Proof.Machine
end

section
/-! SUPPORT. A submission with the tag of one that took no packet (R409, R410). -/

namespace Sys2Proof.Machine

/-- What stands at address A for a submission whose tag 7 did not match (DESIGN CHOICE, log 48): opcode, written tag and MODULE. -/
def unmatchedEntry : Nat × List Byte := (1, [1, 7, 0])

/-- Its BAD_CRC reply is ready, and waits for the host to take the reply before it. -/
def unmatchedInProcess : Hw :=
  liveHw.modMbx .A (fun m => { m with inProc := some unmatchedEntry, judged := true, ready := some (replyBytes stBadCrc 7 0 []),
                                      replyState := .ready, taken := false })

/-- A submission with tag 7 again is not ignored: what stands for a submission without a packet has no tag (`tagIs`). -/
theorem cmdSubmit_after_unmatched :
    ((after (exec (.cmdSubmit .A 7) ⟨unmatchedInProcess, []⟩)).mbx .A).queued.isSome = true := by decide +kernel

/-- Refutes O48: a submission is taken to the queue although what is in process has its tag in byte 1, where that is no packet. The
clause of a tag already there does not ask for a packet of four bytes at least. -/
theorem not_submissionsAndReplies : ¬ Obligations.SubmissionsAndReplies := by
  unfold Obligations.SubmissionsAndReplies
  rintro ⟨-, -, -, -, hsame, -⟩
  obtain ⟨-, hqueued, -⟩ := (hsame ⟨unmatchedInProcess, []⟩ .A 7 unmatchedEntry (by decide +kernel) (by decide +kernel) rfl).after_exec
  have hnone : (unmatchedInProcess.mbx .A).queued.isSome = false := by decide +kernel
  exact absurd (cmdSubmit_after_unmatched.symm.trans ((congrArg Option.isSome hqueued).trans hnone)) (by decide)

end Sys2Proof.Machine
end

section
/-! SUPPORT. The host watchdog: writes to its registers at their commit, its expiries, the host restart and the release of HRSTn; and
the timers of the unlock (R417, R418, R458–R463, R551). -/

namespace Sys2Proof.Machine

/-! ## Writes to WDT_CTRL and SERVICE (R458, R459, R551) -/

/-- The registers once WDT_CTRL is written with a value. -/
def Wdt.control (w : Wdt) (c : Byte) : Wdt :=
  { w with enable := c.getLsbD 0, lock := c.getLsbD 1, window := c.toNat / 4 % 4 }

/-- A value that WDT_CTRL does not take: WINDOW 0, one that LOCK forbids, or another WINDOW outside OPEN. -/
def Wdt.refuses (w : Wdt) (opened : Bool) (c : Byte) : Bool :=
  c.toNat / 4 % 4 = 0 || (w.lock && ((w.enable && !c.getLsbD 0) || !c.getLsbD 1)) ||
    (c.toNat / 4 % 4 ≠ w.window && c.getLsbD 0 && !opened)

theorem checkBytes_control (opened : Bool) (w : Wdt) (c : Byte) :
    checkBytes .A opened 0x100 0 [c] { w := w, high := none } =
      if w.refuses opened c then .error (0x100, true) else .ok { w := w.control c, high := none } := by
  have hbyte : WdtView.byte { w := w, high := none } opened 0x100 c =
      if w.refuses opened c then none else some { w := w.control c, high := none } := rfl
  unfold checkBytes
  dsimp only
  rw [if_neg (by decide), if_pos (by decide), show pageAddr 0x100 0 = 0x100 from rfl, hbyte]
  cases w.refuses opened c <;> rfl

theorem checkBytes_service (opened : Bool) (w : Wdt) (b : Byte) :
    checkBytes .A opened 0x104 0 [b] { w := w, high := none } = .ok { w := w, high := none } := rfl

section
variable (h : Hw)

theorem Hw.acknowledged_keeps (o : Origin) (p : Nat) : (h.acknowledged o p).clk = h.clk ∧ (h.acknowledged o p).seq = h.seq ∧
    (h.acknowledged o p).wdtCounts = h.wdtCounts ∧ (h.acknowledged o p).wdtOpen = h.wdtOpen := by
  have hclk : (h.acknowledged o p).clk = h.clk := by simp [Hw.acknowledged]
  have hseq : (h.acknowledged o p).seq = h.seq := by simp [Hw.acknowledged]
  refine ⟨hclk, hseq, ?_, ?_⟩
  · simp [Hw.wdtCounts, hseq]
  · simp [Hw.wdtOpen, Hw.wdtCounts, Hw.wdtCount, hseq, hclk]

theorem Hw.putBytes_control (c : Byte) : h.putBytes .A 0x100 0 [c] = h := rfl
theorem Hw.putBytes_service (b : Byte) : h.putBytes .A 0x104 0 [b] = h.wdtService b := rfl

/-- A write of WDT_CTRL that changes a register and is accepted. -/
theorem Hw.commitWrite_control (c : Byte) (hup : h.busUp = true) (hok : h.wdt.refuses h.wdtOpen c = false)
    (hnew : h.wdt.control c ≠ h.wdt) :
    h.commitWrite .A 0x100 [c] = (h.acknowledged .A (pageAddr 0x100 1)).wdtCommit (h.wdt.control c) := by
  have hcheck := checkBytes_control h.wdtOpen h.wdt c
  rw [if_neg (by simp [hok])] at hcheck
  rw [h.commitWrite_accepted .A 0x100 [c] hup hcheck, if_neg hnew, Hw.putBytes_control]
  rfl

theorem Hw.commitWrite_control_acked (c : Byte) (hup : h.busUp = true) (hok : h.wdt.refuses h.wdtOpen c = false) :
    ((h.commitWrite .A 0x100 [c]).mbx .A).acked = true := by
  have hcheck := checkBytes_control h.wdtOpen h.wdt c
  rw [if_neg (by simp [hok])] at hcheck
  exact congrArg Prod.fst (h.commitWrite_accepted_line .A 0x100 [c] hup hcheck)

theorem Hw.commitWrite_service (b : Byte) (hup : h.busUp = true) :
    h.commitWrite .A 0x104 [b] = (h.acknowledged .A (pageAddr 0x104 1)).wdtService b := by
  rw [h.commitWrite_accepted .A 0x104 [b] hup (checkBytes_service _ _ _), if_pos rfl, Hw.putBytes_service]
  rfl

/-! ## What a commit of the registers and a service set (R458–R461) -/

/-- ENABLE rises: a normal period starts, once HRSTn is released. -/
theorem Hw.wdtCommit_rise {w : Wdt} (hw : w.enable = true) (hoff : h.wdt.enable = false) :
    (h.wdtCommit w).wdt = { w with start := if h.seq.hrst then h.clk else w.start, grace := false, keyArmed := false } := by
  unfold Hw.wdtCommit
  dsimp only
  rw [if_pos (by simp [hw, hoff])]
  rfl

/-- ENABLE falls: the count stops and WARN is cleared. -/
theorem Hw.wdtCommit_fall {w : Wdt} (hw : w.enable = false) (hon : h.wdt.enable = true) :
    (h.wdtCommit w).wdt = { w with warn := false, grace := false } := by
  unfold Hw.wdtCommit
  simp [hw, hon]

/-- The key in the open window starts a period and clears WARN. -/
theorem Hw.wdtService_served (harmed : h.wdt.keyArmed = true) (hopen : h.wdtOpen = true) : ∃ n,
    h.wdtService 0x5A =
      { h with wdt := { h.wdt with start := h.clk, grace := false, keyArmed := false, warn := false, warnCount := n } } := by
  have hcounts : h.wdtCounts = true := by
    unfold Hw.wdtOpen at hopen
    exact (Bool.and_eq_true _ _ ▸ hopen).1
  unfold Hw.wdtService
  rw [if_neg (by decide), if_neg (by simp [hcounts]), if_pos (by simp [harmed, hopen])]
  cases hwarn : h.wdt.warn
  · refine ⟨h.wdt.warnCount, ?_⟩
    simp only [Wdt.restart, hwarn, Bool.false_eq_true, if_false]
  · refine ⟨min 255 (h.wdt.warnCount + 1), ?_⟩
    simp only [Wdt.restart, hwarn, if_true]

theorem Hw.enable_of_wdtOpen (hopen : h.wdtOpen = true) : h.wdt.enable = true := by
  simp only [Hw.wdtOpen, Hw.wdtCounts, Bool.and_eq_true] at hopen
  obtain ⟨⟨henable, -⟩, -⟩ := hopen
  exact henable

/-- A wrong value of the key is an early service. -/
theorem Hw.wdtService_wrong {v : Byte} (h1 : v ≠ 0xA5) (h2 : v ≠ 0x5A) (hcounts : h.wdtCounts = true) :
    h.wdtService v = h.wdtViolation := by
  unfold Hw.wdtService
  have hv : decide (v = 0x5A) = false := decide_eq_false h2
  rw [if_neg h1, if_neg (by simp [hcounts]), hv, Bool.false_and, Bool.false_and, if_neg Bool.false_ne_true]

/-! ## Expiries (R458, R461, R463) -/

/-- A first expiry sets WARN and starts the second period. -/
theorem Hw.wdtExpire_first (hwarn : h.wdt.warn = false) :
    h.wdtExpire.wdt = { h.wdt with warn := true, grace := false, start := h.clk } ∧ h.wdtExpire.clk = h.clk ∧
      h.wdtExpire.seq = h.seq ∧ h.wdtExpire.evt.pend.getLsbD 44 = true ∧
      ∀ n, h.evt.pend.getLsbD n = true → h.wdtExpire.evt.pend.getLsbD n = true := by
  have hexpire : h.wdtExpire = ({ h with wdt := { h.wdt with warn := true, grace := false, start := h.clk } } : Hw).raise 44 :=
    if_neg (by simp [hwarn])
  rw [hexpire]
  refine ⟨?_, ?_, ?_, Hw.raise_pend_of_not_mute _ (by simp [Hw.mute]) (by omega), fun n hn => Hw.raise_pend_mono _ 44 hn⟩ <;>
    rw [Hw.raise_eq]

/-- The instant of an expiry, with the fast clock running. -/
theorem Hw.reach_wake_keeps (t : Nat) : ((h.reach t).wake).wdt = h.wdt ∧ ((h.reach t).wake).seq = h.seq ∧
    ((h.reach t).wake).clk = max h.clk t := by
  rw [Hw.wake_eq]
  exact ⟨rfl, rfl, h.reach_clk t⟩

/-! ## The host restart (R461, R462) -/

theorem pend_of_evt {g h : Hw} {n : Nat} (e : g.evt = h.evt) (hp : h.evt.pend.getLsbD n = true) : g.evt.pend.getLsbD n = true := by
  rwa [e]

theorem foldl_pend {α : Type} {n : Nat} (f : Hw → α → Hw)
    (H : ∀ h x, h.evt.pend.getLsbD n = true → (f h x).evt.pend.getLsbD n = true) (l : List α) (h : Hw)
    (hp : h.evt.pend.getLsbD n = true) : (l.foldl f h).evt.pend.getLsbD n = true :=
  List.foldlRecOn (motive := fun g : Hw => g.evt.pend.getLsbD n = true) l f hp (fun g hg x _ => H g x hg)

variable {n : Nat} (hp : h.evt.pend.getLsbD n = true)
include hp

theorem Hw.substitute_pend_mono (k : Nat) : (h.substitute k).evt.pend.getLsbD n = true := by
  unfold Hw.substitute
  dsimp only
  generalize hg : (List.range 6).foldl _ h = g
  have hg' : g.evt.pend.getLsbD n = true := by
    rw [← hg]
    refine foldl_pend _ (fun g _ hg => ?_) (List.range 6) h hp
    split
    · split <;> exact hg
    · exact hg
  split
  · exact Hw.raise_pend_mono _ 6 hg'
  · exact hg'

theorem Hw.startPhases_pend_mono (k : Nat) : (h.startPhases k).evt.pend.getLsbD n = true := by
  unfold Hw.startPhases
  dsimp only
  refine foldl_pend _ (fun g _ hg => ?_) (List.range 6) (h.substitute k) (h.substitute_pend_mono hp k)
  split
  · split
    · exact pend_of_evt (evt_of_beside (g.activate_beside k _)) hg
    · exact hg
  · exact hg

theorem Hw.turnOn_pend_mono (k : Nat) (inStep : Bool) : (h.turnOn k inStep).evt.pend.getLsbD n = true := by
  unfold Hw.turnOn
  split
  · exact hp
  split
  · exact hp
  split
  · exact hp
  split
  · exact hp
  · unfold Hw.startRamp
    dsimp only
    split
    · refine Hw.startPhases_pend_mono _ ?_ k
      rw [Hw.modRail_evt, Hw.modOut_evt]
      exact hp
    · split <;> exact hp

theorem Hw.disable_pend_mono (k : Nat) : (h.disable k).evt.pend.getLsbD n = true := by
  have hoff : (h.turnOff .command k).evt.pend.getLsbD n = true := pend_of_evt (h.turnOff_evt .command k) hp
  unfold Hw.disable
  dsimp only
  split <;> exact hoff

theorem Hw.beginStep_pend_mono : h.beginStep.evt.pend.getLsbD n = true := by
  have hwake : h.wake.evt.pend.getLsbD n = true := by rw [Hw.wake_eq]; exact hp
  unfold Hw.beginStep
  refine Hw.evalPgood_pend_mono _ (foldl_pend _ (fun g k hg => g.turnOn_pend_mono hg k true) _ _ ?_)
  have hoffs : ∀ (l : List Nat) (q : Seq), (l.foldl Hw.disable { h.wake with seq := q }).evt.pend.getLsbD n = true :=
    fun l q => foldl_pend _ (fun g k hg => g.disable_pend_mono hg k) l _ hwake
  split <;> exact hoffs _ _

end

/-- The restart is raised and counted, and its HRST_WIDTH begins. -/
def Hw.restartCounted (h : Hw) : Hw :=
  let g := h.raise 45
  { g with wdt := { g.wdt with restartCount := min 255 (g.wdt.restartCount + 1), restarting := true, start := g.clk } }

/-- HRSTn falls, and the host-restart sequence begins its first step, where it has one. -/
def Hw.hostSteps (h : Hw) : Hw :=
  let none? := (h.seqSteps .host).isEmpty
  let g : Hw := { h with seq := { h.seq with hrst := false, active := !none?, hostOff := 0, hostStepsDone := none? } }
  if none? then g else ({ g with seq := { g.seq with dir := .host, step := 0 } } : Hw).beginStep

/-- A host restart in RUN: HRSTn falls at once, and the steps of the restart, if any, begin. -/
theorem Hw.hostRestart_of_run (h : Hw) (hrun : h.seq.state = .run) : h.hostRestart.seq.hrst = false ∧
    h.hostRestart.wdt = { h.wdt with restartCount := min 255 (h.wdt.restartCount + 1), restarting := true, start := h.clk } ∧
    h.hostRestart.evt.pend.getLsbD 45 = true := by
  have hwdt : h.restartCounted.wdt =
      { h.wdt with restartCount := min 255 (h.wdt.restartCount + 1), restarting := true, start := h.clk } := by
    unfold Hw.restartCounted
    rw [Hw.raise_eq]
  have hpend : h.restartCounted.evt.pend.getLsbD 45 = true := Hw.raise_pend_of_not_mute _ (by simp [Hw.mute]) (by omega)
  have heff : h.restartCounted.eff = .run := by
    unfold Hw.restartCounted
    rw [Hw.raise_eq]
    simp [Hw.eff, Seq.eff, hrun]
  have hrestart : h.hostRestart = h.restartCounted.hostSteps := by
    change (match h.restartCounted.eff with | .run => _ | .seqUp => _ | _ => _) = _
    rw [heff]
    rfl
  rw [hrestart]
  unfold Hw.hostSteps
  dsimp only
  split
  · exact ⟨rfl, hwdt, hpend⟩
  · refine ⟨?_, (wdt_of_desk (Hw.beginStep_desk _)).trans hwdt, Hw.beginStep_pend_mono _ hpend⟩
    exact (congrArg Seq.hrst (plan_of_rest (Hw.beginStep_rest _)) :)

/-! ## The timers of the unlock (R417, R418) -/

theorem Unlock.expire_due (u : Unlock) {clk : Nat} (hdue : u.lastAt + 900000000 ≤ clk) : (u.expire clk).unlocked = false := by
  unfold Unlock.expire
  split
  next => rfl
  next hnot => simpa [hdue] using hnot

theorem Unlock.release_due (u : Unlock) (hlocked : u.locked = true) {clk : Nat} (hdue : u.lockedAt + 60000000 ≤ clk) :
    (u.release clk).locked = false ∧ (u.release clk).wrong = 0 := by
  unfold Unlock.release
  rw [if_pos (by simp [hlocked, hdue])]
  exact ⟨rfl, rfl⟩

theorem Hw.setUnlocks_keeps (h : Hw) (p : Proto) (q : Prm) : ({ h with proto := p, prm := q } : Hw).clk = h.clk ∧
    ({ h with proto := p, prm := q } : Hw).outs = h.outs ∧ ({ h with proto := p, prm := q } : Hw).life = h.life :=
  ⟨rfl, rfl, rfl⟩

theorem Hw.reach_leaves (h : Hw) (t : Nat) : (h.reach t).proto = h.proto ∧ (h.reach t).outs = h.outs ∧ (h.reach t).life = h.life :=
  ⟨rfl, rfl, rfl⟩

/-! ## The commands -/

section
variable {s : State}

theorem wdtEnable_accepted {c : Byte} (hup : s.hw.busUp = true) (hoff : s.hw.wdt.enable = false) (hlock : s.hw.wdt.lock = false)
    (hc : c.getLsbD 0 = true) (hwin : c.toNat / 4 % 4 = s.hw.wdt.window) (hwin0 : s.hw.wdt.window ≠ 0) :
    Completes (.wdtEnable c) s (fun t => t.wdt.enable = true ∧ t.wdt.lock = c.getLsbD 1 ∧
      t.wdt.start = (if s.hw.seq.hrst = true then s.hw.clk else s.hw.wdt.start) ∧
      t.wdt.grace = false ∧ (t.mbx .A).acked = true ∧ t.outs = s.hw.outs ∧ t.seq = s.hw.seq) := by
  have hok : s.hw.wdt.refuses s.hw.wdtOpen c = false := by simp [Wdt.refuses, hlock, hwin, hwin0]
  have hnew : s.hw.wdt.control c ≠ s.hw.wdt := fun e => by
    have henable : c.getLsbD 0 = s.hw.wdt.enable := congrArg Wdt.enable e
    rw [hc, hoff] at henable
    exact absurd henable (by decide)
  have hacked := s.hw.commitWrite_control_acked c hup hok
  refine ⟨_, rfl, rfl, ?_⟩
  dsimp only
  rw [s.hw.commitWrite_control c hup hok hnew] at hacked ⊢
  obtain ⟨hclk, hseq, -, -⟩ := s.hw.acknowledged_keeps .A (pageAddr 0x100 1)
  have hwdt := (s.hw.acknowledged .A (pageAddr 0x100 1)).wdtCommit_rise (w := s.hw.wdt.control c) hc
    (by rw [Hw.acknowledged_wdt, hoff])
  rw [hclk, hseq] at hwdt
  rw [hwdt]
  exact ⟨hc, rfl, rfl, rfl, hacked, Hw.acknowledged_outs _ _ _, hseq⟩

theorem wdtDisable_accepted {c : Byte} (hup : s.hw.busUp = true) (hon : s.hw.wdt.enable = true) (hlock : s.hw.wdt.lock = false)
    (hc : c.getLsbD 0 = false) (hwin0 : c.toNat / 4 % 4 ≠ 0) :
    Completes (.wdtDisable c) s (fun t => t.wdt.enable = false ∧ t.wdt.warn = false ∧ t.wdt.grace = false ∧
      t.wdt.window = c.toNat / 4 % 4 ∧ (t.mbx .A).acked = true ∧ t.outs = s.hw.outs) := by
  have hok : s.hw.wdt.refuses s.hw.wdtOpen c = false := by
    unfold Wdt.refuses
    rw [hc, hlock]
    simp [hwin0]
  have hnew : s.hw.wdt.control c ≠ s.hw.wdt := fun e => by
    have henable : c.getLsbD 0 = s.hw.wdt.enable := congrArg Wdt.enable e
    rw [hc, hon] at henable
    exact absurd henable (by decide)
  have hacked := s.hw.commitWrite_control_acked c hup hok
  refine ⟨_, rfl, rfl, ?_⟩
  dsimp only
  rw [s.hw.commitWrite_control c hup hok hnew] at hacked ⊢
  have hwdt := (s.hw.acknowledged .A (pageAddr 0x100 1)).wdtCommit_fall (w := s.hw.wdt.control c) hc
    (by rw [Hw.acknowledged_wdt, hon])
  rw [hwdt]
  exact ⟨hc, rfl, rfl, rfl, hacked, Hw.acknowledged_outs _ _ _⟩

theorem wdtDisable_locked {c : Byte} (hup : s.hw.busUp = true) (hon : s.hw.wdt.enable = true) (hlock : s.hw.wdt.lock = true)
    (hc : c.getLsbD 0 = false) :
    Completes (.wdtDisable c) s (fun t => t.wdt = s.hw.wdt ∧ (t.mbx .A).acked = false) := by
  have hcheck := checkBytes_control s.hw.wdtOpen s.hw.wdt c
  rw [if_pos (by unfold Wdt.refuses; rw [hc, hlock, hon]; simp)] at hcheck
  have hrefused := s.hw.commitWrite_refused_leaves .A 0x100 [c] hup hcheck
  exact ⟨_, rfl, rfl, hrefused.wdt, hrefused.acked⟩

/-- Address V reaches no register of the watchdog (R458). -/
theorem busWrite_of_wdt_from_V {adr : BitVec 7} (a : Fin 16) (b : Byte) (ho : s.hw.straps.origin adr = some .V)
    (hup : s.hw.busUp = true) :
    Completes (.hostBusWrite adr (BitVec.ofNat 16 (0x100 + a.val)) [b]) s (fun t => t.wdt = s.hw.wdt ∧ (t.mbx .V).acked = false ∧
      (s.hw.faults.cap = none → t.faults.cap.map (fun c => (c.source, c.addr)) = some (0x32, 0x100 + a.val))) := by
  have hptr : (BitVec.ofNat 16 (0x100 + a.val)).toNat = 0x100 + a.val := by
    rw [BitVec.toNat_ofNat]
    omega
  have hpage : pageAddr (0x100 + a.val) 0 = 0x100 + a.val := by
    unfold pageAddr
    omega
  have hcheck := checkBytes_first_refused .V (0x100 + a.val) [] s.hw.wdtOpen b { w := s.hw.wdt, high := none }
    (by rw [hpage]; simp [writable]; omega) (.inr (.inr rfl))
  rw [hpage] at hcheck
  have hrefused := s.hw.commitWrite_refused_leaves .V (0x100 + a.val) [b] hup hcheck
  refine completes_busWrite (.inl rfl) ho ?_
  rw [hptr]
  refine ⟨hrefused.wdt, hrefused.acked, fun hcap => ?_⟩
  have hviolation : violation .V (0x100 + a.val) = 0x32 := by rw [violation_eq, if_pos ⟨rfl, by omega, by omega⟩]
  have hmap := congrArg (Option.map fun p : Nat × Nat × Nat => (p.1, p.2.1)) (hrefused.cap hcap)
  rw [Option.map_map, hviolation] at hmap
  exact hmap

theorem wdtService_violation {v : Byte} (hup : s.hw.busUp = true) (h1 : v ≠ 0xA5) (h2 : v ≠ 0x5A) (hcounts : s.hw.wdtCounts = true)
    (hwarn : s.hw.wdt.warn = false) :
    Completes (.wdtService v) s (fun t => t.wdt.warn = true ∧ t.wdt.keyArmed = false ∧ t.wdt.start = s.hw.clk ∧
      t.wdt.earlyCount = min 255 (s.hw.wdt.earlyCount + 1) ∧ t.evt.pend.getLsbD 46 = true ∧ t.evt.pend.getLsbD 44 = true ∧
      t.seq = s.hw.seq) := by
  refine ⟨_, rfl, rfl, ?_⟩
  dsimp only
  rw [s.hw.commitWrite_service v hup]
  obtain ⟨hclk, hseq, hcounts', -⟩ := s.hw.acknowledged_keeps .A (pageAddr 0x104 1)
  have hwdt := s.hw.acknowledged_wdt .A (pageAddr 0x104 1)
  generalize s.hw.acknowledged .A (pageAddr 0x104 1) = g at hclk hseq hcounts' hwdt ⊢
  rw [g.wdtService_wrong h1 h2 (hcounts'.trans hcounts)]
  unfold Hw.wdtViolation
  generalize hg : ({ g with wdt := { g.wdt with keyArmed := false, earlyCount := min 255 (g.wdt.earlyCount + 1) } } : Hw) = f
  have hfwdt : (f.raise 46).wdt = { s.hw.wdt with keyArmed := false, earlyCount := min 255 (s.hw.wdt.earlyCount + 1) } := by
    rw [Hw.raise_eq, ← hg, hwdt]
  obtain ⟨hend, hclk', hseq', hpend, hmono⟩ := (f.raise 46).wdtExpire_first (by rw [hfwdt]; exact hwarn)
  have hnow : (f.raise 46).clk = s.hw.clk := by rw [Hw.raise_eq, ← hg]; exact hclk
  have hfseq : (f.raise 46).seq = s.hw.seq := by rw [Hw.raise_eq, ← hg]; exact hseq
  rw [hend, hfwdt, hnow, hseq', hfseq]
  exact ⟨rfl, rfl, rfl, rfl, hmono 46 (Hw.raise_pend_of_not_mute _ (by simp [Hw.mute]) (by omega)), hpend, rfl⟩

end

/-- Settles O49: each register write by what its commit sets, each expiry by what a first or a second one does, and each timer by the
instant that it ends at. -/
theorem watchdogAndUnlockTimers : Obligations.WatchdogAndUnlockTimers := by
  refine ⟨fun s c => wdtEnable_accepted, fun s c => wdtDisable_accepted, fun s c => wdtDisable_locked,
    fun s adr a b ho hup => busWrite_of_wdt_from_V a b ho hup, fun s hup => ⟨_, rfl, rfl, ?_⟩,
    fun s hup harmed hopen => ⟨_, rfl, rfl, ?_⟩, fun s v hup h1 h2 => wdtService_violation hup h1 h2,
    fun s hcounts hgrace hwarn => ⟨_, rfl, rfl, ?_⟩, fun s hcounts hgrace hwarn => ⟨_, rfl, rfl, ?_⟩,
    fun s hcounts hgrace hwarn hrun => ⟨_, rfl, rfl, ?_⟩, fun s hdone hrun hlow => ⟨_, rfl, rfl, ?_⟩,
    fun s hown hlink => ⟨_, rfl, rfl, ?_⟩, fun s hown hlink => ⟨_, rfl, rfl, ?_⟩⟩
  case refine_1 =>
    dsimp only
    rw [s.hw.commitWrite_service 0xA5 hup]
    exact ⟨congrArg (fun w : Wdt => { w with keyArmed := true }) (Hw.acknowledged_wdt _ _ _), Hw.acknowledged_outs _ _ _⟩
  case refine_2 =>
    dsimp only
    rw [s.hw.commitWrite_service 0x5A hup]
    obtain ⟨hclk, hseq, -, hopen'⟩ := s.hw.acknowledged_keeps .A (pageAddr 0x104 1)
    obtain ⟨n, hserved⟩ := Hw.wdtService_served _ (by rw [Hw.acknowledged_wdt]; exact harmed) (hopen'.trans hopen)
    rw [hserved, Hw.acknowledged_wdt]
    exact ⟨hclk, rfl, rfl, rfl, s.hw.enable_of_wdtOpen hopen, hseq, Hw.acknowledged_outs _ _ _⟩
  case refine_3 =>
    dsimp only
    rw [if_pos (by simp [hcounts, hgrace])]
    obtain ⟨hwdt, hseq, hclk⟩ := s.hw.reach_wake_keeps (s.hw.wdt.start + 1000 * s.hw.wdt.period)
    generalize (s.hw.reach (s.hw.wdt.start + 1000 * s.hw.wdt.period)).wake = g at hwdt hseq hclk ⊢
    obtain ⟨hend, hclk', hseq', hpend, -⟩ := g.wdtExpire_first (by rw [hwdt, hwarn])
    rw [hend, hclk', hseq', hseq, hwdt]
    exact ⟨rfl, rfl, hclk, rfl, hpend, rfl⟩
  case refine_4 =>
    dsimp only
    rw [if_pos (by simp [hcounts, hgrace])]
    obtain ⟨hwdt, -, hclk⟩ := s.hw.reach_wake_keeps (s.hw.wdt.start + 1000000 * s.hw.wdt.graceS)
    generalize (s.hw.reach (s.hw.wdt.start + 1000000 * s.hw.wdt.graceS)).wake = g at hwdt hclk ⊢
    obtain ⟨hend, hclk', -, hpend, -⟩ := g.wdtExpire_first (by rw [hwdt, hwarn])
    rw [hend, hclk']
    exact ⟨rfl, rfl, hclk, hpend⟩
  case refine_5 =>
    dsimp only
    rw [if_pos (by simp [hcounts, hgrace])]
    obtain ⟨hwdt, hseq, -⟩ := s.hw.reach_wake_keeps (s.hw.wdt.start + 1000 * s.hw.wdt.period)
    generalize (s.hw.reach (s.hw.wdt.start + 1000 * s.hw.wdt.period)).wake = g at hwdt hseq ⊢
    have hsecond : g.wdtExpire = ({ g with wdt := { g.wdt with warn := false, grace := false } } : Hw).hostRestart :=
      if_pos (by rw [hwdt, hwarn])
    obtain ⟨hlow, hend, hpend⟩ := Hw.hostRestart_of_run { g with wdt := { g.wdt with warn := false, grace := false } }
      (by rw [← hrun, ← hseq])
    rw [hsecond]
    refine ⟨hlow, ?_, ?_, ?_, hpend⟩ <;> rw [hend]
    rw [hwdt]
  case refine_6 =>
    have heff : s.hw.eff = .run := by simp [Hw.eff, Seq.eff, hrun]
    have hclk := s.hw.reach_clk (s.hw.wdt.start + 1000 * s.hw.wdt.hrstWidth)
    dsimp only
    rw [if_pos (by simp [hdone, heff, hlow])]
    generalize hg : s.hw.reach (s.hw.wdt.start + 1000 * s.hw.wdt.hrstWidth) = g at hclk ⊢
    unfold Hw.releaseHrst
    rw [if_neg (by rw [← hg, Hw.reach_seq, hlow]; decide)]
    exact ⟨rfl, rfl, rfl, by rw [← hg]; rfl, rfl, hclk, by rw [← hg]; rfl⟩
  case refine_7 =>
    have hclk := s.hw.reach_clk (s.hw.proto.unlock.lastAt + 900000000)
    obtain ⟨hproto, houts, hlife⟩ := s.hw.reach_leaves (s.hw.proto.unlock.lastAt + 900000000)
    dsimp only
    rw [if_pos hown, if_neg (by simp [hlink])]
    dsimp only
    generalize s.hw.reach (s.hw.proto.unlock.lastAt + 900000000) = g at hclk hproto houts hlife ⊢
    obtain ⟨hclk', houts', hlife'⟩ := g.setUnlocks_keeps { g.proto with unlock := g.proto.unlock.expire g.clk }
      { g.prm with unlock := g.prm.unlock.expire g.clk }
    refine ⟨?_, hclk'.trans hclk, houts'.trans houts, hlife'.trans hlife⟩
    rw [hproto]
    exact Unlock.expire_due _ (by omega)
  case refine_8 =>
    have hclk := s.hw.reach_clk (s.hw.proto.unlock.lockedAt + 60000000)
    obtain ⟨hproto, houts, hlife⟩ := s.hw.reach_leaves (s.hw.proto.unlock.lockedAt + 60000000)
    dsimp only
    rw [if_pos hown, if_neg (by simp [hlink])]
    dsimp only
    generalize s.hw.reach (s.hw.proto.unlock.lockedAt + 60000000) = g at hclk hproto houts hlife ⊢
    obtain ⟨hclk', houts', hlife'⟩ := g.setUnlocks_keeps { g.proto with unlock := g.proto.unlock.release g.clk }
      { g.prm with unlock := g.prm.unlock.release g.clk }
    obtain ⟨hlocked, hwrong⟩ := Unlock.release_due s.hw.proto.unlock hown (clk := g.clk) (by omega)
    refine ⟨?_, ?_, hclk'.trans hclk, houts'.trans houts, hlife'.trans hlife⟩
    · rw [hproto, hlocked]
    · rw [hproto, hwrong]

end Sys2Proof.Machine
end

section
/-! SUPPORT. The addressed buffers as one view of the hardware (R404, R445, R499). -/

namespace Sys2Proof.Machine

/-- The addressed buffers but those of the firmware slots: the mailbox windows (R404), the staging buffer (R445), the SRAM of
the bulk engine (R499). -/
structure Buffers where
  aCmd : Cells
  aRep : Cells
  vCmd : Cells
  vRep : Cells
  staging : Cells
  sram : Cells
  retained : Cells

/-- The buffers of the hardware. -/
def Hw.cells (h : Hw) : Buffers :=
  ⟨h.proto.a.cmd, h.proto.a.rep, h.proto.v.cmd, h.proto.v.rep, h.store.staging, h.bulk.sram, h.bulk.retained⟩

theorem Hw.cells_ext {h g : Hw} (hp : h.proto = g.proto) (hs : h.store.staging = g.store.staging)
    (hb : h.bulk = g.bulk) : h.cells = g.cells := by
  unfold Hw.cells
  rw [hp, hs, hb]

/-- The view is read off what is kept of protocol, store and bulk engine. -/
@[simp] theorem Buffers.mk_cells (h : Hw) :
    Buffers.mk h.proto.a.cmd h.proto.a.rep h.proto.v.cmd h.proto.v.rep h.store.staging h.bulk.sram h.bulk.retained = h.cells :=
  rfl

@[simp] theorem Hw.cells_mk (clk free factory image ins straps lines rst pwr idle gov outs pool vcl ports acc adc seq prm metro
    slots log store ackSeq recordsLost proto evt wdt faults chg gauge lodge therm bulk life fw) :
    (Hw.mk clk free factory image ins straps lines rst pwr idle gov outs pool vcl ports acc adc seq prm metro
      slots log store ackSeq recordsLost proto evt wdt faults chg gauge lodge therm bulk life fw).cells =
      ⟨proto.a.cmd, proto.a.rep, proto.v.cmd, proto.v.rep, store.staging, bulk.sram, bulk.retained⟩ :=
  rfl

theorem foldl_cells {α : Type} (f : Hw → α → Hw) (l : List α) (h : Hw) (hf : ∀ h x, (f h x).cells = h.cells) :
    (l.foldl f h).cells = h.cells := by
  induction l generalizing h with
  | nil => rfl
  | cons x r ih => exact (ih _).trans (hf h x)

theorem foldl_fst_cells {α β : Type} (f : Hw × β → α → Hw × β) (l : List α) (t : Hw × β)
    (hf : ∀ t x, (f t x).1.cells = t.1.cells) : (l.foldl f t).1.cells = t.1.cells := by
  induction l generalizing t with
  | nil => rfl
  | cons x r ih => exact (ih _).trans (hf t x)

/-! ## What the operations of the store, of the mailboxes and of the bulk engine leave of the buffers -/


@[simp] theorem Store.addTo_staging (s : Store) (half : Bool) (r : Rec) : (s.addTo half r).staging = s.staging := by
  cases half <;> rfl

@[simp] theorem Store.lastPair_staging (s : Store) (key : Nat) (payload : List Byte) :
    (s.lastPair key payload).staging = s.staging := by
  simp [Store.lastPair]

@[simp] theorem Store.stamp_staging (s : Store) (cd total clk : Nat) : (s.stamp cd total clk).staging = s.staging := rfl

@[simp] theorem Store.setRing_staging (s : Store) (r : Ring) (x : RingSt) : (s.setRing r x).staging = s.staging := by
  cases r <;> rfl

@[simp] theorem Store.resume_staging (s : Store) : s.resume.staging = s.staging := rfl

@[simp] theorem Proto.released_a_cmd (p : Proto) : p.released.a.cmd = p.a.cmd := rfl
@[simp] theorem Proto.released_a_rep (p : Proto) : p.released.a.rep = p.a.rep := rfl
@[simp] theorem Proto.released_v_cmd (p : Proto) : p.released.v.cmd = p.v.cmd := rfl
@[simp] theorem Proto.released_v_rep (p : Proto) : p.released.v.rep = p.v.rep := rfl

/-- A change of a mailbox that is not about its windows. -/
@[simp] theorem Hw.modMbx_cells (h : Hw) (o : Origin) (f : Mailbox → Mailbox) (hc : (f (h.mbx o)).cmd = (h.mbx o).cmd)
    (hr : (f (h.mbx o)).rep = (h.mbx o).rep) : (h.modMbx o f).cells = h.cells := by
  cases o
  · show Buffers.mk (f h.proto.a).cmd (f h.proto.a).rep _ _ _ _ _ = _
    rw [show (f h.proto.a).cmd = h.proto.a.cmd from hc, show (f h.proto.a).rep = h.proto.a.rep from hr]
    rfl
  · show Buffers.mk _ _ (f h.proto.v).cmd (f h.proto.v).rep _ _ _ = _
    rw [show (f h.proto.v).cmd = h.proto.v.cmd from hc, show (f h.proto.v).rep = h.proto.v.rep from hr]
    rfl

@[simp] theorem Bulk.pause_sram (b : Bulk) : b.pause.sram = b.sram := rfl

@[simp] theorem Bulk.pause_retained (b : Bulk) : b.pause.retained = b.retained := rfl

@[simp] theorem Bulk.setRing_sram (b : Bulk) (c : Nat) (r : List Desc) : (b.setRing c r).sram = b.sram := rfl

@[simp] theorem Bulk.setRing_retained (b : Bulk) (c : Nat) (r : List Desc) : (b.setRing c r).retained = b.retained := rfl

@[simp] theorem Bulk.post_sram (b : Bulk) (p : BulkPost) : (b.post p).sram = b.sram := by
  unfold Bulk.post
  (repeat' split) <;> rfl

@[simp] theorem Bulk.post_retained (b : Bulk) (p : BulkPost) : (b.post p).retained = b.retained := by
  unfold Bulk.post
  (repeat' split) <;> rfl

@[simp] theorem Bulk.pop_sram (b : Bulk) (c : Nat) : (b.pop c).sram = b.sram := by
  unfold Bulk.pop
  dsimp only
  split <;> simp

@[simp] theorem Bulk.pop_retained (b : Bulk) (c : Nat) : (b.pop c).retained = b.retained := by
  unfold Bulk.pop
  dsimp only
  split <;> simp

@[simp] theorem Bulk.served_sram (b : Bulk) (c : Nat) : (b.served c).sram = b.sram := by
  unfold Bulk.served
  split <;> rfl

@[simp] theorem Bulk.served_retained (b : Bulk) (c : Nat) : (b.served c).retained = b.retained := by
  unfold Bulk.served
  split <;> rfl

@[simp] theorem Bulk.fetched_sram (b : Bulk) (c : Nat) : (b.fetched c).sram = b.sram := by
  unfold Bulk.fetched
  split <;> rfl

@[simp] theorem Bulk.fetched_retained (b : Bulk) (c : Nat) : (b.fetched c).retained = b.retained := by
  unfold Bulk.fetched
  split <;> rfl

end Sys2Proof.Machine
end

section
/-! SUPPORT. Every shared operation that does not write the addressed buffers leaves them as they are: one frame lemma an
operation. -/

namespace Sys2Proof.Machine

/-! ## Events, jobs, faults, outputs -/

@[simp] theorem Hw.modOut_cells (h : Hw) (k : Nat) (f : Output → Output) : (h.modOut k f).cells = h.cells := rfl

@[simp] theorem Hw.modPort_cells (h : Hw) (p : Nat) (f : Port → Port) : (h.modPort p f).cells = h.cells := rfl

@[simp] theorem Hw.modChan_cells (h : Hw) (c : Nat) (f : Chan → Chan) : (h.modChan c f).cells = h.cells := rfl

@[simp] theorem Hw.modSlot_cells (h : Hw) (n : Nat) (f : Slot → Slot) : (h.modSlot n f).cells = h.cells := rfl

@[simp] theorem Hw.modRail_cells (h : Hw) (k : Nat) (f : VpRail → VpRail) : (h.modRail k f).cells = h.cells := rfl

@[simp] theorem Hw.modPhase_cells (h : Hw) (p : Nat) (f : Phase → Phase) : (h.modPhase p f).cells = h.cells := rfl

@[simp] theorem Hw.turnRef_cells (h : Hw) (k : Nat) : (h.turnRef k).cells = h.cells := rfl

@[simp] theorem Hw.advance_cells (h : Hw) (us : Nat) : (h.advance us).cells = h.cells := rfl

@[simp] theorem Hw.reach_cells (h : Hw) (t : Nat) : (h.reach t).cells = h.cells := rfl

@[simp] theorem Hw.draw_cells (h : Hw) : h.draw.cells = h.cells := rfl

@[simp] theorem Hw.wake_cells (h : Hw) : h.wake.cells = h.cells := by
  unfold Hw.wake
  split <;> simp

@[simp] theorem Hw.raise_cells (h : Hw) (s : Nat) : (h.raise s).cells = h.cells := by
  unfold Hw.raise
  split <;> simp

@[simp] theorem Hw.raiseIf_cells (h : Hw) (c : Bool) (s : Nat) : (h.raiseIf c s).cells = h.cells := by
  unfold Hw.raiseIf
  split <;> simp

@[simp] theorem Hw.newJob_cells (h : Hw) (op : Byte) (byCore : Bool) : (h.newJob op byCore).cells = h.cells := by
  simp [Hw.newJob]

@[simp] theorem Hw.modJob_cells (h : Hw) (n : Nat) (f : Job → Job) : (h.modJob n f).cells = h.cells := rfl

@[simp] theorem Hw.endJob_cells (h : Hw) (n : Nat) (status : Nat) (result : Nat) (data : List Byte) :
    (h.endJob n status result data).cells = h.cells := rfl

@[simp] theorem Hw.endJob?_cells (h : Hw) (n : Option Nat) (status : Nat) (result : Nat) (data : List Byte) :
    (h.endJob? n status result data).cells = h.cells := by
  unfold Hw.endJob?
  split <;> simp

@[simp] theorem Hw.dropJob_cells (h : Hw) (n : Nat) : (h.dropJob n).cells = h.cells := rfl

@[simp] theorem Hw.dropJob?_cells (h : Hw) (n : Option Nat) : (h.dropJob? n).cells = h.cells := by
  unfold Hw.dropJob?
  split <;> simp

@[simp] theorem Hw.closeAll_cells (h : Hw) (reason : Nat) (flags : BitVec 16) : (h.closeAll reason flags).cells = h.cells := rfl

@[simp] theorem Hw.startRead_cells (h : Hw) : h.startRead.cells = h.cells := by
  unfold Hw.startRead
  split <;> simp

@[simp] theorem Hw.freeBus_cells (h : Hw) (p : Nat) : (h.freeBus p).cells = h.cells := by
  unfold Hw.freeBus
  split <;> simp

@[simp] theorem Hw.unskip_cells (h : Hw) (c : Nat) : (h.unskip c).cells = h.cells := rfl

@[simp] theorem Hw.endVhWait_cells (h : Hw) (i : Nat) : (h.endVhWait i).cells = h.cells := rfl

@[simp] theorem Hw.turnOff_cells (h : Hw) (c : OffCause) (k : Nat) : (h.turnOff c k).cells = h.cells := by
  simp [Hw.turnOff, apply_ite Hw.cells]

@[simp] theorem Hw.turnOffAll_cells (h : Hw) (c : OffCause) : (h.turnOffAll c).cells = h.cells := by
  simp [Hw.turnOffAll, foldl_cells]

@[simp] theorem Hw.endMove_cells (h : Hw) (result : Nat) : (h.endMove result).cells = h.cells := by
  unfold Hw.endMove
  split <;> simp

@[simp] theorem Hw.govEnd_cells (h : Hw) : h.govEnd.cells = h.cells := rfl

@[simp] theorem Hw.evalPgood_cells (h : Hw) : h.evalPgood.cells = h.cells := by simp [Hw.evalPgood]

@[simp] theorem Hw.pgoodLow_cells (h : Hw) : h.pgoodLow.cells = h.cells := by simp [Hw.pgoodLow]

@[simp] theorem Hw.capture_cells (h : Hw) (c : Capture) : (h.capture c).cells = h.cells := by
  unfold Hw.capture
  (repeat' split) <;> simp

@[simp] theorem Hw.warn_cells (h : Hw) (src : Nat) (r : Nat) : (h.warn src r).cells = h.cells := by
  simp [Hw.warn, apply_ite Hw.cells]

@[simp] theorem Hw.collect_cells (h : Hw) (src : Nat) (addr : Nat) (master : Nat) (access : Nat) (detail : List Byte) :
    (h.collect src addr master access detail).cells = h.cells := by
  simp [Hw.collect]

@[simp] theorem Hw.askCoreReset_cells (h : Hw) (cause : Nat) : (h.askCoreReset cause).cells = h.cells := by
  unfold Hw.askCoreReset
  split <;> simp

@[simp] theorem Hw.imageSettings_cells (h : Hw) : h.imageSettings.cells = h.cells := rfl

@[simp] theorem Hw.enterLatched_cells (h : Hw) (cause : Nat) : (h.enterLatched cause).cells = h.cells := by
  simp [Hw.enterLatched, apply_ite Hw.cells]

@[simp] theorem Hw.planRetry_cells (h : Hw) : h.planRetry.cells = h.cells := by simp [Hw.planRetry, apply_ite Hw.cells]

@[simp] theorem Hw.hrstFalls_cells (h : Hw) : h.hrstFalls.cells = h.cells := by simp [Hw.hrstFalls, apply_ite Hw.cells]

@[simp] theorem Hw.markOff_cells (h : Hw) (c : OffCause) : (h.markOff c).cells = h.cells := rfl

@[simp] theorem Hw.safeState_cells (h : Hw) : h.safeState.cells = h.cells := by simp [Hw.safeState, apply_ite Hw.cells]

@[simp] theorem Hw.react_cells (h : Hw) (r : Nat) : (h.react r).cells = h.cells := by simp [Hw.react, apply_ite Hw.cells]

@[simp] theorem Hw.report_cells (h : Hw) (src : Nat) (addr : Nat) (master : Nat) (access : Nat) (detail : List Byte) :
    (h.report src addr master access detail).cells = h.cells := by
  simp [Hw.report]

@[simp] theorem Hw.railOff_cells (h : Hw) (cause : Nat) : (h.railOff cause).cells = h.cells := by
  simp [Hw.railOff, apply_ite Hw.cells]

@[simp] theorem Hw.railFault_cells (h : Hw) (cause : Nat) (src : Nat) (addr : Nat) (detail : List Byte) (held : Bool) :
    (h.railFault cause src addr detail held).cells = h.cells := by
  simp [Hw.railFault, apply_ite Hw.cells]

@[simp] theorem Hw.railFaults_cells (h : Hw) (fs : List RailErr) : (h.railFaults fs).cells = h.cells := by
  simp only [Hw.railFaults, Hw.react_cells]
  split <;> simp [foldl_cells]

@[simp] theorem Hw.chgOff_cells (h : Hw) : h.chgOff.cells = h.cells := rfl

/-! ## Checkers -/

@[simp] theorem Hw.take_cells (h : Hw) (id : Nat) : (h.take id).cells = h.cells := rfl

@[simp] theorem Hw.transfer_cells (h : Hw) (c n : Nat) : (h.transfer c n).1.cells = h.cells := by
  simp only [Hw.transfer]
  (repeat' split) <;> simp

@[simp] theorem Hw.flashCheck_cells (h : Hw) (id : Nat) (region : Nat) (key : Nat) :
    (h.flashCheck id region key).1.cells = h.cells := by
  unfold Hw.flashCheck
  split <;> simp

@[simp] theorem Hw.regionCheck_cells (h : Hw) (region : Nat) (key : Nat) : (h.regionCheck region key).1.cells = h.cells := by
  unfold Hw.regionCheck
  split <;> simp

/-! ## The log -/

@[simp] theorem Hw.reclaim_cells (h : Hw) : h.reclaim.cells = h.cells := by
  unfold Hw.reclaim
  split <;> simp

@[simp] theorem Hw.lowSince_cells (h : Hw) (before : Int) : (h.lowSince before).cells = h.cells := by simp [Hw.lowSince]

@[simp] theorem Hw.wait_cells (h : Hw) (draft : List Byte) (signed : Bool) (seq : Nat) (p : Purpose) :
    (h.wait draft signed seq p).cells = h.cells := rfl

@[simp] theorem Hw.enqueueLog_cells (h : Hw) (draft : List Byte) (p : Purpose) : (h.enqueueLog draft p).cells = h.cells := rfl

@[simp] theorem Hw.enqueue_cells (h : Hw) (key : Nat) (payload : List Byte) (p : Purpose) :
    (h.enqueue key payload p).cells = h.cells := rfl

@[simp] theorem Hw.loseRecord_cells (h : Hw) : h.loseRecord.cells = h.cells := rfl

/-! ## The store -/

@[simp] theorem Hw.lastPair_cells (h : Hw) (key : Nat) (payload : List Byte) : (h.lastPair key payload).cells = h.cells := by
  simp [Hw.lastPair]

@[simp] theorem Hw.prove_cells (h : Hw) (r : Ring) (x : Rec) (copy : Bool) (job : Option Nat) :
    (h.prove r x copy job).cells = h.cells := rfl

@[simp] theorem Hw.place_cells (h : Hw) (r : Ring) (x : Rec) : (h.place r x).cells = h.cells := by simp [Hw.place]

@[simp] theorem Hw.copyChecks_cells (h : Hw) (r : Ring) : (h.copyChecks r).1.cells = h.cells := by
  unfold Hw.copyChecks
  split
  · exact foldl_fst_cells _ _ _ (fun t x => Hw.regionCheck_cells ..)
  · rfl

@[simp] theorem Hw.copyOldest_cells (h : Hw) (r : Ring) : (h.copyOldest r).cells = h.cells := by
  simp [Hw.copyOldest, foldl_cells]

@[simp] theorem Hw.forgetFaults_cells (h : Hw) (r : Ring) : (h.forgetFaults r).cells = h.cells := by
  unfold Hw.forgetFaults
  split <;> simp

@[simp] theorem Hw.eraseNow_cells (h : Hw) (r : Ring) : (h.eraseNow r).cells = h.cells := by simp [Hw.eraseNow]

@[simp] theorem Hw.compactNow_cells (h : Hw) (r : Ring) : (h.compactNow r).cells = h.cells := by
  unfold Hw.compactNow
  split <;> simp

@[simp] theorem Hw.makeRoom_cells (n size : Nat) (r : Ring) (h : Hw) : (Hw.makeRoom n size r h).cells = h.cells := by
  induction n generalizing h with
  | zero => rfl
  | succ n ih =>
    unfold Hw.makeRoom
    split <;> simp [ih]

@[simp] theorem Hw.keep_cells (h : Hw) (half : Bool) (x : Rec) : (h.keep half x).cells = h.cells := by simp [Hw.keep]

@[simp] theorem Hw.pairWith_cells (h : Hw) (key : Nat) (payload : List Byte) (unary : Word) (job : Option Nat) :
    (h.pairWith key payload unary job).cells = h.cells := by
  simp [Hw.pairWith]

@[simp] theorem Hw.pairFor_cells (h : Hw) (key : Nat) (payload : List Byte) (job : Option Nat) :
    (h.pairFor key payload job).cells = h.cells := by
  simp [Hw.pairFor]

@[simp] theorem Hw.pair_cells (h : Hw) (key : Nat) (payload : List Byte) : (h.pair key payload).cells = h.cells := by
  simp [Hw.pair]

@[simp] theorem Hw.retireSector_cells (h : Hw) (region : Nat) (gen : Nat) : (h.retireSector region gen).cells = h.cells := by
  simp [Hw.retireSector]

@[simp] theorem Hw.newBase_cells (h : Hw) (cd : Nat) (total : Nat) : (h.newBase cd total).cells = h.cells := by
  simp [Hw.newBase]

@[simp] theorem Hw.clearBits_cells (h : Hw) (cd : Nat) (tag : Nat) (k : Nat) : (h.clearBits cd tag k).cells = h.cells := rfl

@[simp] theorem Hw.clearTo_cells (h : Hw) (cd : Nat) (tag : Nat) (k : Nat) (total : Nat) :
    (h.clearTo cd tag k total).cells = h.cells := by
  unfold Hw.clearTo
  split <;> simp

@[simp] theorem Hw.checkpoint_cells (h : Hw) (cd : Nat) (total : Nat) : (h.checkpoint cd total).cells = h.cells := by
  simp only [Hw.checkpoint]
  (repeat' split) <;> simp

@[simp] theorem Hw.addConfig_cells (h : Hw) (x : Rec) : (h.addConfig x).cells = h.cells := by
  unfold Hw.addConfig
  split <;> simp

@[simp] theorem Hw.recordImage_cells (h : Hw) (bytes : List Byte) : (h.recordImage bytes).cells = h.cells := by
  simp [Hw.recordImage, foldl_cells]

@[simp] theorem Hw.putImage_cells (h : Hw) (bytes : List Byte) (img : Image) (done : Bool) :
    (h.putImage bytes img done).cells = h.cells := by
  unfold Hw.putImage
  split <;> simp

@[simp] theorem Hw.roomForFaults_cells (h : Hw) : h.roomForFaults.cells = h.cells := by
  unfold Hw.roomForFaults
  (repeat' split) <;> simp

@[simp] theorem Hw.writeFault_cells (h : Hw) : h.writeFault.cells = h.cells := by
  unfold Hw.writeFault
  split <;> simp

@[simp] theorem Hw.writeFaults_cells (h : Hw) : h.writeFaults.cells = h.cells := by simp [Hw.writeFaults, foldl_cells]

@[simp] theorem Hw.commitFaults_cells (h : Hw) : h.commitFaults.cells = h.cells := rfl

@[simp] theorem Hw.faultRecord_cells (h : Hw) (job : Option Nat) : (h.faultRecord job).cells = h.cells := rfl

@[simp] theorem Hw.amendFaults_cells (h : Hw) : h.amendFaults.cells = h.cells := rfl

/-! ## Metering -/

@[simp] theorem Hw.endBlock_cells (h : Hw) (cs : List (List ModBits)) (at_ : Nat) : (h.endBlock cs at_).cells = h.cells := rfl

@[simp] theorem Hw.gather_cells (h : Hw) : h.gather.cells = h.cells := rfl

@[simp] theorem Hw.enterHold_cells (h : Hw) (c : Nat) (cause : Nat) (inj : Bool) :
    (h.enterHold c cause inj).cells = h.cells := by
  simp [Hw.enterHold, apply_ite Hw.cells]

@[simp] theorem Hw.clearCause_cells (h : Hw) (c : Nat) (cause : Nat) : (h.clearCause c cause).cells = h.cells := by
  simp [Hw.clearCause, apply_ite Hw.cells]

@[simp] theorem Hw.loadBlocks_cells (h : Hw) (c : Nat) (p : Found) (q : Found) (bad : Bool) :
    (h.loadBlocks c p q bad).cells = h.cells := by
  simp [Hw.loadBlocks, apply_ite Hw.cells]

@[simp] theorem Hw.loadCal_cells (h : Hw) (c : Nat) (bad : Bool) : (h.loadCal c bad).cells = h.cells := by simp [Hw.loadCal]

@[simp] theorem Hw.readRecord_cells (h : Hw) (ecc : Nat) (crc : Nat) (region : Nat) (key : Nat) :
    (h.readRecord ecc crc region key).1.cells = h.cells := by
  simp only [Hw.readRecord]
  split <;> simp

/-! ## The last-word commit -/

@[simp] theorem Hw.gaugeWrites_cells (h : Hw) : h.gaugeWrites.cells = h.cells := by
  unfold Hw.gaugeWrites
  (repeat' split) <;> simp [apply_ite Hw.cells]

@[simp] theorem Hw.freeze_cells (h : Hw) : h.freeze.cells = h.cells := by
  unfold Hw.freeze
  split <;> simp

@[simp] theorem Hw.putSlot_cells (h : Hw) (n : Nat) (signed : Bool) (st : SlotState) :
    (h.putSlot n signed st).cells = h.cells := by
  simp [Hw.putSlot]

@[simp] theorem Hw.finishAppend_cells (h : Hw) : h.finishAppend.cells = h.cells := by
  unfold Hw.finishAppend
  (repeat' split) <;> simp [apply_ite Hw.cells]

@[simp] theorem Hw.closePf_cells (h : Hw) (reason : Nat) (n : Nat) : (h.closePf reason n).cells = h.cells := by
  simp [Hw.closePf, apply_ite Hw.cells]

@[simp] theorem Hw.timeCommitted_cells (h : Hw) (p : Purpose) (seq : Nat) : (h.timeCommitted p seq).cells = h.cells := by
  unfold Hw.timeCommitted
  split <;> simp

@[simp] theorem Hw.beginLog_cells (h : Hw) (w : StoreWrite) : (h.beginLog w).1.cells = h.cells := by simp [Hw.beginLog]

@[simp] theorem Hw.cutLog_cells (h : Hw) (w : StoreWrite) : (h.cutLog w).cells = h.cells := by
  simp [Hw.cutLog, apply_ite Hw.cells]

@[simp] theorem Hw.cutCopy_cells (h : Hw) (w : StoreWrite) (done : Bool) : (h.cutCopy w done).cells = h.cells := by
  unfold Hw.cutCopy
  split <;> simp

@[simp] theorem Hw.cutErase_cells (h : Hw) : h.cutErase.cells = h.cells := by
  simp only [Hw.cutErase]
  (repeat' split) <;> simp

@[simp] theorem Hw.dropWaiting_cells (h : Hw) : h.dropWaiting.cells = h.cells := rfl

@[simp] theorem Hw.putPowerEvent_cells (h : Hw) (trigger : Nat) (closed : Nat) :
    (h.putPowerEvent trigger closed).cells = h.cells := by
  unfold Hw.putPowerEvent
  split <;> simp

@[simp] theorem Hw.conflict_cells (h : Hw) (key : Nat) : (h.conflict key).cells = h.cells := by simp [Hw.conflict]

@[simp] theorem Hw.checkKey_cells (h : Hw) (key : Nat) : (h.checkKey key).cells = h.cells := by
  unfold Hw.checkKey
  split <;> simp

@[simp] theorem Hw.mendSectors_cells (h : Hw) : h.mendSectors.cells = h.cells := rfl

@[simp] theorem Hw.marginRead_cells (h : Hw) (weak : List Nat) : (h.marginRead weak).cells = h.cells := rfl

@[simp] theorem Hw.setTotal_cells (h : Hw) (cd : Nat) (total : Nat) : (h.setTotal cd total).cells = h.cells := rfl

@[simp] theorem Hw.restoreCd_cells (h : Hw) (cd : Nat) : (h.restoreCd cd).cells = h.cells := by
  unfold Hw.restoreCd
  (repeat' split) <;> simp

@[simp] theorem Hw.restoreCounters_cells (h : Hw) : h.restoreCounters.cells = h.cells := rfl

@[simp] theorem Hw.restoreGauge_cells (h : Hw) : h.restoreGauge.cells = h.cells := rfl

@[simp] theorem Hw.restoreHolds_cells (h : Hw) : h.restoreHolds.cells = h.cells := by
  simp [Hw.restoreHolds, foldl_cells, apply_ite Hw.cells]

@[simp] theorem Hw.loadAllCal_cells (h : Hw) : h.loadAllCal.cells = h.cells := by simp [Hw.loadAllCal, foldl_cells]

@[simp] theorem Hw.rebuildSlots_cells (h : Hw) : h.rebuildSlots.cells = h.cells := rfl

@[simp] theorem Hw.restore_cells (h : Hw) : h.restore.cells = h.cells := by simp [Hw.restore, foldl_cells, apply_ite Hw.cells]

/-! ## The pool -/

@[simp] theorem Hw.endMoveOf_cells (h : Hw) (p : Nat) (result : Nat) : (h.endMoveOf p result).cells = h.cells := by
  unfold Hw.endMoveOf
  split <;> simp

@[simp] theorem Hw.activate_cells (h : Hw) (k : Nat) (p : Nat) : (h.activate k p).cells = h.cells := by simp [Hw.activate]

@[simp] theorem Hw.awaitQuiet_cells (h : Hw) (k : Nat) : (h.awaitQuiet k).cells = h.cells := by
  unfold Hw.awaitQuiet
  (repeat' split) <;> simp

@[simp] theorem Hw.addPhase_cells (h : Hw) (k : Nat) : (h.addPhase k).cells = h.cells := by
  unfold Hw.addPhase
  (repeat' split) <;> simp

@[simp] theorem Hw.addUpTo_cells (h : Hw) (k : Nat) (n : Nat) : (h.addUpTo k n).cells = h.cells := by
  simp [Hw.addUpTo, foldl_cells, apply_ite Hw.cells]

@[simp] theorem Hw.rampDown_cells (h : Hw) (k : Nat) (p : Nat) : (h.rampDown k p).cells = h.cells := rfl

@[simp] theorem Hw.tryMove_cells (h : Hw) : h.tryMove.cells = h.cells := by
  unfold Hw.tryMove
  (repeat' split) <;> simp [apply_ite Hw.cells]

@[simp] theorem Hw.cancelShed_cells (h : Hw) (p : Nat) : (h.cancelShed p).cells = h.cells := by
  simp [Hw.cancelShed, apply_ite Hw.cells]

@[simp] theorem Hw.cancelSheds_cells (h : Hw) (k : Nat) : (h.cancelSheds k).cells = h.cells := by
  simp [Hw.cancelSheds, foldl_cells, apply_ite Hw.cells]

@[simp] theorem Hw.burst_cells (h : Hw) (k : Nat) : (h.burst k).cells = h.cells := by simp [Hw.burst, apply_ite Hw.cells]

@[simp] theorem Hw.quietOver_cells (h : Hw) (p : Nat) (owner : Nat) : (h.quietOver p owner).cells = h.cells := rfl

/-! ## Sequences -/

@[simp] theorem Hw.disable_cells (h : Hw) (k : Nat) : (h.disable k).cells = h.cells := by
  unfold Hw.disable
  split <;> simp

@[simp] theorem Hw.releaseHrst_cells (h : Hw) : h.releaseHrst.cells = h.cells := by
  unfold Hw.releaseHrst
  split <;> simp

@[simp] theorem Hw.dueHrst_cells (h : Hw) : h.dueHrst.cells = h.cells := by
  unfold Hw.dueHrst
  split <;> simp

@[simp] theorem Hw.dropPend_cells (h : Hw) (result : Nat) : (h.dropPend result).cells = h.cells := by simp [Hw.dropPend]

@[simp] theorem Hw.holdRamps_cells (h : Hw) : h.holdRamps.cells = h.cells := by
  simp [Hw.holdRamps, foldl_cells, apply_ite Hw.cells]

@[simp] theorem Hw.endKeep_cells (h : Hw) : h.endKeep.cells = h.cells := rfl

@[simp] theorem Hw.dropOverrides_cells (h : Hw) : h.dropOverrides.cells = h.cells := rfl

@[simp] theorem Hw.revert_cells (h : Hw) : h.revert.cells = h.cells := by simp [Hw.revert]

@[simp] theorem Hw.faultRestart_cells (h : Hw) : h.faultRestart.cells = h.cells := by simp [Hw.faultRestart]

@[simp] theorem Hw.lockConfig_cells (h : Hw) : h.lockConfig.cells = h.cells := rfl

@[simp] theorem Hw.wipeRelay_cells (h : Hw) : h.wipeRelay.cells = h.cells := rfl

@[simp] theorem Hw.serviceWrite_cells (h : Hw) : h.serviceWrite.cells = h.cells := by simp [Hw.serviceWrite, apply_ite Hw.cells]

@[simp] theorem Hw.upDone_cells (h : Hw) : h.upDone.cells = h.cells := by simp [Hw.upDone]

/-! ## Starts -/

@[simp] theorem Hw.startMetro_cells (h : Hw) (status : Bool) : (h.startMetro status).cells = h.cells := rfl

@[simp] theorem Hw.startAdc_cells (h : Hw) : h.startAdc.cells = h.cells := rfl

/-! ## Replies -/

@[simp] theorem Hw.respond_cells (h : Hw) (o : Origin) (st : Nat) (data : List Byte) :
    (h.respond o st data).cells = h.cells := by
  unfold Hw.respond
  split <;> simp

@[simp] theorem Hw.ok_cells (h : Hw) (o : Origin) (data : List Byte) : (h.ok o data).cells = h.cells := by simp [Hw.ok]

@[simp] theorem Hw.pending_cells (h : Hw) (o : Origin) (more : List Byte) : (h.pending o more).cells = h.cells := by
  simp [Hw.pending]

@[simp] theorem Hw.deny_cells (h : Hw) (o : Origin) (op : Nat) (off : Nat) (st : Nat) :
    (h.deny o op off st).cells = h.cells := by
  simp [Hw.deny]

@[simp] theorem Hw.internalError_cells (h : Hw) (o : Origin) (op : Nat) : (h.internalError o op).cells = h.cells := by
  simp [Hw.internalError]

@[simp] theorem Hw.arm_cells (h : Hw) (relayed : Bool) : (h.arm relayed).cells = h.cells := rfl

@[simp] theorem Hw.setUnlock_cells (h : Hw) (relay : Bool) (u : Unlock) : (h.setUnlock relay u).cells = h.cells := by
  unfold Hw.setUnlock
  split <;> simp

@[simp] theorem Hw.badPacket_cells (h : Hw) (o : Origin) (pkt : List Byte) : (h.badPacket o pkt).cells = h.cells := by
  simp only [Hw.badPacket]
  (repeat' split) <;> simp

@[simp] theorem Hw.judge_cells (h : Hw) (o : Origin) : (h.judge o).cells = h.cells := by
  simp only [Hw.judge]
  (repeat' split) <;> simp

@[simp] theorem Hw.judgeDue_cells (h : Hw) : h.judgeDue.cells = h.cells := by simp [Hw.judgeDue]

@[simp] theorem Hw.abandonCore_cells (h : Hw) : h.abandonCore.cells = h.cells := rfl

@[simp] theorem Hw.abandonJobs_cells (h : Hw) (ops : List Byte) : (h.abandonJobs ops).cells = h.cells := rfl

@[simp] theorem Hw.sramCheck_cells (h : Hw) : h.sramCheck.cells = h.cells := by simp [Hw.sramCheck, apply_ite Hw.cells]

@[simp] theorem Hw.contact_cells (h : Hw) (o : Origin) (rel : Bool) (c : CmdClass) : (h.contact o rel c).cells = h.cells := by
  simp [Hw.contact, apply_ite Hw.cells]

/-! ## The sequencer -/

@[simp] theorem Hw.breach_cells (h : Hw) (k : Nat) (sd : Side) (detail : List Byte) :
    (h.breach k sd detail).cells = h.cells := by
  unfold Hw.breach
  (repeat' split) <;> simp [apply_ite Hw.cells]

@[simp] theorem Hw.vibFault_cells (h : Hw) (detail : List Byte) : (h.vibFault detail).cells = h.cells := by simp [Hw.vibFault]

@[simp] theorem Hw.notGood_cells (h : Hw) (k : Nat) : (h.notGood k).cells = h.cells := by simp [Hw.notGood]

@[simp] theorem Hw.forced_cells (h : Hw) : h.forced.cells = h.cells := by simp [Hw.forced, foldl_cells]

@[simp] theorem Hw.seqTimeout_cells (h : Hw) (low : LowSample) : (h.seqTimeout low).cells = h.cells := by simp [Hw.seqTimeout]

@[simp] theorem Hw.setGood_cells (h : Hw) (k : Nat) : (h.setGood k).cells = h.cells := by simp [Hw.setGood, apply_ite Hw.cells]

@[simp] theorem Hw.clearFault_cells (h : Hw) (o : Option Origin) : (h.clearFault o).cells = h.cells := by
  unfold Hw.clearFault
  (repeat' split) <;> simp

/-! ## The boot -/

@[simp] theorem Hw.activated_cells (h : Hw) (ok : Bool) : (h.activated ok).cells = h.cells := rfl

@[simp] theorem Hw.limpSettings_cells (h : Hw) : h.limpSettings.cells = h.cells := rfl

@[simp] theorem Hw.loadWdt_cells (h : Hw) (keepLock : Bool) : (h.loadWdt keepLock).cells = h.cells := by
  unfold Hw.loadWdt
  split <;> simp

@[simp] theorem Hw.startLink_cells (h : Hw) : h.startLink.cells = h.cells := rfl

@[simp] theorem Hw.startThermal_cells (h : Hw) (temps : List Int) : (h.startThermal temps).cells = h.cells := rfl

@[simp] theorem Hw.retest_cells (h : Hw) (b : BootSample) : (h.retest b).cells = h.cells := by
  simp [Hw.retest, foldl_cells, apply_ite Hw.cells]

@[simp] theorem Hw.calibrate_cells (h : Hw) (b : BootSample) (anew : Bool) : (h.calibrate b anew).cells = h.cells := by
  simp [Hw.calibrate, foldl_cells, apply_ite Hw.cells]

@[simp] theorem Hw.halve_cells (h : Hw) : h.halve.cells = h.cells := rfl

@[simp] theorem Hw.lodgeCheck_cells (h : Hw) : h.lodgeCheck.cells = h.cells := by
  simp [Hw.lodgeCheck, foldl_cells, apply_ite Hw.cells]

@[simp] theorem Hw.syncBreaks_cells (h : Hw) : h.syncBreaks.cells = h.cells := by
  unfold Hw.syncBreaks
  split <;> simp

@[simp] theorem Hw.resumeBreak_cells (h : Hw) : h.resumeBreak.cells = h.cells := by
  unfold Hw.resumeBreak
  split <;> simp

@[simp] theorem Hw.signAtBoot_cells (h : Hw) : h.signAtBoot.cells = h.cells := rfl

@[simp] theorem Hw.startBlocks_cells (h : Hw) : h.startBlocks.cells = h.cells := rfl

/-! ## Restarts -/

@[simp] theorem Hw.emptyCapture_cells (h : Hw) : h.emptyCapture.cells = h.cells := by simp [Hw.emptyCapture]

@[simp] theorem Hw.countReset_cells (h : Hw) : h.countReset.cells = h.cells := rfl

/-! ## The Lodge -/

@[simp] theorem Hw.raiseAlarm_cells (h : Hw) (i : Nat) : (h.raiseAlarm i).cells = h.cells := by
  unfold Hw.raiseAlarm
  split <;> simp

@[simp] theorem Hw.reachTick_cells (h : Hw) (t : Nat) : (h.reachTick t).cells = h.cells := by
  unfold Hw.reachTick
  split <;> simp

@[simp] theorem Hw.markStepped_cells (h : Hw) (old : Nat) (new : Nat) : (h.markStepped old new).cells = h.cells := by
  unfold Hw.markStepped
  split <;> simp

@[simp] theorem Hw.loseStored_cells (h : Hw) : h.loseStored.cells = h.cells := by simp [Hw.loseStored, apply_ite Hw.cells]

@[simp] theorem Hw.copyStatus_cells (h : Hw) (v : DWord) : (h.copyStatus v).cells = h.cells := by
  simp [Hw.copyStatus, apply_ite Hw.cells]

/-! ## The life cycle -/

@[simp] theorem Hw.rewind_cells (h : Hw) : h.rewind.cells = h.cells := rfl

@[simp] theorem Hw.beginSeal_cells (h : Hw) (job : Nat) : (h.beginSeal job).cells = h.cells := by simp [Hw.beginSeal]

@[simp] theorem Hw.dropSeal_cells (h : Hw) : h.dropSeal.cells = h.cells := rfl

@[simp] theorem Hw.abandonSeal_cells (h : Hw) : h.abandonSeal.cells = h.cells := by
  unfold Hw.abandonSeal
  split <;> simp

/-! ## The scrub -/

@[simp] theorem Hw.holdChans_cells (h : Hw) (cs : List Nat) : (h.holdChans cs).cells = h.cells := by
  simp [Hw.holdChans, foldl_cells, apply_ite Hw.cells]

/-! ## Insertion and the power path -/

@[simp] theorem Hw.leaveIcehouse_cells (h : Hw) : h.leaveIcehouse.cells = h.cells := by
  unfold Hw.leaveIcehouse
  split <;> simp

@[simp] theorem Hw.returnPrecharge_cells (h : Hw) : h.returnPrecharge.cells = h.cells := by
  unfold Hw.returnPrecharge
  split <;> simp

@[simp] theorem Hw.excursion_cells (h : Hw) : h.excursion.cells = h.cells := by simp [Hw.excursion, apply_ite Hw.cells]

@[simp] theorem Hw.bootPor_cells (h : Hw) : h.bootPor.cells = h.cells := by simp [Hw.bootPor]

/-! ## The link -/

@[simp] theorem Hw.requestFragment_cells (h : Hw) (f : List Byte) : (h.requestFragment f).cells = h.cells := by
  simp [Hw.requestFragment, apply_ite Hw.cells]

@[simp] theorem Hw.modPeer_cells (h : Hw) (i : Nat) (f : Peer → Peer) : (h.modPeer i f).cells = h.cells := rfl

@[simp] theorem Hw.admitJoins_cells (h : Hw) : h.admitJoins.cells = h.cells := rfl

@[simp] theorem Hw.discardFrame_cells (h : Hw) (f : List Byte) (slot : Nat) (detail : List Byte) :
    (h.discardFrame f slot detail).cells = h.cells := by
  simp [Hw.discardFrame]

@[simp] theorem Hw.takeLead_cells (h : Hw) (p : List Byte) (delayUs : Nat) : (h.takeLead p delayUs).cells = h.cells := rfl

@[simp] theorem Hw.orphan_cells (h : Hw) : h.orphan.cells = h.cells := by
  unfold Hw.orphan
  split <;> simp

@[simp] theorem Hw.joinAtLead_cells (h : Hw) (slot : Nat) (p : List Byte) : (h.joinAtLead slot p).cells = h.cells := by
  unfold Hw.joinAtLead
  split <;> simp

@[simp] theorem Hw.indexConflict_cells (h : Hw) (ty : Nat) : (h.indexConflict ty).cells = h.cells := by simp [Hw.indexConflict]

/-! ## The host bus -/

@[simp] theorem Hw.wdtCommit_cells (h : Hw) (w : Wdt) : (h.wdtCommit w).cells = h.cells := rfl

@[simp] theorem Hw.evtByte_cells (h : Hw) (a : Nat) (b : Byte) : (h.evtByte a b).cells = h.cells := by
  unfold Hw.evtByte
  split <;> simp

@[simp] theorem Hw.start_cells (h : Hw) (o : Origin) : (h.start o).cells = h.cells := by simp [Hw.start]

@[simp] theorem Hw.busError_cells (h : Hw) (o : Origin) (ptr : Nat) : (h.busError o ptr).cells = h.cells := by
  unfold Hw.busError
  split <;> simp

/-! ## Telemetry -/

@[simp] theorem Hw.takeOutputs_cells (h : Hw) (rs : List ChannelResult) (dt : Nat) :
    (h.takeOutputs rs dt).cells = h.cells := rfl

@[simp] theorem Hw.takeSupply_cells (h : Hw) : h.takeSupply.cells = h.cells := rfl

@[simp] theorem Hw.checkReference_cells (h : Hw) : h.checkReference.cells = h.cells := by
  simp [Hw.checkReference, apply_ite Hw.cells]

@[simp] theorem Hw.takePack_cells (h : Hw) : h.takePack.cells = h.cells := rfl

@[simp] theorem Hw.takeBands_cells (h : Hw) : h.takeBands.cells = h.cells := rfl

@[simp] theorem Hw.thermalFault_cells (h : Hw) (node : Nat) (detail : List Byte) :
    (h.thermalFault node detail).cells = h.cells := by
  simp [Hw.thermalFault]

@[simp] theorem Hw.sensorTrip_cells (h : Hw) : h.sensorTrip.cells = h.cells := by
  simp only [Hw.sensorTrip]
  split <;> simp

/-! ## Light load and the governor -/

@[simp] theorem Hw.markTerms_cells (h : Hw) (g : GovSample) : (h.markTerms g).cells = h.cells := rfl

@[simp] theorem Hw.shedOut_cells (h : Hw) (k : Nat) (power : Nat) : (h.shedOut k power).cells = h.cells := by
  simp [Hw.shedOut, apply_ite Hw.cells]

@[simp] theorem Hw.govCharger_cells (h : Hw) : h.govCharger.cells = h.cells := rfl

@[simp] theorem Hw.setStage_cells (h : Hw) (s : GovStage) : (h.setStage s).cells = h.cells := rfl

@[simp] theorem Hw.raiseLimit_cells (h : Hw) (p : Nat) : (h.raiseLimit p).cells = h.cells := by
  simp [Hw.raiseLimit, apply_ite Hw.cells]

@[simp] theorem Hw.holdActions_cells (h : Hw) : h.holdActions.cells = h.cells := rfl

/-! ## The rows of the store -/

@[simp] theorem Hw.writeFailure_cells (h : Hw) (key : Nat) : (h.writeFailure key).cells = h.cells := by simp [Hw.writeFailure]

@[simp] theorem Hw.retireLogAt_cells (h : Hw) (pos : Nat) : (h.retireLogAt pos).cells = h.cells := by simp [Hw.retireLogAt]

@[simp] theorem Hw.retireLog_cells (h : Hw) : h.retireLog.cells = h.cells := by simp [Hw.retireLog]

@[simp] theorem Hw.logFails_cells (h : Hw) (draft : List Byte) (seq : Nat) (sig : Bool) (bad : Bool) :
    (h.logFails draft seq sig bad).cells = h.cells := by
  unfold Hw.logFails
  split <;> simp

@[simp] theorem Hw.beginWaiting_cells (h : Hw) (w : WaitRec) : (h.beginWaiting w).cells = h.cells := by simp [Hw.beginWaiting]

@[simp] theorem Hw.serveWaiting_cells (h : Hw) : h.serveWaiting.cells = h.cells := by
  unfold Hw.serveWaiting
  (repeat' split) <;> simp

@[simp] theorem Hw.signAll_cells (h : Hw) : h.signAll.cells = h.cells := by simp [Hw.signAll, foldl_cells]

@[simp] theorem Hw.ringErased_cells (h : Hw) (r : Ring) (ok : Bool) : (h.ringErased r ok).cells = h.cells := by
  simp [Hw.ringErased, apply_ite Hw.cells]

@[simp] theorem Hw.eraseProved_cells (h : Hw) (e : Erased) (ok : Bool) : (h.eraseProved e ok).cells = h.cells := by
  unfold Hw.eraseProved
  split <;> simp

@[simp] theorem Hw.safePoint_cells (h : Hw) : h.safePoint.cells = h.cells := rfl

@[simp] theorem Hw.proveErase_cells (h : Hw) (ok : Bool) : (h.proveErase ok).cells = h.cells := by
  unfold Hw.proveErase
  split <;> simp

@[simp] theorem Hw.writeLost_cells (h : Hw) (w : StoreWrite) : (h.writeLost w).cells = h.cells := by
  unfold Hw.writeLost
  (repeat' split) <;> simp

@[simp] theorem Hw.copyFails_cells (h : Hw) (w : StoreWrite) (ws : List StoreWrite) : (h.copyFails w ws).cells = h.cells := by
  simp [Hw.copyFails, apply_ite Hw.cells]

@[simp] theorem Hw.jobFails_cells (h : Hw) (n : Option Nat) : (h.jobFails n).cells = h.cells := by
  unfold Hw.jobFails
  (repeat' split) <;> simp [apply_ite Hw.cells]

@[simp] theorem Hw.takeBack_cells (h : Hw) (v : Verify) : (h.takeBack v).cells = h.cells := by
  simp only [Hw.takeBack]
  (repeat' split) <;> simp

/-! ## Metering commands -/

@[simp] theorem Hw.ackTo_cells (h : Hw) (n : Nat) : (h.ackTo n).cells = h.cells := by simp [Hw.ackTo]

/-! ## Holdup -/

@[simp] theorem Hw.chgTo_cells (h : Hw) (st : ChgState) : (h.chgTo st).cells = h.cells := rfl

@[simp] theorem Hw.chgFault_cells (h : Hw) (reason : Nat) : (h.chgFault reason).cells = h.cells := by simp [Hw.chgFault]

@[simp] theorem Hw.chgReset_cells (h : Hw) : h.chgReset.cells = h.cells := rfl

@[simp] theorem Hw.reference_cells (h : Hw) (soc : Nat) (u : Nat) : (h.reference soc u).cells = h.cells := by
  simp [Hw.reference, apply_ite Hw.cells]

@[simp] theorem Hw.chgDone_cells (h : Hw) : h.chgDone.cells = h.cells := by simp [Hw.chgDone, apply_ite Hw.cells]

@[simp] theorem Hw.chgEvaluate_cells (h : Hw) : h.chgEvaluate.cells = h.cells := by simp [Hw.chgEvaluate, apply_ite Hw.cells]

@[simp] theorem Hw.packGone_cells (h : Hw) (bts : Bool) : (h.packGone bts).cells = h.cells := by simp [Hw.packGone]

@[simp] theorem Hw.packFound_cells (h : Hw) : h.packFound.cells = h.cells := by simp [Hw.packFound, apply_ite Hw.cells]

@[simp] theorem Hw.probed_cells (h : Hw) (p : ProbeSample) : (h.probed p).cells = h.cells := rfl

@[simp] theorem Hw.chgSettings_cells (h : Hw) (c : ChargeCfg) : (h.chgSettings c).cells = h.cells := by
  simp [Hw.chgSettings, apply_ite Hw.cells]

@[simp] theorem Hw.learnRes_cells (h : Hw) (step : Option (Nat × Nat)) : (h.learnRes step).cells = h.cells := by
  unfold Hw.learnRes
  (repeat' split) <;> simp

@[simp] theorem Hw.ocvRead_cells (h : Hw) (v : Nat) : (h.ocvRead v).1.cells = h.cells := by
  unfold Hw.ocvRead
  (repeat' split) <;> simp

/-! ## Battery commands -/

@[simp] theorem Hw.setCharger_cells (h : Hw) (c : ChargeCfg) : (h.setCharger c).cells = h.cells := by
  simp [Hw.setCharger, apply_ite Hw.cells]

/-! ## Store commands -/

@[simp] theorem Hw.bulkChecks_cells (h : Hw) (region : Nat) (off : Nat) (n : Nat) :
    (h.bulkChecks region off n).cells = h.cells := by
  simp [Hw.bulkChecks, foldl_cells, apply_ite Hw.cells]

/-! ## Blocks -/

@[simp] theorem Hw.captureSlot_cells (h : Hw) (t : DWord) (n : Nat) : (h.captureSlot t n).cells = h.cells := by
  simp [Hw.captureSlot, apply_ite Hw.cells]

@[simp] theorem Hw.captureSlots_cells (h : Hw) (t : DWord) : (h.captureSlots t).cells = h.cells := by
  simp [Hw.captureSlots, foldl_cells, apply_ite Hw.cells]

@[simp] theorem Hw.checkpoints_cells (h : Hw) (old : List Chan) : (h.checkpoints old).cells = h.cells := by
  simp [Hw.checkpoints, foldl_cells, apply_ite Hw.cells]

@[simp] theorem Hw.calChecks_cells (h : Hw) : h.calChecks.cells = h.cells := rfl

@[simp] theorem Hw.compareChan_cells (h : Hw) (c : Nat) : (h.compareChan c).cells = h.cells := by
  simp only [Hw.compareChan]
  (repeat' split) <;> simp

@[simp] theorem Hw.recheckCal_cells (h : Hw) (c : Nat) : (h.recheckCal c).cells = h.cells := by
  simp [Hw.recheckCal, apply_ite Hw.cells]

/-! ## Diagnostics -/

@[simp] theorem Hw.erasedCheck_cells (h : Hw) (region : Nat) (q : Nat) : (h.erasedCheck region q).1.cells = h.cells := by
  simp [Hw.erasedCheck]

@[simp] theorem Hw.compareRec_cells (h : Hw) (region : Nat) (off : Nat) (r : Rec) :
    (h.compareRec region off r).1.cells = h.cells := by
  simp only [Hw.compareRec]
  (repeat' split) <;> simp

@[simp] theorem Hw.diagLost_cells (h : Hw) : h.diagLost.cells = h.cells := rfl

/-! ## Life-cycle commands -/

@[simp] theorem Hw.stage_cells (h : Hw) (offset : Nat) (data : List Byte) : (h.stage offset data).cells = h.cells := rfl

@[simp] theorem Hw.activateFw_cells (h : Hw) (now : Bool) : (h.activateFw now).cells = h.cells := rfl

/-! ## The voltage link -/

@[simp] theorem Hw.vclAnswer_cells (h : Hw) (r : Resp) (k : Nat) (data : Half) : (h.vclAnswer r k data).cells = h.cells := rfl

@[simp] theorem Hw.vclBad_cells (h : Hw) (src : Nat) (access : Nat) (op : Nat) (k : Nat) (detail : List Byte) :
    (h.vclBad src access op k detail).cells = h.cells := by
  simp [Hw.vclBad]

@[simp] theorem Hw.retarget_cells (h : Hw) (k : Nat) (code : Nat) (cls : Nat) : (h.retarget k code cls).cells = h.cells := by
  unfold Hw.retarget
  split <;> simp

@[simp] theorem Hw.rampDone_cells (h : Hw) (k : Nat) : (h.rampDone k).cells = h.cells := by
  unfold Hw.rampDone
  split <;> simp

@[simp] theorem Hw.codeStep_cells (h : Hw) (k : Nat) : (h.codeStep k).cells = h.cells := by
  simp [Hw.codeStep, apply_ite Hw.cells]

@[simp] theorem Hw.sinkHold_cells (h : Hw) (k : Nat) (paused : Bool) : (h.sinkHold k paused).cells = h.cells := by
  simp [Hw.sinkHold, apply_ite Hw.cells]

@[simp] theorem Hw.vclRead_cells (h : Hw) (k : Nat) (data : Half) : (h.vclRead k data).cells = h.cells := rfl

/-! ## Ports -/

@[simp] theorem Hw.beginPrecharge_cells (h : Hw) (p : Nat) : (h.beginPrecharge p).cells = h.cells := rfl

@[simp] theorem Hw.askPrecharge_cells (h : Hw) (p : Nat) : (h.askPrecharge p).cells = h.cells := by
  unfold Hw.askPrecharge
  split <;> simp

@[simp] theorem Hw.failRead_cells (h : Hw) (p : Nat) : (h.failRead p).cells = h.cells := by simp [Hw.failRead]

@[simp] theorem Hw.accError_cells (h : Hw) : h.accError.cells = h.cells := by simp [Hw.accError]

@[simp] theorem Hw.acceptBoard_cells (h : Hw) (p : Nat) : (h.acceptBoard p).cells = h.cells := by simp [Hw.acceptBoard]

@[simp] theorem Hw.refuseBoard_cells (h : Hw) (p : Nat) (reason : Nat) : (h.refuseBoard p reason).cells = h.cells := by
  simp [Hw.refuseBoard]

@[simp] theorem Hw.descAbsent_cells (h : Hw) (p : Nat) : (h.descAbsent p).cells = h.cells := by
  unfold Hw.descAbsent
  split <;> simp

@[simp] theorem Hw.judgeDesc_cells (h : Hw) (p : Nat) (d : List Byte) : (h.judgeDesc p d).cells = h.cells := by
  simp [Hw.judgeDesc, apply_ite Hw.cells]

@[simp] theorem Hw.latchPort_cells (h : Hw) (p : Nat) (reason : Nat) : (h.latchPort p reason).cells = h.cells := by
  simp [Hw.latchPort]

@[simp] theorem Hw.reseat_cells (h : Hw) (p : Nat) : (h.reseat p).cells = h.cells := rfl

@[simp] theorem Hw.busTaken_cells (h : Hw) : h.busTaken.cells = h.cells := rfl

@[simp] theorem Hw.sclEpisode_cells (h : Hw) : h.sclEpisode.cells = h.cells := by
  unfold Hw.sclEpisode
  split <;> simp

/-! ## Power commands -/

@[simp] theorem Hw.pendingJob_cells (h : Hw) (o : Origin) (n : Nat) : (h.pendingJob o n).cells = h.cells := by
  simp [Hw.pendingJob]

@[simp] theorem Hw.attachJob_cells (h : Hw) (o : Origin) (op : Byte) : (h.attachJob o op).cells = h.cells := by
  unfold Hw.attachJob
  split <;> simp

@[simp] theorem Hw.setTarget_cells (h : Hw) (k : Nat) (code : Nat) : (h.setTarget k code).cells = h.cells := by
  simp [Hw.setTarget, apply_ite Hw.cells]

@[simp] theorem Hw.forget_cells (h : Hw) (k : Nat) : (h.forget k).cells = h.cells := rfl

@[simp] theorem Hw.startMove_cells (h : Hw) (p : Nat) (n : Nat) : (h.startMove p n).cells = h.cells := by
  simp only [Hw.startMove]
  split <;> simp

@[simp] theorem Hw.setIlim_cells (h : Hw) (p : Nat) (code : Nat) : (h.setIlim p code).cells = h.cells := rfl

@[simp] theorem Hw.setPort_cells (h : Hw) (p : Nat) (on : Bool) (code : Nat) : (h.setPort p on code).cells = h.cells := by
  simp [Hw.setPort, apply_ite Hw.cells]

/-! ## Engines -/

@[simp] theorem Hw.thermStages_cells (h : Hw) : h.thermStages.cells = h.cells := by simp [Hw.thermStages]

@[simp] theorem Hw.renameTrip_cells (h : Hw) (node : Nat) (trip : Nat × Nat) : (h.renameTrip node trip).cells = h.cells := rfl

@[simp] theorem Hw.fetch_cells (h : Hw) (c : Nat) : (h.fetch c).cells = h.cells := by
  unfold Hw.fetch
  split <;> simp

@[simp] theorem Hw.dropPacket_cells (h : Hw) (reply : Bool) : (h.dropPacket reply).cells = h.cells := by simp [Hw.dropPacket]

@[simp] theorem Hw.descDone_cells (h : Hw) (c : Nat) (d : Desc) : (h.descDone c d).cells = h.cells := by
  unfold Hw.descDone
  (repeat' split) <;> simp

end Sys2Proof.Machine
end

section
/-! SUPPORT. The frames of the operations that fold over parts of the hardware, take a function, or are built of such. -/

namespace Sys2Proof.Machine

@[simp] theorem Hw.passRecs_cells (h : Hw) (ecc region key : Nat) (rs : List Rec) :
    (h.passRecs ecc region key rs).1.cells = h.cells := by
  unfold Hw.passRecs
  exact foldl_fst_cells _ _ _ fun t r => by dsimp only; split <;> simp

@[simp] theorem Hw.readKey_cells (h : Hw) (ecc key : Nat) : (h.readKey ecc key).1.cells = h.cells := by
  simp [Hw.readKey]

@[simp] theorem Hw.dropWrites_cells (h : Hw) (ws : List StoreWrite) : (h.dropWrites ws).cells = h.cells := by
  unfold Hw.dropWrites
  exact foldl_cells _ _ _ fun h w => by split <;> simp

@[simp] theorem Hw.cutWrites_cells (h : Hw) : h.cutWrites.cells = h.cells := by
  unfold Hw.cutWrites
  split
  · rfl
  · simp only [Hw.cells_mk, Buffers.mk_cells]
    split <;> simp

@[simp] theorem Hw.hardCut_cells (h : Hw) : h.hardCut.cells = h.cells := by
  unfold Hw.hardCut
  split
  · rfl
  · simp only [Hw.cells_mk, Buffers.mk_cells]
    (repeat' split) <;> simp

@[simp] theorem Hw.serveClaims_cells (h : Hw) (claims : BitVec 4) (all : Bool) (add : Hw → Nat → Hw)
    (hadd : ∀ h k, (add h k).cells = h.cells) : (h.serveClaims claims all add).cells = h.cells := by
  unfold Hw.serveClaims
  exact foldl_cells _ _ _ fun h k => by simp [apply_ite Hw.cells, hadd]

@[simp] theorem Hw.substitute_cells (h : Hw) (k : Nat) : (h.substitute k).cells = h.cells := by
  unfold Hw.substitute
  dsimp only
  split
  all_goals
    simp only [Hw.raise_cells, Hw.modRail_cells]
    exact foldl_cells _ _ _ fun h _ => by (repeat' split) <;> simp

@[simp] theorem Hw.fillShort_cells (h : Hw) : h.fillShort.cells = h.cells := by
  unfold Hw.fillShort
  exact foldl_cells _ _ _ fun h k => by (repeat' split) <;> simp

@[simp] theorem Hw.startPhases_cells (h : Hw) (k : Nat) : (h.startPhases k).cells = h.cells := by
  unfold Hw.startPhases
  refine (foldl_cells _ _ _ fun h _ => ?_).trans (Hw.substitute_cells ..)
  dsimp only
  (repeat' split) <;> simp

@[simp] theorem Hw.lostPhase_cells (h : Hw) (noPhase : List RailErr) (phase : Nat) :
    (h.lostPhase noPhase phase).cells = h.cells := by
  simp only [Hw.lostPhase, Hw.react_cells]
  split <;> simp [foldl_cells]

@[simp] theorem Hw.startRamp_cells (h : Hw) (k : Nat) (inStep : Bool) : (h.startRamp k inStep).cells = h.cells := by
  unfold Hw.startRamp
  dsimp only
  (repeat' split) <;> simp

@[simp] theorem Hw.cabStart_cells (n : Nat) (h : Hw) : (Hw.cabStart n h).cells = h.cells := by
  induction n generalizing h with
  | zero => rfl
  | succ n ih =>
    unfold Hw.cabStart
    (repeat' split) <;> simp [ih, apply_ite Hw.cells]

@[simp] theorem Hw.lastWord_cells (h : Hw) (trigger : Nat) : (h.lastWord trigger).cells = h.cells := by
  unfold Hw.lastWord
  split
  · simp [foldl_cells, apply_ite Hw.cells]
  · rfl

@[simp] theorem Hw.turnOn_cells (h : Hw) (k : Nat) (inStep : Bool) : (h.turnOn k inStep).cells = h.cells := by
  unfold Hw.turnOn
  (repeat' split) <;> simp

@[simp] theorem Hw.cabNext_cells (h : Hw) : h.cabNext.cells = h.cells := by
  unfold Hw.cabNext
  (repeat' split) <;> simp

@[simp] theorem Hw.cabBegin_cells (h : Hw) (down : Bool) : (h.cabBegin down).cells = h.cells := by
  unfold Hw.cabBegin
  split <;> simp

@[simp] theorem Hw.beginStep_cells (h : Hw) : h.beginStep.cells = h.cells := by
  simp only [Hw.beginStep, Hw.evalPgood_cells]
  rw [foldl_cells _ _ _ (fun h k => Hw.turnOn_cells h k true)]
  split <;> simp [foldl_cells]

@[simp] theorem Hw.startUp_cells (h : Hw) (job : Option Nat) : (h.startUp job).cells = h.cells := by
  simp only [Hw.startUp, Hw.beginStep_cells, Hw.cabBegin_cells, Hw.cells_mk, Buffers.mk_cells]
  split <;> rfl

@[simp] theorem Hw.tryPend_cells (h : Hw) : h.tryPend.cells = h.cells := by
  unfold Hw.tryPend
  split <;> simp

@[simp] theorem Hw.onRequest_cells (h : Hw) (job : Option Nat) : (h.onRequest job).cells = h.cells := by
  unfold Hw.onRequest
  (repeat' split) <;> simp

@[simp] theorem Hw.startDown_cells (h : Hw) (a : Nat) (job : Option Nat) : (h.startDown a job).cells = h.cells := by
  simp [Hw.startDown]

@[simp] theorem Hw.offRequest_cells (h : Hw) (job : Option Nat) : (h.offRequest job).cells = h.cells := by
  simp only [Hw.offRequest]
  split <;> simp

@[simp] theorem Hw.autostart_cells (h : Hw) : h.autostart.cells = h.cells := by
  unfold Hw.autostart
  split <;> simp

@[simp] theorem Hw.serviceStep_cells (h : Hw) : h.serviceStep.cells = h.cells := by
  simp only [Hw.serviceStep]
  split <;> simp

@[simp] theorem Hw.armStep_cells (h : Hw) : h.armStep.cells = h.cells := by
  unfold Hw.armStep
  exact foldl_cells _ _ _ fun h k => Hw.modOut_cells ..

@[simp] theorem Hw.limpLeft_cells (h : Hw) : h.limpLeft.cells = h.cells := by
  simp [Hw.limpLeft]

@[simp] theorem Hw.leaveLimp_cells (h : Hw) : h.leaveLimp.cells = h.cells := by
  unfold Hw.leaveLimp
  split <;> simp

@[simp] theorem Hw.hostRestart_cells (h : Hw) : h.hostRestart.cells = h.cells := by
  simp only [Hw.hostRestart]
  (repeat' split) <;> simp

@[simp] theorem Hw.limpEntry_cells (h : Hw) : h.limpEntry.cells = h.cells := by
  simp only [Hw.limpEntry]
  (repeat' split) <;> simp

@[simp] theorem Hw.askRestart_cells (h : Hw) (k : RestartKind) : (h.askRestart k).cells = h.cells := by
  unfold Hw.askRestart
  split <;> simp

@[simp] theorem Hw.served_cells (h : Hw) : h.served.cells = h.cells := by
  simp [Hw.served]

@[simp] theorem Hw.setAside_cells (h : Hw) : h.setAside.cells = h.cells := by
  unfold Hw.setAside
  (repeat' split) <;> simp

@[simp] theorem Hw.vinOutputsOff_cells (h : Hw) : h.vinOutputsOff.cells = h.cells := by
  simp [Hw.vinOutputsOff, -Hw.turnOff_proto]

@[simp] theorem Hw.startHandOver_cells (h : Hw) : h.startHandOver.cells = h.cells := by
  simp [Hw.startHandOver]

@[simp] theorem Hw.wordLost_cells (h : Hw) (w : SramWord) : (h.wordLost w).cells = h.cells := by
  unfold Hw.wordLost
  split <;> simp

@[simp] theorem Hw.eccFound_cells (h : Hw) (f : EccFinding) (inj : Bool) : (h.eccFound f inj).cells = h.cells := by
  simp only [Hw.eccFound]
  (repeat' split) <;> simp

@[simp] theorem Hw.exitScrub_cells (h : Hw) (fs : List EccFinding) : (h.exitScrub fs).cells = h.cells := by
  unfold Hw.exitScrub
  split <;> simp [foldl_cells]

@[simp] theorem Hw.scrubInjected_cells (h : Hw) (id : Nat) : (h.scrubInjected id).cells = h.cells := by
  unfold Hw.scrubInjected
  exact foldl_cells _ _ _ fun h _ => by simp

@[simp] theorem Hw.startVh_cells (h : Hw) (i : Nat) : (h.startVh i).cells = h.cells := by
  simp [Hw.startVh]

@[simp] theorem Hw.startRelay_cells (h : Hw) : h.startRelay.cells = h.cells := by
  unfold Hw.startRelay
  extract_lets one
  have hone (h : Hw) : (one h).cells = h.cells := by
    simp only [one]
    (repeat' split) <;> simp
  exact (hone _).trans (hone h)

@[simp] theorem Hw.relayTimeout_cells (h : Hw) : h.relayTimeout.cells = h.cells := by
  unfold Hw.relayTimeout
  split <;> simp

@[simp] theorem Hw.replyFragment_cells (h : Hw) (f : List Byte) : (h.replyFragment f).cells = h.cells := by
  unfold Hw.replyFragment
  (repeat' split) <;> simp [apply_ite Hw.cells]

@[simp] theorem Hw.dropFollower_cells (h : Hw) (i : Nat) : (h.dropFollower i).cells = h.cells := by
  simp only [Hw.dropFollower]
  (repeat' split) <;> simp

@[simp] theorem Hw.leadCycle_cells (h : Hw) : h.leadCycle.cells = h.cells := by
  unfold Hw.leadCycle
  split <;> simp

@[simp] theorem Hw.actOnCommand_cells (h : Hw) : h.actOnCommand.cells = h.cells := by
  simp only [Hw.actOnCommand]
  (repeat' split) <;> simp

@[simp] theorem Hw.statusAtLead_cells (h : Hw) (slot : Nat) (p : List Byte) : (h.statusAtLead slot p).cells = h.cells := by
  unfold Hw.statusAtLead
  split <;> simp [apply_ite Hw.cells]

@[simp] theorem Hw.wdtExpire_cells (h : Hw) : h.wdtExpire.cells = h.cells := by
  unfold Hw.wdtExpire
  split <;> simp

@[simp] theorem Hw.wdtViolation_cells (h : Hw) : h.wdtViolation.cells = h.cells := by
  simp [Hw.wdtViolation]

@[simp] theorem Hw.wdtService_cells (h : Hw) (b : Byte) : (h.wdtService b).cells = h.cells := by
  unfold Hw.wdtService
  (repeat' split) <;> simp

@[simp] theorem Hw.submit_cells (h : Hw) (o : Origin) (tag : Byte) : (h.submit o tag).cells = h.cells := by
  simp only [Hw.submit]
  (repeat' split) <;> simp

theorem Hw.derate_cells {h g' : Hw} {g : GovSample} {b : Nat} (hd : h.derate g b = some g') : g'.cells = h.cells := by
  unfold Hw.derate at hd
  dsimp only at hd
  (repeat' split at hd) <;> simp_all
  subst hd
  simp

@[simp] theorem Hw.escalate_cells (h : Hw) (g : GovSample) (b : Nat) : (h.escalate g b).cells = h.cells := by
  simp only [Hw.escalate]
  split
  case h_4 =>
    split
    · next hd => exact (Hw.derate_cells hd).trans (by simp)
    · split <;> simp
  all_goals (repeat' split) <;> simp

@[simp] theorem Hw.restoreOut_cells (h : Hw) (k : Nat) : (h.restoreOut k).cells = h.cells := by
  simp only [Hw.restoreOut]
  split <;> simp

@[simp] theorem Hw.release_cells (h : Hw) (g : GovSample) (b : Nat) : (h.release g b).cells = h.cells := by
  simp only [Hw.release]
  (repeat' split) <;> simp

@[simp] theorem Hw.govern_cells (h : Hw) (g : GovSample) : (h.govern g).cells = h.cells := by
  unfold Hw.govern
  (repeat' split) <;> simp [apply_ite Hw.cells]

@[simp] theorem Hw.compareRecs_cells (h : Hw) (region off : Nat) (rs : List Rec) :
    (h.compareRecs region off rs).1.cells = h.cells := by
  induction rs generalizing h off with
  | nil => rfl
  | cons r rs ih =>
    unfold Hw.compareRecs
    dsimp only
    split <;> simp [ih]

@[simp] theorem Hw.copyCompare_cells (h : Hw) (region q : Nat) : (h.copyCompare region q).1.cells = h.cells := by
  simp [Hw.copyCompare]

@[simp] theorem Hw.diagSector_cells (h : Hw) : h.diagSector.cells = h.cells := by
  simp only [Hw.diagSector]
  (repeat' split) <;> simp

@[simp] theorem Hw.passEntries_cells (h : Hw) (es : List FaultEntry) : (h.passEntries es).1.cells = h.cells := by
  unfold Hw.passEntries
  exact foldl_fst_cells _ _ _ fun t e => Hw.take_cells ..

@[simp] theorem Hw.switch_cells (h : Hw) (k : Nat) (on : Bool) : (h.switch k on).cells = h.cells := by
  simp only [Hw.switch]
  (repeat' split) <;> simp

@[simp] theorem Hw.vclRequest_cells (h : Hw) (op : BitVec 4) (rail : BitVec 2) (tog : Bool) (payload : Half) (crc : BitVec 4)
    (reserved : Bool) (body : Hw → Nat → Hw) (hbody : ∀ h k, (body h k).cells = h.cells) :
    (h.vclRequest op rail tog payload crc reserved body).cells = h.cells := by
  simp only [Hw.vclRequest]
  (repeat' split) <;> simp [hbody]

@[simp] theorem Hw.vclCarry_cells (h : Hw) (op k : Nat) (tog : Bool) (payload data : Half) (act : Hw → Hw)
    (hact : ∀ h, (act h).cells = h.cells) : (h.vclCarry op k tog payload data act).cells = h.cells := by
  unfold Hw.vclCarry
  (repeat' split) <;> simp [hact]

@[simp] theorem Hw.finishCal_cells (h : Hw) : h.finishCal.cells = h.cells := by
  simp only [Hw.finishCal]
  (repeat' split) <;> simp

end Sys2Proof.Machine
end

section
/-! SUPPORT. The operations that write the addressed buffers keep them in canonical form. -/

namespace Sys2Proof.Machine

/-- The buffers of a view are in canonical form. -/
def Buffers.Ok (b : Buffers) : Prop :=
  Cells.wf 0 b.aCmd = true ∧ Cells.wf 0 b.aRep = true ∧ Cells.wf 0 b.vCmd = true ∧ Cells.wf 0 b.vRep = true ∧
    Cells.wf 0xFF b.staging = true ∧ Cells.wf 0 b.sram = true ∧ Cells.wf 0 b.retained = true

/-- Two firmware slots are in canonical form. -/
def FwSlot.pairOk (a b : FwSlot) : Prop := Cells.wf 0xFF a.bytes = true ∧ Cells.wf 0xFF b.bytes = true

/-- The firmware slots are in canonical form. -/
def Fw.Ok (f : Fw) : Prop := FwSlot.pairOk f.slotA f.slotB

@[simp] theorem Fw.ok_mk (a b : FwSlot) (runB stagedValid activatePending rollback trialRun chunk programming) :
    (Fw.mk a b runB stagedValid activatePending rollback trialRun chunk programming).Ok ↔ FwSlot.pairOk a b := Iff.rfl

@[simp] theorem Fw.pairOk_slots (f : Fw) : FwSlot.pairOk f.slotA f.slotB ↔ f.Ok := Iff.rfl

theorem Fw.ok_setSlot {f : Fw} (hf : f.Ok) (b : Bool) {x : FwSlot} (hx : Cells.wf 0xFF x.bytes = true) : (f.setSlot b x).Ok := by
  obtain ⟨ha, hb⟩ := hf
  cases b
  · exact ⟨hx, hb⟩
  · exact ⟨ha, hx⟩

theorem Fw.slot_wf {f : Fw} (hf : f.Ok) (b : Bool) : Cells.wf 0xFF (f.slot b).bytes = true := by
  obtain ⟨ha, hb⟩ := hf
  cases b
  · exact ha
  · exact hb

theorem Fw.begin_ok {f : Fw} (hf : f.Ok) (b : Bool) : (f.begin b).Ok := by
  simp only [Fw.begin]
  split
  · exact Fw.ok_setSlot hf b (Fw.slot_wf hf b)
  · exact hf

theorem Fw.unstage_ok {f : Fw} (hf : f.Ok) : f.unstage.Ok := by
  unfold Fw.unstage
  split
  · exact Fw.ok_setSlot hf _ (Fw.slot_wf hf _)
  · exact hf

theorem Fw.start_ok {f g : Fw} (hf : f.Ok) (hs : f.start = some g) : g.Ok := by
  simp only [Fw.start] at hs
  split at hs
  · cases hs
    exact Fw.begin_ok hf _
  · cases hs
    exact Fw.begin_ok hf _
  · split at hs <;> cases hs
    · exact Fw.begin_ok (Fw.begin_ok hf _) _
    · exact Fw.begin_ok (Fw.begin_ok hf _) _

/-- All addressed buffers are in canonical form. -/
@[simp] abbrev Hw.Canonical (h : Hw) : Prop := h.cells.Ok ∧ h.fw.Ok

theorem Hw.buffersOk_iff (h : Hw) : h.buffersOk = true ↔ h.Canonical := by
  simp only [Hw.buffersOk, Bool.and_eq_true, Hw.Canonical, Buffers.Ok, Hw.cells, Fw.Ok, FwSlot.pairOk]
  tauto

/-! ## Power-off and the loss of a supply -/

@[simp] theorem Hw.mainOff_canonical {h : Hw} (hk : h.Canonical) : h.mainOff.Canonical := by
  simp [Hw.mainOff, hk.1, hk.2]

@[simp] theorem Hw.standbyOff_canonical {h : Hw} (hk : h.Canonical) : h.standbyOff.Canonical := by
  simp [Hw.standbyOff, hk.1, hk.2]

@[simp] theorem Hw.standbyEntry_canonical {h : Hw} (hk : h.Canonical) (wake : Byte) : (h.standbyEntry wake).Canonical := by
  simp only [Hw.standbyEntry]
  (repeat' split) <;> simp [hk.1, hk.2]

@[simp] theorem Hw.tryStandby_canonical {h : Hw} (hk : h.Canonical) : h.tryStandby.Canonical := by
  simp only [Hw.tryStandby]
  (repeat' split) <;> simp [hk.1, hk.2]

@[simp] theorem Hw.downDone_canonical {h : Hw} (hk : h.Canonical) : h.downDone.Canonical := by
  simp only [Hw.downDone]
  (repeat' split) <;> simp [foldl_cells, foldl_fw', hk.1, hk.2]

@[simp] theorem Hw.finishStep_canonical {h : Hw} (hk : h.Canonical) : h.finishStep.Canonical := by
  simp only [Hw.finishStep]
  (repeat' split) <;> simp [hk.1, hk.2]

@[simp] theorem Hw.toWaitVin_canonical {h : Hw} (hk : h.Canonical) (cause : Nat) : (h.toWaitVin cause).Canonical := by
  simp [Hw.toWaitVin, hk.1, hk.2]

@[simp] theorem Hw.lossFault_canonical {h : Hw} (hk : h.Canonical) (trigger cause : Nat) :
    (h.lossFault trigger cause).Canonical := by
  simp only [Hw.lossFault]
  (repeat' split) <;> simp [hk.1, hk.2]

@[simp] theorem Hw.vinLost_canonical {h : Hw} (hk : h.Canonical) : h.vinLost.Canonical := by
  simp only [Hw.vinLost]
  (repeat' split) <;> simp [hk.1, hk.2]

@[simp] theorem Hw.vinFailed_canonical {h : Hw} (hk : h.Canonical) : h.vinFailed.Canonical := by
  simp only [Hw.vinFailed]
  (repeat' split) <;> simp [hk.1, hk.2]

@[simp] theorem Hw.forcedVin_canonical {h : Hw} (hk : h.Canonical) : h.forcedVin.Canonical := by
  simp only [Hw.forcedVin]
  (repeat' split) <;> simp [hk.1, hk.2]

@[simp] theorem Hw.supplyLost_canonical {h : Hw} (hk : h.Canonical) (trigger cause : Nat) :
    (h.supplyLost trigger cause).Canonical := by
  simp only [Hw.supplyLost]
  (repeat' split) <;> simp [hk.1, hk.2]

@[simp] theorem Hw.packLost_canonical {h : Hw} (hk : h.Canonical) : h.packLost.Canonical := by
  simp only [Hw.packLost]
  (repeat' split) <;> simp [hk.1, hk.2]

/-! ## Starts and resets -/

/-- An empty staging buffer. -/
theorem Hw.ok_emptyStaging {h : Hw} (hk : h.cells.Ok) : Buffers.Ok { h.cells with staging := [] } := by
  obtain ⟨hac, har, hvc, hvr, -, hs, hr⟩ := hk
  exact ⟨hac, har, hvc, hvr, rfl, hs, hr⟩

@[simp] theorem Hw.applyImage_canonical {h : Hw} (hk : h.Canonical) : h.applyImage.Canonical :=
  ⟨(Hw.ok_emptyStaging hk.1 :), hk.2⟩

@[simp] theorem Hw.commitImage_canonical {h : Hw} (hk : h.Canonical) (bytes : List Byte) (i : Image) (crc : Word) :
    (h.commitImage bytes i crc).Canonical :=
  ⟨(Hw.ok_emptyStaging hk.1 :), hk.2⟩

@[simp] theorem Hw.porClear_canonical {h : Hw} (hk : h.Canonical) : h.porClear.Canonical :=
  ⟨⟨rfl, rfl, rfl, rfl, rfl, rfl, rfl⟩, hk.2⟩

@[simp] theorem Hw.loadImage_canonical {h : Hw} (hk : h.Canonical) : h.loadImage.Canonical := by
  simp [Hw.loadImage, hk.1, hk.2]

/-- The exit from STANDBY wipes working SRAM and the staging buffer. -/
@[simp] theorem Hw.exitStandby_canonical {h : Hw} (hk : h.Canonical) : h.exitStandby.Canonical := by
  obtain ⟨⟨hac, har, hvc, hvr, -, -, hr⟩, hf⟩ := hk
  simp only [Hw.Canonical, Hw.exitStandby, Hw.startAdc_cells, Hw.startMetro_cells, Hw.revert_cells, Hw.startAdc_fw,
    Hw.startMetro_fw, Hw.revert_fw]
  exact ⟨⟨hac, har, hvc, hvr, rfl, rfl, hr⟩, hf⟩

@[simp] theorem Hw.mainUp_canonical {h : Hw} (hk : h.Canonical) : h.mainUp.Canonical := by
  simp [Hw.mainUp, hk.1, hk.2]

theorem Hw.bootFw_ok {h : Hw} (hf : h.fw.Ok) {f : Fw} (hb : h.bootFw = some f) : f.Ok := by
  unfold Hw.bootFw at hb
  split at hb
  · cases hb
  · exact Fw.start_ok hf hb

@[simp] theorem Hw.startCore_canonical {h : Hw} (hk : h.Canonical) : h.startCore.Canonical := by
  unfold Hw.startCore
  split
  · next f hf => exact ⟨hk.1, Hw.bootFw_ok hk.2 hf⟩
  · simp [hk.1, hk.2]

@[simp] theorem Hw.activated_canonical {h : Hw} (hk : h.Canonical) (ok : Bool) : (h.activated ok).Canonical := by
  refine ⟨by simp [hk.1], ?_⟩
  simp only [Hw.activated]
  refine Fw.ok_setSlot hk.2 _ ?_
  split <;> exact Fw.slot_wf hk.2 _

@[simp] theorem Hw.activateFw_canonical {h : Hw} (hk : h.Canonical) (now : Bool) : (h.activateFw now).Canonical :=
  ⟨hk.1, Fw.ok_setSlot hk.2 _ (Fw.slot_wf hk.2 _)⟩

/-- A core reset empties the windows and the staging buffer and wipes working SRAM. -/
@[simp] theorem Hw.coreClear_canonical {h : Hw} (hk : h.Canonical) : h.coreClear.Canonical := by
  obtain ⟨⟨-, -, -, -, -, -, hr⟩, hf⟩ := hk
  refine ⟨⟨rfl, rfl, rfl, rfl, rfl, rfl, hr⟩, ?_⟩
  simp only [Hw.coreClear]
  split
  · exact Fw.unstage_ok hf
  · exact hf

@[simp] theorem Hw.coreBoot_canonical {h : Hw} (hk : h.Canonical) (activation : Bool) :
    (h.coreBoot activation).Canonical := by
  simp only [Hw.coreBoot]
  split
  · split
    · next f hf =>
      have hok : f.Ok := by
        split at hf
        · exact Hw.bootFw_ok (by simp [hk.2]) hf
        · cases hf
      simp [hk.1, hok]
    · simp [hk.1, hk.2]
  · generalize hg : (if activation = true then h else h.countReset).lodgeCheck = g
    have hgk : g.Canonical := by
      rw [← hg]
      split <;> simp [hk.1, hk.2]
    split <;> simp [hgk.1, hgk.2]

@[simp] theorem Hw.mainReset_canonical {h : Hw} (hk : h.Canonical) (rstn : Bool) : (h.mainReset rstn).Canonical := by
  unfold Hw.mainReset
  extract_lets g0 g _ _ _ _ _ _ _ _ _ _ _ _ _ _ g1 g2
  have hg0 : g0.Canonical := by simp [g0, hk.1, hk.2]
  have hg : g.Canonical := by
    simp only [g]
    split
    · exact Hw.activated_canonical hg0 true
    · exact hg0
  obtain ⟨⟨-, -, -, -, -, -, hr⟩, hf⟩ := hg
  have hg1 : g1.Canonical := ⟨⟨rfl, rfl, rfl, rfl, rfl, rfl, hr⟩, hf⟩
  have hg2 : g2.Canonical := by simp [g2, hg1.1, hg1.2]
  split
  · simp [hg2.1, hg2.2]
  · exact hg2

/-! ## The Lodge's time -/

@[simp] theorem Hw.fireAlarm_canonical {h : Hw} (hk : h.Canonical) (i : Nat) (skipped : Bool) :
    (h.fireAlarm i skipped).Canonical := by
  simp only [Hw.fireAlarm]
  (repeat' split) <;> simp [hk.1, hk.2]

theorem foldl_canonical {α : Type} (f : Hw → α → Hw) (l : List α) {h : Hw} (hk : h.Canonical)
    (hf : ∀ h x, h.Canonical → (f h x).Canonical) : (l.foldl f h).Canonical := by
  induction l generalizing h with
  | nil => exact hk
  | cons x r ih => exact ih (hf h x hk)

@[simp] theorem Hw.stepAlarms_canonical {h : Hw} (hk : h.Canonical) (new : Nat) : (h.stepAlarms new).Canonical := by
  unfold Hw.stepAlarms
  refine foldl_canonical _ _ hk fun h i hk => ?_
  dsimp only
  split
  · exact Hw.fireAlarm_canonical hk i _
  · exact hk

@[simp] theorem Hw.stepTime_canonical {h : Hw} (hk : h.Canonical) (new : Nat) (st : TimeStatus) (source : Nat) (sync : Bool) :
    (h.stepTime new st source sync).Canonical := by
  simp [Hw.stepTime, hk.1, hk.2]

@[simp] theorem Hw.copyLead_canonical {h : Hw} (hk : h.Canonical) (v : DWord) (us : Nat) : (h.copyLead v us).Canonical := by
  simp [Hw.copyLead, hk.1, hk.2]

@[simp] theorem Hw.copyLeadRecorded_canonical {h : Hw} (hk : h.Canonical) (v : DWord) (us : Nat) :
    (h.copyLeadRecorded v us).Canonical := by
  simp only [Hw.copyLeadRecorded]
  (repeat' split) <;> simp [hk.1, hk.2]

@[simp] theorem Hw.timeAtAdmission_canonical {h : Hw} (hk : h.Canonical) (v : DWord) (us : Nat) :
    (h.timeAtAdmission v us).Canonical := by
  simp only [Hw.timeAtAdmission]
  (repeat' split) <;> simp [hk.1, hk.2]

@[simp] theorem Hw.compareTime_canonical {h : Hw} (hk : h.Canonical) : h.compareTime.Canonical := by
  simp only [Hw.compareTime]
  (repeat' split) <;> simp [hk.1, hk.2]

/-! ## The life cycle -/

/-- The wipe of retained SRAM. -/
theorem Hw.ok_emptyRetained {h : Hw} (hk : h.cells.Ok) : Buffers.Ok { h.cells with retained := [] } := by
  obtain ⟨hac, har, hvc, hvr, ht, hs, -⟩ := hk
  exact ⟨hac, har, hvc, hvr, ht, hs, rfl⟩

@[simp] theorem Hw.lifeChange_canonical {h : Hw} (hk : h.Canonical) : h.lifeChange.Canonical := by
  unfold Hw.lifeChange
  extract_lets g0 g
  have hg : g.Canonical := by simp [g, g0, hk.1, hk.2]
  exact ⟨(Hw.ok_emptyRetained hg.1 :), hg.2⟩

theorem Hw.withLife_canonical {h : Hw} (hk : h.Canonical) (l : Life) : ({ h with life := l } : Hw).Canonical := hk

@[simp] theorem Hw.finishBreak_canonical {h : Hw} (hk : h.Canonical) : h.finishBreak.Canonical := by
  unfold Hw.finishBreak
  split
  · exact Hw.withLife_canonical (Hw.lifeChange_canonical (Hw.withLife_canonical hk _)) _
  · exact hk

theorem Hw.enqueueLog_canonical {h : Hw} (hk : h.Canonical) (payload : List Byte) (p : Purpose) :
    (h.enqueueLog payload p).Canonical := hk

@[simp] theorem Hw.breakStep_canonical {h : Hw} (hk : h.Canonical) : h.breakStep.Canonical := by
  unfold Hw.breakStep
  split
  · split
    · exact hk
    · split
      · exact Hw.finishBreak_canonical hk
      · exact Hw.withLife_canonical (Hw.enqueueLog_canonical hk _ _) _
  · exact hk

@[simp] theorem Hw.beginBreak_canonical {h : Hw} (hk : h.Canonical) (cause : Nat) : (h.beginBreak cause).Canonical := by
  simp [Hw.beginBreak, hk.1, hk.2]

@[simp] theorem Hw.breakAtBoot_canonical {h : Hw} (hk : h.Canonical) : h.breakAtBoot.Canonical := by
  simp only [Hw.breakAtBoot]
  (repeat' split) <;> simp [hk.1, hk.2]

@[simp] theorem Hw.finishSeal_canonical {h : Hw} (hk : h.Canonical) (job seq : Nat) : (h.finishSeal job seq).Canonical := by
  simp [Hw.finishSeal, foldl_cells, foldl_fw', hk.1, hk.2]

@[simp] theorem Hw.enterCalibration_canonical {h : Hw} (hk : h.Canonical) : h.enterCalibration.Canonical := by
  simp [Hw.enterCalibration, hk.1, hk.2]

@[simp] theorem Hw.sealPlain_canonical {h : Hw} (hk : h.Canonical) : h.sealPlain.Canonical := by
  simp [Hw.sealPlain, hk.1, hk.2]

@[simp] theorem Hw.beginRetire_canonical {h : Hw} (hk : h.Canonical) (force : Bool) : (h.beginRetire force).Canonical := by
  simp [Hw.beginRetire, hk.1, hk.2]

@[simp] theorem Hw.finishRetire_canonical {h : Hw} (hk : h.Canonical) : h.finishRetire.Canonical := by
  have hj : (h.endJob? h.life.retireJob 0 0 []).Canonical := by simp [hk.1, hk.2]
  obtain ⟨⟨hac, har, hvc, hvr, -, hs, -⟩, -⟩ := hj
  exact ⟨⟨hac, har, hvc, hvr, rfl, hs, rfl⟩, rfl, rfl⟩

/-! ## The link -/

@[simp] theorem Hw.followerSlot_canonical {h : Hw} (hk : h.Canonical) : h.followerSlot.Canonical := by
  simp only [Hw.followerSlot]
  (repeat' split) <;> simp [hk.1, hk.2]

@[simp] theorem Hw.admitted'_canonical {h : Hw} (hk : h.Canonical) (autoJoin : Bool) (us : Nat) :
    (h.admitted' autoJoin us).Canonical := by
  simp only [Hw.admitted']
  (repeat' split) <;> simp [hk.1, hk.2]

@[simp] theorem Hw.leadAtFollower_canonical {h : Hw} (hk : h.Canonical) (p : List Byte) (us : Nat) :
    (h.leadAtFollower p us).Canonical := by
  simp only [Hw.leadAtFollower]
  (repeat' split) <;> simp [hk.1, hk.2]

@[simp] theorem Hw.acceptFrame_canonical {h : Hw} (hk : h.Canonical) (slot : Nat) (f : List Byte) (us : Nat) :
    (h.acceptFrame slot f us).Canonical := by
  simp only [Hw.acceptFrame]
  (repeat' split) <;> simp [hk.1, hk.2]

@[simp] theorem Hw.frame_canonical {h : Hw} (hk : h.Canonical) (slot : Nat) (f : List Byte) (us : Nat) :
    (h.frame slot f us).Canonical := by
  simp only [Hw.frame]
  (repeat' split) <;> simp [hk.1, hk.2]

/-! ## The host bus and the mailboxes -/

/-- The windows of a mailbox are in canonical form. -/
def Mailbox.Ok (m : Mailbox) : Prop := Cells.wf 0 m.cmd = true ∧ Cells.wf 0 m.rep = true

theorem Hw.mbx_ok {h : Hw} (hk : h.Canonical) (o : Origin) : (h.mbx o).Ok := by
  obtain ⟨⟨hac, har, hvc, hvr, -, -, -⟩, -⟩ := hk
  cases o
  · exact ⟨hac, har⟩
  · exact ⟨hvc, hvr⟩

/-- A change of a mailbox that leaves its windows in canonical form. -/
theorem Hw.modMbx_canonical {h : Hw} (hk : h.Canonical) (o : Origin) (f : Mailbox → Mailbox) (hf : (f (h.mbx o)).Ok) :
    (h.modMbx o f).Canonical := by
  obtain ⟨⟨hac, har, hvc, hvr, hrest⟩, hw⟩ := hk
  cases o
  · exact ⟨⟨hf.1, hf.2, hvc, hvr, hrest⟩, hw⟩
  · exact ⟨⟨hac, har, hf.1, hf.2, hrest⟩, hw⟩

@[simp] theorem Hw.addressed_canonical {h : Hw} (hk : h.Canonical) (adr : BitVec 7) (f : Origin → Hw)
    (hf : ∀ o, (f o).Canonical) : (h.addressed adr f).Canonical := by
  unfold Hw.addressed
  split
  · exact hf _
  · exact hk

@[simp] theorem Hw.putByte_canonical {h : Hw} (hk : h.Canonical) (o : Origin) (a : Nat) (b : Byte) :
    (h.putByte o a b).Canonical := by
  unfold Hw.putByte
  split
  · simp [hk.1, hk.2]
  · split
    · obtain ⟨hc, hr⟩ := Hw.mbx_ok hk o
      exact Hw.modMbx_canonical hk o _ ⟨Cells.wf_put 0 _ _ _ hc, hr⟩
    · (repeat' split) <;> simp [hk.1, hk.2]

@[simp] theorem Hw.putBytes_canonical {h : Hw} (hk : h.Canonical) (o : Origin) (ptr i : Nat) (bs : List Byte) :
    (h.putBytes o ptr i bs).Canonical := by
  induction bs generalizing h i with
  | nil => exact hk
  | cons b bs ih => exact ih (Hw.putByte_canonical hk ..) _

@[simp] theorem Hw.unanswered_canonical {h : Hw} (hk : h.Canonical) (o : Origin) (f : Mailbox → Mailbox)
    (hf : ∀ m, (f m).cmd = m.cmd ∧ (f m).rep = m.rep) : (h.unanswered o f).Canonical := by
  unfold Hw.unanswered
  split <;> simp [hf, hk.1, hk.2]

@[simp] theorem Hw.commitWrite_canonical {h : Hw} (hk : h.Canonical) (o : Origin) (ptr : Nat) (data : List Byte) :
    (h.commitWrite o ptr data).Canonical := by
  simp only [Hw.commitWrite]
  split
  · exact Hw.unanswered_canonical hk o id fun m => ⟨rfl, rfl⟩
  · split
    · simp [hk.1, hk.2]
    · refine Hw.putBytes_canonical ?_ ..
      simp [apply_ite Hw.cells, apply_ite Hw.fw, hk.1, hk.2]

@[simp] theorem Hw.readBus_canonical {h : Hw} (hk : h.Canonical) (o : Origin) (ptr : Option Half) (n : Nat) :
    (h.readBus o ptr n).Canonical := by
  simp only [Hw.readBus]
  split
  · exact Hw.unanswered_canonical hk o _ fun m => ⟨rfl, rfl⟩
  · simp [hk.1, hk.2]

@[simp] theorem Hw.placeReply_canonical {h : Hw} (hk : h.Canonical) (o : Origin) : (h.placeReply o).Canonical := by
  simp only [Hw.placeReply]
  split
  · split
    · simp [hk.1, hk.2]
    · simp only [Hw.Canonical, Hw.startRelay_cells, Hw.startRelay_fw, Hw.judgeDue_cells, Hw.judgeDue_fw]
      refine Hw.modMbx_canonical ?_ o _ ⟨?_, Cells.wf_putAll 0 [] 0 _ rfl⟩
      · split <;> simp [hk.1, hk.2]
      · exact (Hw.mbx_ok (by split <;> simp [hk.1, hk.2]) o).1
  · exact hk

/-! ## The rows of the store -/

@[simp] theorem Hw.slotLogged_canonical {h : Hw} (hk : h.Canonical) (n : Nat) : (h.slotLogged n).Canonical := by
  simp [Hw.slotLogged, hk.1, hk.2]

@[simp] theorem Hw.resumeStep_canonical {h : Hw} (hk : h.Canonical) : h.resumeStep.Canonical := by
  simp only [Hw.resumeStep]
  (repeat' split) <;> simp [hk.1, hk.2]

@[simp] theorem Hw.logErased'_canonical {h : Hw} (hk : h.Canonical) (ok : Bool) : (h.logErased' ok).Canonical := by
  simp only [Hw.logErased']
  (repeat' split) <;> simp [hk.1, hk.2]

@[simp] theorem Hw.retireErased_canonical {h : Hw} (hk : h.Canonical) (ok : Bool) : (h.retireErased ok).Canonical := by
  unfold Hw.retireErased
  extract_lets left had g0 _ g1 _ g
  have hg1 : g1.Canonical := by
    have hg0 : g0.Canonical := by simp [g0, hk.1, hk.2]
    obtain ⟨⟨hac, har, hvc, hvr, -, hs, hr⟩, hf⟩ := hg0
    simp only [g1]
    split
    · exact hk
    · obtain ⟨⟨-, -, -, -, ht, -, -⟩, -⟩ := hk
      exact ⟨⟨hac, har, hvc, hvr, ht, hs, hr⟩, hf⟩
  have hg : g.Canonical := Hw.withLife_canonical hg1 _
  (repeat' split) <;> simp [hg.1, hg.2]

@[simp] theorem Hw.writeDone_canonical {h : Hw} (hk : h.Canonical) (w : StoreWrite) : (h.writeDone w).Canonical := by
  simp only [Hw.writeDone]
  (repeat' split) <;> simp [hk.1, hk.2]

@[simp] theorem Hw.programmed_canonical {h : Hw} (hk : h.Canonical) (w : StoreWrite) (ws : List StoreWrite) :
    (h.programmed w ws).Canonical := by
  simp only [Hw.programmed]
  (repeat' split) <;> simp [hk.1, hk.2]

@[simp] theorem Hw.logLost_canonical {h : Hw} (hk : h.Canonical) (w : StoreWrite) (ws : List StoreWrite) (bad : Bool) :
    (h.logLost w ws bad).Canonical := by
  simp only [Hw.logLost]
  (repeat' split) <;> simp [hk.1, hk.2]

@[simp] theorem Hw.programLost_canonical {h : Hw} (hk : h.Canonical) : h.programLost.Canonical := by
  simp only [Hw.programLost]
  (repeat' split) <;> simp [hk.1, hk.2]

@[simp] theorem Hw.programEnds_canonical {h : Hw} (hk : h.Canonical) (w : StoreWrite) (ws : List StoreWrite) (ok : Bool) :
    (h.programEnds w ws ok).Canonical := by
  simp only [Hw.programEnds]
  (repeat' split) <;> simp [hk.1, hk.2]

@[simp] theorem Hw.proveFails_canonical {h : Hw} (hk : h.Canonical) (v : Verify) : (h.proveFails v).Canonical := by
  simp only [Hw.proveFails]
  (repeat' split) <;> simp [hk.1, hk.2]

@[simp] theorem Hw.proved_canonical {h : Hw} (hk : h.Canonical) (v : Verify) (ok : Bool) : (h.proved v ok).Canonical := by
  simp only [Hw.proved]
  (repeat' split) <;> simp [hk.1, hk.2]

@[simp] theorem Hw.forceActs_canonical {h : Hw} (hk : h.Canonical) (n : Nat) : (h.forceActs n).Canonical := by
  simp only [Hw.forceActs]
  (repeat' split) <;> simp [hk.1, hk.2]

/-! ## Firmware and the bulk engine -/

theorem putFirmware_wf {m : Cells} (hm : Cells.wf 0xFF m = true) (a : Nat) (bs : List Byte) :
    Cells.wf 0xFF (putFirmware m a bs) = true := by
  induction bs generalizing m a with
  | nil => exact hm
  | cons b bs ih =>
    refine ih ?_ _
    split
    · exact hm
    · exact Cells.wf_put 0xFF _ _ _ hm

@[simp] theorem Hw.stage_canonical {h : Hw} (hk : h.Canonical) (offset : Nat) (data : List Byte) :
    (h.stage offset data).Canonical := by
  refine ⟨by simp [hk.1], Fw.ok_setSlot hk.2 _ (putFirmware_wf ?_ _ _)⟩
  split
  · rfl
  · exact Fw.slot_wf hk.2 _

theorem putRange_wf {m : Cells} (hm : Cells.wf 0 m = true) (start size : Nat) (bs : List Byte) :
    Cells.wf 0 (putRange m start size bs) = true := by
  unfold putRange
  generalize bs.zipIdx = l
  induction l generalizing m with
  | nil => exact hm
  | cons x l ih => exact ih (Cells.wf_put 0 _ _ _ hm)

@[simp] theorem Hw.writeAt_canonical {h : Hw} (hk : h.Canonical) (c : Nat) (p : BulkPlace) (off : Nat) (bs : List Byte) :
    (h.writeAt c p off bs).Canonical := by
  cases p with
  | sram a =>
    obtain ⟨⟨hac, har, hvc, hvr, ht, hs, hr⟩, hf⟩ := hk
    exact ⟨⟨hac, har, hvc, hvr, ht, putRange_wf hs _ _ _, hr⟩, hf⟩
  | retained a =>
    obtain ⟨⟨hac, har, hvc, hvr, ht, hs, hr⟩, hf⟩ := hk
    exact ⟨⟨hac, har, hvc, hvr, ht, hs, putRange_wf hr _ _ _⟩, hf⟩
  | mailbox o a =>
    obtain ⟨hc, hr⟩ := Hw.mbx_ok hk o
    exact Hw.modMbx_canonical hk o _ ⟨hc, putRange_wf hr _ _ _⟩
  | flash r a => exact hk
  | unit bs => exact hk

@[simp] theorem Hw.descLost_canonical {h : Hw} (hk : h.Canonical) (c : Nat) : (h.descLost c).Canonical := by
  unfold Hw.descLost
  (repeat' split) <;> simp [Fw.unstage_ok, hk.1, hk.2]

@[simp] theorem Hw.descDone_canonical {h : Hw} (hk : h.Canonical) (c : Nat) (d : Desc) : (h.descDone c d).Canonical := by
  refine ⟨by simp [hk.1], ?_⟩
  simp only [Hw.descDone]
  (repeat' split) <;> simp [hk.2]

@[simp] theorem Hw.putMore_canonical {h : Hw} (hk : h.Canonical) (c : Nat) (d : Desc) (n : Nat) :
    (h.putMore c d n).Canonical := by
  simp only [Hw.putMore]
  (repeat' split) <;> simp [hk.1, hk.2]

@[simp] theorem Hw.emptyBurst_canonical {h : Hw} (hk : h.Canonical) (c : Nat) (d : Desc) (x : Burst) :
    (h.emptyBurst c d x).Canonical := by
  simp only [Hw.emptyBurst]
  (repeat' split) <;> simp [hk.1, hk.2]

@[simp] theorem Hw.parity_canonical {h : Hw} (hk : h.Canonical) (c : Nat) (d : Desc) (size : Nat) (inj : Bool) :
    (h.parity c d size inj).Canonical := by
  simp only [Hw.parity]
  (repeat' split) <;> simp [hk.1, hk.2]

@[simp] theorem Hw.writeEngine_canonical {h : Hw} (hk : h.Canonical) (c : Nat) (parityError : Bool) :
    (h.writeEngine c parityError).Canonical := by
  simp only [Hw.writeEngine]
  (repeat' split) <;> simp [hk.1, hk.2]

/-! ## Commands -/

@[simp] theorem Hw.serve_canonical {h : Hw} (hk : h.Canonical) (i : Instr) (body : Hw → Hw)
    (hbody : ∀ g : Hw, g.Canonical → (body g).Canonical) : (h.serve i body).Canonical := by
  simp only [Hw.serve]
  (repeat' split) <;> simp [hbody, hk.1, hk.2]

end Sys2Proof.Machine
end

section
/-! SUPPORT. Every command keeps the addressed buffers in canonical form: one lemma a command, in the order of the
model's files. -/

namespace Sys2Proof.Machine

/-- The state that a command leads to has its addressed buffers in canonical form. -/
def Out.Canonical (x : Out) : Prop := ∀ t, x = .next t → t.hw.Canonical

theorem State.upd_canonical {s : State} (hk : s.hw.Canonical) {f : Hw → Hw} (hf : ∀ h : Hw, h.Canonical → (f h).Canonical) :
    Out.Canonical (s.upd f) := by
  rintro t ⟨⟩
  exact hf s.hw hk

/-- A command with a packet: what it does where its packet is served. -/
theorem State.served_canonical {s : State} (hk : s.hw.Canonical) {i : Instr} {f : Hw → Hw}
    (hf : ∀ h : Hw, h.Canonical → (f h).Canonical) : Out.Canonical (s.upd fun h => h.serve i f) :=
  State.upd_canonical hk fun _ hk => Hw.serve_canonical hk i f hf

theorem Hw.withLodge_canonical {h : Hw} (hk : h.Canonical) (l : Lodge) : ({ h with lodge := l } : Hw).Canonical := hk

theorem Hw.reach_canonical {h : Hw} (hk : h.Canonical) (t : Nat) : (h.reach t).Canonical := by
  simp [hk.1, hk.2]

theorem Hw.reachTick_canonical {h : Hw} (hk : h.Canonical) (t : Nat) : (h.reachTick t).Canonical := by
  simp [hk.1, hk.2]

theorem Hw.raise_canonical {h : Hw} (hk : h.Canonical) (n : Nat) : (h.raise n).Canonical := by
  simp [hk.1, hk.2]

theorem Hw.vclRequest_canonical {h : Hw} (hk : h.Canonical) (op : BitVec 4) (rail : BitVec 2) (tog : Bool) (payload : Half)
    (crc : BitVec 4) (reserved : Bool) (body : Hw → Nat → Hw)
    (hbody : ∀ (g : Hw) (k : Nat), g.Canonical → (body g k).Canonical) :
    (h.vclRequest op rail tog payload crc reserved body).Canonical := by
  simp only [Hw.vclRequest]
  (repeat' split) <;> simp [hbody, hk.1, hk.2]

@[simp] theorem Hw.diagSector_fw (h : Hw) : h.diagSector.fw = h.fw := by
  simp only [Hw.diagSector]
  (repeat' split) <;> simp

/-- What owners post joins the rings; no memory is written. -/
theorem Hw.postAll_canonical {h : Hw} (hk : h.Canonical) (posts : List BulkPost) :
    ({ h.wake with bulk := posts.foldl Bulk.post h.wake.bulk } : Hw).Canonical := by
  have hpost : ∀ (b : Bulk), (posts.foldl Bulk.post b).sram = b.sram ∧ (posts.foldl Bulk.post b).retained = b.retained := by
    induction posts with
    | nil => exact fun b => ⟨rfl, rfl⟩
    | cons p ps ih => exact fun b => by simp [ih]
  simp [hpost, hk.1, hk.2]

section
variable {s : State} (hk : s.hw.Canonical)
include hk

/-! ## The pool -/

@[simp] theorem execPhaseAdd_canonical (claims : BitVec 4) : Out.Canonical (execPhaseAdd claims s) :=
  State.upd_canonical hk fun h hk => by simp [hk.1, hk.2]

@[simp] theorem execBurstAdd_canonical (claims : BitVec 4) : Out.Canonical (execBurstAdd claims s) :=
  State.upd_canonical hk fun h hk => by simp [hk.1, hk.2]

@[simp] theorem execPhaseRespacingEnd_canonical (k : Fin 4) : Out.Canonical (execPhaseRespacingEnd k s) :=
  State.upd_canonical hk fun h hk => by simp [hk.1, hk.2]

@[simp] theorem execPhaseShed_canonical (k : Fin 4) : Out.Canonical (execPhaseShed k s) := by
  refine State.upd_canonical hk fun h hk => ?_
  dsimp only
  (repeat' split) <;> simp [hk.1, hk.2]

@[simp] theorem execShedRampDownEnd_canonical (p : Fin 8) : Out.Canonical (execShedRampDownEnd p s) := by
  refine State.upd_canonical hk fun h hk => ?_
  dsimp only
  (repeat' split) <;> simp [hk.1, hk.2]

@[simp] theorem execQuietEnd_canonical (p : Fin 8) (addHolds : BitVec 4) : Out.Canonical (execQuietEnd p addHolds s) := by
  refine State.upd_canonical hk fun h hk => ?_
  dsimp only
  (repeat' split) <;> simp [hk.1, hk.2]

@[simp] theorem execShedCancel_canonical (p : Fin 8) : Out.Canonical (execShedCancel p s) :=
  State.upd_canonical hk fun h hk => by simp [hk.1, hk.2]

@[simp] theorem execHintHoldEnd_canonical (k : Fin 4) : Out.Canonical (execHintHoldEnd k s) :=
  State.upd_canonical hk fun h hk => by simp [hk.1, hk.2]

@[simp] theorem execPoolMoveWaitTimeout_canonical : Out.Canonical (execPoolMoveWaitTimeout s) := by
  refine State.upd_canonical hk fun h hk => ?_
  (repeat' split) <;> simp [hk.1, hk.2]

@[simp] theorem execPhaseOutOfService_canonical (p : Fin 8) (m : PhaseMonitor) (overAdd : Bool) :
    Out.Canonical (execPhaseOutOfService p m overAdd s) := by
  refine State.upd_canonical hk fun h hk => ?_
  dsimp only
  simp [apply_ite Hw.cells, apply_ite Hw.fw, hk.1, hk.2]

@[simp] theorem execOcLatch_canonical (k : Fin 12) (mv : Nat) : Out.Canonical (execOcLatch k mv s) := by
  refine State.upd_canonical hk fun h hk => ?_
  (repeat' split) <;> simp [hk.1, hk.2]

@[simp] theorem execImbalance_canonical (vh : Fin 2) : Out.Canonical (execImbalance vh s) := by
  refine State.upd_canonical hk fun h hk => ?_
  (repeat' split) <;> simp [hk.1, hk.2]

/-! ## The sequencer -/

@[simp] theorem execSeqStepComplete_canonical (low : LowSample) : Out.Canonical (execSeqStepComplete low s) := by
  refine State.upd_canonical hk fun h hk => ?_
  (repeat' split) <;> simp [hk.1, hk.2]

@[simp] theorem execSeqTimeout_canonical (low : LowSample) : Out.Canonical (execSeqTimeout low s) := by
  refine State.upd_canonical hk fun h hk => ?_
  dsimp only
  (repeat' split) <;> simp [hk.1, hk.2]

@[simp] theorem execWindowBreach_canonical (w : WindowSource) : Out.Canonical (execWindowBreach w s) := by
  refine State.upd_canonical hk fun h hk => ?_
  (repeat' split) <;> simp [hk.1, hk.2]

@[simp] theorem execGoodSet_canonical (w : WindowSource) : Out.Canonical (execGoodSet w s) := by
  refine State.upd_canonical hk fun h hk => ?_
  (repeat' split) <;> simp [hk.1, hk.2]

@[simp] theorem execEnRise_canonical : Out.Canonical (execEnRise s) := by
  refine State.upd_canonical hk fun h hk => ?_
  dsimp only
  (repeat' split) <;> simp [hk.1, hk.2]

@[simp] theorem execEnFall_canonical : Out.Canonical (execEnFall s) := by
  refine State.upd_canonical hk fun h hk => ?_
  dsimp only
  (repeat' split) <;> simp [hk.1, hk.2]

@[simp] theorem execOffMinElapsed_canonical : Out.Canonical (execOffMinElapsed s) := by
  refine State.upd_canonical hk fun h hk => ?_
  (repeat' split) <;> simp [hk.1, hk.2]

@[simp] theorem execFltnFall_canonical : Out.Canonical (execFltnFall s) := by
  refine State.upd_canonical hk fun h hk => ?_
  dsimp only
  (repeat' split) <;> simp [hk.1, hk.2]

@[simp] theorem execFltnHigh_canonical : Out.Canonical (execFltnHigh s) := by
  refine State.upd_canonical hk fun h hk => ?_
  (repeat' split) <;> simp [hk.1, hk.2]

@[simp] theorem execRetryDue_canonical : Out.Canonical (execRetryDue s) := by
  refine State.upd_canonical hk fun h hk => ?_
  dsimp only
  (repeat' split) <;> simp [hk.1, hk.2]

@[simp] theorem execRetryStart_canonical : Out.Canonical (execRetryStart s) := by
  refine State.upd_canonical hk fun h hk => ?_
  (repeat' split) <;> simp [hk.1, hk.2]

@[simp] theorem execRetryCountReset_canonical : Out.Canonical (execRetryCountReset s) := by
  refine State.upd_canonical hk fun h hk => ?_
  (repeat' split) <;> simp [hk.1, hk.2]

@[simp] theorem execClearFaultLineTest_canonical (lineHigh : Bool) : Out.Canonical (execClearFaultLineTest lineHigh s) := by
  refine State.upd_canonical hk fun h hk => ?_
  dsimp only
  (repeat' split) <;> simp [hk.1, hk.2]

@[simp] theorem execXevEdge_canonical (x : Fin 4) (level : Bool) : Out.Canonical (execXevEdge x level s) := by
  refine State.upd_canonical hk fun h hk => ?_
  (repeat' split) <;> simp [hk.1, hk.2]

/-! ## Restarts -/

@[simp] theorem execRestartMainReset_canonical : Out.Canonical (execRestartMainReset s) := by
  refine State.upd_canonical hk fun h hk => ?_
  dsimp only
  (repeat' split) <;> simp [hk.1, hk.2]

@[simp] theorem execRstn_canonical : Out.Canonical (execRstn s) := by
  refine State.upd_canonical hk fun h hk => ?_
  dsimp only
  (repeat' split) <;> simp [hk.1, hk.2]

@[simp] theorem execRstnRelease_canonical : Out.Canonical (execRstnRelease s) := by
  refine State.upd_canonical hk fun h hk => ?_
  dsimp only
  (repeat' split) <;> simp [hk.1, hk.2]

@[simp] theorem execStandbyWake_canonical (w : WakeSource) : Out.Canonical (execStandbyWake w s) := by
  refine State.upd_canonical hk fun h hk => ?_
  (repeat' split) <;> simp [hk.1, hk.2]

@[simp] theorem execCoreResetExecute_canonical : Out.Canonical (execCoreResetExecute s) := by
  refine State.upd_canonical hk fun h hk => ?_
  (repeat' split) <;> simp [hk.1, hk.2]

@[simp] theorem execCoreWatchdogExpiry_canonical : Out.Canonical (execCoreWatchdogExpiry s) := by
  refine State.upd_canonical hk fun h hk => ?_
  (repeat' split) <;> simp [hk.1, hk.2]

@[simp] theorem execFwActivateReset_canonical : Out.Canonical (execFwActivateReset s) := by
  refine State.upd_canonical hk fun h hk => ?_
  (repeat' split) <;> simp [hk.1, hk.2]

@[simp] theorem execTrialConfirm_canonical : Out.Canonical (execTrialConfirm s) := by
  refine State.upd_canonical hk fun h hk => ?_
  dsimp only
  split
  · exact ⟨hk.1, Fw.ok_setSlot hk.2 _ (Fw.slot_wf hk.2 _)⟩
  · exact hk

/-! ## The Lodge -/

@[simp] theorem execGatehouseLockClose_canonical : Out.Canonical (execGatehouseLockClose s) :=
  State.upd_canonical hk fun h hk => by simp [hk.1, hk.2]

@[simp] theorem execLodgeSupplyReturn_canonical : Out.Canonical (execLodgeSupplyReturn s) :=
  State.upd_canonical hk fun h hk => by simp [hk.1, hk.2]

@[simp] theorem execGatehouseLockOpen_canonical : Out.Canonical (execGatehouseLockOpen s) := by
  refine State.upd_canonical hk fun h hk => ?_
  (repeat' split) <;> simp [hk.1, hk.2]

@[simp] theorem execLodgeSupplyMove_canonical : Out.Canonical (execLodgeSupplyMove s) :=
  State.upd_canonical hk fun h hk => by simp [hk.1, hk.2]

@[simp] theorem execLodgeReset_canonical : Out.Canonical (execLodgeReset s) :=
  State.upd_canonical hk fun h hk => by simp [hk.1, hk.2]

@[simp] theorem execTrimWindow_canonical : Out.Canonical (execTrimWindow s) :=
  State.upd_canonical hk fun _ hk => Hw.withLodge_canonical (Hw.reach_canonical hk _) _

@[simp] theorem execAlarmFire_canonical (a : Fin 2) : Out.Canonical (execAlarmFire a s) := by
  refine State.upd_canonical hk fun h hk => ?_
  dsimp only
  (repeat' split) <;> simp [hk.1, hk.2]

@[simp] theorem execCalendarOverflow_canonical : Out.Canonical (execCalendarOverflow s) :=
  State.upd_canonical hk fun h hk => by simp [hk.1, hk.2]

@[simp] theorem execHoldover_canonical : Out.Canonical (execHoldover s) := by
  refine State.upd_canonical hk fun h hk => ?_
  dsimp only
  split
  · exact Hw.raise_canonical (Hw.withLodge_canonical (Hw.reachTick_canonical hk _) _) _
  · exact hk

@[simp] theorem execTimeSetApply_canonical : Out.Canonical (execTimeSetApply s) := by
  refine State.upd_canonical hk fun h hk => ?_
  dsimp only
  (repeat' split) <;> simp [hk.1, hk.2]

/-! ## The life cycle -/

@[simp] theorem execSealBreak_canonical (sample : CalenSample) : Out.Canonical (execSealBreak sample s) := by
  refine State.upd_canonical hk fun h hk => ?_
  dsimp only
  (repeat' split) <;> simp [hk.1, hk.2]

/-! ## Insertion and the power path -/

@[simp] theorem execSeatingConfirmed_canonical : Out.Canonical (execSeatingConfirmed s) := by
  refine State.upd_canonical hk fun h hk => ?_
  (repeat' split) <;> simp [hk.1, hk.2]

@[simp] theorem execStrapSample_canonical (addr : BitVec 2) (idx : BitVec 4) (lead : Bool) :
    Out.Canonical (execStrapSample addr idx lead s) := by
  refine State.upd_canonical hk fun h hk => ?_
  (repeat' split) <;> simp [hk.1, hk.2]

@[simp] theorem execInputPrechargeStart_canonical : Out.Canonical (execInputPrechargeStart s) := by
  refine State.upd_canonical hk fun h hk => ?_
  (repeat' split) <;> simp [hk.1, hk.2]

@[simp] theorem execInputSwitchClose_canonical : Out.Canonical (execInputSwitchClose s) := by
  refine State.upd_canonical hk fun h hk => ?_
  (repeat' split) <;> simp [hk.1, hk.2]

@[simp] theorem execInputPrechargeTimeout_canonical : Out.Canonical (execInputPrechargeTimeout s) := by
  refine State.upd_canonical hk fun h hk => ?_
  (repeat' split) <;> simp [hk.1, hk.2]

@[simp] theorem execPrechargeHoldoffEnd_canonical : Out.Canonical (execPrechargeHoldoffEnd s) := by
  refine State.upd_canonical hk fun h hk => ?_
  dsimp only
  (repeat' split) <;> simp [hk.1, hk.2]

@[simp] theorem execStoreReady_canonical : Out.Canonical (execStoreReady s) := by
  refine State.upd_canonical hk fun h hk => ?_
  (repeat' split) <;> simp [hk.1, hk.2]

@[simp] theorem execBootComplete_canonical (b : BootSample) : Out.Canonical (execBootComplete b s) := by
  refine State.upd_canonical hk fun h hk => ?_
  split
  · exact hk
  · extract_lets por g1 rstn mr g2 g3 g4 g5 g6 g7 g8
    have hg1 : g1.Canonical := by simp [g1, hk.1, hk.2]
    have hg2 : g2.Canonical := by simp only [g2]; split <;> simp [hg1.1, hg1.2]
    have hg3 : g3.Canonical := by simp only [g3]; (repeat' split) <;> simp [hg2.1, hg2.2]
    have hg4 : g4.Canonical := by simp only [g4]; (repeat' split) <;> simp [hg3.1, hg3.2]
    have hg5 : g5.Canonical := by simp only [g5]; (repeat' split) <;> simp [hg4.1, hg4.2]
    have hg6 : g6.Canonical := by simp [g6, hg5.1, hg5.2]
    have hg7 : g7.Canonical := by simp only [g7]; (repeat' split) <;> simp [hg6.1, hg6.2]
    have hg8 : g8.Canonical := by simp [g8, hg7.1, hg7.2]
    have hs := Hw.startCore_canonical (h := g8.halve) (by simp [hg8.1, hg8.2])
    exact Hw.breakAtBoot_canonical (Hw.forcedVin_canonical (by simp [hs.1, hs.2]))

@[simp] theorem execVinUnusable_canonical (mv : Nat) : Out.Canonical (execVinUnusable mv s) := by
  unfold execVinUnusable
  split
  · rintro t ⟨⟩
  · refine State.upd_canonical hk fun h hk => ?_
    dsimp only
    split <;> simp [hk.1, hk.2]

@[simp] theorem execHandOver_canonical : Out.Canonical (execHandOver s) := by
  refine State.upd_canonical hk fun h hk => ?_
  (repeat' split) <;> simp [hk.1, hk.2]

@[simp] theorem execInputSwitchOpenOnBattery_canonical : Out.Canonical (execInputSwitchOpenOnBattery s) := by
  refine State.upd_canonical hk fun h hk => ?_
  (repeat' split) <;> simp [hk.1, hk.2]

@[simp] theorem execVinExcursion_canonical : Out.Canonical (execVinExcursion s) :=
  State.upd_canonical hk fun h hk => by simp [hk.1, hk.2]

@[simp] theorem execReturnCountComplete_canonical : Out.Canonical (execReturnCountComplete s) := by
  refine State.upd_canonical hk fun h hk => ?_
  dsimp only
  (repeat' split) <;> simp [hk.1, hk.2]

@[simp] theorem execRatioBalanceEnd_canonical : Out.Canonical (execRatioBalanceEnd s) := by
  refine State.upd_canonical hk fun h hk => ?_
  (repeat' split) <;> simp [hk.1, hk.2]

@[simp] theorem execVinReturn_canonical : Out.Canonical (execVinReturn s) := by
  refine State.upd_canonical hk fun h hk => ?_
  dsimp only
  (repeat' split) <;> simp [hk.1, hk.2]

@[simp] theorem execVhRestartStagger_canonical : Out.Canonical (execVhRestartStagger s) := by
  refine State.upd_canonical hk fun h hk => ?_
  (repeat' split) <;> simp [hk.1, hk.2]

@[simp] theorem execVhRestartTimeout_canonical (vh : Fin 2) : Out.Canonical (execVhRestartTimeout vh s) := by
  refine State.upd_canonical hk fun h hk => ?_
  dsimp only
  (repeat' split) <;> simp [hk.1, hk.2]

@[simp] theorem execLastWordCommitEnd_canonical : Out.Canonical (execLastWordCommitEnd s) := by
  refine State.upd_canonical hk fun h hk => ?_
  dsimp only
  (repeat' split) <;> simp [hk.1, hk.2]

@[simp] theorem execPackUnusable_canonical (cause : PackLoss) : Out.Canonical (execPackUnusable cause s) := by
  refine State.upd_canonical hk fun h hk => ?_
  (repeat' split) <;> simp [hk.1, hk.2]

@[simp] theorem execBtsOpen_canonical : Out.Canonical (execBtsOpen s) := by
  refine State.upd_canonical hk fun h hk => ?_
  (repeat' split) <;> simp [hk.1, hk.2]

@[simp] theorem execReserveLow_canonical : Out.Canonical (execReserveLow s) := by
  refine State.upd_canonical hk fun h hk => ?_
  (repeat' split) <;> simp [hk.1, hk.2]

@[simp] theorem execHoldupLow_canonical : Out.Canonical (execHoldupLow s) := by
  refine State.upd_canonical hk fun h hk => ?_
  (repeat' split) <;> simp [hk.1, hk.2]

@[simp] theorem execIcehouseExit_canonical : Out.Canonical (execIcehouseExit s) := by
  refine State.upd_canonical hk fun h hk => ?_
  (repeat' split) <;> simp [hk.1, hk.2]

@[simp] theorem execRemovalProcedure_canonical : Out.Canonical (execRemovalProcedure s) := by
  refine State.upd_canonical hk fun h hk => ?_
  dsimp only
  (repeat' split) <;> simp [hk.1, hk.2]

@[simp] theorem execRemovalProcedureComplete_canonical : Out.Canonical (execRemovalProcedureComplete s) := by
  refine State.upd_canonical hk fun h hk => ?_
  (repeat' split) <;> simp [hk.1, hk.2]

/-! ## The link -/

@[simp] theorem execPrmCycle_canonical : Out.Canonical (execPrmCycle s) := by
  refine State.upd_canonical hk fun h hk => ?_
  (repeat' split) <;> simp [hk.1, hk.2]

@[simp] theorem execLeadFrame_canonical (slot : Fin 16) (frame : HeardFrame) : Out.Canonical (execLeadFrame slot frame s) :=
  State.upd_canonical hk fun h hk => by simp [hk.1, hk.2]

@[simp] theorem execStatusFrame_canonical (slot : Fin 16) (frame : List Byte) : Out.Canonical (execStatusFrame slot frame s) :=
  State.upd_canonical hk fun h hk => by simp [hk.1, hk.2]

@[simp] theorem execJoin_canonical (slot : Fin 16) (frame : List Byte) : Out.Canonical (execJoin slot frame s) :=
  State.upd_canonical hk fun h hk => by simp [hk.1, hk.2]

@[simp] theorem execLeave_canonical (slot : Fin 16) (frame : List Byte) : Out.Canonical (execLeave slot frame s) :=
  State.upd_canonical hk fun h hk => by simp [hk.1, hk.2]

@[simp] theorem execListenComplete_canonical (heard : Option Byte) : Out.Canonical (execListenComplete heard s) := by
  refine State.upd_canonical hk fun h hk => ?_
  (repeat' split) <;> simp [hk.1, hk.2]

@[simp] theorem execJoinRetry_canonical : Out.Canonical (execJoinRetry s) := by
  refine State.upd_canonical hk fun h hk => ?_
  (repeat' split) <;> simp [hk.1, hk.2]

@[simp] theorem execFollowerSilent_canonical (idx : Fin 16) : Out.Canonical (execFollowerSilent idx s) := by
  refine State.upd_canonical hk fun h hk => ?_
  (repeat' split) <;> simp [hk.1, hk.2]

@[simp] theorem execOrphanHold_canonical : Out.Canonical (execOrphanHold s) := by
  refine State.upd_canonical hk fun h hk => ?_
  (repeat' split) <;> simp [hk.1, hk.2]

@[simp] theorem execOrphanTimeout_canonical : Out.Canonical (execOrphanTimeout s) := by
  refine State.upd_canonical hk fun h hk => ?_
  (repeat' split) <;> simp [hk.1, hk.2]

@[simp] theorem execCabEntryComplete_canonical : Out.Canonical (execCabEntryComplete s) := by
  refine State.upd_canonical hk fun h hk => ?_
  (repeat' split) <;> simp [hk.1, hk.2]

@[simp] theorem execCabEntryTimeout_canonical : Out.Canonical (execCabEntryTimeout s) := by
  refine State.upd_canonical hk fun h hk => ?_
  (repeat' split) <;> simp [hk.1, hk.2]

@[simp] theorem execPrmTimeCompare_canonical : Out.Canonical (execPrmTimeCompare s) := by
  refine State.upd_canonical hk fun h hk => ?_
  (repeat' split) <;> simp [hk.1, hk.2]

@[simp] theorem execRelayTimeout_canonical : Out.Canonical (execRelayTimeout s) := by
  refine State.upd_canonical hk fun h hk => ?_
  (repeat' split) <;> simp [hk.1, hk.2]

@[simp] theorem execCabClearTest_canonical (lineHigh : Bool) : Out.Canonical (execCabClearTest lineHigh s) := by
  refine State.upd_canonical hk fun h hk => ?_
  dsimp only
  (repeat' split) <;> simp [hk.1, hk.2]

/-! ## The host bus -/

@[simp] theorem execHostBusWrite_canonical (adr : BitVec 7) (ptr : Half) (data : List Byte) :
    Out.Canonical (execHostBusWrite adr ptr data s) :=
  State.upd_canonical hk fun h hk => by simp [hk.1, hk.2]

@[simp] theorem execReadSnapshot_canonical (adr : BitVec 7) (ptr : Option Half) (n : Nat) :
    Out.Canonical (execReadSnapshot adr ptr n s) :=
  State.upd_canonical hk fun h hk => by simp [hk.1, hk.2]

@[simp] theorem execRepeatedStartInAck_canonical (o : Origin) (ptr : Half) : Out.Canonical (execRepeatedStartInAck o ptr s) :=
  State.upd_canonical hk fun h hk => by simp [hk.1, hk.2]

@[simp] theorem execStartInsideByte_canonical (o : Origin) (ptr : Half) : Out.Canonical (execStartInsideByte o ptr s) :=
  State.upd_canonical hk fun h hk => by simp [hk.1, hk.2]

@[simp] theorem execStopInsideByte_canonical (o : Origin) (ptr : Half) : Out.Canonical (execStopInsideByte o ptr s) :=
  State.upd_canonical hk fun h hk => by simp [hk.1, hk.2]

@[simp] theorem execOnePointerByte_canonical (o : Origin) : Out.Canonical (execOnePointerByte o s) :=
  State.upd_canonical hk fun h hk => by simp [hk.1, hk.2]

@[simp] theorem execStalledTransaction_canonical (o : Origin) (ptr : Half) : Out.Canonical (execStalledTransaction o ptr s) :=
  State.upd_canonical hk fun h hk => by simp [hk.1, hk.2]

@[simp] theorem execAddressMatchWake_canonical (adr : BitVec 7) : Out.Canonical (execAddressMatchWake adr s) := by
  refine State.upd_canonical hk fun h hk => ?_
  (repeat' split) <;> simp [hk.1, hk.2]

@[simp] theorem execWakeTimeout_canonical (o : Origin) : Out.Canonical (execWakeTimeout o s) := by
  refine State.upd_canonical hk fun h hk => ?_
  (repeat' split) <;> simp [hk.1, hk.2]

@[simp] theorem execCmdSubmit_canonical (o : Origin) (tag : Byte) : Out.Canonical (execCmdSubmit o tag s) :=
  State.upd_canonical hk fun h hk => by simp [hk.1, hk.2]

@[simp] theorem execReplyPlaced_canonical (o : Origin) : Out.Canonical (execReplyPlaced o s) := by
  refine State.upd_canonical hk fun h hk => ?_
  dsimp only
  (repeat' split) <;> simp [hk.1, hk.2]

@[simp] theorem execReplyTaken_canonical (o : Origin) : Out.Canonical (execReplyTaken o s) := by
  refine State.upd_canonical hk fun h hk => ?_
  dsimp only
  split
  · exact hk
  · generalize hg : Hw.judge _ o = g
    have hgk : g.Canonical := by simp [← hg, hk.1, hk.2]
    (repeat' split) <;> simp [hgk.1, hgk.2]

@[simp] theorem execUnlockTimeout_canonical : Out.Canonical (execUnlockTimeout s) := by
  refine State.upd_canonical hk fun h hk => ?_
  dsimp only
  (repeat' split) <;> simp [hk.1, hk.2]

@[simp] theorem execUnlockLockoutEnd_canonical : Out.Canonical (execUnlockLockoutEnd s) := by
  refine State.upd_canonical hk fun h hk => ?_
  dsimp only
  (repeat' split) <;> simp [hk.1, hk.2]

@[simp] theorem execEvtPendWrite_canonical (adr : BitVec 7) (ptr : Half) (data : List Byte) :
    Out.Canonical (execEvtPendWrite adr ptr data s) :=
  State.upd_canonical hk fun h hk => by simp [hk.1, hk.2]

@[simp] theorem execWdtEnable_canonical (ctrl : Byte) : Out.Canonical (execWdtEnable ctrl s) :=
  State.upd_canonical hk fun h hk => by simp [hk.1, hk.2]

@[simp] theorem execWdtDisable_canonical (ctrl : Byte) : Out.Canonical (execWdtDisable ctrl s) :=
  State.upd_canonical hk fun h hk => by simp [hk.1, hk.2]

@[simp] theorem execWdtKeyArm_canonical : Out.Canonical (execWdtKeyArm s) :=
  State.upd_canonical hk fun h hk => by simp [hk.1, hk.2]

@[simp] theorem execWdtService_canonical (value : Byte) : Out.Canonical (execWdtService value s) :=
  State.upd_canonical hk fun h hk => by simp [hk.1, hk.2]

@[simp] theorem execWdtExpiry_canonical : Out.Canonical (execWdtExpiry s) := by
  refine State.upd_canonical hk fun h hk => ?_
  (repeat' split) <;> simp [hk.1, hk.2]

@[simp] theorem execHrstnRelease_canonical : Out.Canonical (execHrstnRelease s) := by
  refine State.upd_canonical hk fun h hk => ?_
  (repeat' split) <;> simp [hk.1, hk.2]

@[simp] theorem execGraceExpiry_canonical : Out.Canonical (execGraceExpiry s) := by
  refine State.upd_canonical hk fun h hk => ?_
  (repeat' split) <;> simp [hk.1, hk.2]

@[simp] theorem execFaultLogWrite_canonical : Out.Canonical (execFaultLogWrite s) := by
  refine State.upd_canonical hk fun h hk => ?_
  (repeat' split) <;> simp [hk.1, hk.2]

@[simp] theorem execServicePrepareComplete_canonical : Out.Canonical (execServicePrepareComplete s) := by
  refine State.upd_canonical hk fun h hk => ?_
  dsimp only
  (repeat' split) <;> simp [hk.1, hk.2]

/-! ## Telemetry -/

@[simp] theorem execScanStart_canonical : Out.Canonical (execScanStart s) := by
  refine State.upd_canonical hk fun h hk => ?_
  (repeat' split) <;> simp [hk.1, hk.2]

@[simp] theorem execScanComplete_canonical (rs : List ChannelResult) (dtUs : Nat) :
    Out.Canonical (execScanComplete rs dtUs s) := by
  refine State.upd_canonical hk fun h hk => ?_
  dsimp only
  (repeat' split) <;> simp [hk.1, hk.2]

@[simp] theorem execSliceRotation_canonical : Out.Canonical (execSliceRotation s) := by
  refine State.upd_canonical hk fun h hk => ?_
  (repeat' split) <;> simp [hk.1, hk.2]

@[simp] theorem execSliceCalibrationEnd_canonical (sl : Fin 3) (gainBad : Bool) (offsetBad : Bool) :
    Out.Canonical (execSliceCalibrationEnd sl gainBad offsetBad s) := by
  refine State.upd_canonical hk fun h hk => ?_
  dsimp only
  (repeat' split) <;> simp [hk.1, hk.2]

@[simp] theorem execAveragingWindowEnd_canonical : Out.Canonical (execAveragingWindowEnd s) := by
  refine State.upd_canonical hk fun h hk => ?_
  (repeat' split) <;> simp [hk.1, hk.2]

@[simp] theorem execRefSettled_canonical : Out.Canonical (execRefSettled s) := by
  refine State.upd_canonical hk fun h hk => ?_
  (repeat' split) <;> simp [hk.1, hk.2]

@[simp] theorem execOutputEnergyCheckpoint_canonical : Out.Canonical (execOutputEnergyCheckpoint s) := by
  refine State.upd_canonical hk fun h hk => ?_
  (repeat' split) <;> simp [hk.1, hk.2]

/-! ## Light load and the governor -/

@[simp] theorem execPulseSkipEntry_canonical (x : ConverterLoad) : Out.Canonical (execPulseSkipEntry x s) := by
  refine State.upd_canonical hk fun h hk => ?_
  (repeat' split) <;> simp [hk.1, hk.2]

@[simp] theorem execPulseSkipExit_canonical (x : ConverterLoad) : Out.Canonical (execPulseSkipExit x s) := by
  refine State.upd_canonical hk fun h hk => ?_
  (repeat' split) <;> simp [hk.1, hk.2]

@[simp] theorem execIdleEntry_canonical : Out.Canonical (execIdleEntry s) := by
  refine State.upd_canonical hk fun h hk => ?_
  (repeat' split) <;> simp [hk.1, hk.2]

@[simp] theorem execIdleWake_canonical : Out.Canonical (execIdleWake s) := by
  refine State.upd_canonical hk fun h hk => ?_
  have hw : h.wake.Canonical := by simp [hk.1, hk.2]
  obtain ⟨⟨-, -, -, -, ht, hs, hr⟩, hf⟩ := hw
  obtain ⟨⟨hac, har, hvc, hvr, -, -, -⟩, -⟩ := hk
  exact ⟨⟨hac, har, hvc, hvr, ht, hs, hr⟩, hf⟩

@[simp] theorem execGovernorEvaluate_canonical (g : GovSample) : Out.Canonical (execGovernorEvaluate g s) :=
  State.upd_canonical hk fun h hk => by simp [hk.1, hk.2]

@[simp] theorem execGovernorComparatorWake_canonical (g : GovSample) : Out.Canonical (execGovernorComparatorWake g s) := by
  refine State.upd_canonical hk fun h hk => ?_
  (repeat' split) <;> simp [hk.1, hk.2]

/-! ## The rows of the store -/

@[simp] theorem execRecordAppended_canonical (slot : Fin 128) (verifyOk : Bool) :
    Out.Canonical (execRecordAppended slot verifyOk s) := by
  refine State.upd_canonical hk fun h hk => ?_
  dsimp only
  (repeat' split) <;> simp [hk.1, hk.2]

@[simp] theorem execAppendAfterReclaim_canonical : Out.Canonical (execAppendAfterReclaim s) := by
  refine State.upd_canonical hk fun h hk => ?_
  (repeat' split) <;> simp [hk.1, hk.2]

@[simp] theorem execDeferredSigningEnd_canonical : Out.Canonical (execDeferredSigningEnd s) := by
  refine State.upd_canonical hk fun h hk => ?_
  (repeat' split) <;> simp [hk.1, hk.2]

@[simp] theorem execFlashEraseComplete_canonical (verifyOk : Bool) : Out.Canonical (execFlashEraseComplete verifyOk s) := by
  refine State.upd_canonical hk fun h hk => ?_
  dsimp only
  (repeat' split) <;> simp [hk.1, hk.2]

@[simp] theorem execFlashProgramComplete_canonical (verifyOk : Bool) : Out.Canonical (execFlashProgramComplete verifyOk s) := by
  refine State.upd_canonical hk fun h hk => ?_
  dsimp only
  (repeat' split) <;> simp [hk.1, hk.2]

@[simp] theorem execIdleCompaction_canonical (r : Ring) : Out.Canonical (execIdleCompaction r s) := by
  refine State.upd_canonical hk fun h hk => ?_
  (repeat' split) <;> simp [hk.1, hk.2]

@[simp] theorem execSramScrub_canonical (fs : List EccFinding) : Out.Canonical (execSramScrub fs s) := by
  refine State.upd_canonical hk fun h hk => ?_
  dsimp only
  split
  · simp [foldl_cells, foldl_fw', hk.1, hk.2]
  · exact hk

/-! ## Metering commands -/

@[simp] theorem execMetroStatus_canonical (o : Origin) (chan : Byte) : Out.Canonical (execMetroStatus o chan s) := by
  refine State.served_canonical hk fun h hk => ?_
  (repeat' split) <;> simp [hk.1, hk.2]

@[simp] theorem execMetroRead_canonical (o : Origin) (chan : Byte) : Out.Canonical (execMetroRead o chan s) := by
  refine State.served_canonical hk fun h hk => ?_
  (repeat' split) <;> simp [hk.1, hk.2]

@[simp] theorem execRegisterRead_canonical (o : Origin) (mask : Half) : Out.Canonical (execRegisterRead o mask s) := by
  refine State.served_canonical hk fun h hk => ?_
  (repeat' split) <;> simp [hk.1, hk.2]

@[simp] theorem execOpenSession_canonical (o : Origin) (mask : Half) (sid : List Byte) :
    Out.Canonical (execOpenSession o mask sid s) := by
  refine State.served_canonical hk fun h hk => ?_
  (repeat' split) <;> simp [hk.1, hk.2]

@[simp] theorem execCloseSession_canonical (o : Origin) (slot : Byte) (sid : List Byte) :
    Out.Canonical (execCloseSession o slot sid s) := by
  refine State.served_canonical hk fun h hk => ?_
  dsimp only
  (repeat' split) <;> simp [hk.1, hk.2]

@[simp] theorem execSessionStatus_canonical (o : Origin) (slot : Byte) : Out.Canonical (execSessionStatus o slot s) := by
  refine State.served_canonical hk fun h hk => ?_
  (repeat' split) <;> simp [hk.1, hk.2]

@[simp] theorem execRecordRead_canonical (o : Origin) (seq : Word) : Out.Canonical (execRecordRead o seq s) := by
  refine State.served_canonical hk fun h hk => ?_
  dsimp only
  (repeat' split) <;> simp [hk.1, hk.2]

@[simp] theorem execRecordAck_canonical (o : Origin) (n : Word) : Out.Canonical (execRecordAck o n s) := by
  refine State.served_canonical hk fun h hk => ?_
  (repeat' split) <;> simp [hk.1, hk.2]

@[simp] theorem execPublicKeyRead_canonical (o : Origin) (gen : Word) : Out.Canonical (execPublicKeyRead o gen s) := by
  refine State.served_canonical hk fun h hk => ?_
  dsimp only
  (repeat' split) <;> simp [hk.1, hk.2]

@[simp] theorem execCalWrite_canonical (o : Origin) (chan : Byte) (rsv : BitVec 24) (block : List Byte) :
    Out.Canonical (execCalWrite o chan rsv block s) := by
  refine State.served_canonical hk fun h hk => ?_
  dsimp only
  (repeat' split) <;> simp [hk.1, hk.2]

@[simp] theorem execCalRead_canonical (o : Origin) (chan : Byte) : Out.Canonical (execCalRead o chan s) := by
  refine State.served_canonical hk fun h hk => ?_
  (repeat' split) <;> simp [hk.1, hk.2]

@[simp] theorem execSeal_canonical (o : Origin) : Out.Canonical (execSeal o s) := by
  refine State.served_canonical hk fun h hk => ?_
  (repeat' split) <;> simp [hk.1, hk.2]

/-! ## Holdup -/

@[simp] theorem execPreconditionDone_canonical : Out.Canonical (execPreconditionDone s) := by
  refine State.upd_canonical hk fun h hk => ?_
  (repeat' split) <;> simp [hk.1, hk.2]

@[simp] theorem execCvReached_canonical : Out.Canonical (execCvReached s) := by
  refine State.upd_canonical hk fun h hk => ?_
  (repeat' split) <;> simp [hk.1, hk.2]

@[simp] theorem execChargeTermination_canonical : Out.Canonical (execChargeTermination s) := by
  refine State.upd_canonical hk fun h hk => ?_
  (repeat' split) <;> simp [hk.1, hk.2]

@[simp] theorem execTopoffEnd_canonical : Out.Canonical (execTopoffEnd s) := by
  refine State.upd_canonical hk fun h hk => ?_
  (repeat' split) <;> simp [hk.1, hk.2]

@[simp] theorem execRecharge_canonical : Out.Canonical (execRecharge s) := by
  refine State.upd_canonical hk fun h hk => ?_
  (repeat' split) <;> simp [hk.1, hk.2]

@[simp] theorem execChargeTimerExpiry_canonical : Out.Canonical (execChargeTimerExpiry s) := by
  refine State.upd_canonical hk fun h hk => ?_
  (repeat' split) <;> simp [hk.1, hk.2]

@[simp] theorem execPreconditionTimeout_canonical : Out.Canonical (execPreconditionTimeout s) := by
  refine State.upd_canonical hk fun h hk => ?_
  (repeat' split) <;> simp [hk.1, hk.2]

@[simp] theorem execChargerBandChange_canonical (temp : Int) : Out.Canonical (execChargerBandChange temp s) := by
  refine State.upd_canonical hk fun h hk => ?_
  dsimp only
  (repeat' split) <;> simp [hk.1, hk.2]

@[simp] theorem execChargerRestartEval_canonical : Out.Canonical (execChargerRestartEval s) := by
  refine State.upd_canonical hk fun h hk => ?_
  dsimp only
  (repeat' split) <;> simp [hk.1, hk.2]

@[simp] theorem execPackProbe_canonical (sample : ProbeSample) : Out.Canonical (execPackProbe sample s) := by
  refine State.upd_canonical hk fun h hk => ?_
  dsimp only
  (repeat' split) <;> simp [hk.1, hk.2]

@[simp] theorem execKeepaliveTimeout_canonical : Out.Canonical (execKeepaliveTimeout s) := by
  refine State.upd_canonical hk fun h hk => ?_
  (repeat' split) <;> simp [hk.1, hk.2]

@[simp] theorem execGaugeUpdate_canonical (g : GaugeSample) : Out.Canonical (execGaugeUpdate g s) := by
  refine State.upd_canonical hk fun h hk => ?_
  (repeat' split) <;> simp [hk.1, hk.2]

@[simp] theorem execRestPoint_canonical (ocv : Nat) : Out.Canonical (execRestPoint ocv s) := by
  refine State.upd_canonical hk fun h hk => ?_
  dsimp only
  (repeat' split) <;> simp [hk.1, hk.2]

@[simp] theorem execNoRest_canonical : Out.Canonical (execNoRest s) := by
  refine State.upd_canonical hk fun h hk => ?_
  (repeat' split) <;> simp [hk.1, hk.2]

@[simp] theorem execPackFoundOcv_canonical (ocv : Nat) : Out.Canonical (execPackFoundOcv ocv s) := by
  refine State.upd_canonical hk fun h hk => ?_
  (repeat' split) <;> simp [hk.1, hk.2]

@[simp] theorem execGaugeStateCheckpoint_canonical : Out.Canonical (execGaugeStateCheckpoint s) := by
  refine State.upd_canonical hk fun h hk => ?_
  (repeat' split) <;> simp [hk.1, hk.2]

/-! ## Battery commands -/

@[simp] theorem execChargerSet_canonical (o : Origin) (chgEn : Byte) (iChg : Byte) (cvReduce : Byte) (iTerm : Half)
    (tTop : Byte) (vRech : Byte) :
    Out.Canonical (execChargerSet o chgEn iChg cvReduce iTerm tTop vRech s) := by
  refine State.served_canonical hk fun h hk => ?_
  (repeat' split) <;> simp [hk.1, hk.2]

@[simp] theorem execChargerKeepalive_canonical (o : Origin) : Out.Canonical (execChargerKeepalive o s) :=
  State.served_canonical hk fun h hk => by simp [hk.1, hk.2]

@[simp] theorem execChargerStatus_canonical (o : Origin) : Out.Canonical (execChargerStatus o s) :=
  State.served_canonical hk fun h hk => by simp [hk.1, hk.2]

@[simp] theorem execGaugeRead_canonical (o : Origin) : Out.Canonical (execGaugeRead o s) :=
  State.served_canonical hk fun h hk => by simp [hk.1, hk.2]

@[simp] theorem execGaugeResetLearn_canonical (o : Origin) : Out.Canonical (execGaugeResetLearn o s) :=
  State.served_canonical hk fun h hk => by simp [hk.1, hk.2]

@[simp] theorem execGaugeTableLoad_canonical (o : Origin) (points : List (Half × Half)) :
    Out.Canonical (execGaugeTableLoad o points s) := by
  refine State.served_canonical hk fun h hk => ?_
  dsimp only
  (repeat' split) <;> simp [hk.1, hk.2]

@[simp] theorem execBackupSet_canonical (o : Origin) (en : Byte) (vCut : Half) (tMin : Byte) (tMax : Byte) (lowSoc : Byte) :
    Out.Canonical (execBackupSet o en vCut tMin tMax lowSoc s) := by
  refine State.served_canonical hk fun h hk => ?_
  (repeat' split) <;> simp [hk.1, hk.2]

/-! ## Store commands -/

@[simp] theorem execBulkRead_canonical (o : Origin) (region : Byte) (rsv : BitVec 24) (offset : Word) (len : Byte) :
    Out.Canonical (execBulkRead o region rsv offset len s) := by
  refine State.served_canonical hk fun h hk => ?_
  dsimp only
  (repeat' split) <;> simp [hk.1, hk.2]

@[simp] theorem execStoreRead_canonical (o : Origin) (key : Half) : Out.Canonical (execStoreRead o key s) := by
  refine State.served_canonical hk fun h hk => ?_
  dsimp only
  (repeat' split) <;> simp [hk.1, hk.2]

@[simp] theorem execStoreWrite_canonical (o : Origin) (key : Half) (len : Byte) (rsv : Byte) (payload : List Byte) :
    Out.Canonical (execStoreWrite o key len rsv payload s) := by
  refine State.served_canonical hk fun h hk => ?_
  (repeat' split) <;> simp [hk.1, hk.2]

@[simp] theorem execConfigWrite_canonical (o : Origin) (offset : Word) (len : Byte) (rsv : BitVec 24) (data : List Byte) :
    Out.Canonical (execConfigWrite o offset len rsv data s) := by
  refine State.served_canonical hk fun h hk => ?_
  dsimp only
  split
  · simp [hk.1, hk.2]
  · split
    · simp [hk.1, hk.2]
    · obtain ⟨⟨hac, har, hvc, hvr, ht, hs, hr⟩, hf⟩ := hk
      have hw : ({ h with store := { h.store with staging := Cells.putAll 0xFF h.store.staging offset.toNat data } } :
          Hw).Canonical :=
        ⟨⟨hac, har, hvc, hvr, Cells.wf_putAll 0xFF _ _ _ ht, hs, hr⟩, hf⟩
      exact ⟨by rw [Hw.ok_cells]; exact hw.1, by rw [Hw.ok_fw]; exact hw.2⟩

@[simp] theorem execConfigCommit_canonical (o : Origin) (len : Word) (crc : Word) :
    Out.Canonical (execConfigCommit o len crc s) := by
  refine State.served_canonical hk fun h hk => ?_
  dsimp only
  (repeat' split) <;> simp [hk.1, hk.2]

@[simp] theorem execStoreStatus_canonical (o : Origin) : Out.Canonical (execStoreStatus o s) :=
  State.served_canonical hk fun h hk => by simp [hk.1, hk.2]

/-! ## Blocks -/

@[simp] theorem execBlockEnd_canonical (cs : List (List ModBits)) : Out.Canonical (execBlockEnd cs s) := by
  refine State.upd_canonical hk fun h hk => ?_
  (repeat' split) <;> simp [hk.1, hk.2]

@[simp] theorem execComparison_canonical : Out.Canonical (execComparison s) := by
  refine State.upd_canonical hk fun h hk => ?_
  dsimp only
  split
  · generalize h.metro.ivEnd + 5000 = t
    simp [foldl_cells, foldl_fw', hk.1, hk.2]
  · exact hk

@[simp] theorem execStuckBitstream_canonical (ch : Fin 8) : Out.Canonical (execStuckBitstream ch s) := by
  refine State.upd_canonical hk fun h hk => ?_
  (repeat' split) <;> simp [hk.1, hk.2]

@[simp] theorem execInputCauseClear_canonical (ch : Fin 8) : Out.Canonical (execInputCauseClear ch s) := by
  refine State.upd_canonical hk fun h hk => ?_
  (repeat' split) <;> simp [hk.1, hk.2]

@[simp] theorem execCheckpointBase_canonical (ch : Fin 8) (dir : Bool) : Out.Canonical (execCheckpointBase ch dir s) := by
  refine State.upd_canonical hk fun h hk => ?_
  dsimp only
  (repeat' split) <;> simp [hk.1, hk.2]

/-! ## Diagnostics -/

@[simp] theorem execFollyInject_canonical (o : Origin) (checker : Byte) (count : Byte) :
    Out.Canonical (execFollyInject o checker count s) := by
  refine State.served_canonical hk fun h hk => ?_
  dsimp only
  (repeat' split) <;> simp [hk.1, hk.2]

@[simp] theorem execFollyForce_canonical (o : Origin) (source : Byte) (action : Byte) :
    Out.Canonical (execFollyForce o source action s) := by
  refine State.served_canonical hk fun h hk => ?_
  dsimp only
  (repeat' split) <;> simp [hk.1, hk.2]

@[simp] theorem execDiagCompare_canonical (o : Origin) (mode : Byte) (region : Byte) (first : Word) (count : Half) :
    Out.Canonical (execDiagCompare o mode region first count s) := by
  refine State.served_canonical hk fun h hk => ?_
  dsimp only
  (repeat' split) <;> simp [hk.1, hk.2]

@[simp] theorem execDiagSelftest_canonical (o : Origin) (target : Byte) : Out.Canonical (execDiagSelftest o target s) := by
  refine State.served_canonical hk fun h hk => ?_
  dsimp only
  (repeat' split) <;> simp [hk.1, hk.2]

/-! ## Fault commands -/

@[simp] theorem execEventCountersClear_canonical (o : Origin) (mask : DWord) :
    Out.Canonical (execEventCountersClear o mask s) :=
  State.served_canonical hk fun h hk => by simp [hk.1, hk.2]

@[simp] theorem execFaultRead_canonical (o : Origin) (flags : Byte) : Out.Canonical (execFaultRead o flags s) := by
  refine State.served_canonical hk fun h hk => ?_
  (repeat' split) <;> simp [hk.1, hk.2]

@[simp] theorem execFaultPolicySet_canonical (o : Origin) (cls : Byte) (reaction : Byte) :
    Out.Canonical (execFaultPolicySet o cls reaction s) := by
  refine State.served_canonical hk fun h hk => ?_
  dsimp only
  (repeat' split) <;> simp [hk.1, hk.2]

@[simp] theorem execFaultLogRead_canonical (o : Origin) (first : Word) (count : Byte) :
    Out.Canonical (execFaultLogRead o first count s) := by
  refine State.served_canonical hk fun h hk => ?_
  dsimp only
  (repeat' split) <;> simp [hk.1, hk.2]

/-! ## Life-cycle commands -/

@[simp] theorem execLifecycleGet_canonical (o : Origin) : Out.Canonical (execLifecycleGet o s) :=
  State.served_canonical hk fun h hk => by simp [hk.1, hk.2]

@[simp] theorem execLifecycleAdvance_canonical (o : Origin) (target : Byte) :
    Out.Canonical (execLifecycleAdvance o target s) := by
  refine State.served_canonical hk fun h hk => ?_
  (repeat' split) <;> simp [hk.1, hk.2]

@[simp] theorem execFwStage_canonical (o : Origin) (offset : Word) (len : Byte) (rsv : BitVec 24) (data : List Byte) :
    Out.Canonical (execFwStage o offset len rsv data s) := by
  refine State.served_canonical hk fun h hk => ?_
  have ht : (h.transfer 14 data.length).1.Canonical := by simp [hk.1, hk.2]
  dsimp only
  generalize h.transfer 14 data.length = t at ht
  have hunstage (g : Hw) (hg : g.Canonical) : (g.fw.unstage).Ok := Fw.unstage_ok hg.2
  (repeat' split) <;> simp [hunstage, ht.1, ht.2, hk.1, hk.2]

@[simp] theorem execFwVerify_canonical (o : Origin) (len : Word) : Out.Canonical (execFwVerify o len s) := by
  refine State.served_canonical hk fun h hk => ?_
  let x := (h.fw.slot (!h.fw.runB)).parsed h.factory.fwKey
  have hgood := Fw.ok_setSlot hk.2 (!h.fw.runB) (x := x) (Fw.slot_wf hk.2 _)
  have hbad := Fw.ok_setSlot hk.2 (!h.fw.runB) (x := { x with bodyOk := false }) (Fw.slot_wf hk.2 _)
  dsimp only
  (repeat' split) <;> simp [x, hgood, hbad, hk.1, hk.2]

@[simp] theorem execFwActivate_canonical (o : Origin) (flags : Byte) : Out.Canonical (execFwActivate o flags s) := by
  refine State.served_canonical hk fun h hk => ?_
  (repeat' split) <;> simp [hk.1, hk.2]

@[simp] theorem execIdentityCertRead_canonical (o : Origin) (offset : Half) (len : Byte) :
    Out.Canonical (execIdentityCertRead o offset len s) := by
  refine State.served_canonical hk fun h hk => ?_
  dsimp only
  (repeat' split) <;> simp [hk.1, hk.2]

@[simp] theorem execRetire_canonical (o : Origin) (flags : Byte) : Out.Canonical (execRetire o flags s) := by
  refine State.served_canonical hk fun h hk => ?_
  (repeat' split) <;> simp [hk.1, hk.2]

/-! ## The voltage link -/

@[simp] theorem execSlewStep_canonical (k : Fin 12) (paused : Bool) : Out.Canonical (execSlewStep k paused s) := by
  refine State.upd_canonical hk fun h hk => ?_
  (repeat' split) <;> simp [hk.1, hk.2]

@[simp] theorem execSettled_canonical (k : Fin 4) : Out.Canonical (execSettled k s) := by
  refine State.upd_canonical hk fun h hk => ?_
  (repeat' split) <;> simp [hk.1, hk.2]

@[simp] theorem execVclSlewStall_canonical (k : Fin 4) : Out.Canonical (execVclSlewStall k s) := by
  refine State.upd_canonical hk fun h hk => ?_
  (repeat' split) <;> simp [hk.1, hk.2]

@[simp] theorem execSlewEpisodeEnd_canonical (k : Fin 12) : Out.Canonical (execSlewEpisodeEnd k s) := by
  refine State.upd_canonical hk fun h hk => ?_
  dsimp only
  (repeat' split) <;> simp [hk.1, hk.2]

@[simp] theorem execRampEnd_canonical (k : Fin 12) : Out.Canonical (execRampEnd k s) := by
  refine State.upd_canonical hk fun h hk => ?_
  dsimp only
  (repeat' split) <;> simp [hk.1, hk.2]

@[simp] theorem execVclNop_canonical (op : BitVec 4) (rail : BitVec 2) (tog : Bool) (payload : Half) (crc : BitVec 4) :
    Out.Canonical (execVclNop op rail tog payload crc s) :=
  State.upd_canonical hk fun _ hk => Hw.vclRequest_canonical hk _ _ _ _ _ _ _ fun g k hg => by simp [hg.1, hg.2]

@[simp] theorem execSetv_canonical (rail : BitVec 2) (tog : Bool) (payload : Half) (crc : BitVec 4) :
    Out.Canonical (execSetv rail tog payload crc s) := by
  refine State.upd_canonical hk fun h hk => ?_
  dsimp only
  simp [apply_ite Hw.cells, apply_ite Hw.fw, hk.1, hk.2]

@[simp] theorem execHint_canonical (rail : BitVec 2) (tog : Bool) (payload : Half) (crc : BitVec 4) (iOut : Int) :
    Out.Canonical (execHint rail tog payload crc iOut s) := by
  refine State.upd_canonical hk fun h hk => ?_
  dsimp only
  simp [apply_ite Hw.cells, apply_ite Hw.fw, hk.1, hk.2]

@[simp] theorem execGetv_canonical (rail : BitVec 2) (tog : Bool) (payload : Half) (crc : BitVec 4) :
    Out.Canonical (execGetv rail tog payload crc s) :=
  State.upd_canonical hk fun _ hk => Hw.vclRequest_canonical hk _ _ _ _ _ _ _ fun g k hg => by simp [hg.1, hg.2]

@[simp] theorem execGeti_canonical (rail : BitVec 2) (tog : Bool) (payload : Half) (crc : BitVec 4) (ma10 : Int) :
    Out.Canonical (execGeti rail tog payload crc ma10 s) :=
  State.upd_canonical hk fun _ hk => Hw.vclRequest_canonical hk _ _ _ _ _ _ _ fun g k hg => by simp [hg.1, hg.2]

@[simp] theorem execGetvm_canonical (rail : BitVec 2) (tog : Bool) (payload : Half) (crc : BitVec 4) (mv : Nat) :
    Out.Canonical (execGetvm rail tog payload crc mv s) :=
  State.upd_canonical hk fun _ hk => Hw.vclRequest_canonical hk _ _ _ _ _ _ _ fun g k hg => by simp [hg.1, hg.2]

@[simp] theorem execTruncated_canonical (op : BitVec 4) (rail : BitVec 2) : Out.Canonical (execTruncated op rail s) := by
  refine State.upd_canonical hk fun h hk => ?_
  (repeat' split) <;> simp [hk.1, hk.2]

/-! ## Ports -/

@[simp] theorem execEppresFall_canonical (p : Fin 6) : Out.Canonical (execEppresFall p s) := by
  refine State.upd_canonical hk fun h hk => ?_
  dsimp only
  (repeat' split) <;> simp [hk.1, hk.2]

@[simp] theorem execEpSeatingStable_canonical (p : Fin 6) : Out.Canonical (execEpSeatingStable p s) := by
  refine State.upd_canonical hk fun h hk => ?_
  dsimp only
  (repeat' split) <;> simp [hk.1, hk.2]

@[simp] theorem execDescReadComplete_canonical (p : Fin 6) (read : Option (List Byte)) :
    Out.Canonical (execDescReadComplete p read s) := by
  refine State.upd_canonical hk fun h hk => ?_
  (repeat' split) <;> simp [hk.1, hk.2]

@[simp] theorem execDescReadRetry_canonical (p : Fin 6) : Out.Canonical (execDescReadRetry p s) := by
  refine State.upd_canonical hk fun h hk => ?_
  (repeat' split) <;> simp [hk.1, hk.2]

@[simp] theorem execDescReadTimeout_canonical (p : Fin 6) : Out.Canonical (execDescReadTimeout p s) := by
  refine State.upd_canonical hk fun h hk => ?_
  (repeat' split) <;> simp [hk.1, hk.2]

@[simp] theorem execEpPrechargeComplete_canonical (p : Fin 6) : Out.Canonical (execEpPrechargeComplete p s) := by
  refine State.upd_canonical hk fun h hk => ?_
  (repeat' split) <;> simp [hk.1, hk.2]

@[simp] theorem execPrechargeTimeout_canonical (p : Fin 6) : Out.Canonical (execPrechargeTimeout p s) := by
  refine State.upd_canonical hk fun h hk => ?_
  (repeat' split) <;> simp [hk.1, hk.2]

@[simp] theorem execEpPrechargeIntervalEnd_canonical (p : Fin 6) : Out.Canonical (execEpPrechargeIntervalEnd p s) := by
  refine State.upd_canonical hk fun h hk => ?_
  dsimp only
  (repeat' split) <;> simp [hk.1, hk.2]

@[simp] theorem execEpStartupEnd_canonical (p : Fin 6) : Out.Canonical (execEpStartupEnd p s) := by
  refine State.upd_canonical hk fun h hk => ?_
  (repeat' split) <;> simp [hk.1, hk.2]

@[simp] theorem execStartupFail_canonical (p : Fin 6) : Out.Canonical (execStartupFail p s) := by
  refine State.upd_canonical hk fun h hk => ?_
  (repeat' split) <;> simp [hk.1, hk.2]

@[simp] theorem execOcSustained_canonical (p : Fin 6) : Out.Canonical (execOcSustained p s) := by
  refine State.upd_canonical hk fun h hk => ?_
  (repeat' split) <;> simp [hk.1, hk.2]

@[simp] theorem execOcFast_canonical (p : Fin 6) : Out.Canonical (execOcFast p s) := by
  refine State.upd_canonical hk fun h hk => ?_
  (repeat' split) <;> simp [hk.1, hk.2]

@[simp] theorem execReverse_canonical (p : Fin 6) : Out.Canonical (execReverse p s) := by
  refine State.upd_canonical hk fun h hk => ?_
  (repeat' split) <;> simp [hk.1, hk.2]

@[simp] theorem execEppresRise_canonical (p : Fin 6) : Out.Canonical (execEppresRise p s) := by
  refine State.upd_canonical hk fun h hk => ?_
  dsimp only
  (repeat' split) <;> simp [hk.1, hk.2]

@[simp] theorem execEpHeldRestart_canonical (p : Fin 6) : Out.Canonical (execEpHeldRestart p s) := by
  refine State.upd_canonical hk fun h hk => ?_
  dsimp only
  (repeat' split) <;> simp [hk.1, hk.2]

@[simp] theorem execArbitrationLoss_canonical : Out.Canonical (execArbitrationLoss s) := by
  refine State.upd_canonical hk fun h hk => ?_
  (repeat' split) <;> simp [hk.1, hk.2]

@[simp] theorem execArbLostCond_canonical : Out.Canonical (execArbLostCond s) := by
  refine State.upd_canonical hk fun h hk => ?_
  (repeat' split) <;> simp [hk.1, hk.2]

@[simp] theorem execAccTransactionRestart_canonical : Out.Canonical (execAccTransactionRestart s) :=
  State.upd_canonical hk fun h hk => by simp [hk.1, hk.2]

@[simp] theorem execAccAddressNackRetry_canonical : Out.Canonical (execAccAddressNackRetry s) := by
  refine State.upd_canonical hk fun h hk => ?_
  (repeat' split) <;> simp [hk.1, hk.2]

@[simp] theorem execSdaStuckLow_canonical : Out.Canonical (execSdaStuckLow s) := by
  refine State.upd_canonical hk fun h hk => ?_
  (repeat' split) <;> simp [hk.1, hk.2]

@[simp] theorem execSclHeldLow_canonical : Out.Canonical (execSclHeldLow s) := by
  refine State.upd_canonical hk fun h hk => ?_
  dsimp only
  (repeat' split) <;> simp [hk.1, hk.2]

/-! ## Power commands -/

@[simp] theorem execPowerUp_canonical (o : Origin) : Out.Canonical (execPowerUp o s) := by
  refine State.served_canonical hk fun h hk => ?_
  (repeat' split) <;> simp [hk.1, hk.2]

@[simp] theorem execPowerDown_canonical (o : Origin) : Out.Canonical (execPowerDown o s) := by
  refine State.served_canonical hk fun h hk => ?_
  (repeat' split) <;> simp [hk.1, hk.2]

@[simp] theorem execSeqStatus_canonical (o : Origin) : Out.Canonical (execSeqStatus o s) :=
  State.served_canonical hk fun h hk => by simp [hk.1, hk.2]

@[simp] theorem execClearFault_canonical (o : Origin) : Out.Canonical (execClearFault o s) := by
  refine State.served_canonical hk fun h hk => ?_
  (repeat' split) <;> simp [hk.1, hk.2]

@[simp] theorem execRailSet_canonical (o : Origin) (output : Byte) (code : Half) :
    Out.Canonical (execRailSet o output code s) := by
  refine State.served_canonical hk fun h hk => ?_
  dsimp only
  (repeat' split) <;> simp [hk.1, hk.2]

@[simp] theorem execRailGet_canonical (o : Origin) (output : Byte) : Out.Canonical (execRailGet o output s) := by
  refine State.served_canonical hk fun h hk => ?_
  (repeat' split) <;> simp [hk.1, hk.2]

@[simp] theorem execRailEnable_canonical (o : Origin) (output : Byte) (on : Byte) :
    Out.Canonical (execRailEnable o output on s) := by
  refine State.served_canonical hk fun h hk => ?_
  dsimp only
  (repeat' split) <;> simp [hk.1, hk.2]

@[simp] theorem execSupervisorSet_canonical (o : Origin) (output : Byte) (uv : Byte) (ov : Byte) (filt : Byte) :
    Out.Canonical (execSupervisorSet o output uv ov filt s) := by
  refine State.served_canonical hk fun h hk => ?_
  (repeat' split) <;> simp [hk.1, hk.2]

@[simp] theorem execPoolAssign_canonical (o : Origin) (phase : Byte) (owner : Byte) :
    Out.Canonical (execPoolAssign o phase owner s) := by
  refine State.served_canonical hk fun h hk => ?_
  dsimp only
  (repeat' split) <;> simp [hk.1, hk.2]

@[simp] theorem execPoolStatus_canonical (o : Origin) : Out.Canonical (execPoolStatus o s) :=
  State.served_canonical hk fun h hk => by simp [hk.1, hk.2]

@[simp] theorem execPortSet_canonical (o : Origin) (port : Byte) (enable : Byte) (ilim : Byte) :
    Out.Canonical (execPortSet o port enable ilim s) := by
  refine State.served_canonical hk fun h hk => ?_
  (repeat' split) <;> simp [hk.1, hk.2]

@[simp] theorem execPortStatus_canonical (o : Origin) (port : Byte) : Out.Canonical (execPortStatus o port s) := by
  refine State.served_canonical hk fun h hk => ?_
  (repeat' split) <;> simp [hk.1, hk.2]

@[simp] theorem execBudgetSet_canonical (o : Origin) (vinW : Half) (batW : Half) (tCap : Byte) :
    Out.Canonical (execBudgetSet o vinW batW tCap s) := by
  refine State.served_canonical hk fun h hk => ?_
  dsimp only
  (repeat' split) <;> simp [hk.1, hk.2]

/-! ## Link commands -/

@[simp] theorem execPromStatus_canonical (o : Origin) : Out.Canonical (execPromStatus o s) :=
  State.served_canonical hk fun h hk => by simp [hk.1, hk.2]

@[simp] theorem execPromRoster_canonical (o : Origin) (first : Byte) (count : Byte) :
    Out.Canonical (execPromRoster o first count s) := by
  refine State.served_canonical hk fun h hk => ?_
  dsimp only
  (repeat' split) <;> simp [hk.1, hk.2]

@[simp] theorem execPromAdmitPolicy_canonical (o : Origin) (mask : Half) (policy : Byte) :
    Out.Canonical (execPromAdmitPolicy o mask policy s) := by
  refine State.served_canonical hk fun h hk => ?_
  (repeat' split) <;> simp [hk.1, hk.2]

/-! ## System commands -/

@[simp] theorem execNop_canonical (o : Origin) : Out.Canonical (execNop o s) :=
  State.served_canonical hk fun h hk => by simp [hk.1, hk.2]

@[simp] theorem execIdent_canonical (o : Origin) : Out.Canonical (execIdent o s) :=
  State.served_canonical hk fun h hk => by simp [hk.1, hk.2]

@[simp] theorem execGetStatus_canonical (o : Origin) : Out.Canonical (execGetStatus o s) :=
  State.served_canonical hk fun h hk => by simp [hk.1, hk.2]

@[simp] theorem execJobStatus_canonical (o : Origin) (job : Half) : Out.Canonical (execJobStatus o job s) :=
  State.served_canonical hk fun h hk => by simp [hk.1, hk.2]

@[simp] theorem execCoreReset_canonical (o : Origin) (key : Byte) : Out.Canonical (execCoreReset o key s) := by
  refine State.served_canonical hk fun h hk => ?_
  (repeat' split) <;> simp [hk.1, hk.2]

@[simp] theorem execModuleRestart_canonical (o : Origin) (key : Byte) : Out.Canonical (execModuleRestart o key s) := by
  refine State.served_canonical hk fun h hk => ?_
  (repeat' split) <;> simp [hk.1, hk.2]

@[simp] theorem execConfigUnlock_canonical (o : Origin) (mode : Byte) : Out.Canonical (execConfigUnlock o mode s) := by
  refine State.served_canonical hk fun h hk => ?_
  dsimp only
  (repeat' split) <;> simp [hk.1, hk.2]

@[simp] theorem execConfigUnlockResponse_canonical (o : Origin) (mac : List Byte) :
    Out.Canonical (execConfigUnlockResponse o mac s) := by
  refine State.served_canonical hk fun h hk => ?_
  dsimp only
  (repeat' split) <;> simp [hk.1, hk.2]

@[simp] theorem execServicePrepare_canonical (o : Origin) : Out.Canonical (execServicePrepare o s) := by
  refine State.served_canonical hk fun h hk => ?_
  (repeat' split) <;> simp [hk.1, hk.2]

@[simp] theorem execEnterStandby_canonical (o : Origin) (wake : Byte) : Out.Canonical (execEnterStandby o wake s) := by
  refine State.served_canonical hk fun h hk => ?_
  dsimp only
  (repeat' split) <;> simp [hk.1, hk.2]

@[simp] theorem execEnterIcehouse_canonical (o : Origin) (arm : Byte) : Out.Canonical (execEnterIcehouse o arm s) := by
  refine State.served_canonical hk fun h hk => ?_
  (repeat' split) <;> simp [hk.1, hk.2]

/-! ## Telemetry commands -/

@[simp] theorem execTelemRead_canonical (o : Origin) (block : Byte) : Out.Canonical (execTelemRead o block s) := by
  refine State.served_canonical hk fun h hk => ?_
  (repeat' split) <;> simp [hk.1, hk.2]

@[simp] theorem execTelemPeaks_canonical (o : Origin) (output : Byte) : Out.Canonical (execTelemPeaks o output s) := by
  refine State.served_canonical hk fun h hk => ?_
  dsimp only
  (repeat' split) <;> simp [hk.1, hk.2]

@[simp] theorem execAdcScanSet_canonical (o : Origin) (mask : DWord) (interval : Byte) (refMode : Byte) (tAvg : Half) :
    Out.Canonical (execAdcScanSet o mask interval refMode tAvg s) := by
  refine State.served_canonical hk fun h hk => ?_
  dsimp only
  (repeat' split) <;> simp [hk.1, hk.2]

@[simp] theorem execAdcRead_canonical (o : Origin) (first : Byte) (count : Byte) :
    Out.Canonical (execAdcRead o first count s) := by
  refine State.served_canonical hk fun h hk => ?_
  dsimp only
  (repeat' split) <;> simp [hk.1, hk.2]

@[simp] theorem execEnergyRead_canonical (o : Origin) : Out.Canonical (execEnergyRead o s) :=
  State.served_canonical hk fun h hk => by simp [hk.1, hk.2]

/-! ## Time commands -/

@[simp] theorem execTimeSet_canonical (o : Origin) (value : DWord) (flags : Byte) :
    Out.Canonical (execTimeSet o value flags s) := by
  refine State.served_canonical hk fun h hk => ?_
  (repeat' split) <;> simp [hk.1, hk.2]

@[simp] theorem execTimeGet_canonical (o : Origin) : Out.Canonical (execTimeGet o s) :=
  State.served_canonical hk fun h hk => by simp [hk.1, hk.2]

@[simp] theorem execTrimSet_canonical (o : Origin) (trim : Half) (band : List Byte) :
    Out.Canonical (execTrimSet o trim band s) := by
  refine State.served_canonical hk fun h hk => ?_
  dsimp only
  (repeat' split) <;> simp [hk.1, hk.2]

@[simp] theorem execAlarmSet_canonical (o : Origin) (alarm : Byte) (action : Byte) (flags : Byte) (rsv : Byte) (value : DWord) :
    Out.Canonical (execAlarmSet o alarm action flags rsv value s) := by
  refine State.served_canonical hk fun h hk => ?_
  (repeat' split) <;> simp [hk.1, hk.2]

@[simp] theorem execAlarmStatus_canonical (o : Origin) : Out.Canonical (execAlarmStatus o s) :=
  State.served_canonical hk fun h hk => by simp [hk.1, hk.2]

/-! ## Engines -/

@[simp] theorem execThermalModelUpdate_canonical (amps : UnscannedAmps) : Out.Canonical (execThermalModelUpdate amps s) := by
  refine State.upd_canonical hk fun h hk => ?_
  dsimp only
  (repeat' split) <;> simp [hk.1, hk.2]

@[simp] theorem execBulkBurst_canonical (posts : List BulkPost) (requests : BitVec 16) (parityError : Bool) :
    Out.Canonical (execBulkBurst posts requests parityError s) := by
  refine State.upd_canonical hk fun h hk => ?_
  extract_lets posts' requests' _ g0 g1 g2
  split
  · exact hk
  · have hg0 : g0.Canonical := Hw.postAll_canonical hk posts'
    have hg1 : g1.Canonical := by
      simp only [g1]
      split <;> simp [hg0.1, hg0.2]
    have hg2 : g2.Canonical := by
      simp only [g2]
      split <;> simp [hg1.1, hg1.2]
    simp [hg2.1, hg2.2]

end

end Sys2Proof.Machine
end

section
/-! SUPPORT. The invariant of the addressed buffers (R404, R445, R499, R530). -/

namespace Sys2Proof.Machine

theorem exec_canonical {s : State} (hk : s.hw.Canonical) (c : Instr) : Out.Canonical (exec c s) := by
  cases c <;> simp [exec, hk.1, hk.2]

theorem step_canonical {s : State} (hk : s.hw.Canonical) : Out.Canonical (step s) := by
  unfold step
  split
  · next c rest _ => exact exec_canonical (s := { s with pending := rest }) hk c
  · exact State.upd_canonical hk fun _ hk => hk

/-- Settles O4: every command keeps the canonical form, and so does the idle step. -/
theorem buffersStayCanonical : Obligations.BuffersStayCanonical := by
  unfold Obligations.BuffersStayCanonical
  intro s t ht hs
  rw [Hw.buffersOk_iff] at hs ⊢
  exact step_canonical hs t ht

end Sys2Proof.Machine
end
